-- ==== Sys2Proof/Word.lean ====
section
/-! DEFINITION. The word types of the EVT2560 (R6, R9): bytes, 32-bit register words, 64-bit memory words,
and the sparse table in which every large array of the machine is held. -/

namespace Sys2Proof

/-- The smallest addressable unit of every memory of the device. -/
abbrev Byte := BitVec 8

/-- A register word: all registers are 32 bits wide (R9). -/
abbrev Word := BitVec 32

/-- A Plate, Tray or Vault word of 8 bytes (R54, R76, R351). -/
abbrev DWord := BitVec 64

/-- A sparse table: keys strictly rising, no entry equal to what an absent key reads as. -/
abbrev Tab (α : Type) := List (Nat × α)

end Sys2Proof
end

