-- ==== Sys2Proof/Syntax.lean ====
section
/-! DEFINITION. The commands of the EVT2560: one constructor of Instr for each row of spec/opcode_table.json,
with the operands the row's rule names, and the types of those operands. -/

namespace Sys2Proof

/-- EC0–EC31 (R10). -/
abbrev Core := Fin 32
/-- VP0–VP31 (R10). -/
abbrev Pipe := Fin 32
/-- Tenants 0–255 (R10). -/
abbrev Tenant := Fin 256
/-- EP0–EP11 (R10). -/
abbrev Port := Fin 12
/-- Frame Engine lanes 0–11 (R16). -/
abbrev Lane := Fin 12
/-- A register number s0–s31 or x0–x31 (R137, R267). -/
abbrev Reg5 := Fin 32

/-- What an instruction's H field selects (R83, R111). -/
inductive Half where
  | whole | lower | upper
  deriving DecidableEq, Repr

/-- The two parties that reach BAR0 offsets (R9, R144); the Contact sheet holds one latch for each (R289). -/
inductive Reader where
  | host | supervisor
  deriving DecidableEq, Repr

/-- The fields of a stream instruction (R111, R112). `sh` says that the instruction stands in the shadow of a
taken branch: issued at c + 1 on the path that the verdict will squash (R155). -/
structure StreamArgs where
  h   : BitVec 2
  md  : BitVec 4
  ty  : BitVec 4
  cc  : BitVec 10
  top : BitVec 2
  d   : BitVec 10
  a   : BitVec 10
  b   : BitVec 10
  sh  : Bool
  deriving DecidableEq, Repr

/-- The fields of a short-vector instruction (R116), with the same shadow mark. -/
structure ShortArgs where
  ty : BitVec 4
  h  : BitVec 2
  m  : BitVec 3
  vd : BitVec 5
  va : BitVec 5
  vb : BitVec 5
  sh : Bool
  deriving DecidableEq, Repr

/-- What the Loupe does at a core (R225): hold or let go its issue, set or clear a breakpoint, or write a scalar register,
a mask, element e of a type in a v register, VCOUNT or the group size 2^g of one of its contexts, or a word of its Tray. -/
inductive LoupeCoreOp where
  | halt
  | go
  | setBreak (pc : Word)
  | clearBreak (pc : Word)
  | reg (k : Fin 8) (n : Reg5) (v : Word)
  | mask (k : Fin 8) (m : Fin 8) (v : BitVec 512)
  | vreg (k : Fin 8) (r : BitVec 5) (ty : BitVec 4) (e : Fin 2048) (v : DWord)
  | vcount (k : Fin 8) (v : Fin 0x100001)
  | group (k : Fin 8) (g : Fin 4)
  | tray (word : Fin 16384) (v : DWord)
  deriving DecidableEq, Repr

/-- A request of the Loupe: it preempts a Plate bank's port, writes a word of a sheet there (R370), or acts at a core
(R225). -/
inductive LoupeOp where
  | bank (b : Fin 1056)
  | plate (sheet : Fin 384) (word : Fin 32768) (v : DWord)
  | core (c : Core) (op : LoupeCoreOp)
  deriving DecidableEq, Repr

/-- One channel of an SV dataset: an INT32 value and its 32-bit quality (R242). -/
structure SvChannel where
  value   : BitVec 32
  quality : BitVec 32
  deriving DecidableEq, Repr

/-- One ASDU of a sampled-value frame (R242). -/
structure Asdu where
  smpCnt   : Nat
  smpSynch : BitVec 2
  svIdCrc  : Word
  confRev  : Word
  chans    : List SvChannel
  deriving DecidableEq, Repr

/-- The members of a GOOSE dataset that the device takes (R246). -/
inductive GooseMember where
  | bool (v : Bool)
  | bits (n : Nat) (v : Word)
  | int (v : DWord)
  | uint (v : Word)
  | f32 (v : Word)
  | f64 (v : DWord)
  | utc (v : DWord)
  | octets (n : Nat) (v : DWord)
  deriving DecidableEq, Repr

/-- What a GOOSE frame carries (R246, R247, R248), after BER or fixed-length decoding; `t` is the UtcTime of the event, which
the device encodes when it sends (R305). -/
structure GooseBody where
  refCrc  : Word
  dsCrc   : Word
  confRev : Word
  stNum   : Word
  sqNum   : Word
  sim     : Bool
  ndsCom  : Bool
  talMs   : Nat
  members : List GooseMember
  unsup   : Bool
  fixLen  : Bool
  goId    : List Byte
  t       : DWord := 0
  deriving DecidableEq, Repr

/-- The PTP messages the time unit uses (R309). -/
inductive PtpKind where
  | sync | followUp | announce | pdelayReq | pdelayResp | pdelayRespFollowUp | management
  deriving DecidableEq, Repr

/-- A PTP message (R309): origin time and correction in ns; the grandmaster's data set in an Announce, with its accuracy,
variance and steps removed; the sending port; and whether it carries the TLV of IEEE C37.238. -/
structure PtpMsg where
  kind     : PtpKind
  seq      : BitVec 16
  domain   : Byte
  twoStep  : Bool
  origin   : Nat
  corr     : Int
  p1       : Byte
  gmClass  : Byte
  p2       : Byte
  gmId     : DWord
  utcOff   : BitVec 16
  utcValid : Bool
  leap61   : Bool
  leap59   : Bool
  logAnn   : Nat
  gmAcc    : Byte
  gmVar    : BitVec 16
  steps    : BitVec 16
  src      : DWord
  srcPort  : BitVec 16
  tlv      : Bool
  deriving DecidableEq, Repr

/-- A frame's contents beyond its addresses. Standardised encodings (IEC 61850-9-2, 8-1, IEEE 1588) stand here
decoded; Burst SV and beacon frames, which the manual lays out itself, are decoded from `Frame.bytes`. -/
inductive FrameBody where
  | sv (appid : BitVec 16) (sim : Bool) (asdus : List Asdu) (otherMembers : Bool)
  | goose (appid : BitVec 16) (g : GooseBody)
  | ptp (m : PtpMsg)
  | supervision
  | pause
  | raw
  deriving DecidableEq, Repr

/-- What the 62351-6 tag of a received frame is (R251): its key identifier and MAC. -/
structure FrameTag where
  keyId : Word
  mac   : List Byte
  deriving DecidableEq, Repr

/-- A frame at a port (R233, R234, R238, R266). `bytes` is the frame from the destination address to the last
byte before the FCS, without the redundancy trailer and the 802.1Q tag; `len` is its length on the wire with FCS. -/
structure Frame where
  dmac  : BitVec 48
  smac  : BitVec 48
  tags  : List (BitVec 16)
  etype : BitVec 16
  len   : Nat
  fcsOk : Bool
  red   : Option (BitVec 16)
  ringForward : Bool
  body  : FrameBody
  tag   : Option FrameTag
  bytes : List Byte
  deriving DecidableEq, Repr

/-- A received IRIG-B frame (R308): by how many ns its on-time mark is late, UTC day and second of day, the year when the
code carries one, and the C37.118.1 control-function bits. -/
structure IrigFrame where
  err       : Int
  valid     : Bool
  year      : Option Nat
  day       : Nat
  secOfDay  : Nat
  offMin    : Int
  leapPend  : Bool
  leapDel   : Bool
  deriving DecidableEq, Repr

/-- A tamper source (R357): its number, its level, and for how many µs it has stood there. -/
structure TamperIn where
  src   : Fin 8
  level : Bool
  us    : Nat
  deriving DecidableEq, Repr

/-- How a read of host memory completes (R340). -/
inductive HostResp where
  | data (bytes : List Byte)
  | ur
  | ca
  | poisoned
  deriving DecidableEq, Repr

/-- A slot of the cyclic plan (R35): its offset, the spans it forms (first pipe, log2 width), the ranks it gives
and the tenants it activates (R19). -/
structure PlanSlot where
  offset : Nat
  spans  : List (Pipe × Nat)
  ranks  : List (Tenant × Nat)
  posts  : List Tenant
  deriving DecidableEq, Repr

/-- A primary or fallback plan: the lost clusters it is for, its number, its period in ns, its slots, the home
it gives each moved tenant (core·8 + context), the domains it pins and the test gaps it names. -/
structure Plan where
  lost    : BitVec 8
  number  : Nat
  period  : Nat
  slots   : List PlanSlot
  moves   : List (Tenant × Fin 256)
  pins    : BitVec 20
  gaps    : List Nat
  lend    : List Tenant
  deriving DecidableEq, Repr

/-- A plan image (R362): its number and its signed bytes, which PLAN_LOAD reads from host memory, and what its sections
hold: the plans, the tenants' decision-section windows and handler counts, and the source budgets of points and slots. -/
structure PlanImage where
  planId   : BitVec 16
  bytes    : List Byte
  plans    : List Plan
  dsec     : List (Tenant × Nat)
  handlers : List (Tenant × Nat)
  points   : List (Nat × Nat)
  slots    : List (Nat × Nat)
  deriving DecidableEq, Repr

/-- The units a self-test slice found failing, numbered within the slice (R399, R401). -/
structure BistFails where
  units : List Nat
  deriving DecidableEq, Repr

/-- The online slice kinds (R404). -/
inductive SliceKind where
  | pipe | neg | tray | plate
  deriving DecidableEq, Repr

/-- How an online slice ends (R403, R405). -/
inductive SliceRes where
  | pass | fail | spareFail | gapEnded
  deriving DecidableEq, Repr

/-- Why a domain's switch opened (R391, PM_DOM.FCAUSE). -/
inductive FCause where
  | slow | inrush | railDrop
  deriving DecidableEq, Repr

/-- The islands that hold a replica of station time (R27, R31). -/
inductive Island where
  | cluster (n : Fin 8) | quadrant (n : Fin 4) | fabric | portGroup (n : Fin 2) | safelight
  deriving DecidableEq, Repr

/-- A frame of the Ubeolyn link (R418): its header, the outcome of its CRC and tag, and its payload. -/
structure UbFrame where
  ty      : Byte
  enc     : Bool
  seq     : Word
  credits : List Byte
  vc      : Fin 4
  epoch   : BitVec 24
  good    : Bool
  payload : List Byte
  deriving DecidableEq, Repr

/-- The commands of the block, one constructor for each row of the opcode table, in the table's order. -/
inductive Instr where
  /-- ACTIVATION_POST (R40): An activation reaches the scheduler and is queued on its core, or recorded QFULL or QUAR, or discarded while dispatch is off or no plan is in effect. -/
  | activationPost
  /-- DISPATCH (R39): When a core becomes free, the scheduler picks the next ranked activation, switches the context in and gives it its span. -/
  | dispatch (c : Core)
  /-- PLAN_BOUNDARY (R34): A plan period starts and every deferred change, plan, capacity change and configuration takes effect. -/
  | planBoundary
  /-- SLOT_START (R35): A slot of the cyclic plan starts and sets span layouts and tenant ranks. -/
  | slotStart
  /-- SPAN_FORMATION (R85): A span forms, waiting if needed for a member pipe's running activation to complete, and sets SPANWAIT on a wait. -/
  | spanFormation (p : Pipe)
  /-- DEADLINE_MISS (R45): Monotonic time reaches deadline - E for an uncompleted activation; the miss is recorded EXPIRED or STALE and the tenant's policy acts. -/
  | deadlineMiss (t : Tenant)
  /-- FIXED_RELEASE (R47): At deadline - E the held decision outputs of a fixed-release tenant are released together in issue order. -/
  | fixedRelease (t : Tenant)
  /-- HELD_WRITE_RETRY (R218): A released point write that lost a collision is retried by the held-output buffer, and after 8 cycles is dropped with PTLOST. -/
  | heldWriteRetry
  /-- MIGRATION (R106): A tenant's context state and Tray slice are copied to the fallback context and the migration completes. -/
  | migration (t : Tenant)
  /-- SHM_OWNER (R65): A write to a sheet's owner starts a handover or is refused with a reason in SHM_LASTREF. -/
  | shmOwner (sheet : Fin 384) (v : Word)
  /-- HANDOVER_COMPLETE (R66): The new seed, owner and epoch are installed in all quadrants, STATE returns to STABLE and DONE is set. -/
  | handoverComplete (sheet : Fin 384)
  /-- SCRUB (R73): A bank's scrubber reads one row every 64 quadrant cycles, correcting or poisoning words. -/
  | scrub (bank : Fin 1056) (row : Fin 12288)
  /-- BAR2_ACCESS (R452): A host access to the Plate debug window is served unfogged in MAINTENANCE, or aborted or rejected. -/
  | bar2Access (wr : Bool) (addr size : Nat) (data : DWord)
  /-- VECTOR_START (R84): A queued vector instruction starts once every pipe it uses is free, making its start checks and forming chained pairs. -/
  | vectorStart (c : Core)
  /-- COUNT_EXPIRY (R92): A vector instruction's count expires, releasing its pipes and delivering any mid-vector fault. -/
  | countExpiry (c : Core) (half : Half)
  /-- VERDICT (R155): A branch verdict reaches the span at c + 3 and confirms or squashes the pre-rolled instructions. -/
  | verdict (c : Core)
  /-- VMOV (R120): Stream move D ← A. -/
  | vmov (c : Core) (x : StreamArgs)
  /-- VLDFF (R131): First-fault stream load that stops at the first faulting element and sets VCOUNT. -/
  | vldff (c : Core) (x : StreamArgs)
  /-- VLDS (R127): Structure load of 2 to 4 fields per record. -/
  | vlds (c : Core) (x : StreamArgs)
  /-- VSTS (R127): Structure store of 2 to 4 fields per record. -/
  | vsts (c : Core) (x : StreamArgs)
  /-- VCVT (R129): Stream type conversion. -/
  | vcvt (c : Core) (x : StreamArgs)
  /-- VADD (R120): Stream add A + B. -/
  | vadd (c : Core) (x : StreamArgs)
  /-- VSUB (R120): Stream subtract A - B. -/
  | vsub (c : Core) (x : StreamArgs)
  /-- VMUL (R120): Stream multiply A * B. -/
  | vmul (c : Core) (x : StreamArgs)
  /-- VFMA (R122): Stream fused multiply-add A * B + C. -/
  | vfma (c : Core) (x : StreamArgs)
  /-- VMIN (R122): Stream minimum. -/
  | vmin (c : Core) (x : StreamArgs)
  /-- VMAX (R122): Stream maximum. -/
  | vmax (c : Core) (x : StreamArgs)
  /-- VABS (R122): Stream absolute value. -/
  | vabs (c : Core) (x : StreamArgs)
  /-- VNEG (R122): Stream negation. -/
  | vneg (c : Core) (x : StreamArgs)
  /-- VAND (R120): Stream bitwise AND. -/
  | vand (c : Core) (x : StreamArgs)
  /-- VOR (R120): Stream bitwise OR. -/
  | vor (c : Core) (x : StreamArgs)
  /-- VXOR (R120): Stream bitwise XOR. -/
  | vxor (c : Core) (x : StreamArgs)
  /-- VSHL (R122): Stream left shift, wrapping or saturating. -/
  | vshl (c : Core) (x : StreamArgs)
  /-- VSHR (R122): Stream logical or arithmetic right shift. -/
  | vshr (c : Core) (x : StreamArgs)
  /-- VDIV (R120): Stream floating-point divide. -/
  | vdiv (c : Core) (x : StreamArgs)
  /-- VSQRT (R120): Stream floating-point square root. -/
  | vsqrt (c : Core) (x : StreamArgs)
  /-- VCMP (R128): Stream compare into an i8 stream or a mask. -/
  | vcmp (c : Core) (x : StreamArgs)
  /-- VMULW (R123): Widening stream multiply. -/
  | vmulw (c : Core) (x : StreamArgs)
  /-- VFMAW (R123): Widening f32 multiply with f64 addend. -/
  | vfmaw (c : Core) (x : StreamArgs)
  /-- VDOT (R124): Dot product into wider accumulator lanes. -/
  | vdot (c : Core) (x : StreamArgs)
  /-- VCMUL (R125): Complex stream multiply, optionally conjugating B. -/
  | vcmul (c : Core) (x : StreamArgs)
  /-- VREDADD (R126): Stream sum reduction in fixed order. -/
  | vredadd (c : Core) (x : StreamArgs)
  /-- VREDMIN (R126): Stream minimum reduction. -/
  | vredmin (c : Core) (x : StreamArgs)
  /-- VREDMAX (R126): Stream maximum reduction. -/
  | vredmax (c : Core) (x : StreamArgs)
  /-- VPREFIX (R126): Inclusive running sum from start value C. -/
  | vprefix (c : Core) (x : StreamArgs)
  /-- VDADD (R130): Packed-decimal stream add with digit checks. -/
  | vdadd (c : Core) (x : StreamArgs)
  /-- VDSUB (R130): Packed-decimal stream subtract with digit checks. -/
  | vdsub (c : Core) (x : StreamArgs)
  /-- VADD_SHORT (R132): Short-vector add on register groups. -/
  | vaddShort (c : Core) (x : ShortArgs)
  /-- VSUB_SHORT (R132): Short-vector subtract. -/
  | vsubShort (c : Core) (x : ShortArgs)
  /-- VMUL_SHORT (R132): Short-vector same-width multiply. -/
  | vmulShort (c : Core) (x : ShortArgs)
  /-- VFMA_SHORT (R132): Short-vector multiply-add into VD. -/
  | vfmaShort (c : Core) (x : ShortArgs)
  /-- VMIN_SHORT (R132): Short-vector minimum. -/
  | vminShort (c : Core) (x : ShortArgs)
  /-- VMAX_SHORT (R132): Short-vector maximum. -/
  | vmaxShort (c : Core) (x : ShortArgs)
  /-- VAND_SHORT (R132): Short-vector AND. -/
  | vandShort (c : Core) (x : ShortArgs)
  /-- VOR_SHORT (R132): Short-vector OR. -/
  | vorShort (c : Core) (x : ShortArgs)
  /-- VXOR_SHORT (R132): Short-vector XOR. -/
  | vxorShort (c : Core) (x : ShortArgs)
  /-- VSHLI (R132): Short-vector left shift by immediate. -/
  | vshli (c : Core) (x : ShortArgs)
  /-- VSHRAI (R132): Short-vector arithmetic right shift by immediate. -/
  | vshrai (c : Core) (x : ShortArgs)
  /-- VSHRLI (R132): Short-vector logical right shift by immediate. -/
  | vshrli (c : Core) (x : ShortArgs)
  /-- VCMPEQ (R128): Short-vector equality compare into a mask. -/
  | vcmpeq (c : Core) (x : ShortArgs)
  /-- VCMPLT (R128): Short-vector less-than compare into a mask. -/
  | vcmplt (c : Core) (x : ShortArgs)
  /-- VCMPLE (R128): Short-vector less-or-equal compare into a mask. -/
  | vcmple (c : Core) (x : ShortArgs)
  /-- VSEL (R132): Per-lane select under a mask. -/
  | vsel (c : Core) (x : ShortArgs)
  /-- VSPLAT (R132): Scalar broadcast into every element. -/
  | vsplat (c : Core) (x : ShortArgs)
  /-- VCVT_SHORT (R132): Short-vector conversion. -/
  | vcvtShort (c : Core) (x : ShortArgs)
  /-- VREDADD_SHORT (R132): Short-vector sum into element 0. -/
  | vredaddShort (c : Core) (x : ShortArgs)
  /-- VREDMIN_SHORT (R132): Short-vector minimum into element 0. -/
  | vredminShort (c : Core) (x : ShortArgs)
  /-- VREDMAX_SHORT (R132): Short-vector maximum into element 0. -/
  | vredmaxShort (c : Core) (x : ShortArgs)
  /-- VREDADD2 (R132): Sums of even and odd elements into elements 0 and 1. -/
  | vredadd2 (c : Core) (x : ShortArgs)
  /-- VCMUL_SHORT (R132): Short-vector complex multiply. -/
  | vcmulShort (c : Core) (x : ShortArgs)
  /-- VDADD_SHORT (R132): Short-vector packed-decimal add. -/
  | vdaddShort (c : Core) (x : ShortArgs)
  /-- VDSUB_SHORT (R132): Short-vector packed-decimal subtract. -/
  | vdsubShort (c : Core) (x : ShortArgs)
  /-- VMOVS (R132): Moves one element into a scalar register. -/
  | vmovs (c : Core) (x : ShortArgs)
  /-- MAND (R132): Mask AND. -/
  | mand (c : Core) (x : ShortArgs)
  /-- MOR (R132): Mask OR. -/
  | mor (c : Core) (x : ShortArgs)
  /-- MXOR (R132): Mask XOR. -/
  | mxor (c : Core) (x : ShortArgs)
  /-- MNOT (R132): Mask NOT. -/
  | mnot (c : Core) (x : ShortArgs)
  /-- MPOP (R132): Population count of a mask into a scalar register. -/
  | mpop (c : Core) (x : ShortArgs)
  /-- VSETN (R134): Sets VCOUNT and its ceiling from a scalar register, faulting RANGE above 0x10_0000. -/
  | vsetn (c : Core) (x : ShortArgs)
  /-- VGRP (R134): Sets the context's group size g. -/
  | vgrp (c : Core) (x : ShortArgs)
  /-- ADD (R148): Scalar add. -/
  | add (c : Core) (rd ra rb : Reg5) (sb : Bool)
  /-- SUB (R148): Scalar subtract. -/
  | sub (c : Core) (rd ra rb : Reg5) (sb : Bool)
  /-- ADC (R148): Scalar add with carry. -/
  | adc (c : Core) (rd ra rb : Reg5) (sb : Bool)
  /-- SBC (R148): Scalar subtract with carry. -/
  | sbc (c : Core) (rd ra rb : Reg5) (sb : Bool)
  /-- AND (R148): Scalar AND. -/
  | andR (c : Core) (rd ra rb : Reg5) (sb : Bool)
  /-- OR (R148): Scalar OR. -/
  | orR (c : Core) (rd ra rb : Reg5) (sb : Bool)
  /-- XOR (R148): Scalar XOR. -/
  | xorR (c : Core) (rd ra rb : Reg5) (sb : Bool)
  /-- ANDN (R148): Scalar AND NOT. -/
  | andn (c : Core) (rd ra rb : Reg5) (sb : Bool)
  /-- SHL (R148): Left shift by register. -/
  | shl (c : Core) (rd ra rb : Reg5) (sb : Bool)
  /-- SHRL (R148): Logical right shift by register. -/
  | shrl (c : Core) (rd ra rb : Reg5) (sb : Bool)
  /-- SHRA (R148): Arithmetic right shift by register. -/
  | shra (c : Core) (rd ra rb : Reg5) (sb : Bool)
  /-- ROR (R148): Rotate right by register. -/
  | ror (c : Core) (rd ra rb : Reg5) (sb : Bool)
  /-- SHLI (R148): Left shift by immediate. -/
  | shli (c : Core) (rd ra : Reg5) (sh : BitVec 5) (sb : Bool)
  /-- SHRLI (R148): Logical right shift by immediate. -/
  | shrli (c : Core) (rd ra : Reg5) (sh : BitVec 5) (sb : Bool)
  /-- SHRAI (R148): Arithmetic right shift by immediate. -/
  | shrai (c : Core) (rd ra : Reg5) (sh : BitVec 5) (sb : Bool)
  /-- RORI (R148): Rotate right by immediate. -/
  | rori (c : Core) (rd ra : Reg5) (sh : BitVec 5) (sb : Bool)
  /-- MUL (R165): Low 32 bits of a product. -/
  | mul (c : Core) (rd ra rb : Reg5) (sb : Bool)
  /-- MULH (R148): Signed high 32 bits of a product. -/
  | mulh (c : Core) (rd ra rb : Reg5) (sb : Bool)
  /-- MULHU (R148): Unsigned high 32 bits of a product. -/
  | mulhu (c : Core) (rd ra rb : Reg5) (sb : Bool)
  /-- MULL (R148): Signed 64-bit product into a pair. -/
  | mull (c : Core) (rd ra rb : Reg5) (sb : Bool)
  /-- MULLU (R148): Unsigned 64-bit product into a pair. -/
  | mullu (c : Core) (rd ra rb : Reg5) (sb : Bool)
  /-- DIV (R166): Signed quotient, an 18-cycle long operation. -/
  | div (c : Core) (rd ra rb : Reg5) (sb : Bool)
  /-- DIVU (R166): Unsigned quotient. -/
  | divu (c : Core) (rd ra rb : Reg5) (sb : Bool)
  /-- REM (R166): Signed remainder. -/
  | rem (c : Core) (rd ra rb : Reg5) (sb : Bool)
  /-- REMU (R166): Unsigned remainder. -/
  | remu (c : Core) (rd ra rb : Reg5) (sb : Bool)
  /-- CMP (R148): Flags from ra - rb. -/
  | cmp (c : Core) (rd ra rb : Reg5) (sb : Bool)
  /-- TST (R148): N and Z from ra AND rb. -/
  | tst (c : Core) (rd ra rb : Reg5) (sb : Bool)
  /-- MIN (R148): Signed minimum. -/
  | minS (c : Core) (rd ra rb : Reg5) (sb : Bool)
  /-- MAX (R148): Signed maximum. -/
  | maxS (c : Core) (rd ra rb : Reg5) (sb : Bool)
  /-- MINU (R148): Unsigned minimum. -/
  | minu (c : Core) (rd ra rb : Reg5) (sb : Bool)
  /-- MAXU (R148): Unsigned maximum. -/
  | maxu (c : Core) (rd ra rb : Reg5) (sb : Bool)
  /-- CLZ (R148): Count leading zeros. -/
  | clz (c : Core) (rd ra : Reg5) (sb : Bool)
  /-- CSEL (R148): Conditional select. -/
  | csel (c : Core) (cond : BitVec 4) (rd ra rb : Reg5) (sb : Bool)
  /-- SEXTB (R148): Sign-extend a byte. -/
  | sextb (c : Core) (rd ra : Reg5) (sb : Bool)
  /-- SEXTH (R148): Sign-extend a half. -/
  | sexth (c : Core) (rd ra : Reg5) (sb : Bool)
  /-- ADDI (R147): Add a sign-extended immediate. -/
  | addi (c : Core) (rd ra : Reg5) (imm : BitVec 16)
  /-- ADDIS (R147): Add immediate and write the flags. -/
  | addis (c : Core) (rd ra : Reg5) (imm : BitVec 16)
  /-- ANDI (R147): AND with a zero-extended immediate. -/
  | andi (c : Core) (rd ra : Reg5) (imm : BitVec 16)
  /-- ORI (R147): OR with a zero-extended immediate. -/
  | ori (c : Core) (rd ra : Reg5) (imm : BitVec 16)
  /-- XORI (R147): XOR with a zero-extended immediate. -/
  | xori (c : Core) (rd ra : Reg5) (imm : BitVec 16)
  /-- LUI (R147): Load an immediate into the upper half. -/
  | lui (c : Core) (rd : Reg5) (imm : BitVec 16)
  /-- CMPI (R147): Flags from ra - immediate. -/
  | cmpi (c : Core) (ra : Reg5) (imm : BitVec 16)
  /-- LDB (R142): Signed byte load from Tray, Plate or DRAM. -/
  | ldb (c : Core) (rd ra : Reg5) (imm : BitVec 16)
  /-- LDBU (R142): Unsigned byte load. -/
  | ldbu (c : Core) (rd ra : Reg5) (imm : BitVec 16)
  /-- LDH (R142): Signed half load. -/
  | ldh (c : Core) (rd ra : Reg5) (imm : BitVec 16)
  /-- LDHU (R142): Unsigned half load. -/
  | ldhu (c : Core) (rd ra : Reg5) (imm : BitVec 16)
  /-- LDW (R142): Word load. -/
  | ldw (c : Core) (rd ra : Reg5) (imm : BitVec 16)
  /-- LDD (R142): Pair load. -/
  | ldd (c : Core) (rd ra : Reg5) (imm : BitVec 16)
  /-- STB (R142): Byte store. -/
  | stb (c : Core) (rd ra : Reg5) (imm : BitVec 16)
  /-- STH (R142): Half store. -/
  | sth (c : Core) (rd ra : Reg5) (imm : BitVec 16)
  /-- STW (R142): Word store. -/
  | stw (c : Core) (rd ra : Reg5) (imm : BitVec 16)
  /-- STD (R142): Pair store. -/
  | std (c : Core) (rd ra : Reg5) (imm : BitVec 16)
  /-- B_COND (R155): Conditional branch with pre-roll of the next two vector instructions. -/
  | bCond (c : Core) (cond : BitVec 4) (off : BitVec 22)
  /-- JAL (R156): Jump and link into s31. -/
  | jal (c : Core) (off : BitVec 26)
  /-- JALR (R156): Jump to a register address and link. -/
  | jalr (c : Core) (rd ra : Reg5) (imm : BitVec 16)
  /-- LOOP (R152): Starts a hardware loop with a register count. -/
  | loopR (c : Core) (ra : Reg5) (off : BitVec 16)
  /-- LOOPI (R152): Starts a hardware loop with an immediate count. -/
  | loopi (c : Core) (count : BitVec 10) (off : BitVec 16)
  /-- IN (R143): Reads an I/O port with no behaviour of its own. -/
  | inp (c : Core) (rd ra : Reg5) (imm : BitVec 16)
  /-- OUT (R143): Writes an I/O port with no behaviour of its own, ignored on RO ports. -/
  | out (c : Core) (rd ra : Reg5) (imm : BitVec 16)
  /-- PRD (R293): IN that snapshots a point record into the read latch and returns word 0 after 14 cycles. -/
  | prd (c : Core) (rd ra : Reg5) (imm : BitVec 16)
  /-- PWR (R145): OUT that launches a point write from a Tray write block, or holds it as a decision output. -/
  | pwr (c : Core) (rd ra : Reg5) (imm : BitVec 16)
  /-- PWR_JUDGEMENT (R145): The collision judgement of a PWR returns and writes flag V. -/
  | pwrJudgement (c : Core)
  /-- PUB (R259): OUT requesting publication of a control block, held inside a decision section. -/
  | pub (c : Core) (rd ra : Reg5) (imm : BitVec 16)
  /-- VCOUNT (R143): OUT to VCOUNT sets VCOUNT and its ceiling, faulting RANGE above 0x10_0000. -/
  | vcount (c : Core) (rd ra : Reg5) (imm : BitVec 16)
  /-- TNOW_NS (R143): IN of station time nanoseconds latches the seconds ports. -/
  | tnowNs (c : Core) (rd ra : Reg5) (imm : BitVec 16)
  /-- XAFLAGS (R191): W1C write through the port clears sticky arithmetic flags of the interrupted context or supervisor. -/
  | xaflags (c : Core) (rd ra : Reg5) (imm : BitVec 16)
  /-- SIO_PAGE (R144): Sets the BAR0 page for the supervisor window. -/
  | sioPage (c : Core) (rd ra : Reg5) (imm : BitVec 16)
  /-- BAR0_WINDOW (R144): A supervisor IN or OUT on ports 0x8000-0xFFFF reaches a device register. -/
  | bar0Window (c : Core) (wr : Bool) (rd ra : Reg5) (imm : BitVec 16)
  /-- IC_CLAIM (R198): Claims the highest pending source above the running priority, or returns 1023 or 0. -/
  | icClaim (c : Core) (rd ra : Reg5) (imm : BitVec 16)
  /-- IC_EOI (R199): Pops the claim stack if the named source is on top, otherwise sets EOIERR. -/
  | icEoi (c : Core) (rd ra : Reg5) (imm : BitVec 16)
  /-- TRAP (R160): Enters supervisor mode with cause TRAP and a number. -/
  | trap (c : Core) (rd ra : Reg5) (imm : BitVec 16)
  /-- NOP (R149): No operation. -/
  | nop (c : Core)
  /-- SYNC (R176): Waits until every pending long operation of the context has retired. -/
  | sync (c : Core)
  /-- END (R158): Ends the activation once its vector and long operations are done; completion is stamped and judged. -/
  | endA (c : Core)
  /-- WAIT (R149): Idles the supervisor until a request line, wake or reset. -/
  | wait (c : Core)
  /-- RFE (R186): Returns from exception or trap through the bank of the current ML and applies XMODE.DISP. -/
  | rfe (c : Core)
  /-- RESUME (R100): Returns to the tenant and restarts the faulted vector instruction from VF_IDX. -/
  | resume (c : Core)
  /-- NEG_BEGIN (R209): Opens a decision section and saves the shadow entry state. -/
  | negBegin (c : Core)
  /-- CHECK (R211): Closes a pass: starts the Negative pass, or compares the passes and releases outputs on a match. -/
  | checkN (c : Core)
  /-- NEG_WINDOW_EXPIRY (R220): The Negative pass has not reached CHECK within WIN cycles, and the section mismatches with cause TIME. -/
  | negWindowExpiry (c : Core)
  /-- RESTART (R222): A fault inside a decision section restores the entry state and reruns the main pass, or ends the section with cause FAULT. -/
  | restart (c : Core)
  /-- LONG_OPERATION_RETIRE (R151): A long operation writes its result and clears its scoreboard bits. -/
  | longOperationRetire (c : Core)
  /-- EXCEPTION_ENTRY (R184): A fault enters supervisor mode at its escalated level, or quarantines or double-faults at the top. -/
  | exceptionEntry (c : Core)
  /-- INTERRUPT_ENTRY (R184): A high request line is taken at an issue boundary and enters the handler in 14 cycles. -/
  | interruptEntry (c : Core)
  /-- REQUEST_LINE (R196): A released source reaches the core's request line after its fixed time. -/
  | requestLine (c : Core) (src : Fin 1024)
  /-- MODERATION_RELEASE (R201): MTIME units after the first unreleased set, the controller releases the source's sets as one pending request. -/
  | moderationRelease (c : Core) (src : Fin 1024)
  /-- IC_SWI (R195): A W1S write sets software interrupt sources. -/
  | icSwi (c : Core) (v : Word)
  /-- IC_SRC (R195): A write to a source's configuration, withdrawing it when PRIO or EN becomes 0. -/
  | icSrc (c : Core) (src : Fin 1020) (v : Word)
  /-- MSIX_RELEASE (R203): A host vector's moderation time expires and its sets are released as one MSI-X message. -/
  | msixRelease (vec : Fin 256)
  /-- MSIX_UNMASK (R203): Unmasking a vector sends one message for releases made while it was masked. -/
  | msixUnmask (vec : Fin 256)
  /-- EZ_CTL (R139): Write of HALT and REMAP; HALT stops issue and REMAP acts at the next taken branch. -/
  | ezCtl (c : Core) (v : Word)
  /-- EZ_IDATA (R162): Writes instruction RAM at EZ_IADDR, or is refused with IWREF for a busy window. -/
  | ezIdata (c : Core) (v : Word)
  /-- EZ_XCFG_QREL (R181): Requests that quarantine be lifted at the next plan boundary. -/
  | ezXcfgQrel (c : Core) (k : Fin 8) (v : Word)
  /-- SCH_CAP_RETURN (R104): Requests the return of repaired clusters at the next boundary in MAINTENANCE. -/
  | schCapReturn (v : Word)
  /-- FRAME_RECEIVE (R233): A whole frame arrives at a port's MAC, is checked, deduplicated or forwarded, and pushed to the ingress queue. -/
  | frameReceive (p : Port) (f : Frame)
  /-- INGRESS_ROUTINE_START (R266): The ingress thread takes the head frame, strips tags and dispatches a routine. -/
  | ingressRoutineStart (l : Lane)
  /-- SV_FRAME (R244): A sampled-value frame is matched, written to its ring and status point, and posts an activation. -/
  | svFrame (l : Lane)
  /-- GOOSE_FRAME (R248): A GOOSE frame is matched and refreshes or writes its dataset's points. -/
  | gooseFrame (l : Lane)
  /-- BURST_SV_FRAME (R255): A Burst SV frame's blocks are checked and written to their rings and status points. -/
  | burstSvFrame (l : Lane)
  /-- PTP_EVENT_FRAME (R309): A PTP frame with its time stamp is handed to the time unit. -/
  | ptpEventFrame (l : Lane)
  /-- PROOF_BEACON (R361): A received proof beacon is compared with its expected-proof entry. -/
  | proofBeacon (l : Lane)
  /-- EGRESS_ROUTINE_START (R274): The egress thread starts building the next frame in queue order. -/
  | egressRoutineStart (l : Lane)
  /-- PUBLICATION_REQUEST (R250): After released point writes have landed, the lane builds the control block's frame as an event or a refresh. -/
  | publicationRequest
  /-- TRANSMIT_START (R256): A port starts the highest-class waiting frame, subject to decision-port holds. -/
  | transmitStart (p : Port)
  /-- TRANSMIT_END (R257): A frame finishes on the wire, freeing the port and ending holds. -/
  | transmitEnd (p : Port)
  /-- RETRANSMISSION (R250): A control block's retransmission interval expires and a frame with incremented sqNum is sent. -/
  | retransmission (cb : Fin 1024)
  /-- TAL_EXPIRY (R248): timeAllowedtoLive expires and every point of the dataset is set invalid with oldData. -/
  | talExpiry (sub : Fin 4096)
  /-- SUPERVISION_SEND (R240): The LIFE interval expires and the pair sends its supervision frames. -/
  | supervisionSend (pair : Fin 6)
  /-- DUPLICATE_FORGET (R239): A duplicate-table entry is forgotten FORGET ms after its first copy. -/
  | duplicateForget (pair : Fin 6) (mac : BitVec 48) (seq : BitVec 16)
  /-- LINK_UP (R231): After adaptation the port acquires lock and the link comes up. -/
  | linkUp (p : Port) (sgmiiSpeed : Nat)
  /-- LINK_DOWN (R231): Loss of lock or high BER takes the link down, counts a retrain and restarts adaptation. -/
  | linkDown (p : Port)
  /-- EPN_CTL (R232): A write of MODE and EN, ignored with CFGREF while EN is 1. -/
  | epnCtl (p : Port) (v : Word)
  /-- TRANSMIT_DESCRIPTOR (R337): A fetched host-frame transmit descriptor is sent in class 0 or refused. -/
  | transmitDescriptor (set : Fin 257) (data : List Byte)
  /-- KEY_CHANGEOVER (R349): At the changeover instant the next key of a slot pair becomes current. -/
  | keyChangeover (pair : Fin 2048)
  /-- FE_NOP (R270): Microcode no operation. -/
  | feNop (l : Lane) (e : Bool) (dst src : Reg5) (imm : BitVec 16)
  /-- MOVI (R270): Loads a zero-extended immediate. -/
  | movi (l : Lane) (e : Bool) (dst src : Reg5) (imm : BitVec 16)
  /-- MOVHI (R270): Loads the upper half of a register. -/
  | movhi (l : Lane) (e : Bool) (dst src : Reg5) (imm : BitVec 16)
  /-- FE_ADDI (R270): Microcode add immediate. -/
  | feAddi (l : Lane) (e : Bool) (dst src : Reg5) (imm : BitVec 16)
  /-- FE_ADD (R270): Microcode add. -/
  | feAdd (l : Lane) (e : Bool) (dst src : Reg5) (imm : BitVec 16)
  /-- FE_SUB (R270): Microcode subtract. -/
  | feSub (l : Lane) (e : Bool) (dst src : Reg5) (imm : BitVec 16)
  /-- FE_AND (R270): Microcode AND. -/
  | feAnd (l : Lane) (e : Bool) (dst src : Reg5) (imm : BitVec 16)
  /-- FE_OR (R270): Microcode OR. -/
  | feOr (l : Lane) (e : Bool) (dst src : Reg5) (imm : BitVec 16)
  /-- FE_XOR (R270): Microcode XOR. -/
  | feXor (l : Lane) (e : Bool) (dst src : Reg5) (imm : BitVec 16)
  /-- FE_ANDI (R270): Microcode AND immediate. -/
  | feAndi (l : Lane) (e : Bool) (dst src : Reg5) (imm : BitVec 16)
  /-- FE_SHLI (R270): Microcode left shift. -/
  | feShli (l : Lane) (e : Bool) (dst src : Reg5) (imm : BitVec 16)
  /-- SHRI (R270): Microcode logical right shift. -/
  | shri (l : Lane) (e : Bool) (dst src : Reg5) (imm : BitVec 16)
  /-- FE_CMPI (R270): Microcode compare with immediate. -/
  | feCmpi (l : Lane) (e : Bool) (dst src : Reg5) (imm : BitVec 16)
  /-- FE_CMP (R270): Microcode compare with register. -/
  | feCmp (l : Lane) (e : Bool) (dst src : Reg5) (imm : BitVec 16)
  /-- GET (R271): Reads 1-4 bytes at the cursor and advances it. -/
  | getF (l : Lane) (e : Bool) (dst src : Reg5) (imm : BitVec 16)
  /-- PEEK (R271): Reads bytes at an offset from the cursor. -/
  | peek (l : Lane) (e : Bool) (dst src : Reg5) (imm : BitVec 16)
  /-- SKIP (R270): Advances the cursor. -/
  | skipF (l : Lane) (e : Bool) (dst src : Reg5) (imm : BitVec 16)
  /-- SEEK (R270): Sets the cursor. -/
  | seekF (l : Lane) (e : Bool) (dst src : Reg5) (imm : BitVec 16)
  /-- BERLEN (R270): Decodes a BER definite length at the cursor. -/
  | berlen (l : Lane) (e : Bool) (dst src : Reg5) (imm : BitVec 16)
  /-- CRCS (R270): Starts a CRC-32 over frame bytes. -/
  | crcs (l : Lane) (e : Bool) (dst src : Reg5) (imm : BitVec 16)
  /-- CRCR (R270): Returns the CRC result, stalling until done. -/
  | crcr (l : Lane) (e : Bool) (dst src : Reg5) (imm : BitVec 16)
  /-- LOOK (R270): Looks up a subscription table and sets REC and TEN. -/
  | look (l : Lane) (e : Bool) (dst src : Reg5) (imm : BitVec 16)
  /-- RREC (R270): Reads a word of the found record. -/
  | rrec (l : Lane) (e : Bool) (dst src : Reg5) (imm : BitVec 16)
  /-- TAGCHK (R270): Stalls until the 62351-6 tag check has an outcome. -/
  | tagchk (l : Lane) (e : Bool) (dst src : Reg5) (imm : BitVec 16)
  /-- PLW (R271): Writes 32 bits to the tenant's Plate space. -/
  | plw (l : Lane) (e : Bool) (dst src : Reg5) (imm : BitVec 16)
  /-- PLH (R271): Writes 16 bits to the tenant's Plate space. -/
  | plh (l : Lane) (e : Bool) (dst src : Reg5) (imm : BitVec 16)
  /-- PTV (R270): Stages a point value. -/
  | ptv (l : Lane) (e : Bool) (dst src : Reg5) (imm : BitVec 16)
  /-- PTQ (R270): Stages a point quality. -/
  | ptq (l : Lane) (e : Bool) (dst src : Reg5) (imm : BitVec 16)
  /-- PTS (R270): Stages the trigger time stamp. -/
  | pts (l : Lane) (e : Bool) (dst src : Reg5) (imm : BitVec 16)
  /-- PTWR (R277): Writes the staged fields to a point after COMMIT. -/
  | ptwr (l : Lane) (e : Bool) (dst src : Reg5) (imm : BitVec 16)
  /-- PTWR_JUDGED (R271): A PTWR's collision judgement returns, setting PACK and PTCOL. -/
  | ptwrJudged (l : Lane)
  /-- PLATE_WRITE_ACK (R271): A PLW or PLH is acknowledged a fixed time after issue. -/
  | plateWriteAck (l : Lane)
  /-- TAG_OUTCOME (R251): The port's tag engine finishes checking the 62351-6 tag of the n-th frame in the queue, from 0. -/
  | tagOutcome (l : Lane) (n : Fin 64)
  /-- CRC_DONE (R270): A CRC started by CRCS completes. -/
  | crcDone (l : Lane)
  /-- LOOK_DONE (R270): A table lookup completes. -/
  | lookDone (l : Lane)
  /-- POST (R270): Posts the activation of the found record. -/
  | postF (l : Lane) (e : Bool) (dst src : Reg5) (imm : BitVec 16)
  /-- CNT (R270): Increments a lane counter and sets its flag. -/
  | cnt (l : Lane) (e : Bool) (dst src : Reg5) (imm : BitVec 16)
  /-- EBEG (R270): Starts an egress frame. -/
  | ebeg (l : Lane) (e : Bool) (dst src : Reg5) (imm : BitVec 16)
  /-- EPUT (R270): Appends bytes to an egress frame. -/
  | eput (l : Lane) (e : Bool) (dst src : Reg5) (imm : BitVec 16)
  /-- ESEND (R274): Appends tag and FCS and queues the frame, stalling for a free slot. -/
  | esend (l : Lane) (e : Bool) (dst src : Reg5) (imm : BitVec 16)
  /-- TSFWD (R270): Hands the frame and its time stamp to the time unit and ends the routine. -/
  | tsfwd (l : Lane) (e : Bool) (dst src : Reg5) (imm : BitVec 16)
  /-- DROP (R270): Discards the frame, sets and counts a flag and ends the routine. -/
  | dropF (l : Lane) (e : Bool) (dst src : Reg5) (imm : BitVec 16)
  /-- HOST (R270): Hands the frame to the host-frame path or drops it. -/
  | hostF (l : Lane) (e : Bool) (dst src : Reg5) (imm : BitVec 16)
  /-- FE_END (R270): Ends the routine. -/
  | feEnd (l : Lane) (e : Bool) (dst src : Reg5) (imm : BitVec 16)
  /-- COMMIT (R275): Marks the commit point of an ingress routine. -/
  | commit (l : Lane) (e : Bool) (dst src : Reg5) (imm : BitVec 16)
  /-- BR (R270): Microcode conditional branch. -/
  | br (l : Lane) (e : Bool) (cond : BitVec 5) (imm : BitVec 16)
  /-- FE_WAIT (R270): Waits until a condition holds. -/
  | feWait (l : Lane) (e : Bool) (cond : BitVec 5) (imm : BitVec 16)
  /-- CALL (R270): Pushes the return address and jumps. -/
  | callF (l : Lane) (e : Bool) (dst src : Reg5) (imm : BitVec 16)
  /-- RET (R270): Pops and jumps. -/
  | retF (l : Lane) (e : Bool) (dst src : Reg5) (imm : BitVec 16)
  /-- WDOG (R273): A routine reaches its effective bound and is abandoned. -/
  | wdog (l : Lane) (e : Bool)
  /-- FE_LOAD_GO (R279): Starts verification of the staged microcode image. -/
  | feLoadGo (v : Word)
  /-- VERIFICATION_END (R280): Image verification ends with the image accepted into the store or refused with a REASON. -/
  | verificationEnd
  /-- FE_CTL_RUN (R280): A write of RUN starts or stops the lanes, ignored while no vendor image is loaded. -/
  | feCtlRun (v : Word)
  /-- POINT_WRITE (R291): A write reaches a Contact sheet port, wins or loses a collision, and on landing is judged for change. -/
  | pointWrite (fe0 fe1 ez host tu : Bool)
  /-- TIME_UNIT_RETRY (R291): A time-unit point write that lost a collision is retried in the next sheet cycle. -/
  | timeUnitRetry
  /-- EVENT_DRAIN (R299): The host engine pops a staged event record into its ring, or drops it with LOST counted. -/
  | eventDrain
  /-- DIRECT_WINDOW_READ (R289): A read of word 0 snapshots the point record into the reader's latch. -/
  | directWindowRead (rdr : Reader) (pt : Fin 131072) (w : Fin 8)
  /-- DIRECT_WINDOW_WRITE (R289): A write to words 5-7 is held for the boundary; a write to words 0-4 is ignored with WREF. -/
  | directWindowWrite (pt : Fin 131072) (w : Fin 8) (v : Word)
  /-- PPS_EDGE (R311): A 1PPS input edge is stamped and judged for qualification. -/
  | ppsEdge (err : Int)
  /-- IRIG_B_FRAME (R311): A received IRIG-B frame is checked and judged for qualification. -/
  | irigBFrame (am : Bool) (g : IrigFrame)
  /-- REFERENCE_EXCURSION (R311): The 10 MHz reference leaves ±5 ppm and loses qualification. -/
  | referenceExcursion
  /-- ANNOUNCE_TIMEOUT (R311): announceReceiptTimeout expires and PTP loses qualification. -/
  | announceTimeout
  /-- FREERUN (R314): The holdover estimate exceeds ERRMAX and the unit enters free-run. -/
  | freerun
  /-- LEAP_SECOND (R305): The UTC offset changes at the leap instant and LEAP is set. -/
  | leapSecond
  /-- REPLICA_CORRECTION (R306): Every 1,024 ns each island's replica is corrected from the time unit. -/
  | replicaCorrection (isl : Island)
  /-- TU_SETSEC (R318): A written seconds value is applied at the next second boundary, or discarded if a step falls due. -/
  | tuSetsec (v : Word)
  /-- TIME_POINT_UPDATE (R315): Once per second the time unit writes its OFFSET point. -/
  | timePointUpdate
  /-- PPS_OUT (R318): The 1PPS output rises at each TAI second. -/
  | ppsOut
  /-- POLL (R327): Every PERIOD the host engine reads the summary, clears flags, reads doorbells and fetches descriptors. -/
  | poll
  /-- HOST_READ_COMPLETION (R327): A read of host memory returns data or an error, halting a set on error. -/
  | hostReadCompletion (r : HostResp)
  /-- HOST_READ_TIMEOUT (R340): A host read reaches HI_RDTMO and the set halts. -/
  | hostReadTimeout
  /-- COMPLETION_WRITE (R335): A completion is written once a free slot appears, followed by the status block and MSI-X message. -/
  | completionWrite (set : Fin 257)
  /-- CMD_NOP (R332): Command with no effect. -/
  | cmdNop (set : Fin 257)
  /-- PLATE_RD (R332): Copies from the target's Plate space to host memory. -/
  | plateRd (set : Fin 257)
  /-- PLATE_WR (R332): Copies from host memory into the target's Plate space. -/
  | plateWr (set : Fin 257)
  /-- TRAY_RD (R332): Copies from the target's Tray slice. -/
  | trayRd (set : Fin 257)
  /-- TRAY_WR (R332): Copies into the target's Tray slice. -/
  | trayWr (set : Fin 257)
  /-- DRAM_RD (R332): Reads the target's DRAM window through XTS. -/
  | dramRd (set : Fin 257)
  /-- DRAM_WR (R332): Writes the target's DRAM window through XTS. -/
  | dramWr (set : Fin 257)
  /-- POINT_WR (R332): Writes one point through the host write port. -/
  | pointWr (set : Fin 257)
  /-- POINT_CFG (R332): Sets a point's words 5-7 for the next boundary. -/
  | pointCfg (set : Fin 257)
  /-- ACT_CFG (R332): Marks an activation source as background. -/
  | actCfg (set : Fin 257)
  /-- SV_SUB (R243): Installs an SV subscription record at the next boundary. -/
  | svSub (set : Fin 257)
  /-- GOOSE_SUB (R247): Installs a GOOSE subscription record. -/
  | gooseSub (set : Fin 257)
  /-- GOOSE_PUB (R249): Installs a publication record with its template. -/
  | goosePub (set : Fin 257)
  /-- BSV_SUB (R255): Installs a Burst SV subscription record. -/
  | bsvSub (set : Fin 257)
  /-- REC_STAT (R334): Returns a record's status counters, optionally clearing them. -/
  | recStat (set : Fin 257)
  /-- IMEM_WR (R332): Writes instruction RAM, refused whole with BUSY for a busy window. -/
  | imemWr (set : Fin 257)
  /-- PLAN_LOAD (R362): Checks a signed plan image and installs it for its first aligned boundary. -/
  | planLoad (set : Fin 257) (img : PlanImage)
  /-- KEY_LOAD_KEY (R349): Loads one key of a slot pair from a key blob. -/
  | keyLoadKey (set : Fin 257)
  /-- KEY_LOAD_FUSE (R348): Fuses a customer key hash into the next free slot. -/
  | keyLoadFuse (set : Fin 257)
  /-- KEY_LOAD_REVOKE (R348): Revokes a customer key slot. -/
  | keyLoadRevoke (set : Fin 257)
  /-- HI_TN_CTL_RESTART (R340): Restarts a halted ring set from its doorbell indices. -/
  | hiTnCtlRestart (set : Fin 257)
  /-- FLR (R320): Function-level reset halts every ring set and resets the HI registers. -/
  | flr
  /-- PCIE_LINK_LOSS (R320): Loss of the PCIe link halts every ring set and sets LINKDN. -/
  | pcieLinkLoss
  /-- PERST_N (R437): Resets the PCIe link and host interface only. -/
  | perstN (level : Bool)
  /-- TN_CTL_ADV (R345): Requests an epoch advance of an owner at the next boundary. -/
  | tnCtlAdv (o : Fin 257) (v : Word)
  /-- EPOCH_ADVANCE (R345): Once the owner's work has drained, new seeds are installed and dispatch resumes. -/
  | epochAdvance (o : Fin 257)
  /-- KS_VDATA (R351): Moves a Vault word at KS_VADDR and advances the address. -/
  | ksVdata (wr : Bool) (v : Word)
  /-- LC_REQ_GO (R355): Submits a signed lifecycle request and replaces the challenge. -/
  | lcReqGo (v : Word)
  /-- REQUEST_VERDICT (R355): Within 2 ms the lifecycle request is accepted or refused and RESULT is recorded. -/
  | requestVerdict
  /-- WIPE (R352): A Vault wipe completes and the new GEN and state bit are written. -/
  | wipe
  /-- TAMPER (R357): A debounced tamper source starts a wipe and quarantines every tenant at once. -/
  | tamper (x : TamperIn)
  /-- PROOF_DIGEST_DONE (R358): The key service finishes the digests of a change and BUSY clears. -/
  | proofDigestDone
  /-- BEACON_SEND (R360): At every TAI second each enabled port sends a proof beacon. -/
  | beaconSend
  /-- SILENT (R361): No beacon is taken for MISS seconds and the entry becomes SILENT. -/
  | silent (e : Fin 64)
  /-- LOUPE_REQUEST (R370): A Loupe emergency request preempts a Plate bank port and sets LOUPE. -/
  | loupeRequest (op : LoupeOp)
  /-- REFRESH (R370): A DRAM refresh falls due at tREFI and preempts the arbiter. -/
  | refresh
  /-- PATROL_SCRUB (R378): Patrol scrub reads the next DRAM unit at the lowest rank. -/
  | patrolScrub
  /-- DDR_CTL_INIT (R379): Starts DRAM initialisation and training. -/
  | ddrCtlInit (v : Word)
  /-- TRAINING_END (R379): DRAM training ends with STATE READY or FAILED. -/
  | trainingEnd (ok : Bool)
  /-- PM_REQ_GO (R384): Requests Sleep, Deep sleep or Off, or is refused with REQREF. -/
  | pmReqGo (v : Word)
  /-- SLEEP_ENTRY (R384): In the sleep-request cycle the pending request is taken and entry begins. -/
  | sleepEntry
  /-- ENTRY_COMPLETE (R384): Entry to Sleep, Deep sleep or Off completes, pulling PWREN low for Off. -/
  | entryComplete
  /-- WAKE (R385): An enabled wake source wakes the device or aborts an entry. -/
  | wake (src : Fin 4)
  /-- IDLE_ENTRY (R383): After TIMER idle fabric cycles the device enters Idle and stops the cluster clocks. -/
  | idleEntry
  /-- DOMAIN_GATE (R389): A domain's idle TIMER expires and it gates itself. -/
  | domainGate (d : Fin 20)
  /-- DEMAND_WAKE (R389): An access to a gated domain starts its wake and stalls until ON. -/
  | demandWake (d : Fin 20) (dl : Bool)
  /-- RAMP_STEP (R391): Every 2 µs one of the 8 header-switch steps closes. -/
  | rampStep (d : Fin 20)
  /-- DOMAIN_ON (R388): A domain's wake completes and the domain is ON. -/
  | domainOn (d : Fin 20)
  /-- SWITCH_OPEN (R391): Slow ramp, inrush or rail drop opens a domain's switch and the domain becomes FAULTED. -/
  | switchOpen (d : Fin 20) (why : FCause)
  /-- PM_DOM_CLRFLT (R392): Clears a domain's FAULTED state in MAINTENANCE. -/
  | pmDomClrflt (d : Fin 20) (v : Word)
  /-- VBAT_TAKEOVER (R393): The Safelight supply falls and the VBAT island takes over the Vault, RTC and mesh. -/
  | vbatTakeover (mv : Nat)
  /-- CONSTANT_VOLTAGE (R394): VBAT reaches VCV and the charger holds constant voltage. -/
  | constantVoltage
  /-- CHARGE_DONE (R394): Current falls below ITERM and the charger stops with DONE. -/
  | chargeDone
  /-- RECHARGE (R394): VBAT falls 100 mV below VCV and charging restarts. -/
  | recharge (mv : Nat)
  /-- VBAT_SAMPLE (R394): Once per second a stopped charger samples VBAT and sets LOW below 2.0 V. -/
  | vbatSample (mv : Nat)
  /-- CELL_REMOVED (R395): The charger judges the cell removed, stops and sets ABSENT. -/
  | cellRemoved (mv : Nat)
  /-- PROBE (R395): Once per second the ball is probed with 100 µA and a detected cell resumes charging. -/
  | probe (riseMv : Nat)
  /-- POWER_ON_RESET (R437): Internal reset is released 1 ms after every rail is good, straps are sampled and start-up BIST begins. -/
  | powerOnReset (straps : BitVec 3) (vbatOk : Bool)
  /-- RESET_N (R437): RESET_N resets the device as a power-up, keeping Safelight, PM, BT, budgets and Vault, and ends stop bath. -/
  | resetN (straps : BitVec 3)
  /-- BIST_SLICE_END (R399): A start-up BIST slice ends, marking failed units; after the last the cores leave reset. -/
  | bistSliceEnd (fails : BistFails)
  /-- SLICE_OVERRUN (R400): A start-up slice runs past its budget and is aborted. -/
  | sliceOverrun (fails : BistFails)
  /-- ONLINE_SLICE (R404): An online BIST slice starts in a plan gap. -/
  | onlineSlice (kind : SliceKind) (unit : Fin 1056)
  /-- ONLINE_SLICE_END (R405): An online slice ends, or is aborted at the end of its gap. -/
  | onlineSliceEnd (unit : Fin 1056) (res : SliceRes)
  /-- BI_DIRECT_SCAN_DUMP (R406): Direct scan dump of a cluster. -/
  | biDirectScanDump (v : Word) (pass : Bool)
  /-- BI_DIRECT_MARCH (R406): Direct destructive march of a bank group. -/
  | biDirectMarch (v : Word) (pass : Bool)
  /-- BI_DIRECT_LBIST (R406): Direct logic BIST of a cluster. -/
  | biDirectLbist (v : Word) (pass : Bool)
  /-- BI_DIRECT_LOOPBACK (R406): Direct far-end PMA loop-back of a port. -/
  | biDirectLoopback (v : Word) (pass : Bool)
  /-- WATCHDOG_EXPIRY (R409): The Safelight watchdog expires and triggers stop bath. -/
  | watchdogExpiry
  /-- SL_WDKICK_KICK (R409): Restarts the watchdog, or triggers stop bath if earlier than MIN. -/
  | slWdkickKick (v : Word)
  /-- STOP_N (R409): STOP_N held low for 1 µs triggers stop bath. -/
  | stopN
  /-- SL_STOP_GO (R409): A write triggers stop bath. -/
  | slStopGo (v : Word)
  /-- STOP_BATH (R410): A trigger reaches Safelight, which freezes the device, drives ALARM_N and starts safe-state frames and log seal. -/
  | stopBath
  /-- SAFE_STATE_BUILD (R411): A safe-state slot's frame finishes building and is queued in class 3. -/
  | safeStateBuild (slot : Fin 8)
  /-- SAFE_STATE_RETRANSMISSION (R411): A safe-state slot's ladder interval expires and a retransmission is built. -/
  | safeStateRetransmission (slot : Fin 8)
  /-- SEAL (R412): Sealing of the stop-bath log completes. -/
  | seal
  /-- SL_CTL_LOGREARM (R412): Clears the seal and restarts logging. -/
  | slCtlLogrearm (v : Word)
  /-- SL_IMGDATA (R415): Writes a safe-state image word and advances SL_IMGADDR. -/
  | slImgdata (v : Word)
  /-- SPI_TRANSFER (R413): A management SPI read command returns SL registers or log bytes. -/
  | spiTransfer (cmd : Byte) (addr : BitVec 24) (n : Nat)
  /-- UB_LINK_UP (R416): Ubeolyn training completes and the link comes up with a new SESSION. -/
  | ubLinkUp (width : Fin 4)
  /-- UB_LINK_DOWN (R420): The Ubeolyn link goes down, and unreturned lent activations are recorded CAP. -/
  | ubLinkDown
  /-- HEARTBEAT_SEND (R421): Every PERIOD the device sends a HEARTBEAT. -/
  | heartbeatSend
  /-- HEARTBEAT (R421): A received heartbeat is taken and its proof word judged. -/
  | heartbeat (u : UbFrame)
  /-- HEARTBEAT_MISS (R424): The standby misses MISS heartbeat periods and sends TAKE. -/
  | heartbeatMiss
  /-- TAKEOVER (R424): No HOLD within TAKEWAIT and the standby becomes active, publishing event frames. -/
  | takeover
  /-- MIRROR (R422): A received MIRROR frame's entries are written through the host write port. -/
  | mirror (u : UbFrame)
  /-- CKPT (R423): A received checkpoint frame is held for its slice. -/
  | ckpt (u : UbFrame)
  /-- CHECKPOINT_REFOG (R423): Once the context is idle, a waiting checkpoint frame is refogged into its slice. -/
  | checkpointRefog (t : Tenant)
  /-- PUBST (R422): A received PUBST frame updates mirrored stNum values. -/
  | pubst (u : UbFrame)
  /-- TAKE (R424): A received TAKE is answered with HOLD by the active device. -/
  | takeU (u : UbFrame)
  /-- HOLD (R424): A received HOLD keeps the standby in standby. -/
  | holdU (u : UbFrame)
  /-- NAK (R420): A received NAK starts a replay from the named SEQ or takes the link down. -/
  | nak (u : UbFrame)
  /-- IDLE (R420): A received IDLE frame returns credits. -/
  | idleU (u : UbFrame)
  /-- CREDIT_RETURN (R420): While credits are owed an IDLE frame goes out at least every 1 µs. -/
  | creditReturn
  /-- LEND (R427): A received LEND frame runs the activation on a lent cluster. -/
  | lend (u : UbFrame)
  /-- LENDOUT (R427): A received LENDOUT frame's decision outputs are released and completion judged. -/
  | lendout (u : UbFrame)
  /-- NARROW_ACCESS (R9): A narrow or misaligned register access completes with an error and no effect. -/
  | narrowAccess (rdr : Reader) (off : BitVec 26) (size : Nat)
  /-- UNDECODED_ACCESS (R451): An access outside every block range completes with an error and sets DECERR. -/
  | undecodedAccess (rdr : Reader) (off : BitVec 26) (size : Nat)
  /-- REGISTER_WRITE (R7): A write to a register with no row of its own, under its access code, W1C set-wins and lock rules. -/
  | registerWrite (rdr : Reader) (off : BitVec 26) (v : Word)
  /-- RC_READ (R7): A host read of an RC field returns its value and clears it, with a set in the same cycle leaving the counter at 1; a read of TU_NOW_NS latches the seconds fields. -/
  | rcRead (rdr : Reader) (off : BitVec 26)
  /-- PPS_EDGE_MISSING (R311): The expected 1PPS instant passes by more than 1 µs with no edge, and source 1 loses qualification. -/
  | ppsEdgeMissing
  /-- REFERENCE_QUALIFIED (R311): The 10 MHz reference has stayed within ±5 ppm of the TCXO for 1 s and becomes qualified, taking over frequency. -/
  | referenceQualified
  /-- PTP_TRANSMIT (R309): The time unit's port state machines send their periodic PTP messages, as two-step master and as peer-delay requester, in class 1. -/
  | ptpTransmit (p : Port) (m : PtpMsg)
  /-- PCIE_LINK_UP (R439): PCIe link training completes, the link reaches L0 and HI_LINK shows UP, WIDTH and GEN. -/
  | pcieLinkUp (width gen : Nat)
  /-- TEMPHI (R375): The DRAM case temperature passes 85 °C, setting DDR_STAT.TEMPHI and halving the refresh interval, or falls back below it. -/
  | temphi (hot : Bool)
  /-- GL_TEMP_UPDATE (R447): Every 1 ms GL_TEMP is updated with the hottest reading of the sensors that BIST has not excluded. -/
  | glTempUpdate (temps : List Int)
  /-- MIRROR_RETRY (R422): A mirrored point write that lost a collision is retried through the host write port in the next sheet cycle until it lands. -/
  | mirrorRetry
  /-- CUT_THROUGH (R241): The first bit of a frame arriving on an HSR ring port is forwarded cut-through to the other ring port a fixed time later, with a Sync's correctionField increased. -/
  | cutThrough (p : Port) (f : Frame)
  /-- NARROW_WRITE_RETIRE (R377): A posted DRAM write narrower than 64 bytes finishes its read-modify-write, releasing a later stalled store of the same context. -/
  | narrowWriteRetire (c : Core)
  deriving DecidableEq, Repr

end Sys2Proof
end

