-- ==== Sys2Proof/Machine/Tab.lean ====
section
/-! DEFINITION. Sparse tables and memories: reading, writing, and the canonical form that every write keeps. -/

namespace Sys2Proof.Machine
open Sys2Proof

/-- The value at key `k`; an absent key reads as `d`. -/
def tget {α : Type} (d : α) : Tab α → Nat → α
  | [], _ => d
  | (k', v) :: t, k => if k' = k then v else tget d t k

/-- The entry at key `k`, where there is one. -/
def tfind {α : Type} : Tab α → Nat → Option α
  | [], _ => none
  | (k', v) :: t, k => if k' = k then some v else tfind t k

/-- Remove the entry at key `k`. -/
def tdel {α : Type} : Tab α → Nat → Tab α
  | [], _ => []
  | (k', v) :: t, k => if k' = k then t else (k', v) :: tdel t k

/-- Put `v` at key `k`, keeping keys strictly rising. -/
def tput {α : Type} : Tab α → Nat → α → Tab α
  | [], k, v => [(k, v)]
  | (k', v') :: t, k, v =>
    if k < k' then (k, v) :: (k', v') :: t
    else if k = k' then (k, v) :: t
    else (k', v') :: tput t k v

/-- Write `v` at key `k` of a table whose absent keys read as `d`: writing `d` removes the entry. -/
def tset {α : Type} [DecidableEq α] (d : α) (t : Tab α) (k : Nat) (v : α) : Tab α :=
  if v = d then tdel t k else tput t k v

/-- Apply `f` to the value at key `k`. -/
def tmod {α : Type} [DecidableEq α] (d : α) (t : Tab α) (k : Nat) (f : α → α) : Tab α :=
  tset d t k (f (tget d t k))

/-- Remove every entry whose key lies in [lo, lo + n). -/
def tclear {α : Type} (t : Tab α) (lo n : Nat) : Tab α :=
  t.filter fun e => e.1 < lo || lo + n ≤ e.1

/-- Keys strictly rising. -/
def trising {α : Type} : Tab α → Bool
  | [] => true
  | [_] => true
  | (k, _) :: (k', v) :: t => k < k' && trising ((k', v) :: t)

/-- Canonical form of a memory: addresses strictly rising, and no entry equal to what an unlisted byte holds. -/
def memWf (m : Tab Byte) : Bool := trising m && m.all fun e => e.2 != 0

/-- What an unlisted byte of a memory holds (log entry 3). -/
def mget (m : Tab Byte) (a : Nat) : Byte := tget 0 m a

/-- Write one byte. -/
def mset (m : Tab Byte) (a : Nat) (b : Byte) : Tab Byte := tset 0 m a b

/-- `n` bytes from address `a` on. -/
def mread (m : Tab Byte) (a : Nat) : Nat → List Byte
  | 0 => []
  | n + 1 => mget m a :: mread m (a + 1) n

/-- Write bytes from address `a` on. -/
def mwrite (m : Tab Byte) (a : Nat) : List Byte → Tab Byte
  | [] => m
  | b :: bs => mwrite (mset m a b) (a + 1) bs

/-- The value of bytes, least significant first (R6). -/
def leVal : List Byte → Nat
  | [] => 0
  | b :: bs => b.toNat + 256 * leVal bs

/-- `n` bytes of a value, least significant first (R6). -/
def leBytes : Nat → Nat → List Byte
  | 0, _ => []
  | n + 1, v => BitVec.ofNat 8 v :: leBytes n (v / 256)

/-- The value of bytes, most significant first: network byte order (R6). -/
def beVal (bs : List Byte) : Nat := bs.foldl (fun a b => a * 256 + b.toNat) 0

/-- `n` bytes of a value, most significant first. -/
def beBytes (n v : Nat) : List Byte := (leBytes n v).reverse

/-- Take the first element that satisfies `p` out of a list. -/
def takeOut {α : Type} (p : α → Bool) : List α → Option (α × List α)
  | [] => none
  | x :: xs => if p x then some (x, xs) else (takeOut p xs).map fun (y, ys) => (y, x :: ys)

/-- Replace the first element that satisfies `p`. -/
def replaceFirst {α : Type} (p : α → Bool) (f : α → α) : List α → List α
  | [] => []
  | x :: xs => if p x then f x :: xs else x :: replaceFirst p f xs

/-- The `n`-bit field of `v` from bit `lo` up. -/
def bits (v lo n : Nat) : Nat := v / 2 ^ lo % 2 ^ n

/-- Bit `i` of `v`. -/
def bit (v i : Nat) : Bool := v.testBit i

/-- A Bool as a number. -/
def b2n (b : Bool) : Nat := if b then 1 else 0

/-- Least whole number of `d`s that covers `n`. -/
def cdiv (n d : Nat) : Nat := (n + d - 1) / d

/-- The signed value of the low `n` bits of `v`. -/
def sval (n v : Nat) : Int :=
  let u := v % 2 ^ n
  if u < 2 ^ (n - 1) then (u : Int) else (u : Int) - (2 : Int) ^ n

/-- The `n`-bit two's complement encoding of `x`. -/
def uenc (n : Nat) (x : Int) : Nat := (x % (2 : Int) ^ n).toNat

/-- log2 of a power of two, by fuel. -/
def log2 (n : Nat) : Nat := Nat.log2 n

end Sys2Proof.Machine
end

