-- ==== Sys2Proof/Machine/Float.lean ====
section
/-! DEFINITION. IEEE 754 binary16, binary32 and binary64 arithmetic, exact and then rounded once, with the NaN rules
of R168 and tininess after rounding (R167). -/

namespace Sys2Proof.Machine
open Sys2Proof

/-- A binary format: exponent bits and fraction bits. -/
structure Fmt where
  eb : Nat
  mb : Nat
  deriving DecidableEq, Repr

def f16 : Fmt := ⟨5, 10⟩
def f32 : Fmt := ⟨8, 23⟩
def f64 : Fmt := ⟨11, 52⟩

/-- Rounding modes, coded as RM (R121): nearest even, toward zero, toward +∞, toward −∞. -/
inductive Rm where
  | near | zero | up | down
  deriving DecidableEq, Repr

/-- Arithmetic exceptions in the bit order of EZ_XCFG (R190): IV, DZ, OF, UF, IX, DV, as a list without order. -/
abbrev FFlags := List Nat
def flIV : Nat := 0
def flDZ : Nat := 1
def flOF : Nat := 2
def flUF : Nat := 3
def flIX : Nat := 4
def flDV : Nat := 5

/-- A number as its parts: NaN with sign and fraction, infinity, or ±m·2^e exactly. -/
inductive FV where
  | nan (s : Bool) (frac : Nat)
  | inf (s : Bool)
  | fin (s : Bool) (m : Nat) (e : Int)
  deriving DecidableEq, Repr

def Fmt.width (f : Fmt) : Nat := 1 + f.eb + f.mb
def Fmt.bias (f : Fmt) : Int := 2 ^ (f.eb - 1) - 1
/-- Exponent of the least significant bit of a subnormal. -/
def Fmt.emin (f : Fmt) : Int := 1 - f.bias - f.mb
/-- Exponent of the least significant bit of the largest finite number. -/
def Fmt.emax (f : Fmt) : Int := f.bias - f.mb

def Fmt.qbit (f : Fmt) : Nat := 2 ^ (f.mb - 1)
def Fmt.sbit (f : Fmt) (s : Bool) : Nat := b2n s * 2 ^ (f.eb + f.mb)
def Fmt.infBits (f : Fmt) (s : Bool) : Nat := f.sbit s + (2 ^ f.eb - 1) * 2 ^ f.mb
def Fmt.nanBits (f : Fmt) (s : Bool) (frac : Nat) : Nat := f.infBits s + frac % 2 ^ f.mb
/-- The default NaN (R168). -/
def Fmt.defNan (f : Fmt) : Nat := f.nanBits false f.qbit
def Fmt.maxFin (f : Fmt) (s : Bool) : Nat := f.infBits s - 1

/-- The parts of an encoding. -/
def Fmt.unpack (f : Fmt) (b : Nat) : FV :=
  let s := bit b (f.eb + f.mb)
  let e := bits b f.mb f.eb
  let m := bits b 0 f.mb
  if e = 2 ^ f.eb - 1 then (if m = 0 then .inf s else .nan s m)
  else if e = 0 then .fin s m f.emin
  else .fin s (m + 2 ^ f.mb) (f.emin + e - 1)

def Fmt.isNan (f : Fmt) (b : Nat) : Bool := match f.unpack b with | .nan _ _ => true | _ => false
/-- A signalling NaN: its most significant fraction bit is 0. -/
def Fmt.isSnan (f : Fmt) (b : Nat) : Bool :=
  match f.unpack b with | .nan _ m => m < f.qbit | _ => false
/-- Quiet a NaN (R168). -/
def Fmt.quiet (f : Fmt) (b : Nat) : Nat := if f.isSnan b then b + f.qbit else b

/-- Whether the magnitude is rounded up, from the kept bits' parity, the halfway comparison and inexactness. -/
def roundUp (rm : Rm) (s odd : Bool) (half : Ordering) (inexact : Bool) : Bool :=
  match rm with
  | .near => half == .gt || (half == .eq && odd)
  | .zero => false
  | .up => inexact && !s
  | .down => inexact && s

/-- Round num/den · 2^e to an integer multiple of 2^q: the multiple and whether it is inexact. -/
def roundAt (rm : Rm) (s : Bool) (num den : Nat) (e q : Int) : Nat × Bool :=
  let (n, d) := if q ≤ e then (num * 2 ^ (e - q).toNat, den) else (num, den * 2 ^ (q - e).toNat)
  let k := n / d
  let r := n % d
  let up := roundUp rm s (k % 2 == 1) (compare (2 * r) d) (r != 0)
  (k + b2n up, r != 0)

/-- Exponent of the leading bit of num/den · 2^e, for num and den not 0. -/
def leadExp (num den : Nat) (e : Int) : Int :=
  let g : Int := (Nat.log2 num : Int) - Nat.log2 den
  let ge : Bool := if 0 ≤ g then den * 2 ^ g.toNat ≤ num else den ≤ num * 2 ^ (-g).toNat
  (if ge then g else g - 1) + e

/-- Round ±(num/den)·2^e into a format, with OF, UF and IX (R167: tininess after rounding). -/
def Fmt.round (f : Fmt) (rm : Rm) (s : Bool) (num den : Nat) (e : Int) : Nat × FFlags :=
  if num = 0 then (f.sbit s, [])
  else
    let l := leadExp num den e
    let qn := l - f.mb
    let (_, _) := (l, qn)
    -- unbounded exponent, for tininess
    let (ku, _) := roundAt rm s num den e qn
    let tiny : Bool := qn < f.emin && !(ku = 2 ^ (f.mb + 1) && qn + 1 = f.emin)
    let q := max qn f.emin
    let (k, ix) := roundAt rm s num den e q
    let (k, q) := if k = 2 ^ (f.mb + 1) then (2 ^ f.mb, q + 1) else (k, q)
    if f.emax < q then
      let toInf : Bool := match rm with | .near => true | .zero => false | .up => !s | .down => s
      (if toInf then f.infBits s else f.maxFin s, [flOF, flIX])
    else
      let bitsv := if k < 2 ^ f.mb then k else (q - f.emin + 1).toNat * 2 ^ f.mb + (k - 2 ^ f.mb)
      (f.sbit s + bitsv, (if tiny && ix then [flUF] else []) ++ (if ix then [flIX] else []))

/-- The NaN result of an operation (R168): the first NaN operand in order, quieted, or the default NaN; IV where an
operand signals or the operation is invalid. -/
def Fmt.nanOf (f : Fmt) (ops : List Nat) (invalid : Bool) : Nat × FFlags :=
  let r := match ops.find? f.isNan with | some b => f.quiet b | none => f.defNan
  (r, if invalid || ops.any f.isSnan then [flIV] else [])

/-- Exact sum of two finite numbers as a signed multiple of 2^e. -/
def exactSum (s1 : Bool) (m1 : Nat) (e1 : Int) (s2 : Bool) (m2 : Nat) (e2 : Int) : Int × Int :=
  let e := min e1 e2
  let v1 : Int := m1 * 2 ^ (e1 - e).toNat
  let v2 : Int := m2 * 2 ^ (e2 - e).toNat
  ((if s1 then -v1 else v1) + (if s2 then -v2 else v2), e)

/-- Round a sum of two terms; an exact zero is −0 only when both terms are negative or the mode is down. -/
def Fmt.roundSum (f : Fmt) (rm : Rm) (s1 : Bool) (m1 : Nat) (e1 : Int) (s2 : Bool) (m2 : Nat) (e2 : Int) :
    Nat × FFlags :=
  let (v, e) := exactSum s1 m1 e1 s2 m2 e2
  if v = 0 then (f.sbit (if s1 == s2 then s1 else rm == .down), [])
  else f.round rm (v < 0) v.natAbs 1 e

def Fmt.add (f : Fmt) (rm : Rm) (a b : Nat) : Nat × FFlags :=
  match f.unpack a, f.unpack b with
  | .nan _ _, _ => f.nanOf [a, b] false
  | _, .nan _ _ => f.nanOf [a, b] false
  | .inf s, .inf t => if s = t then (f.infBits s, []) else f.nanOf [] true
  | .inf s, _ => (f.infBits s, [])
  | _, .inf t => (f.infBits t, [])
  | .fin s m e, .fin t n g => f.roundSum rm s m e t n g

/-- Flip the sign bit. -/
def Fmt.neg (f : Fmt) (a : Nat) : Nat := Nat.xor a (f.sbit true)
def Fmt.abs (f : Fmt) (a : Nat) : Nat := a % 2 ^ (f.eb + f.mb)

/-- A − B: as A + (−B), but a NaN B keeps its sign (R168). -/
def Fmt.sub (f : Fmt) (rm : Rm) (a b : Nat) : Nat × FFlags :=
  if f.isNan a || f.isNan b then f.nanOf [a, b] false else f.add rm a (f.neg b)

def Fmt.mul (f : Fmt) (rm : Rm) (a b : Nat) : Nat × FFlags :=
  match f.unpack a, f.unpack b with
  | .nan _ _, _ => f.nanOf [a, b] false
  | _, .nan _ _ => f.nanOf [a, b] false
  | .inf s, .inf t => (f.infBits (s != t), [])
  | .inf s, .fin t m _ => if m = 0 then f.nanOf [] true else (f.infBits (s != t), [])
  | .fin s m _, .inf t => if m = 0 then f.nanOf [] true else (f.infBits (s != t), [])
  | .fin s m e, .fin t n g => f.round rm (s != t) (m * n) 1 (e + g)

/-- A·B + C, rounded once; 0 × ∞ raises IV even beside a NaN addend (R168). -/
def Fmt.fma (f : Fmt) (rm : Rm) (a b c : Nat) : Nat × FFlags :=
  let inv : Bool := match f.unpack a, f.unpack b with
    | .inf _, .fin _ m _ => m == 0
    | .fin _ m _, .inf _ => m == 0
    | _, _ => false
  if f.isNan a || f.isNan b || f.isNan c || inv then f.nanOf [a, b, c] inv
  else match f.unpack a, f.unpack b, f.unpack c with
    | .fin s m e, .fin t n g, .fin u k h =>
      f.roundSum rm (s != t) (m * n) (e + g) u k h
    | .fin _ _ _, .fin _ _ _, .inf u => (f.infBits u, [])
    | x, y, z =>
      let p : Bool := (match x with | .inf s => s | .fin s _ _ => s | _ => false) !=
        (match y with | .inf s => s | .fin s _ _ => s | _ => false)
      match z with
      | .inf u => if u = p then (f.infBits u, []) else f.nanOf [] true
      | _ => (f.infBits p, [])

def Fmt.div (f : Fmt) (rm : Rm) (a b : Nat) : Nat × FFlags :=
  match f.unpack a, f.unpack b with
  | .nan _ _, _ => f.nanOf [a, b] false
  | _, .nan _ _ => f.nanOf [a, b] false
  | .inf _, .inf _ => f.nanOf [] true
  | .inf s, .fin t _ _ => (f.infBits (s != t), [])
  | .fin s _ _, .inf t => (f.sbit (s != t), [])
  | .fin s m e, .fin t n g =>
    if n = 0 then (if m = 0 then f.nanOf [] true else (f.infBits (s != t), [flDZ]))
    else f.round rm (s != t) m n (e - g)

/-- Whole square root by bits, from bit `i` down. -/
def isqrt (n : Nat) : Nat → Nat → Nat
  | 0, r => if (r + 1) * (r + 1) ≤ n then r + 1 else r
  | i + 1, r => let c := r + 2 ^ (i + 1); isqrt n i (if c * c ≤ n then c else r)

def Fmt.sqrt (f : Fmt) (rm : Rm) (a : Nat) : Nat × FFlags :=
  match f.unpack a with
  | .nan _ _ => f.nanOf [a] false
  | .inf s => if s then f.nanOf [] true else (a, [])
  | .fin s m e =>
    if m = 0 then (a, [])
    else if s then f.nanOf [] true
    else
      -- √(m·2^e) with the remainder kept as a sticky last bit
      let sh := 2 * (f.mb + 4) + (if e % 2 = 0 then 0 else 1)
      let n := m * 2 ^ sh
      let r := isqrt n (Nat.log2 n / 2 + 1) 0
      let r2 := 2 * r + b2n (r * r != n)
      f.round rm false r2 1 ((e - sh) / 2 - 1)

/-- Numeric order of two values that are not NaN; −0 = +0. -/
def Fmt.cmp (f : Fmt) (a b : Nat) : Ordering :=
  match f.unpack a, f.unpack b with
  | .inf s, .inf t => if s = t then .eq else if s then .lt else .gt
  | .inf s, _ => if s then .lt else .gt
  | _, .inf t => if t then .gt else .lt
  | .fin s m e, .fin t n g => compare (exactSum s m e (!t) n g).1 0
  | _, _ => .eq

/-- Minimum or maximum; −0 orders below +0, a NaN operand gives a NaN (R122). -/
def Fmt.minmax (f : Fmt) (mx : Bool) (a b : Nat) : Nat × FFlags :=
  if f.isNan a || f.isNan b then f.nanOf [a, b] false
  else
    let lt : Bool := match f.cmp a b with
      | .lt => true
      | .gt => false
      | .eq => bit a (f.eb + f.mb) && !bit b (f.eb + f.mb)
    (if lt != mx then a else b, [])

/-- Convert between formats; a NaN keeps its sign and its most significant payload bits (R168). -/
def Fmt.conv (f g : Fmt) (rm : Rm) (a : Nat) : Nat × FFlags :=
  match f.unpack a with
  | .nan s m =>
    let q := if m < f.qbit then m + f.qbit else m
    let q' := if f.mb ≤ g.mb then q * 2 ^ (g.mb - f.mb) else q / 2 ^ (f.mb - g.mb)
    (g.nanBits s q', if m < f.qbit then [flIV] else [])
  | .inf s => (g.infBits s, [])
  | .fin s m e => g.round rm s m 1 e

/-- A signed integer as a floating-point number. -/
def Fmt.ofInt (f : Fmt) (rm : Rm) (x : Int) : Nat × FFlags :=
  if x = 0 then (0, []) else f.round rm (x < 0) x.natAbs 1 0

/-- A floating-point number as an n-bit signed integer (R129): NaN gives 0 and IV; out of range saturates with IV. -/
def Fmt.toInt (f : Fmt) (rm : Rm) (n : Nat) (a : Nat) : Int × FFlags :=
  let lo : Int := -(2 ^ (n - 1))
  let hi : Int := 2 ^ (n - 1) - 1
  match f.unpack a with
  | .nan _ _ => (0, [flIV])
  | .inf s => (if s then lo else hi, [flIV])
  | .fin s m e =>
    let (k, ix) := roundAt rm s m 1 e 0
    let v : Int := if s then -(k : Int) else k
    if v < lo then (lo, [flIV]) else if hi < v then (hi, [flIV]) else (v, if ix then [flIX] else [])

end Sys2Proof.Machine
end

