-- ==== Sys2Proof/Config.lean ====
section
/-! DEFINITION. What one EVT2560 fixes for itself and what the manual leaves open: fused values, the standard
cryptographic functions, and free values. Every constant here is opaque: no proof can see its value. -/

namespace Sys2Proof.Config

/-- A free value of the manual, one for each count of `State.fresh` (log entry 2). -/
opaque freeValue : Nat → BitVec 64

/-- GL_STRAP.GRADE: false for EVT2560-AX, true for EVT2560-AL (R1, R438). -/
opaque gradeAL : Bool

/-- KS_DEVID, the fused 64-bit device identifier (R364). -/
opaque devId : BitVec 64

/-- PLT_BG_STAT.FUSECOL of each bank group: fused (R79). -/
opaque fuseCol : Nat → BitVec 5

/-- The customer and Novreros key hashes fused at manufacture (R348). -/
opaque custHash : Nat → BitVec 256
opaque novrerosHash : BitVec 256

/-- The device root, fused at wafer test (R344). -/
opaque root : BitVec 256

/-- P, the device's keyed 64-bit permutation that makes the Plate and Tray keystream: seed, then physical word
address (R67, R77). Its rounds are not given. -/
opaque fogP : BitVec 64 → Nat → BitVec 64

/-- What Plate, Tray and DRAM read as in RETIRED, by instant and address: noise (R346). -/
opaque noise : Nat → Nat → BitVec 64

/-- SHA-256 (R358). -/
opaque sha256 : List Byte → BitVec 256
/-- AES-GMAC with AES-128 (R251, R349): the key, the message. -/
opaque gmac : List Byte → List Byte → BitVec 128
/-- The standard encoding (IEC 61850-8-1, IEC 61850-9-2, IEEE 1588) of a frame whose contents are held decoded. -/
opaque frameBytes : Frame → List Byte
/-- Length on the wire, FCS included, of a frame that the device encodes under those standards. -/
opaque frameLen : Frame → Nat
/-- ECDSA P-256 verification: public key, digest, signature (R278, R355, R362). -/
opaque ecdsaVerify : List Byte → BitVec 256 → List Byte → Bool
/-- AES-128 (R347): under each key a permutation of the block, key and block as values of their bytes. -/
opaque aes : BitVec 128 → Equiv.Perm (BitVec 128)

/-- The bytes that one item contributes to a pass's signature (R219 names the items, not their serialisation):
kind, key, value. -/
opaque sigBytes : Nat → Nat → BitVec 64 → List Byte

/-- The 256 bytes that a saved context takes in its slice (R159, R384), for each count of free values: their layout is
not given. -/
opaque savedCtx : Nat → BitVec 2048

/-- Boot ROM contents (R139), which are not given: a word of it spells what its value does, which nothing can prove. -/
opaque bootRom : Nat → Word

/-- The capacity in GiB of a DRAM module, and for a DDR_CFG code outside the tables of R375. -/
opaque dramGiB : Word → BitVec 7

/-- The clockAccuracy and offsetScaledLogVariance of the default data set: TU_PTPDS does not hold them (R318). -/
opaque ptpAcc : Byte
opaque ptpVar : BitVec 16

/-- The holdover estimate of the filtered offset at entry and the uncertainty of the learned frequency in
10^-12, for each entry into holdover (R314: E0 and F have no formula). -/
opaque holdE0 : Nat → Nat
opaque holdF : Nat → Nat

end Sys2Proof.Config
end

