-- ==== Sys2Proof/Machine/Crypt.lean ====
section
/-! DEFINITION. The cryptographic functions that the spec composes (R251, R253, R344, R347): HMAC-SHA256, the KDF of SP
800-108 in counter mode, the MACs of tags, and XTS-AES-128 over one DRAM unit. SHA-256, the AES block and GMAC are named
by the spec and taken from their standards as constants of Config (log entry 129). -/

namespace Sys2Proof.Machine
open Sys2Proof

/-- The bytes of a SHA-256 digest in its own order, first byte first. -/
def digestBytes (d : BitVec 256) : List Byte := beBytes 32 d.toNat

/-- HMAC-SHA256 for keys of at most 64 bytes, the device's own having 32. -/
def hmac (key msg : List Byte) : List Byte :=
  let k := key ++ List.replicate (64 - key.length) 0
  let inner := digestBytes (Config.sha256 (k.map (· ^^^ 0x36) ++ msg))
  digestBytes (Config.sha256 (k.map (· ^^^ 0x5C) ++ inner))

/-- The KDF in counter mode of SP 800-108 with HMAC-SHA256 as PRF (R344): one block of 256 bits, from the counter, the
label, a zero byte, the context and the length, counter and length in 32 bits. -/
def kdf (key : BitVec 256) (label : String) (ctx : List Byte) : BitVec 256 :=
  let l : List Byte := label.toList.map fun c => BitVec.ofNat 8 c.toNat
  BitVec.ofNat 256 (beVal (hmac (digestBytes key) (beBytes 4 1 ++ l ++ [0] ++ ctx ++ beBytes 4 256)))

/-- The MAC of a key's algorithm at full length (R251, R349): 0 HMAC-SHA256, 1 AES-GMAC. -/
def macOf (k : Nat × List Byte) (msg : List Byte) : List Byte :=
  if k.1 = 0 then hmac k.2 msg else beBytes 16 (Config.gmac k.2 msg).toNat

/-- The MAC lengths in bytes of an algorithm (R251). -/
def macLens (alg : Nat) : List Nat := if alg = 0 then [10, 16, 32] else [8, 16]

/-- A MAC of a supported length verifies with a key. -/
def macOk (k : Nat × List Byte) (msg mac : List Byte) : Bool :=
  (macLens k.1).contains mac.length && mac == (macOf k msg).take mac.length

-- XTS-AES-128 (R347) ------------------------------------------------------------------------------------------------------

/-- The tweak's step: multiplication by alpha in GF(2^128) of IEEE 1619. -/
def xtsAlpha (t : BitVec 128) : BitVec 128 := (t <<< 1) ^^^ (if t.msb then 0x87#128 else 0)

/-- The tweak of block j of the data unit with number u: the two keys are the halves of `key`, the first the higher. -/
def xtsTweak (key : BitVec 256) (u : Nat) : Nat → BitVec 128
  | 0 => Config.aes (key.extractLsb' 0 128) (BitVec.ofNat 128 u)
  | j + 1 => xtsAlpha (xtsTweak key u j)

/-- Encrypt and decrypt block j of a data unit. -/
def xtsBlock (key : BitVec 256) (u j : Nat) (x : BitVec 128) : BitVec 128 :=
  Config.aes (key.extractLsb' 128 128) (x ^^^ xtsTweak key u j) ^^^ xtsTweak key u j
def xtsUnblock (key : BitVec 256) (u j : Nat) (x : BitVec 128) : BitVec 128 :=
  (Config.aes (key.extractLsb' 128 128)).symm (x ^^^ xtsTweak key u j) ^^^ xtsTweak key u j

/-- Block j of a 64-byte data unit, and a unit of four blocks. -/
def unitBlock (x : BitVec 512) (j : Nat) : BitVec 128 := x.extractLsb' (128 * j) 128
def unitOf (f : Nat → BitVec 128) : BitVec 512 :=
  (f 0).setWidth 512 ||| ((f 1).setWidth 512 <<< 128) ||| ((f 2).setWidth 512 <<< 256) ||| ((f 3).setWidth 512 <<< 384)

/-- XTS-AES-128 of one data unit: its bytes as a little-endian value, and its number. -/
def xtsEnc (key : BitVec 256) (u : Nat) (x : BitVec 512) : BitVec 512 := unitOf fun j => xtsBlock key u j (unitBlock x j)
def xtsDec (key : BitVec 256) (u : Nat) (x : BitVec 512) : BitVec 512 := unitOf fun j => xtsUnblock key u j (unitBlock x j)

theorem xtsUnblock_block (key : BitVec 256) (u j : Nat) (x : BitVec 128) : xtsUnblock key u j (xtsBlock key u j x) = x := by
  simp [xtsUnblock, xtsBlock]

theorem unitBlock_unitOf (f : Nat → BitVec 128) (j : Nat) (h : j < 4) : unitBlock (unitOf f) j = f j := by
  obtain rfl | rfl | rfl | rfl : j = 0 ∨ j = 1 ∨ j = 2 ∨ j = 3 := by omega
  all_goals
    ext i hi
    simp [unitBlock, unitOf]
    grind

theorem unitOf_unitBlock (x : BitVec 512) : unitOf (unitBlock x) = x := by
  ext i hi
  simp [unitBlock, unitOf]
  grind

/-- Decryption undoes encryption. -/
theorem xtsDec_xtsEnc (key : BitVec 256) (u : Nat) (x : BitVec 512) : xtsDec key u (xtsEnc key u x) = x := by
  have h : ∀ j, j < 4 → xtsUnblock key u j (unitBlock (xtsEnc key u x) j) = unitBlock x j := fun j hj => by
    rw [xtsEnc, unitBlock_unitOf _ j hj, xtsUnblock_block]
  have e : xtsDec key u (xtsEnc key u x) = unitOf (unitBlock x) := by
    simp only [xtsDec, unitOf, h 0 (by omega), h 1 (by omega), h 2 (by omega), h 3 (by omega)]
  rw [e, unitOf_unitBlock]

end Sys2Proof.Machine
end

