-- ==== Sys2Proof/Machine/Regs.lean ====
section
/-! DEFINITION. The registers of BAR0 (R450, R455): the offset, index ranges, fields, access codes, reset values,
lock and plan-boundary deferral of each, as the register tables of the manual give them. -/

namespace Sys2Proof.Machine

/-- Access codes (R7). -/
inductive Acc where
  | rw | ro | wo | w1c | w1s | rc | rwl
  deriving DecidableEq, Repr

/-- A field of a register: its bits, its access code and its reset value (R7). -/
structure Fld where
  hi  : Nat
  lo  : Nat
  acc : Acc
  rst : Nat
  deriving DecidableEq, Repr

/-- A register or an array of registers: element (i, j) lies at base + i·st + j·st2. `kofs` moves the storage key
of the two set-counter arrays whose offsets R190 gives twice (log entry 5). `lock` is the offset of the register
whose bit 31 locks the RWL fields, 0 for none; `lockEach` says that element i is locked by element i of it.
`defer` marks registers that take effect at the next plan boundary (R36). -/
structure Reg where
  base     : Nat
  n        : Nat
  st       : Nat
  m        : Nat
  st2      : Nat
  kofs     : Nat
  lock     : Nat
  lockEach : Bool
  defer    : Bool
  flds     : List Fld
  deriving DecidableEq, Repr

/-- A named field of a register. -/
structure Field where
  reg : Reg
  hi  : Nat
  lo  : Nat
  deriving DecidableEq, Repr

/-- Whose interrupt source a status flag belongs to (R193): a device source, a port's or a lane's source by index,
or a core-local source by core. -/
inductive SrcOf where
  | dev (n : Nat) | port | lane | core (n : Nat) | none
  deriving DecidableEq, Repr

/-- A W1C flag with its set counter, where it has one, and its interrupt source (R193, R204, R205). -/
structure Flag where
  f   : Field
  cnt : Option Field
  src : SrcOf
  deriving DecidableEq, Repr

/-- GL_DEV_ID (R3). -/
def rGL_DEV_ID : Reg := ⟨0x0, 1, 4, 1, 0, 0x0, 0x0, false, false,
  [⟨31,16,.ro,9568⟩, ⟨15,8,.ro,0⟩, ⟨7,0,.ro,161⟩]⟩
def fGL_DEV_ID_PART : Field := ⟨rGL_DEV_ID, 31, 16⟩
def fGL_DEV_ID_FAMREV : Field := ⟨rGL_DEV_ID, 15, 8⟩
def fGL_DEV_ID_STEP : Field := ⟨rGL_DEV_ID, 7, 0⟩
/-- GL_STRAP (R438). -/
def rGL_STRAP : Reg := ⟨0x8, 1, 4, 1, 0, 0x0, 0x0, false, false,
  [⟨31,30,.ro,0⟩, ⟨16,16,.ro,0⟩, ⟨2,2,.ro,0⟩, ⟨1,0,.ro,0⟩]⟩
def fGL_STRAP_GRADE : Field := ⟨rGL_STRAP, 31, 30⟩
def fGL_STRAP_CLK : Field := ⟨rGL_STRAP, 16, 16⟩
def fGL_STRAP_DERATE : Field := ⟨rGL_STRAP, 2, 2⟩
def fGL_STRAP_PCIEGEN : Field := ⟨rGL_STRAP, 1, 0⟩
/-- GL_TEMP (R447). -/
def rGL_TEMP : Reg := ⟨0xc, 1, 4, 1, 0, 0x0, 0x0, false, false,
  [⟨10,8,.ro,0⟩, ⟨7,0,.ro,0⟩]⟩
def fGL_TEMP_SENSOR : Field := ⟨rGL_TEMP, 10, 8⟩
def fGL_TEMP_MAX : Field := ⟨rGL_TEMP, 7, 0⟩
/-- GL_HEALTH (R415). -/
def rGL_HEALTH : Reg := ⟨0x10, 1, 4, 1, 0, 0x0, 0x0, false, false,
  [⟨31,31,.ro,0⟩, ⟨7,0,.ro,0⟩]⟩
def fGL_HEALTH_REPLACE : Field := ⟨rGL_HEALTH, 31, 31⟩
def fGL_HEALTH_CODE : Field := ⟨rGL_HEALTH, 7, 0⟩
/-- PLT_CTL (R79). -/
def rPLT_CTL : Reg := ⟨0x100000, 1, 4, 1, 0, 0x0, 0x100000, false, false,
  [⟨31,31,.rwl,0⟩, ⟨15,8,.rwl,16⟩, ⟨0,0,.rwl,1⟩]⟩
def fPLT_CTL_LOCK : Field := ⟨rPLT_CTL, 31, 31⟩
def fPLT_CTL_CETHR : Field := ⟨rPLT_CTL, 15, 8⟩
def fPLT_CTL_SCRUB : Field := ⟨rPLT_CTL, 0, 0⟩
/-- PLT_STAT (R79). -/
def rPLT_STAT : Reg := ⟨0x100004, 1, 4, 1, 0, 0x0, 0x0, false, false,
  [⟨3,3,.w1c,0⟩, ⟨2,2,.w1c,0⟩, ⟨1,1,.w1c,0⟩, ⟨0,0,.w1c,0⟩]⟩
def fPLT_STAT_SPARE : Field := ⟨rPLT_STAT, 3, 3⟩
def fPLT_STAT_CETHR : Field := ⟨rPLT_STAT, 2, 2⟩
def fPLT_STAT_UE : Field := ⟨rPLT_STAT, 1, 1⟩
def fPLT_STAT_CE : Field := ⟨rPLT_STAT, 0, 0⟩
/-- PLT_SETCNT (R79). -/
def rPLT_SETCNT : Reg := ⟨0x100008, 1, 4, 1, 0, 0x0, 0x0, false, false,
  [⟨31,24,.rc,0⟩, ⟨23,16,.rc,0⟩, ⟨15,8,.rc,0⟩, ⟨7,0,.rc,0⟩]⟩
def fPLT_SETCNT_SPARE_N : Field := ⟨rPLT_SETCNT, 31, 24⟩
def fPLT_SETCNT_CETHR_N : Field := ⟨rPLT_SETCNT, 23, 16⟩
def fPLT_SETCNT_UE_N : Field := ⟨rPLT_SETCNT, 15, 8⟩
def fPLT_SETCNT_CE_N : Field := ⟨rPLT_SETCNT, 7, 0⟩
/-- PLT_UE_ADDR (R79). -/
def rPLT_UE_ADDR : Reg := ⟨0x100010, 1, 4, 1, 0, 0x0, 0x0, false, false,
  [⟨23,0,.ro,0⟩]⟩
def fPLT_UE_ADDR_WADDR : Field := ⟨rPLT_UE_ADDR, 23, 0⟩
/-- PLT_UE_INFO (R79). -/
def rPLT_UE_INFO : Reg := ⟨0x100014, 1, 4, 1, 0, 0x0, 0x0, false, false,
  [⟨28,24,.ro,0⟩, ⟨18,16,.ro,0⟩, ⟨8,0,.ro,0⟩]⟩
def fPLT_UE_INFO_BG : Field := ⟨rPLT_UE_INFO, 28, 24⟩
def fPLT_UE_INFO_MASTER : Field := ⟨rPLT_UE_INFO, 18, 16⟩
def fPLT_UE_INFO_OWNER : Field := ⟨rPLT_UE_INFO, 8, 0⟩
/-- PLT_BG_STAT (R79). -/
def rPLT_BG_STAT : Reg := ⟨0x100100, 32, 4, 1, 0, 0x0, 0x0, false, false,
  [⟨28,24,.ro,0⟩, ⟨20,16,.ro,0⟩, ⟨9,9,.ro,0⟩, ⟨8,8,.ro,0⟩]⟩
def fPLT_BG_STAT_FUSECOL : Field := ⟨rPLT_BG_STAT, 28, 24⟩
def fPLT_BG_STAT_SPARE_FOR : Field := ⟨rPLT_BG_STAT, 20, 16⟩
def fPLT_BG_STAT_SPARE_FAIL : Field := ⟨rPLT_BG_STAT, 9, 9⟩
def fPLT_BG_STAT_SPARE_USED : Field := ⟨rPLT_BG_STAT, 8, 8⟩
/-- PLT_TRAY_ERR (R79). -/
def rPLT_TRAY_ERR : Reg := ⟨0x100200, 32, 4, 1, 0, 0x0, 0x0, false, false,
  [⟨31,16,.rc,0⟩, ⟨15,0,.rc,0⟩]⟩
def fPLT_TRAY_ERR_UE : Field := ⟨rPLT_TRAY_ERR, 31, 16⟩
def fPLT_TRAY_ERR_CE : Field := ⟨rPLT_TRAY_ERR, 15, 0⟩
/-- PLT_CE_CNT (R79). -/
def rPLT_CE_CNT : Reg := ⟨0x101000, 1024, 4, 1, 0, 0x0, 0x0, false, false,
  [⟨15,0,.rc,0⟩]⟩
def fPLT_CE_CNT_CNT : Field := ⟨rPLT_CE_CNT, 15, 0⟩
/-- SHM_OWNER (R79). -/
def rSHM_OWNER : Reg := ⟨0x102000, 384, 8, 1, 0, 0x0, 0x0, false, false,
  [⟨17,16,.ro,0⟩, ⟨8,0,.rw,511⟩]⟩
def fSHM_OWNER_STATE : Field := ⟨rSHM_OWNER, 17, 16⟩
def fSHM_OWNER_OWNER : Field := ⟨rSHM_OWNER, 8, 0⟩
/-- SHM_EPOCH (R79). -/
def rSHM_EPOCH : Reg := ⟨0x102004, 384, 8, 1, 0, 0x0, 0x0, false, false,
  [⟨31,0,.ro,0⟩]⟩
def fSHM_EPOCH_EPOCH : Field := ⟨rSHM_EPOCH, 31, 0⟩
/-- SHM_STAT (R79). -/
def rSHM_STAT : Reg := ⟨0x103000, 1, 4, 1, 0, 0x0, 0x0, false, false,
  [⟨2,2,.w1c,0⟩, ⟨1,1,.w1c,0⟩, ⟨0,0,.w1c,0⟩]⟩
def fSHM_STAT_MAPDROP : Field := ⟨rSHM_STAT, 2, 2⟩
def fSHM_STAT_REFUSED : Field := ⟨rSHM_STAT, 1, 1⟩
def fSHM_STAT_DONE : Field := ⟨rSHM_STAT, 0, 0⟩
/-- SHM_SETCNT (R79). -/
def rSHM_SETCNT : Reg := ⟨0x103004, 1, 4, 1, 0, 0x0, 0x0, false, false,
  [⟨23,16,.rc,0⟩, ⟨15,8,.rc,0⟩, ⟨7,0,.rc,0⟩]⟩
def fSHM_SETCNT_MAPDROP_N : Field := ⟨rSHM_SETCNT, 23, 16⟩
def fSHM_SETCNT_REFUSED_N : Field := ⟨rSHM_SETCNT, 15, 8⟩
def fSHM_SETCNT_DONE_N : Field := ⟨rSHM_SETCNT, 7, 0⟩
/-- SHM_LASTREF (R79). -/
def rSHM_LASTREF : Reg := ⟨0x103008, 1, 4, 1, 0, 0x0, 0x0, false, false,
  [⟨19,16,.ro,0⟩, ⟨8,0,.ro,0⟩]⟩
def fSHM_LASTREF_REASON : Field := ⟨rSHM_LASTREF, 19, 16⟩
def fSHM_LASTREF_SHEET : Field := ⟨rSHM_LASTREF, 8, 0⟩
/-- SHM_MAP (R79). -/
def rSHM_MAP : Reg := ⟨0x104000, 257, 256, 64, 4, 0x0, 0x0, false, true,
  [⟨31,31,.rw,0⟩, ⟨30,30,.rw,0⟩, ⟨8,0,.rw,0⟩]⟩
def fSHM_MAP_V : Field := ⟨rSHM_MAP, 31, 31⟩
def fSHM_MAP_RO : Field := ⟨rSHM_MAP, 30, 30⟩
def fSHM_MAP_SHEET : Field := ⟨rSHM_MAP, 8, 0⟩
/-- VP_STAT (R109). -/
def rVP_STAT : Reg := ⟨0x200000, 32, 16, 1, 0, 0x0, 0x0, false, false,
  [⟨29,28,.ro,0⟩, ⟨20,16,.ro,0⟩, ⟨10,8,.ro,0⟩, ⟨7,0,.ro,0⟩]⟩
def fVP_STAT_STATE : Field := ⟨rVP_STAT, 29, 28⟩
def fVP_STAT_BASE : Field := ⟨rVP_STAT, 20, 16⟩
def fVP_STAT_WLOG : Field := ⟨rVP_STAT, 10, 8⟩
def fVP_STAT_TENANT : Field := ⟨rVP_STAT, 7, 0⟩
/-- VF_PC (R109). -/
def rVF_PC : Reg := ⟨0x201000, 256, 16, 1, 0, 0x0, 0x0, false, false,
  [⟨31,0,.ro,0⟩]⟩
def fVF_PC_PC : Field := ⟨rVF_PC, 31, 0⟩
/-- VF_IDX (R109). -/
def rVF_IDX : Reg := ⟨0x201004, 256, 16, 1, 0, 0x0, 0x0, false, false,
  [⟨20,0,.ro,0⟩]⟩
def fVF_IDX_IDX : Field := ⟨rVF_IDX, 20, 0⟩
/-- VF_CAUSE (R109). -/
def rVF_CAUSE : Reg := ⟨0x201008, 256, 16, 1, 0, 0x0, 0x0, false, false,
  [⟨31,31,.ro,0⟩, ⟨13,12,.ro,0⟩, ⟨9,9,.ro,0⟩, ⟨8,8,.ro,0⟩, ⟨7,0,.ro,0⟩]⟩
def fVF_CAUSE_VALID : Field := ⟨rVF_CAUSE, 31, 31⟩
def fVF_CAUSE_PORT : Field := ⟨rVF_CAUSE, 13, 12⟩
def fVF_CAUSE_CHAIN : Field := ⟨rVF_CAUSE, 9, 9⟩
def fVF_CAUSE_NEG : Field := ⟨rVF_CAUSE, 8, 8⟩
def fVF_CAUSE_CAUSE : Field := ⟨rVF_CAUSE, 7, 0⟩
/-- VF_INFO (R109). -/
def rVF_INFO : Reg := ⟨0x20100c, 256, 16, 1, 0, 0x0, 0x0, false, false,
  [⟨26,24,.ro,0⟩, ⟨23,0,.ro,0⟩]⟩
def fVF_INFO_TANK : Field := ⟨rVF_INFO, 26, 24⟩
def fVF_INFO_ADDR : Field := ⟨rVF_INFO, 23, 0⟩
/-- SCH_CTL (R109). -/
def rSCH_CTL : Reg := ⟨0x204000, 1, 4, 1, 0, 0x0, 0x204000, false, false,
  [⟨31,31,.rwl,0⟩, ⟨1,1,.rwl,1⟩, ⟨0,0,.rwl,0⟩]⟩
def fSCH_CTL_LOCK : Field := ⟨rSCH_CTL, 31, 31⟩
def fSCH_CTL_FBAUTO : Field := ⟨rSCH_CTL, 1, 1⟩
def fSCH_CTL_EN : Field := ⟨rSCH_CTL, 0, 0⟩
/-- SCH_PLAN (R109). -/
def rSCH_PLAN : Reg := ⟨0x204004, 1, 4, 1, 0, 0x0, 0x0, false, false,
  [⟨31,16,.ro,0⟩, ⟨15,8,.ro,0⟩, ⟨7,0,.ro,0⟩]⟩
def fSCH_PLAN_PLAN_ID : Field := ⟨rSCH_PLAN, 31, 16⟩
def fSCH_PLAN_FALLBACK : Field := ⟨rSCH_PLAN, 15, 8⟩
def fSCH_PLAN_SLOT : Field := ⟨rSCH_PLAN, 7, 0⟩
/-- SCH_CAP (R109). -/
def rSCH_CAP : Reg := ⟨0x204008, 1, 4, 1, 0, 0x0, 0x0, false, false,
  [⟨23,16,.w1s,0⟩, ⟨15,8,.ro,0⟩, ⟨7,0,.ro,0⟩]⟩
def fSCH_CAP_RETURN : Field := ⟨rSCH_CAP, 23, 16⟩
def fSCH_CAP_LENT : Field := ⟨rSCH_CAP, 15, 8⟩
def fSCH_CAP_FAULTED : Field := ⟨rSCH_CAP, 7, 0⟩
/-- SCH_STAT (R109). -/
def rSCH_STAT : Reg := ⟨0x20400c, 1, 4, 1, 0, 0x0, 0x0, false, false,
  [⟨3,3,.w1c,0⟩, ⟨2,2,.w1c,0⟩, ⟨1,1,.w1c,0⟩, ⟨0,0,.w1c,0⟩]⟩
def fSCH_STAT_NOFB : Field := ⟨rSCH_STAT, 3, 3⟩
def fSCH_STAT_SPANWAIT : Field := ⟨rSCH_STAT, 2, 2⟩
def fSCH_STAT_MIGRATE : Field := ⟨rSCH_STAT, 1, 1⟩
def fSCH_STAT_CAPCHG : Field := ⟨rSCH_STAT, 0, 0⟩
/-- SCH_SETCNT (R109). -/
def rSCH_SETCNT : Reg := ⟨0x204010, 1, 4, 1, 0, 0x0, 0x0, false, false,
  [⟨31,24,.rc,0⟩, ⟨23,16,.rc,0⟩, ⟨15,8,.rc,0⟩, ⟨7,0,.rc,0⟩]⟩
def fSCH_SETCNT_NOFB_N : Field := ⟨rSCH_SETCNT, 31, 24⟩
def fSCH_SETCNT_SPANWAIT_N : Field := ⟨rSCH_SETCNT, 23, 16⟩
def fSCH_SETCNT_MIGRATE_N : Field := ⟨rSCH_SETCNT, 15, 8⟩
def fSCH_SETCNT_CAPCHG_N : Field := ⟨rSCH_SETCNT, 7, 0⟩
/-- SCH_OFFCNT (R109). -/
def rSCH_OFFCNT : Reg := ⟨0x204014, 1, 4, 1, 0, 0x0, 0x0, false, false,
  [⟨31,0,.rc,0⟩]⟩
def fSCH_OFFCNT_CNT : Field := ⟨rSCH_OFFCNT, 31, 0⟩
/-- SCH_QDEPTH (R109). -/
def rSCH_QDEPTH : Reg := ⟨0x204100, 32, 4, 1, 0, 0x0, 0x0, false, false,
  [⟨15,8,.rc,0⟩, ⟨6,0,.ro,0⟩]⟩
def fSCH_QDEPTH_MAX : Field := ⟨rSCH_QDEPTH, 15, 8⟩
def fSCH_QDEPTH_DEPTH : Field := ⟨rSCH_QDEPTH, 6, 0⟩
/-- SCH_MIG (R109). -/
def rSCH_MIG : Reg := ⟨0x204200, 1, 4, 1, 0, 0x0, 0x0, false, false,
  [⟨23,16,.ro,0⟩, ⟨12,8,.ro,0⟩, ⟨7,0,.ro,0⟩]⟩
def fSCH_MIG_TO : Field := ⟨rSCH_MIG, 23, 16⟩
def fSCH_MIG_FROM : Field := ⟨rSCH_MIG, 12, 8⟩
def fSCH_MIG_TENANT : Field := ⟨rSCH_MIG, 7, 0⟩
/-- DLM_CTL (R50). -/
def rDLM_CTL : Reg := ⟨0x208000, 1, 4, 1, 0, 0x0, 0x208000, false, false,
  [⟨31,31,.rwl,0⟩, ⟨1,1,.rwl,0⟩, ⟨0,0,.rwl,0⟩]⟩
def fDLM_CTL_LOCK : Field := ⟨rDLM_CTL, 31, 31⟩
def fDLM_CTL_EVT : Field := ⟨rDLM_CTL, 1, 1⟩
def fDLM_CTL_EN : Field := ⟨rDLM_CTL, 0, 0⟩
/-- DLM_STAT (R50). -/
def rDLM_STAT : Reg := ⟨0x208004, 1, 4, 1, 0, 0x0, 0x0, false, false,
  [⟨5,5,.w1c,0⟩, ⟨4,4,.w1c,0⟩, ⟨3,3,.w1c,0⟩, ⟨2,2,.w1c,0⟩, ⟨1,1,.w1c,0⟩, ⟨0,0,.w1c,0⟩]⟩
def fDLM_STAT_CAP : Field := ⟨rDLM_STAT, 5, 5⟩
def fDLM_STAT_QUAR : Field := ⟨rDLM_STAT, 4, 4⟩
def fDLM_STAT_STALE : Field := ⟨rDLM_STAT, 3, 3⟩
def fDLM_STAT_QFULL : Field := ⟨rDLM_STAT, 2, 2⟩
def fDLM_STAT_EXPIRED : Field := ⟨rDLM_STAT, 1, 1⟩
def fDLM_STAT_LATE : Field := ⟨rDLM_STAT, 0, 0⟩
/-- DLM_SETCNT0 (R50). -/
def rDLM_SETCNT0 : Reg := ⟨0x208008, 1, 4, 1, 0, 0x0, 0x0, false, false,
  [⟨31,24,.rc,0⟩, ⟨23,16,.rc,0⟩, ⟨15,8,.rc,0⟩, ⟨7,0,.rc,0⟩]⟩
def fDLM_SETCNT0_STALE_N : Field := ⟨rDLM_SETCNT0, 31, 24⟩
def fDLM_SETCNT0_QFULL_N : Field := ⟨rDLM_SETCNT0, 23, 16⟩
def fDLM_SETCNT0_EXPIRED_N : Field := ⟨rDLM_SETCNT0, 15, 8⟩
def fDLM_SETCNT0_LATE_N : Field := ⟨rDLM_SETCNT0, 7, 0⟩
/-- DLM_SETCNT1 (R50). -/
def rDLM_SETCNT1 : Reg := ⟨0x20800c, 1, 4, 1, 0, 0x0, 0x0, false, false,
  [⟨15,8,.rc,0⟩, ⟨7,0,.rc,0⟩]⟩
def fDLM_SETCNT1_CAP_N : Field := ⟨rDLM_SETCNT1, 15, 8⟩
def fDLM_SETCNT1_QUAR_N : Field := ⟨rDLM_SETCNT1, 7, 0⟩
/-- DLM_LAST (R50). -/
def rDLM_LAST : Reg := ⟨0x208010, 8, 4, 1, 0, 0x0, 0x0, false, false,
  [⟨31,0,.ro,0⟩]⟩
def fDLM_LAST_WORD : Field := ⟨rDLM_LAST, 31, 0⟩
/-- DLM_TN_CFG (R50). -/
def rDLM_TN_CFG : Reg := ⟨0x208400, 256, 4, 1, 0, 0x0, 0x0, false, true,
  [⟨11,8,.rw,0⟩, ⟨2,2,.rw,0⟩, ⟨1,0,.rw,1⟩]⟩
def fDLM_TN_CFG_QTHR : Field := ⟨rDLM_TN_CFG, 11, 8⟩
def fDLM_TN_CFG_RELEASE : Field := ⟨rDLM_TN_CFG, 2, 2⟩
def fDLM_TN_CFG_POLICY : Field := ⟨rDLM_TN_CFG, 1, 0⟩
/-- DLM_TN_CNT (R50). -/
def rDLM_TN_CNT : Reg := ⟨0x208800, 256, 4, 1, 0, 0x0, 0x0, false, false,
  [⟨31,16,.rc,0⟩, ⟨15,0,.rc,0⟩]⟩
def fDLM_TN_CNT_MISSES : Field := ⟨rDLM_TN_CNT, 31, 16⟩
def fDLM_TN_CNT_DONE : Field := ⟨rDLM_TN_CNT, 15, 0⟩
/-- NEG_CTL (R227). -/
def rNEG_CTL : Reg := ⟨0x20c000, 1, 4, 1, 0, 0x0, 0x20c000, false, false,
  [⟨31,31,.rwl,0⟩, ⟨1,1,.rwl,0⟩]⟩
def fNEG_CTL_LOCK : Field := ⟨rNEG_CTL, 31, 31⟩
def fNEG_CTL_EVT : Field := ⟨rNEG_CTL, 1, 1⟩
/-- NEG_STAT (R227). -/
def rNEG_STAT : Reg := ⟨0x20c004, 1, 4, 1, 0, 0x0, 0x0, false, false,
  [⟨3,3,.w1c,0⟩, ⟨2,2,.w1c,0⟩, ⟨1,1,.w1c,0⟩, ⟨0,0,.w1c,0⟩]⟩
def fNEG_STAT_PTLOST : Field := ⟨rNEG_STAT, 3, 3⟩
def fNEG_STAT_BISTFAIL : Field := ⟨rNEG_STAT, 2, 2⟩
def fNEG_STAT_RESTART : Field := ⟨rNEG_STAT, 1, 1⟩
def fNEG_STAT_MISMATCH : Field := ⟨rNEG_STAT, 0, 0⟩
/-- NEG_SETCNT (R227). -/
def rNEG_SETCNT : Reg := ⟨0x20c008, 1, 4, 1, 0, 0x0, 0x0, false, false,
  [⟨31,24,.rc,0⟩, ⟨23,16,.rc,0⟩, ⟨15,8,.rc,0⟩, ⟨7,0,.rc,0⟩]⟩
def fNEG_SETCNT_PTLOST_N : Field := ⟨rNEG_SETCNT, 31, 24⟩
def fNEG_SETCNT_BISTFAIL_N : Field := ⟨rNEG_SETCNT, 23, 16⟩
def fNEG_SETCNT_RESTART_N : Field := ⟨rNEG_SETCNT, 15, 8⟩
def fNEG_SETCNT_MISMATCH_N : Field := ⟨rNEG_SETCNT, 7, 0⟩
/-- NEG_LAST0 (R227). -/
def rNEG_LAST0 : Reg := ⟨0x20c010, 1, 4, 1, 0, 0x0, 0x0, false, false,
  [⟨17,16,.ro,0⟩, ⟨11,8,.ro,0⟩, ⟨7,0,.ro,0⟩]⟩
def fNEG_LAST0_RESTARTS : Field := ⟨rNEG_LAST0, 17, 16⟩
def fNEG_LAST0_CAUSE : Field := ⟨rNEG_LAST0, 11, 8⟩
def fNEG_LAST0_TENANT : Field := ⟨rNEG_LAST0, 7, 0⟩
/-- NEG_LAST1 (R227). -/
def rNEG_LAST1 : Reg := ⟨0x20c014, 1, 4, 1, 0, 0x0, 0x0, false, false,
  [⟨31,0,.ro,0⟩]⟩
def fNEG_LAST1_PC : Field := ⟨rNEG_LAST1, 31, 0⟩
/-- NEG_LAST2 (R227). -/
def rNEG_LAST2 : Reg := ⟨0x20c018, 1, 4, 1, 0, 0x0, 0x0, false, false,
  [⟨31,0,.ro,0⟩]⟩
def fNEG_LAST2_SIGM : Field := ⟨rNEG_LAST2, 31, 0⟩
/-- NEG_LAST3 (R227). -/
def rNEG_LAST3 : Reg := ⟨0x20c01c, 1, 4, 1, 0, 0x0, 0x0, false, false,
  [⟨31,0,.ro,0⟩]⟩
def fNEG_LAST3_SIGN : Field := ⟨rNEG_LAST3, 31, 0⟩
/-- NEG_BIST (R227). -/
def rNEG_BIST : Reg := ⟨0x20c020, 1, 4, 1, 0, 0x0, 0x0, false, false,
  [⟨31,0,.ro,0⟩]⟩
def fNEG_BIST_PASS : Field := ⟨rNEG_BIST, 31, 0⟩
/-- NEG_TN_CFG (R227). -/
def rNEG_TN_CFG : Reg := ⟨0x20c400, 256, 4, 1, 0, 0x0, 0x0, false, true,
  [⟨19,16,.rw,0⟩, ⟨13,12,.rw,0⟩, ⟨9,0,.ro,0⟩]⟩
def fNEG_TN_CFG_MMQ : Field := ⟨rNEG_TN_CFG, 19, 16⟩
def fNEG_TN_CFG_RETRY : Field := ⟨rNEG_TN_CFG, 13, 12⟩
def fNEG_TN_CFG_WIN : Field := ⟨rNEG_TN_CFG, 9, 0⟩
/-- NEG_TN_CNT (R227). -/
def rNEG_TN_CNT : Reg := ⟨0x20c800, 256, 4, 1, 0, 0x0, 0x0, false, false,
  [⟨31,16,.rc,0⟩, ⟨15,0,.rc,0⟩]⟩
def fNEG_TN_CNT_MISMATCH : Field := ⟨rNEG_TN_CNT, 31, 16⟩
def fNEG_TN_CNT_RESTART : Field := ⟨rNEG_TN_CNT, 15, 0⟩
/-- EZ_CTL (R163). -/
def rEZ_CTL : Reg := ⟨0x300000, 32, 4096, 1, 0, 0x0, 0x300000, true, false,
  [⟨31,31,.rwl,0⟩, ⟨1,1,.rw,0⟩, ⟨0,0,.rwl,0⟩]⟩
def fEZ_CTL_LOCK : Field := ⟨rEZ_CTL, 31, 31⟩
def fEZ_CTL_HALT : Field := ⟨rEZ_CTL, 1, 1⟩
def fEZ_CTL_REMAP : Field := ⟨rEZ_CTL, 0, 0⟩
/-- EZ_STAT (R163). -/
def rEZ_STAT : Reg := ⟨0x300004, 32, 4096, 1, 0, 0x0, 0x0, false, false,
  [⟨3,3,.w1c,0⟩, ⟨2,2,.w1c,0⟩, ⟨1,1,.w1c,0⟩, ⟨0,0,.w1c,0⟩]⟩
def fEZ_STAT_IWREF : Field := ⟨rEZ_STAT, 3, 3⟩
def fEZ_STAT_LOOPERR : Field := ⟨rEZ_STAT, 2, 2⟩
def fEZ_STAT_PRIV : Field := ⟨rEZ_STAT, 1, 1⟩
def fEZ_STAT_ILLEGAL : Field := ⟨rEZ_STAT, 0, 0⟩
/-- EZ_SETCNT (R163). -/
def rEZ_SETCNT : Reg := ⟨0x300008, 32, 4096, 1, 0, 0x0, 0x0, false, false,
  [⟨31,24,.rc,0⟩, ⟨23,16,.rc,0⟩, ⟨15,8,.rc,0⟩, ⟨7,0,.rc,0⟩]⟩
def fEZ_SETCNT_IWREF_N : Field := ⟨rEZ_SETCNT, 31, 24⟩
def fEZ_SETCNT_LOOPERR_N : Field := ⟨rEZ_SETCNT, 23, 16⟩
def fEZ_SETCNT_PRIV_N : Field := ⟨rEZ_SETCNT, 15, 8⟩
def fEZ_SETCNT_ILLEGAL_N : Field := ⟨rEZ_SETCNT, 7, 0⟩
/-- EZ_IADDR (R163). -/
def rEZ_IADDR : Reg := ⟨0x300010, 32, 4096, 1, 0, 0x0, 0x0, false, false,
  [⟨15,2,.rw,0⟩]⟩
def fEZ_IADDR_WORD : Field := ⟨rEZ_IADDR, 15, 2⟩
/-- EZ_IDATA (R163). -/
def rEZ_IDATA : Reg := ⟨0x300014, 32, 4096, 1, 0, 0x0, 0x0, false, false,
  [⟨31,0,.wo,0⟩]⟩
def fEZ_IDATA_DATA : Field := ⟨rEZ_IDATA, 31, 0⟩
/-- EZ_IWIN (R163). -/
def rEZ_IWIN : Reg := ⟨0x300020, 32, 4096, 8, 4, 0x0, 0x300000, true, true,
  [⟨21,16,.rwl,0⟩, ⟨5,0,.rwl,63⟩]⟩
def fEZ_IWIN_LIMIT : Field := ⟨rEZ_IWIN, 21, 16⟩
def fEZ_IWIN_BASE : Field := ⟨rEZ_IWIN, 5, 0⟩
/-- EZ_CTXCFG (R163). -/
def rEZ_CTXCFG : Reg := ⟨0x300040, 32, 4096, 8, 4, 0x0, 0x0, false, true,
  [⟨1,1,.rw,0⟩, ⟨0,0,.rw,0⟩]⟩
def fEZ_CTXCFG_CT : Field := ⟨rEZ_CTXCFG, 1, 1⟩
def fEZ_CTXCFG_STRICT : Field := ⟨rEZ_CTXCFG, 0, 0⟩
/-- EZ_CTXSTAT (R163). -/
def rEZ_CTXSTAT : Reg := ⟨0x300060, 32, 4096, 8, 4, 0x0, 0x0, false, false,
  [⟨31,24,.ro,0⟩, ⟨18,16,.ro,0⟩, ⟨12,12,.ro,0⟩, ⟨9,8,.ro,0⟩, ⟨2,0,.ro,0⟩]⟩
def fEZ_CTXSTAT_TENANT : Field := ⟨rEZ_CTXSTAT, 31, 24⟩
def fEZ_CTXSTAT_MASKLVL : Field := ⟨rEZ_CTXSTAT, 18, 16⟩
def fEZ_CTXSTAT_DL : Field := ⟨rEZ_CTXSTAT, 12, 12⟩
def fEZ_CTXSTAT_STATE : Field := ⟨rEZ_CTXSTAT, 9, 8⟩
def fEZ_CTXSTAT_LOOPS : Field := ⟨rEZ_CTXSTAT, 2, 0⟩
/-- EZ_PC (R163). -/
def rEZ_PC : Reg := ⟨0x300080, 32, 4096, 8, 4, 0x0, 0x0, false, false,
  [⟨31,0,.ro,0⟩]⟩
def fEZ_PC_PC : Field := ⟨rEZ_PC, 31, 0⟩
/-- EZ_ENTRY (R163). -/
def rEZ_ENTRY : Reg := ⟨0x3000a0, 32, 4096, 8, 4, 0x0, 0x300000, true, true,
  [⟨15,2,.rwl,0⟩]⟩
def fEZ_ENTRY_WORD : Field := ⟨rEZ_ENTRY, 15, 2⟩
/-- EZ_SUPPC (R163). -/
def rEZ_SUPPC : Reg := ⟨0x3000c0, 32, 4096, 1, 0, 0x0, 0x0, false, false,
  [⟨31,0,.ro,0⟩]⟩
def fEZ_SUPPC_PC : Field := ⟨rEZ_SUPPC, 31, 0⟩
/-- EZ_CAUSE (R190). -/
def rEZ_CAUSE : Reg := ⟨0x3000c4, 32, 4096, 1, 0, 0x0, 0x0, false, false,
  [⟨31,24,.ro,0⟩, ⟨23,20,.ro,0⟩, ⟨19,19,.ro,0⟩, ⟨18,16,.ro,0⟩, ⟨15,15,.ro,0⟩, ⟨14,14,.ro,0⟩, ⟨13,11,.ro,0⟩, ⟨10,8,.ro,0⟩, ⟨7,0,.ro,0⟩]⟩
def fEZ_CAUSE_TRAPNO : Field := ⟨rEZ_CAUSE, 31, 24⟩
def fEZ_CAUSE_SUB : Field := ⟨rEZ_CAUSE, 23, 20⟩
def fEZ_CAUSE_Q : Field := ⟨rEZ_CAUSE, 19, 19⟩
def fEZ_CAUSE_CTX : Field := ⟨rEZ_CAUSE, 18, 16⟩
def fEZ_CAUSE_SUP : Field := ⟨rEZ_CAUSE, 15, 15⟩
def fEZ_CAUSE_IMP : Field := ⟨rEZ_CAUSE, 14, 14⟩
def fEZ_CAUSE_ORIG : Field := ⟨rEZ_CAUSE, 13, 11⟩
def fEZ_CAUSE_LEVEL : Field := ⟨rEZ_CAUSE, 10, 8⟩
def fEZ_CAUSE_CODE : Field := ⟨rEZ_CAUSE, 7, 0⟩
/-- EZ_XBASE (R190). -/
def rEZ_XBASE : Reg := ⟨0x3000c8, 32, 4096, 1, 0, 0x0, 0x3000c8, true, false,
  [⟨31,31,.rwl,0⟩, ⟨5,0,.rwl,0⟩]⟩
def fEZ_XBASE_LOCK : Field := ⟨rEZ_XBASE, 31, 31⟩
def fEZ_XBASE_BASE : Field := ⟨rEZ_XBASE, 5, 0⟩
/-- EZ_XCFG (R190). -/
def rEZ_XCFG : Reg := ⟨0x300100, 32, 4096, 8, 4, 0x0, 0x0, false, true,
  [⟨31,31,.w1s,0⟩, ⟨5,5,.rw,0⟩, ⟨4,4,.rw,0⟩, ⟨3,3,.rw,0⟩, ⟨2,2,.rw,0⟩, ⟨1,1,.rw,0⟩, ⟨0,0,.rw,0⟩]⟩
def fEZ_XCFG_QREL : Field := ⟨rEZ_XCFG, 31, 31⟩
def fEZ_XCFG_DVE : Field := ⟨rEZ_XCFG, 5, 5⟩
def fEZ_XCFG_IXE : Field := ⟨rEZ_XCFG, 4, 4⟩
def fEZ_XCFG_UFE : Field := ⟨rEZ_XCFG, 3, 3⟩
def fEZ_XCFG_OFE : Field := ⟨rEZ_XCFG, 2, 2⟩
def fEZ_XCFG_DZE : Field := ⟨rEZ_XCFG, 1, 1⟩
def fEZ_XCFG_IVE : Field := ⟨rEZ_XCFG, 0, 0⟩
/-- EZ_AFLAGS (R190). -/
def rEZ_AFLAGS : Reg := ⟨0x300120, 32, 4096, 8, 4, 0x0, 0x0, false, false,
  [⟨5,5,.w1c,0⟩, ⟨4,4,.w1c,0⟩, ⟨3,3,.w1c,0⟩, ⟨2,2,.w1c,0⟩, ⟨1,1,.w1c,0⟩, ⟨0,0,.w1c,0⟩]⟩
def fEZ_AFLAGS_DV : Field := ⟨rEZ_AFLAGS, 5, 5⟩
def fEZ_AFLAGS_IX : Field := ⟨rEZ_AFLAGS, 4, 4⟩
def fEZ_AFLAGS_UF : Field := ⟨rEZ_AFLAGS, 3, 3⟩
def fEZ_AFLAGS_OF : Field := ⟨rEZ_AFLAGS, 2, 2⟩
def fEZ_AFLAGS_DZ : Field := ⟨rEZ_AFLAGS, 1, 1⟩
def fEZ_AFLAGS_IV : Field := ⟨rEZ_AFLAGS, 0, 0⟩
/-- EZ_SXCFG (R190). -/
def rEZ_SXCFG : Reg := ⟨0x300160, 32, 4096, 1, 0, 0x0, 0x0, false, false,
  [⟨5,5,.rw,0⟩, ⟨4,4,.rw,0⟩, ⟨3,3,.rw,0⟩, ⟨2,2,.rw,0⟩, ⟨1,1,.rw,0⟩, ⟨0,0,.rw,0⟩]⟩
def fEZ_SXCFG_DVE : Field := ⟨rEZ_SXCFG, 5, 5⟩
def fEZ_SXCFG_IXE : Field := ⟨rEZ_SXCFG, 4, 4⟩
def fEZ_SXCFG_UFE : Field := ⟨rEZ_SXCFG, 3, 3⟩
def fEZ_SXCFG_OFE : Field := ⟨rEZ_SXCFG, 2, 2⟩
def fEZ_SXCFG_DZE : Field := ⟨rEZ_SXCFG, 1, 1⟩
def fEZ_SXCFG_IVE : Field := ⟨rEZ_SXCFG, 0, 0⟩
/-- EZ_SAFLAGS (R190). -/
def rEZ_SAFLAGS : Reg := ⟨0x300164, 32, 4096, 1, 0, 0x0, 0x0, false, false,
  [⟨5,5,.w1c,0⟩, ⟨4,4,.w1c,0⟩, ⟨3,3,.w1c,0⟩, ⟨2,2,.w1c,0⟩, ⟨1,1,.w1c,0⟩, ⟨0,0,.w1c,0⟩]⟩
def fEZ_SAFLAGS_DV : Field := ⟨rEZ_SAFLAGS, 5, 5⟩
def fEZ_SAFLAGS_IX : Field := ⟨rEZ_SAFLAGS, 4, 4⟩
def fEZ_SAFLAGS_UF : Field := ⟨rEZ_SAFLAGS, 3, 3⟩
def fEZ_SAFLAGS_OF : Field := ⟨rEZ_SAFLAGS, 2, 2⟩
def fEZ_SAFLAGS_DZ : Field := ⟨rEZ_SAFLAGS, 1, 1⟩
def fEZ_SAFLAGS_IV : Field := ⟨rEZ_SAFLAGS, 0, 0⟩
/-- EZ_SASETCNT0 (R190). -/
def rEZ_SASETCNT0 : Reg := ⟨0x300168, 32, 4096, 1, 0, 0x0, 0x0, false, false,
  [⟨31,24,.rc,0⟩, ⟨23,16,.rc,0⟩, ⟨15,8,.rc,0⟩, ⟨7,0,.rc,0⟩]⟩
def fEZ_SASETCNT0_OF_N : Field := ⟨rEZ_SASETCNT0, 31, 24⟩
def fEZ_SASETCNT0_DZ_N : Field := ⟨rEZ_SASETCNT0, 23, 16⟩
def fEZ_SASETCNT0_IV_N : Field := ⟨rEZ_SASETCNT0, 15, 8⟩
def fEZ_SASETCNT0_DV_N : Field := ⟨rEZ_SASETCNT0, 7, 0⟩
/-- EZ_SASETCNT1 (R190). -/
def rEZ_SASETCNT1 : Reg := ⟨0x30016c, 32, 4096, 1, 0, 0x0, 0x0, false, false,
  [⟨15,8,.rc,0⟩, ⟨7,0,.rc,0⟩]⟩
def fEZ_SASETCNT1_IX_N : Field := ⟨rEZ_SASETCNT1, 15, 8⟩
def fEZ_SASETCNT1_UF_N : Field := ⟨rEZ_SASETCNT1, 7, 0⟩
/-- EZ_ASETCNT0 (R190). -/
def rEZ_ASETCNT0 : Reg := ⟨0x300140, 32, 4096, 8, 8, 0x4000000, 0x0, false, false,
  [⟨31,24,.rc,0⟩, ⟨23,16,.rc,0⟩, ⟨15,8,.rc,0⟩, ⟨7,0,.rc,0⟩]⟩
def fEZ_ASETCNT0_OF_N : Field := ⟨rEZ_ASETCNT0, 31, 24⟩
def fEZ_ASETCNT0_DZ_N : Field := ⟨rEZ_ASETCNT0, 23, 16⟩
def fEZ_ASETCNT0_IV_N : Field := ⟨rEZ_ASETCNT0, 15, 8⟩
def fEZ_ASETCNT0_DV_N : Field := ⟨rEZ_ASETCNT0, 7, 0⟩
/-- EZ_ASETCNT1 (R190). -/
def rEZ_ASETCNT1 : Reg := ⟨0x300144, 32, 4096, 8, 8, 0x4000000, 0x0, false, false,
  [⟨15,8,.rc,0⟩, ⟨7,0,.rc,0⟩]⟩
def fEZ_ASETCNT1_IX_N : Field := ⟨rEZ_ASETCNT1, 15, 8⟩
def fEZ_ASETCNT1_UF_N : Field := ⟨rEZ_ASETCNT1, 7, 0⟩
/-- IC_CTL (R207). -/
def rIC_CTL : Reg := ⟨0x400000, 32, 16384, 1, 0, 0x0, 0x400000, true, false,
  [⟨31,31,.rwl,0⟩, ⟨19,16,.rwl,15⟩, ⟨0,0,.rwl,0⟩]⟩
def fIC_CTL_LOCK : Field := ⟨rIC_CTL, 31, 31⟩
def fIC_CTL_ACTTHR : Field := ⟨rIC_CTL, 19, 16⟩
def fIC_CTL_EN : Field := ⟨rIC_CTL, 0, 0⟩
/-- IC_STAT (R207). -/
def rIC_STAT : Reg := ⟨0x400004, 32, 16384, 1, 0, 0x0, 0x0, false, false,
  [⟨1,1,.w1c,0⟩, ⟨0,0,.w1c,0⟩]⟩
def fIC_STAT_SPUR : Field := ⟨rIC_STAT, 1, 1⟩
def fIC_STAT_EOIERR : Field := ⟨rIC_STAT, 0, 0⟩
/-- IC_SETCNT (R207). -/
def rIC_SETCNT : Reg := ⟨0x400008, 32, 16384, 1, 0, 0x0, 0x0, false, false,
  [⟨15,8,.rc,0⟩, ⟨7,0,.rc,0⟩]⟩
def fIC_SETCNT_SPUR_N : Field := ⟨rIC_SETCNT, 15, 8⟩
def fIC_SETCNT_EOIERR_N : Field := ⟨rIC_SETCNT, 7, 0⟩
/-- IC_RPRIO (R207). -/
def rIC_RPRIO : Reg := ⟨0x40000c, 32, 16384, 1, 0, 0x0, 0x0, false, false,
  [⟨31,28,.ro,0⟩, ⟨25,16,.ro,0⟩, ⟨8,8,.ro,0⟩, ⟨3,0,.ro,0⟩]⟩
def fIC_RPRIO_DEPTH : Field := ⟨rIC_RPRIO, 31, 28⟩
def fIC_RPRIO_TOPSRC : Field := ⟨rIC_RPRIO, 25, 16⟩
def fIC_RPRIO_LATCH : Field := ⟨rIC_RPRIO, 8, 8⟩
def fIC_RPRIO_RPRIO : Field := ⟨rIC_RPRIO, 3, 0⟩
/-- IC_SWI (R207). -/
def rIC_SWI : Reg := ⟨0x400010, 32, 16384, 1, 0, 0x0, 0x0, false, false,
  [⟨15,1,.w1s,0⟩]⟩
def fIC_SWI_SWI : Field := ⟨rIC_SWI, 15, 1⟩
/-- IC_PEND (R207). -/
def rIC_PEND : Reg := ⟨0x400100, 32, 16384, 32, 4, 0x0, 0x0, false, false,
  [⟨31,0,.ro,0⟩]⟩
def fIC_PEND_PEND : Field := ⟨rIC_PEND, 31, 0⟩
/-- IC_SRC (R207). -/
def rIC_SRC : Reg := ⟨0x401000, 32, 16384, 1020, 4, 0x0, 0x0, false, false,
  [⟨31,31,.rw,0⟩, ⟨27,16,.rw,0⟩, ⟨15,8,.rw,1⟩, ⟨3,0,.rw,0⟩]⟩
def fIC_SRC_EN : Field := ⟨rIC_SRC, 31, 31⟩
def fIC_SRC_MTIME : Field := ⟨rIC_SRC, 27, 16⟩
def fIC_SRC_MCNT : Field := ⟨rIC_SRC, 15, 8⟩
def fIC_SRC_PRIO : Field := ⟨rIC_SRC, 3, 0⟩
/-- IC_ROUTE (R207). -/
def rIC_ROUTE : Reg := ⟨0x480080, 56, 4, 1, 0, 0x0, 0x0, false, false,
  [⟨4,0,.rw,0⟩]⟩
def fIC_ROUTE_CORE : Field := ⟨rIC_ROUTE, 4, 0⟩
/-- EPn_CTL (R262). -/
def rEP_CTL : Reg := ⟨0x500000, 12, 4096, 1, 0, 0x0, 0x500000, true, false,
  [⟨31,31,.rwl,0⟩, ⟨4,1,.rwl,0⟩, ⟨0,0,.rwl,0⟩]⟩
def fEP_CTL_LOCK : Field := ⟨rEP_CTL, 31, 31⟩
def fEP_CTL_MODE : Field := ⟨rEP_CTL, 4, 1⟩
def fEP_CTL_EN : Field := ⟨rEP_CTL, 0, 0⟩
/-- EPn_STAT (R262). -/
def rEP_STAT : Reg := ⟨0x500004, 12, 4096, 1, 0, 0x0, 0x0, false, false,
  [⟨3,3,.w1c,0⟩, ⟨2,2,.w1c,0⟩, ⟨1,1,.w1c,0⟩, ⟨0,0,.w1c,0⟩]⟩
def fEP_STAT_DLATE : Field := ⟨rEP_STAT, 3, 3⟩
def fEP_STAT_SPEED : Field := ⟨rEP_STAT, 2, 2⟩
def fEP_STAT_CFGREF : Field := ⟨rEP_STAT, 1, 1⟩
def fEP_STAT_LINKDN : Field := ⟨rEP_STAT, 0, 0⟩
/-- EPn_SETCNT (R262). -/
def rEP_SETCNT : Reg := ⟨0x500008, 12, 4096, 1, 0, 0x0, 0x0, false, false,
  [⟨31,24,.rc,0⟩, ⟨23,16,.rc,0⟩, ⟨15,8,.rc,0⟩, ⟨7,0,.rc,0⟩]⟩
def fEP_SETCNT_DLATE_N : Field := ⟨rEP_SETCNT, 31, 24⟩
def fEP_SETCNT_SPEED_N : Field := ⟨rEP_SETCNT, 23, 16⟩
def fEP_SETCNT_CFGREF_N : Field := ⟨rEP_SETCNT, 15, 8⟩
def fEP_SETCNT_LINKDN_N : Field := ⟨rEP_SETCNT, 7, 0⟩
/-- EPn_LINK (R262). -/
def rEP_LINK : Reg := ⟨0x50000c, 12, 4096, 1, 0, 0x0, 0x0, false, false,
  [⟨31,16,.rc,0⟩, ⟨1,1,.ro,0⟩, ⟨0,0,.ro,0⟩]⟩
def fEP_LINK_RETRAINS : Field := ⟨rEP_LINK, 31, 16⟩
def fEP_LINK_FECLOCK : Field := ⟨rEP_LINK, 1, 1⟩
def fEP_LINK_UP : Field := ⟨rEP_LINK, 0, 0⟩
/-- EPn_MACLO (R262). -/
def rEP_MACLO : Reg := ⟨0x500010, 12, 4096, 1, 0, 0x0, 0x0, false, false,
  [⟨31,0,.rw,0⟩]⟩
def fEP_MACLO_MAC : Field := ⟨rEP_MACLO, 31, 0⟩
/-- EPn_MACHI (R262). -/
def rEP_MACHI : Reg := ⟨0x500014, 12, 4096, 1, 0, 0x0, 0x0, false, false,
  [⟨15,0,.rw,0⟩]⟩
def fEP_MACHI_MAC : Field := ⟨rEP_MACHI, 15, 0⟩
/-- EPn_EG (R262). -/
def rEP_EG : Reg := ⟨0x500018, 12, 4096, 1, 0, 0x0, 0x0, false, false,
  [⟨31,31,.rw,0⟩, ⟨15,0,.rw,0⟩]⟩
def fEP_EG_DEC : Field := ⟨rEP_EG, 31, 31⟩
def fEP_EG_DMAX : Field := ⟨rEP_EG, 15, 0⟩
/-- EPn_HF (R262). -/
def rEP_HF : Reg := ⟨0x50001c, 12, 4096, 1, 0, 0x0, 0x0, false, false,
  [⟨31,31,.rw,0⟩, ⟨30,30,.rw,0⟩, ⟨29,29,.rw,0⟩, ⟨8,0,.rw,511⟩]⟩
def fEP_HF_UNM : Field := ⟨rEP_HF, 31, 31⟩
def fEP_HF_SUP : Field := ⟨rEP_HF, 30, 30⟩
def fEP_HF_ANYSA : Field := ⟨rEP_HF, 29, 29⟩
def fEP_HF_OWNER : Field := ⟨rEP_HF, 8, 0⟩
/-- EPn_HFETYPE (R262). -/
def rEP_HFETYPE : Reg := ⟨0x500020, 12, 4096, 1, 0, 0x0, 0x0, false, false,
  [⟨31,16,.rw,0⟩, ⟨15,0,.rw,0⟩]⟩
def fEP_HFETYPE_ETYPE1 : Field := ⟨rEP_HFETYPE, 31, 16⟩
def fEP_HFETYPE_ETYPE0 : Field := ⟨rEP_HFETYPE, 15, 0⟩
/-- EPn_RDCFG (R262). -/
def rEP_RDCFG : Reg := ⟨0x500024, 6, 8192, 1, 0, 0x0, 0x0, false, false,
  [⟨29,16,.rw,2000⟩, ⟨13,4,.rw,400⟩, ⟨1,0,.rw,0⟩]⟩
def fEP_RDCFG_LIFE : Field := ⟨rEP_RDCFG, 29, 16⟩
def fEP_RDCFG_FORGET : Field := ⟨rEP_RDCFG, 13, 4⟩
def fEP_RDCFG_RED : Field := ⟨rEP_RDCFG, 1, 0⟩
/-- EPn_RB (R262). -/
def rEP_RB : Reg := ⟨0x500028, 6, 8192, 1, 0, 0x0, 0x0, false, false,
  [⟨3,0,.rw,0⟩]⟩
def fEP_RB_ILPORT : Field := ⟨rEP_RB, 3, 0⟩
/-- EPn_DTEN (R262). -/
def rEP_DTEN : Reg := ⟨0x500040, 12, 4096, 8, 4, 0x0, 0x0, false, false,
  [⟨31,0,.rw,0⟩]⟩
def fEP_DTEN_V : Field := ⟨rEP_DTEN, 31, 0⟩
/-- EPn_RXOK_CNT (R262). -/
def rEP_RXOK_CNT : Reg := ⟨0x500100, 12, 4096, 1, 0, 0x0, 0x0, false, false,
  [⟨31,0,.rc,0⟩]⟩
def fEP_RXOK_CNT_CNT : Field := ⟨rEP_RXOK_CNT, 31, 0⟩
/-- EPn_RXERR_CNT (R262). -/
def rEP_RXERR_CNT : Reg := ⟨0x500104, 12, 4096, 1, 0, 0x0, 0x0, false, false,
  [⟨31,0,.rc,0⟩]⟩
def fEP_RXERR_CNT_CNT : Field := ⟨rEP_RXERR_CNT, 31, 0⟩
/-- EPn_RXQ_CNT (R262). -/
def rEP_RXQ_CNT : Reg := ⟨0x500108, 12, 4096, 1, 0, 0x0, 0x0, false, false,
  [⟨31,0,.rc,0⟩]⟩
def fEP_RXQ_CNT_CNT : Field := ⟨rEP_RXQ_CNT, 31, 0⟩
/-- EPn_RXCTL_CNT (R262). -/
def rEP_RXCTL_CNT : Reg := ⟨0x50010c, 12, 4096, 1, 0, 0x0, 0x0, false, false,
  [⟨31,0,.rc,0⟩]⟩
def fEP_RXCTL_CNT_CNT : Field := ⟨rEP_RXCTL_CNT, 31, 0⟩
/-- EPn_DUPEVICT_CNT (R262). -/
def rEP_DUPEVICT_CNT : Reg := ⟨0x500110, 12, 4096, 1, 0, 0x0, 0x0, false, false,
  [⟨31,0,.rc,0⟩]⟩
def fEP_DUPEVICT_CNT_CNT : Field := ⟨rEP_DUPEVICT_CNT, 31, 0⟩
/-- EPn_TXOK_CNT (R262). -/
def rEP_TXOK_CNT : Reg := ⟨0x500114, 12, 4096, 1, 0, 0x0, 0x0, false, false,
  [⟨31,0,.rc,0⟩]⟩
def fEP_TXOK_CNT_CNT : Field := ⟨rEP_TXOK_CNT, 31, 0⟩
/-- EPn_TXREF_CNT (R262). -/
def rEP_TXREF_CNT : Reg := ⟨0x500118, 12, 4096, 1, 0, 0x0, 0x0, false, false,
  [⟨31,0,.rc,0⟩]⟩
def fEP_TXREF_CNT_CNT : Field := ⟨rEP_TXREF_CNT, 31, 0⟩
/-- EPn_TXLOST_CNT (R262). -/
def rEP_TXLOST_CNT : Reg := ⟨0x50011c, 12, 4096, 1, 0, 0x0, 0x0, false, false,
  [⟨31,0,.rc,0⟩]⟩
def fEP_TXLOST_CNT_CNT : Field := ⟨rEP_TXLOST_CNT, 31, 0⟩
/-- FE_LSTAT (R263). -/
def rFE_LSTAT : Reg := ⟨0x510000, 12, 4096, 1, 0, 0x0, 0x0, false, false,
  [⟨4,4,.w1c,0⟩, ⟨3,3,.w1c,0⟩, ⟨2,2,.w1c,0⟩, ⟨1,1,.w1c,0⟩, ⟨0,0,.w1c,0⟩]⟩
def fFE_LSTAT_UNSUP : Field := ⟨rFE_LSTAT, 4, 4⟩
def fFE_LSTAT_MALFORM : Field := ⟨rFE_LSTAT, 3, 3⟩
def fFE_LSTAT_RINGDROP : Field := ⟨rFE_LSTAT, 2, 2⟩
def fFE_LSTAT_NOMATCH : Field := ⟨rFE_LSTAT, 1, 1⟩
def fFE_LSTAT_AUTHFAIL : Field := ⟨rFE_LSTAT, 0, 0⟩
/-- FE_LSETCNT (R263). -/
def rFE_LSETCNT : Reg := ⟨0x510004, 12, 4096, 1, 0, 0x0, 0x0, false, false,
  [⟨31,24,.rc,0⟩, ⟨23,16,.rc,0⟩, ⟨15,8,.rc,0⟩, ⟨7,0,.rc,0⟩]⟩
def fFE_LSETCNT_RINGDROP_N : Field := ⟨rFE_LSETCNT, 31, 24⟩
def fFE_LSETCNT_MALFORM_N : Field := ⟨rFE_LSETCNT, 23, 16⟩
def fFE_LSETCNT_NOMATCH_N : Field := ⟨rFE_LSETCNT, 15, 8⟩
def fFE_LSETCNT_AUTHFAIL_N : Field := ⟨rFE_LSETCNT, 7, 0⟩
/-- FE_AUTHFAIL_CNT (R263). -/
def rFE_AUTHFAIL_CNT : Reg := ⟨0x510010, 12, 4096, 1, 0, 0x0, 0x0, false, false,
  [⟨31,0,.rc,0⟩]⟩
def fFE_AUTHFAIL_CNT_CNT : Field := ⟨rFE_AUTHFAIL_CNT, 31, 0⟩
/-- FE_NOMATCH_CNT (R263). -/
def rFE_NOMATCH_CNT : Reg := ⟨0x510014, 12, 4096, 1, 0, 0x0, 0x0, false, false,
  [⟨31,0,.rc,0⟩]⟩
def fFE_NOMATCH_CNT_CNT : Field := ⟨rFE_NOMATCH_CNT, 31, 0⟩
/-- FE_RINGDROP_CNT (R263). -/
def rFE_RINGDROP_CNT : Reg := ⟨0x510018, 12, 4096, 1, 0, 0x0, 0x0, false, false,
  [⟨31,0,.rc,0⟩]⟩
def fFE_RINGDROP_CNT_CNT : Field := ⟨rFE_RINGDROP_CNT, 31, 0⟩
/-- FE_MALFORM_CNT (R263). -/
def rFE_MALFORM_CNT : Reg := ⟨0x51001c, 12, 4096, 1, 0, 0x0, 0x0, false, false,
  [⟨31,0,.rc,0⟩]⟩
def fFE_MALFORM_CNT_CNT : Field := ⟨rFE_MALFORM_CNT, 31, 0⟩
/-- FE_LABORT (R283). -/
def rFE_LABORT : Reg := ⟨0x510020, 12, 4096, 1, 0, 0x0, 0x0, false, false,
  [⟨31,31,.ro,0⟩, ⟨29,16,.ro,0⟩, ⟨3,0,.ro,0⟩]⟩
def fFE_LABORT_LATE : Field := ⟨rFE_LABORT, 31, 31⟩
def fFE_LABORT_PC : Field := ⟨rFE_LABORT, 29, 16⟩
def fFE_LABORT_CAUSE : Field := ⟨rFE_LABORT, 3, 0⟩
/-- FE_LABORT_CNT (R283). -/
def rFE_LABORT_CNT : Reg := ⟨0x510024, 12, 4096, 1, 0, 0x0, 0x0, false, false,
  [⟨31,0,.rc,0⟩]⟩
def fFE_LABORT_CNT_CNT : Field := ⟨rFE_LABORT_CNT, 31, 0⟩
/-- FE_CTL (R283). -/
def rFE_CTL : Reg := ⟨0x520000, 1, 4, 1, 0, 0x0, 0x520000, false, false,
  [⟨31,31,.rwl,0⟩, ⟨0,0,.rwl,0⟩]⟩
def fFE_CTL_LOCK : Field := ⟨rFE_CTL, 31, 31⟩
def fFE_CTL_RUN : Field := ⟨rFE_CTL, 0, 0⟩
/-- FE_USTAT (R283). -/
def rFE_USTAT : Reg := ⟨0x520004, 1, 4, 1, 0, 0x0, 0x0, false, false,
  [⟨5,5,.w1c,0⟩, ⟨4,4,.w1c,0⟩, ⟨3,3,.w1c,0⟩, ⟨2,2,.w1c,0⟩, ⟨1,1,.w1c,0⟩, ⟨0,0,.w1c,0⟩]⟩
def fFE_USTAT_PTREF : Field := ⟨rFE_USTAT, 5, 5⟩
def fFE_USTAT_ABORT : Field := ⟨rFE_USTAT, 4, 4⟩
def fFE_USTAT_UE : Field := ⟨rFE_USTAT, 3, 3⟩
def fFE_USTAT_CE : Field := ⟨rFE_USTAT, 2, 2⟩
def fFE_USTAT_LOADREF : Field := ⟨rFE_USTAT, 1, 1⟩
def fFE_USTAT_LOADOK : Field := ⟨rFE_USTAT, 0, 0⟩
/-- FE_USETCNT0 (R283). -/
def rFE_USETCNT0 : Reg := ⟨0x520008, 1, 4, 1, 0, 0x0, 0x0, false, false,
  [⟨31,24,.rc,0⟩, ⟨23,16,.rc,0⟩, ⟨15,8,.rc,0⟩, ⟨7,0,.rc,0⟩]⟩
def fFE_USETCNT0_UE_N : Field := ⟨rFE_USETCNT0, 31, 24⟩
def fFE_USETCNT0_CE_N : Field := ⟨rFE_USETCNT0, 23, 16⟩
def fFE_USETCNT0_LOADREF_N : Field := ⟨rFE_USETCNT0, 15, 8⟩
def fFE_USETCNT0_LOADOK_N : Field := ⟨rFE_USETCNT0, 7, 0⟩
/-- FE_USETCNT1 (R283). -/
def rFE_USETCNT1 : Reg := ⟨0x52000c, 1, 4, 1, 0, 0x0, 0x0, false, false,
  [⟨15,8,.rc,0⟩, ⟨7,0,.rc,0⟩]⟩
def fFE_USETCNT1_PTREF_N : Field := ⟨rFE_USETCNT1, 15, 8⟩
def fFE_USETCNT1_ABORT_N : Field := ⟨rFE_USETCNT1, 7, 0⟩
/-- FE_UCODE_VER (R283). -/
def rFE_UCODE_VER : Reg := ⟨0x520010, 1, 4, 1, 0, 0x0, 0x0, false, false,
  [⟨31,16,.ro,0⟩, ⟨15,0,.ro,0⟩]⟩
def fFE_UCODE_VER_VVER : Field := ⟨rFE_UCODE_VER, 31, 16⟩
def fFE_UCODE_VER_CVER : Field := ⟨rFE_UCODE_VER, 15, 0⟩
/-- FE_LOAD (R283). -/
def rFE_LOAD : Reg := ⟨0x520014, 1, 4, 1, 0, 0x0, 0x0, false, false,
  [⟨31,31,.w1s,0⟩, ⟨19,16,.ro,0⟩, ⟨9,8,.ro,0⟩]⟩
def fFE_LOAD_GO : Field := ⟨rFE_LOAD, 31, 31⟩
def fFE_LOAD_REASON : Field := ⟨rFE_LOAD, 19, 16⟩
def fFE_LOAD_STATE : Field := ⟨rFE_LOAD, 9, 8⟩
/-- FE_UE_ADDR (R283). -/
def rFE_UE_ADDR : Reg := ⟨0x520018, 1, 4, 1, 0, 0x0, 0x0, false, false,
  [⟨13,0,.ro,0⟩]⟩
def fFE_UE_ADDR_WORD : Field := ⟨rFE_UE_ADDR, 13, 0⟩
/-- FE_CE_CNT (R283). -/
def rFE_CE_CNT : Reg := ⟨0x52001c, 1, 4, 1, 0, 0x0, 0x0, false, false,
  [⟨15,0,.rc,0⟩]⟩
def fFE_CE_CNT_CNT : Field := ⟨rFE_CE_CNT, 15, 0⟩
/-- FE_STAGE (R283). -/
def rFE_STAGE : Reg := ⟨0x600000, 16384, 4, 1, 0, 0x0, 0x0, false, false,
  [⟨31,0,.wo,0⟩]⟩
def fFE_STAGE_DATA : Field := ⟨rFE_STAGE, 31, 0⟩
/-- FE_STORE (R283). -/
def rFE_STORE : Reg := ⟨0x610000, 16384, 4, 1, 0, 0x0, 0x0, false, false,
  [⟨31,0,.ro,0⟩]⟩
def fFE_STORE_V : Field := ⟨rFE_STORE, 31, 0⟩
/-- CS_CTL (R303). -/
def rCS_CTL : Reg := ⟨0x700000, 1, 4, 1, 0, 0x0, 0x700000, false, false,
  [⟨31,31,.rwl,0⟩, ⟨0,0,.rwl,0⟩]⟩
def fCS_CTL_LOCK : Field := ⟨rCS_CTL, 31, 31⟩
def fCS_CTL_EVEN : Field := ⟨rCS_CTL, 0, 0⟩
/-- CS_STAT (R303). -/
def rCS_STAT : Reg := ⟨0x700004, 1, 4, 1, 0, 0x0, 0x0, false, false,
  [⟨3,3,.w1c,0⟩, ⟨2,2,.w1c,0⟩, ⟨1,1,.w1c,0⟩, ⟨0,0,.w1c,0⟩]⟩
def fCS_STAT_DSREF : Field := ⟨rCS_STAT, 3, 3⟩
def fCS_STAT_WREF : Field := ⟨rCS_STAT, 2, 2⟩
def fCS_STAT_EVLOST : Field := ⟨rCS_STAT, 1, 1⟩
def fCS_STAT_COL : Field := ⟨rCS_STAT, 0, 0⟩
/-- CS_SETCNT (R303). -/
def rCS_SETCNT : Reg := ⟨0x700008, 1, 4, 1, 0, 0x0, 0x0, false, false,
  [⟨31,24,.rc,0⟩, ⟨23,16,.rc,0⟩, ⟨15,8,.rc,0⟩, ⟨7,0,.rc,0⟩]⟩
def fCS_SETCNT_DSREF_N : Field := ⟨rCS_SETCNT, 31, 24⟩
def fCS_SETCNT_WREF_N : Field := ⟨rCS_SETCNT, 23, 16⟩
def fCS_SETCNT_EVLOST_N : Field := ⟨rCS_SETCNT, 15, 8⟩
def fCS_SETCNT_COL_N : Field := ⟨rCS_SETCNT, 7, 0⟩
/-- CS_COL_CNT (R303). -/
def rCS_COL_CNT : Reg := ⟨0x70000c, 1, 4, 1, 0, 0x0, 0x0, false, false,
  [⟨31,24,.rc,0⟩, ⟨23,16,.rc,0⟩, ⟨15,8,.rc,0⟩, ⟨7,0,.rc,0⟩]⟩
def fCS_COL_CNT_TU : Field := ⟨rCS_COL_CNT, 31, 24⟩
def fCS_COL_CNT_HOST : Field := ⟨rCS_COL_CNT, 23, 16⟩
def fCS_COL_CNT_EZ : Field := ⟨rCS_COL_CNT, 15, 8⟩
def fCS_COL_CNT_FE : Field := ⟨rCS_COL_CNT, 7, 0⟩
/-- CS_EVDROP_CNT (R303). -/
def rCS_EVDROP_CNT : Reg := ⟨0x700010, 1, 4, 1, 0, 0x0, 0x0, false, false,
  [⟨31,0,.rc,0⟩]⟩
def fCS_EVDROP_CNT_CNT : Field := ⟨rCS_EVDROP_CNT, 31, 0⟩
/-- CS_EVOK_CNT (R303). -/
def rCS_EVOK_CNT : Reg := ⟨0x700014, 1, 4, 1, 0, 0x0, 0x0, false, false,
  [⟨31,0,.rc,0⟩]⟩
def fCS_EVOK_CNT_CNT : Field := ⟨rCS_EVOK_CNT, 31, 0⟩
/-- CS_DSDIR (R303). -/
def rCS_DSDIR : Reg := ⟨0x708000, 8192, 4, 1, 0, 0x0, 0x0, false, true,
  [⟨31,31,.rw,0⟩, ⟨22,16,.rw,0⟩, ⟨15,0,.rw,0⟩]⟩
/-- CS_DSMEM (R303). -/
def rCS_DSMEM : Reg := ⟨0x740000, 65536, 4, 1, 0, 0x0, 0x0, false, true,
  [⟨18,0,.rw,0⟩]⟩
def fCS_DSMEM_ENTRY : Field := ⟨rCS_DSMEM, 18, 0⟩
/-- TU_CTL (R318). -/
def rTU_CTL : Reg := ⟨0x800000, 1, 4, 1, 0, 0x0, 0x800000, false, false,
  [⟨31,31,.rwl,0⟩, ⟨27,16,.rwl,1000⟩, ⟨9,8,.rwl,0⟩, ⟨5,4,.rw,1⟩, ⟨1,1,.rw,0⟩, ⟨0,0,.rwl,0⟩]⟩
def fTU_CTL_LOCK : Field := ⟨rTU_CTL, 31, 31⟩
def fTU_CTL_STEPTHR : Field := ⟨rTU_CTL, 27, 16⟩
def fTU_CTL_SLEWMAX : Field := ⟨rTU_CTL, 9, 8⟩
def fTU_CTL_PPSW : Field := ⟨rTU_CTL, 5, 4⟩
def fTU_CTL_PPSOE : Field := ⟨rTU_CTL, 1, 1⟩
def fTU_CTL_EN : Field := ⟨rTU_CTL, 0, 0⟩
/-- TU_STAT (R318). -/
def rTU_STAT : Reg := ⟨0x800004, 1, 4, 1, 0, 0x0, 0x0, false, false,
  [⟨4,4,.w1c,0⟩, ⟨3,3,.w1c,0⟩, ⟨2,2,.w1c,0⟩, ⟨1,1,.w1c,0⟩, ⟨0,0,.w1c,0⟩]⟩
def fTU_STAT_LEAP : Field := ⟨rTU_STAT, 4, 4⟩
def fTU_STAT_FREERUN : Field := ⟨rTU_STAT, 3, 3⟩
def fTU_STAT_HOLD : Field := ⟨rTU_STAT, 2, 2⟩
def fTU_STAT_SRCCHG : Field := ⟨rTU_STAT, 1, 1⟩
def fTU_STAT_STEP : Field := ⟨rTU_STAT, 0, 0⟩
/-- TU_SETCNT (R318). -/
def rTU_SETCNT : Reg := ⟨0x800008, 1, 4, 1, 0, 0x0, 0x0, false, false,
  [⟨31,24,.rc,0⟩, ⟨23,16,.rc,0⟩, ⟨15,8,.rc,0⟩, ⟨7,0,.rc,0⟩]⟩
def fTU_SETCNT_FREERUN_N : Field := ⟨rTU_SETCNT, 31, 24⟩
def fTU_SETCNT_HOLD_N : Field := ⟨rTU_SETCNT, 23, 16⟩
def fTU_SETCNT_SRCCHG_N : Field := ⟨rTU_SETCNT, 15, 8⟩
def fTU_SETCNT_STEP_N : Field := ⟨rTU_SETCNT, 7, 0⟩
/-- TU_NOW_NS (R318). -/
def rTU_NOW_NS : Reg := ⟨0x800010, 1, 4, 1, 0, 0x0, 0x0, false, false,
  [⟨31,0,.ro,0⟩]⟩
def fTU_NOW_NS_NS : Field := ⟨rTU_NOW_NS, 31, 0⟩
/-- TU_NOW_SLO (R318). -/
def rTU_NOW_SLO : Reg := ⟨0x800014, 1, 4, 1, 0, 0x0, 0x0, false, false,
  [⟨31,0,.ro,0⟩]⟩
def fTU_NOW_SLO_S : Field := ⟨rTU_NOW_SLO, 31, 0⟩
/-- TU_NOW_SHI (R318). -/
def rTU_NOW_SHI : Reg := ⟨0x800018, 1, 4, 1, 0, 0x0, 0x0, false, false,
  [⟨15,0,.ro,0⟩]⟩
def fTU_NOW_SHI_S : Field := ⟨rTU_NOW_SHI, 15, 0⟩
/-- TU_UTCOFF (R318). -/
def rTU_UTCOFF : Reg := ⟨0x80001c, 1, 4, 1, 0, 0x0, 0x0, false, false,
  [⟨15,0,.rw,0⟩]⟩
def fTU_UTCOFF_OFF : Field := ⟨rTU_UTCOFF, 15, 0⟩
/-- TU_SRCCFG (R318). -/
def rTU_SRCCFG : Reg := ⟨0x800020, 1, 4, 1, 0, 0x0, 0x0, false, false,
  [⟨18,16,.rw,0⟩, ⟨14,12,.rw,0⟩, ⟨10,8,.rw,0⟩, ⟨6,4,.rw,0⟩, ⟨2,0,.rw,0⟩]⟩
def fTU_SRCCFG_RANK4 : Field := ⟨rTU_SRCCFG, 18, 16⟩
def fTU_SRCCFG_RANK3 : Field := ⟨rTU_SRCCFG, 14, 12⟩
def fTU_SRCCFG_RANK2 : Field := ⟨rTU_SRCCFG, 10, 8⟩
def fTU_SRCCFG_RANK1 : Field := ⟨rTU_SRCCFG, 6, 4⟩
def fTU_SRCCFG_RANK0 : Field := ⟨rTU_SRCCFG, 2, 0⟩
/-- TU_SEL (R318). -/
def rTU_SEL : Reg := ⟨0x800024, 1, 4, 1, 0, 0x0, 0x0, false, false,
  [⟨30,28,.ro,0⟩, ⟨26,24,.ro,7⟩, ⟨20,20,.ro,0⟩, ⟨12,8,.ro,0⟩, ⟨7,0,.ro,31⟩]⟩
def fTU_SEL_STATE : Field := ⟨rTU_SEL, 30, 28⟩
def fTU_SEL_TIMESRC : Field := ⟨rTU_SEL, 26, 24⟩
def fTU_SEL_FREQREF : Field := ⟨rTU_SEL, 20, 20⟩
def fTU_SEL_QUAL : Field := ⟨rTU_SEL, 12, 8⟩
def fTU_SEL_TACC : Field := ⟨rTU_SEL, 7, 0⟩
/-- TU_OFFSET (R318). -/
def rTU_OFFSET : Reg := ⟨0x800028, 1, 4, 1, 0, 0x0, 0x0, false, false,
  [⟨31,0,.ro,0⟩]⟩
def fTU_OFFSET_OFS : Field := ⟨rTU_OFFSET, 31, 0⟩
/-- TU_HOLD (R318). -/
def rTU_HOLD : Reg := ⟨0x80002c, 1, 4, 1, 0, 0x0, 0x0, false, false,
  [⟨23,16,.rw,5⟩, ⟨15,0,.rw,1000⟩]⟩
def fTU_HOLD_DRIFT : Field := ⟨rTU_HOLD, 23, 16⟩
def fTU_HOLD_ERRMAX : Field := ⟨rTU_HOLD, 15, 0⟩
/-- TU_HOLDEST (R318). -/
def rTU_HOLDEST : Reg := ⟨0x800030, 1, 4, 1, 0, 0x0, 0x0, false, false,
  [⟨31,0,.ro,0⟩]⟩
def fTU_HOLDEST_E : Field := ⟨rTU_HOLDEST, 31, 0⟩
/-- TU_PPSDLY (R318). -/
def rTU_PPSDLY : Reg := ⟨0x800034, 1, 4, 1, 0, 0x0, 0x0, false, false,
  [⟨15,0,.rw,0⟩]⟩
def fTU_PPSDLY_DLY : Field := ⟨rTU_PPSDLY, 15, 0⟩
/-- TU_PPSSTAMP (R318). -/
def rTU_PPSSTAMP : Reg := ⟨0x800038, 1, 4, 1, 0, 0x0, 0x0, false, false,
  [⟨31,0,.ro,0⟩]⟩
def fTU_PPSSTAMP_NS : Field := ⟨rTU_PPSSTAMP, 31, 0⟩
/-- TU_PTPDS (R318). -/
def rTU_PTPDS : Reg := ⟨0x800040, 1, 4, 1, 0, 0x0, 0x0, false, false,
  [⟨31,24,.rw,128⟩, ⟨23,16,.rw,128⟩, ⟨15,8,.rw,248⟩, ⟨7,0,.rw,0⟩]⟩
def fTU_PTPDS_P1 : Field := ⟨rTU_PTPDS, 31, 24⟩
def fTU_PTPDS_P2 : Field := ⟨rTU_PTPDS, 23, 16⟩
def fTU_PTPDS_CLASS : Field := ⟨rTU_PTPDS, 15, 8⟩
def fTU_PTPDS_DOMAIN : Field := ⟨rTU_PTPDS, 7, 0⟩
/-- TU_PTPROLE (R318). -/
def rTU_PTPROLE : Reg := ⟨0x800044, 1, 4, 1, 0, 0x0, 0x0, false, false,
  [⟨25,24,.rw,1⟩, ⟨23,0,.rw,0⟩]⟩
def fTU_PTPROLE_PROFILE : Field := ⟨rTU_PTPROLE, 25, 24⟩
def fTU_PTPROLE_ROLE : Field := ⟨rTU_PTPROLE, 23, 0⟩
/-- TU_IRIG (R318). -/
def rTU_IRIG : Reg := ⟨0x800048, 1, 4, 1, 0, 0x0, 0x0, false, false,
  [⟨31,16,.rw,0⟩, ⟨2,2,.rw,0⟩]⟩
def fTU_IRIG_YEAR : Field := ⟨rTU_IRIG, 31, 16⟩
def fTU_IRIG_EXT : Field := ⟨rTU_IRIG, 2, 2⟩
/-- TU_PTBASE (R318). -/
def rTU_PTBASE : Reg := ⟨0x80004c, 1, 4, 1, 0, 0x0, 0x0, false, false,
  [⟨31,31,.rw,0⟩, ⟨16,0,.rw,0⟩]⟩
def fTU_PTBASE_EN : Field := ⟨rTU_PTBASE, 31, 31⟩
def fTU_PTBASE_BASE : Field := ⟨rTU_PTBASE, 16, 0⟩
/-- TU_SETSEC (R318). -/
def rTU_SETSEC : Reg := ⟨0x800050, 1, 4, 1, 0, 0x0, 0x0, false, false,
  [⟨31,0,.wo,0⟩]⟩
def fTU_SETSEC_S : Field := ⟨rTU_SETSEC, 31, 0⟩
/-- HI_CTL (R342). -/
def rHI_CTL : Reg := ⟨0x900000, 1, 4, 1, 0, 0x0, 0x900000, false, false,
  [⟨31,31,.rwl,0⟩, ⟨1,1,.rwl,0⟩, ⟨0,0,.rw,0⟩]⟩
def fHI_CTL_LOCK : Field := ⟨rHI_CTL, 31, 31⟩
def fHI_CTL_CLRMODE : Field := ⟨rHI_CTL, 1, 1⟩
def fHI_CTL_EN : Field := ⟨rHI_CTL, 0, 0⟩
/-- HI_STAT (R342). -/
def rHI_STAT : Reg := ⟨0x900004, 1, 4, 1, 0, 0x0, 0x0, false, false,
  [⟨4,4,.w1c,0⟩, ⟨3,3,.w1c,0⟩, ⟨2,2,.w1c,0⟩, ⟨1,1,.w1c,0⟩, ⟨0,0,.w1c,0⟩]⟩
def fHI_STAT_CFGREF : Field := ⟨rHI_STAT, 4, 4⟩
def fHI_STAT_LINKDN : Field := ⟨rHI_STAT, 3, 3⟩
def fHI_STAT_IDXERR : Field := ⟨rHI_STAT, 2, 2⟩
def fHI_STAT_HOSTERR : Field := ⟨rHI_STAT, 1, 1⟩
def fHI_STAT_NOBUF : Field := ⟨rHI_STAT, 0, 0⟩
/-- HI_SETCNT (R342). -/
def rHI_SETCNT : Reg := ⟨0x900008, 1, 4, 1, 0, 0x0, 0x0, false, false,
  [⟨31,24,.rc,0⟩, ⟨23,16,.rc,0⟩, ⟨15,8,.rc,0⟩, ⟨7,0,.rc,0⟩]⟩
def fHI_SETCNT_LINKDN_N : Field := ⟨rHI_SETCNT, 31, 24⟩
def fHI_SETCNT_IDXERR_N : Field := ⟨rHI_SETCNT, 23, 16⟩
def fHI_SETCNT_HOSTERR_N : Field := ⟨rHI_SETCNT, 15, 8⟩
def fHI_SETCNT_NOBUF_N : Field := ⟨rHI_SETCNT, 7, 0⟩
/-- HI_POLL (R342). -/
def rHI_POLL : Reg := ⟨0x90000c, 1, 4, 1, 0, 0x0, 0x0, false, false,
  [⟨19,0,.rw,2000⟩]⟩
def fHI_POLL_PERIOD : Field := ⟨rHI_POLL, 19, 0⟩
/-- HI_SUMBASE_LO (R342). -/
def rHI_SUMBASE_LO : Reg := ⟨0x900010, 1, 4, 1, 0, 0x0, 0x900000, false, false,
  [⟨31,6,.rwl,0⟩]⟩
def fHI_SUMBASE_LO_BASE : Field := ⟨rHI_SUMBASE_LO, 31, 6⟩
/-- HI_SUMBASE_HI (R342). -/
def rHI_SUMBASE_HI : Reg := ⟨0x900014, 1, 4, 1, 0, 0x0, 0x900000, false, false,
  [⟨31,0,.rwl,0⟩]⟩
def fHI_SUMBASE_HI_BASE : Field := ⟨rHI_SUMBASE_HI, 31, 0⟩
/-- HI_DBBASE_LO (R342). -/
def rHI_DBBASE_LO : Reg := ⟨0x900018, 1, 4, 1, 0, 0x0, 0x900000, false, false,
  [⟨31,6,.rwl,0⟩]⟩
def fHI_DBBASE_LO_BASE : Field := ⟨rHI_DBBASE_LO, 31, 6⟩
/-- HI_DBBASE_HI (R342). -/
def rHI_DBBASE_HI : Reg := ⟨0x90001c, 1, 4, 1, 0, 0x0, 0x900000, false, false,
  [⟨31,0,.rwl,0⟩]⟩
def fHI_DBBASE_HI_BASE : Field := ⟨rHI_DBBASE_HI, 31, 0⟩
/-- HI_STBASE_LO (R342). -/
def rHI_STBASE_LO : Reg := ⟨0x900020, 1, 4, 1, 0, 0x0, 0x900000, false, false,
  [⟨31,6,.rwl,0⟩]⟩
def fHI_STBASE_LO_BASE : Field := ⟨rHI_STBASE_LO, 31, 6⟩
/-- HI_STBASE_HI (R342). -/
def rHI_STBASE_HI : Reg := ⟨0x900024, 1, 4, 1, 0, 0x0, 0x900000, false, false,
  [⟨31,0,.rwl,0⟩]⟩
def fHI_STBASE_HI_BASE : Field := ⟨rHI_STBASE_HI, 31, 0⟩
/-- HI_RDTMO (R342). -/
def rHI_RDTMO : Reg := ⟨0x900028, 1, 4, 1, 0, 0x0, 0x0, false, false,
  [⟨15,0,.rw,50⟩]⟩
def fHI_RDTMO_TMO : Field := ⟨rHI_RDTMO, 15, 0⟩
/-- HI_ERRINFO (R342). -/
def rHI_ERRINFO : Reg := ⟨0x90002c, 1, 4, 1, 0, 0x0, 0x0, false, false,
  [⟨24,16,.ro,0⟩, ⟨10,8,.ro,0⟩, ⟨3,0,.ro,0⟩]⟩
def fHI_ERRINFO_SET : Field := ⟨rHI_ERRINFO, 24, 16⟩
def fHI_ERRINFO_RING : Field := ⟨rHI_ERRINFO, 10, 8⟩
def fHI_ERRINFO_KIND : Field := ⟨rHI_ERRINFO, 3, 0⟩
/-- HI_ERRADDR_LO (R342). -/
def rHI_ERRADDR_LO : Reg := ⟨0x900030, 1, 4, 1, 0, 0x0, 0x0, false, false,
  [⟨31,0,.ro,0⟩]⟩
def fHI_ERRADDR_LO_V : Field := ⟨rHI_ERRADDR_LO, 31, 0⟩
/-- HI_ERRADDR_HI (R342). -/
def rHI_ERRADDR_HI : Reg := ⟨0x900034, 1, 4, 1, 0, 0x0, 0x0, false, false,
  [⟨31,0,.ro,0⟩]⟩
def fHI_ERRADDR_HI_V : Field := ⟨rHI_ERRADDR_HI, 31, 0⟩
/-- HI_LINK (R342). -/
def rHI_LINK : Reg := ⟨0x900038, 1, 4, 1, 0, 0x0, 0x0, false, false,
  [⟨31,31,.ro,0⟩, ⟨19,16,.ro,0⟩, ⟨3,0,.ro,0⟩]⟩
def fHI_LINK_UP : Field := ⟨rHI_LINK, 31, 31⟩
def fHI_LINK_WIDTH : Field := ⟨rHI_LINK, 19, 16⟩
def fHI_LINK_GEN : Field := ⟨rHI_LINK, 3, 0⟩
/-- HI_HFDROP_CNT (R342). -/
def rHI_HFDROP_CNT : Reg := ⟨0x90003c, 1, 4, 1, 0, 0x0, 0x0, false, false,
  [⟨31,0,.rc,0⟩]⟩
def fHI_HFDROP_CNT_CNT : Field := ⟨rHI_HFDROP_CNT, 31, 0⟩
/-- HI_TN_BASE_LO (R342). -/
def rHI_TN_BASE_LO : Reg := ⟨0x901000, 257, 64, 5, 8, 0x0, 0x0, false, false,
  [⟨31,6,.rw,0⟩]⟩
def fHI_TN_BASE_LO_BASE : Field := ⟨rHI_TN_BASE_LO, 31, 6⟩
/-- HI_TN_BASE_HI (R342). -/
def rHI_TN_BASE_HI : Reg := ⟨0x901004, 257, 64, 5, 8, 0x0, 0x0, false, false,
  [⟨31,0,.rw,0⟩]⟩
def fHI_TN_BASE_HI_V : Field := ⟨rHI_TN_BASE_HI, 31, 0⟩
/-- HI_TN_SIZE (R342). -/
def rHI_TN_SIZE : Reg := ⟨0x901028, 257, 64, 1, 0, 0x0, 0x0, false, false,
  [⟨19,16,.rw,0⟩, ⟨15,12,.rw,0⟩, ⟨11,8,.rw,0⟩, ⟨7,4,.rw,0⟩, ⟨3,0,.rw,0⟩]⟩
def fHI_TN_SIZE_RX : Field := ⟨rHI_TN_SIZE, 19, 16⟩
def fHI_TN_SIZE_TX : Field := ⟨rHI_TN_SIZE, 15, 12⟩
def fHI_TN_SIZE_EVT : Field := ⟨rHI_TN_SIZE, 11, 8⟩
def fHI_TN_SIZE_CPL : Field := ⟨rHI_TN_SIZE, 7, 4⟩
def fHI_TN_SIZE_CMD : Field := ⟨rHI_TN_SIZE, 3, 0⟩
/-- HI_TN_VEC (R342). -/
def rHI_TN_VEC : Reg := ⟨0x90102c, 257, 64, 1, 0, 0x0, 0x0, false, false,
  [⟨23,16,.rw,0⟩, ⟨15,8,.rw,0⟩, ⟨7,0,.rw,0⟩]⟩
def fHI_TN_VEC_RXVEC : Field := ⟨rHI_TN_VEC, 23, 16⟩
def fHI_TN_VEC_EVTVEC : Field := ⟨rHI_TN_VEC, 15, 8⟩
def fHI_TN_VEC_CPLVEC : Field := ⟨rHI_TN_VEC, 7, 0⟩
/-- HI_TN_CTL (R342). -/
def rHI_TN_CTL : Reg := ⟨0x901030, 257, 64, 1, 0, 0x0, 0x0, false, false,
  [⟨31,31,.w1s,0⟩, ⟨8,8,.ro,0⟩, ⟨0,0,.rw,0⟩]⟩
def fHI_TN_CTL_RESTART : Field := ⟨rHI_TN_CTL, 31, 31⟩
def fHI_TN_CTL_HALT : Field := ⟨rHI_TN_CTL, 8, 8⟩
def fHI_TN_CTL_EN : Field := ⟨rHI_TN_CTL, 0, 0⟩
/-- HI_HROUTE (R342). -/
def rHI_HROUTE : Reg := ⟨0x908080, 56, 4, 1, 0, 0x0, 0x0, false, false,
  [⟨31,31,.rw,0⟩, ⟨7,0,.rw,0⟩]⟩
def fHI_HROUTE_EN : Field := ⟨rHI_HROUTE, 31, 31⟩
def fHI_HROUTE_VEC : Field := ⟨rHI_HROUTE, 7, 0⟩
/-- HI_VMOD (R342). -/
def rHI_VMOD : Reg := ⟨0x909000, 256, 4, 1, 0, 0x0, 0x0, false, false,
  [⟨27,16,.rw,0⟩, ⟨15,8,.rw,1⟩]⟩
def fHI_VMOD_MTIME : Field := ⟨rHI_VMOD, 27, 16⟩
def fHI_VMOD_MCNT : Field := ⟨rHI_VMOD, 15, 8⟩
/-- MSIX_TABLE (R319). -/
def rMSIX_TABLE : Reg := ⟨0x940000, 1024, 4, 1, 0, 0x0, 0x0, false, false,
  [⟨31,0,.rw,0⟩]⟩
def fMSIX_TABLE_V : Field := ⟨rMSIX_TABLE, 31, 0⟩
/-- MSIX_PBA (R319). -/
def rMSIX_PBA : Reg := ⟨0x941000, 16, 4, 1, 0, 0x0, 0x0, false, false,
  [⟨31,0,.ro,0⟩]⟩
def fMSIX_PBA_V : Field := ⟨rMSIX_PBA, 31, 0⟩
/-- TN_CTL (R364). -/
def rTN_CTL : Reg := ⟨0xa00000, 257, 16, 1, 0, 0x0, 0x0, false, false,
  [⟨31,31,.w1s,0⟩]⟩
def fTN_CTL_ADV : Field := ⟨rTN_CTL, 31, 31⟩
/-- TN_EPOCH (R364). -/
def rTN_EPOCH : Reg := ⟨0xa00004, 257, 16, 1, 0, 0x0, 0x0, false, false,
  [⟨31,0,.ro,0⟩]⟩
def fTN_EPOCH_CNT : Field := ⟨rTN_EPOCH, 31, 0⟩
/-- TN_DRAM (R364). -/
def rTN_DRAM : Reg := ⟨0xa00008, 257, 16, 1, 0, 0x0, 0x0, false, true,
  [⟨31,31,.rw,0⟩, ⟨23,16,.rw,0⟩, ⟨11,0,.rw,0⟩]⟩
def fTN_DRAM_V : Field := ⟨rTN_DRAM, 31, 31⟩
def fTN_DRAM_SIZE : Field := ⟨rTN_DRAM, 23, 16⟩
def fTN_DRAM_BASE : Field := ⟨rTN_DRAM, 11, 0⟩
/-- TN_PROOF (R364). -/
def rTN_PROOF : Reg := ⟨0xa0000c, 257, 16, 1, 0, 0x0, 0x0, false, false,
  [⟨31,0,.ro,0⟩]⟩
def fTN_PROOF_PROOF : Field := ⟨rTN_PROOF, 31, 0⟩
/-- KS_CTL (R364). -/
def rKS_CTL : Reg := ⟨0xa02000, 1, 4, 1, 0, 0x0, 0xa02000, false, false,
  [⟨31,31,.rwl,0⟩, ⟨0,0,.rwl,0⟩]⟩
def fKS_CTL_LOCK : Field := ⟨rKS_CTL, 31, 31⟩
def fKS_CTL_CHK : Field := ⟨rKS_CTL, 0, 0⟩
/-- KS_STAT (R364). -/
def rKS_STAT : Reg := ⟨0xa02004, 1, 4, 1, 0, 0x0, 0x0, false, false,
  [⟨4,4,.w1c,0⟩, ⟨3,3,.w1c,0⟩, ⟨2,2,.w1c,0⟩, ⟨1,1,.w1c,0⟩, ⟨0,0,.w1c,0⟩]⟩
def fKS_STAT_WINREF : Field := ⟨rKS_STAT, 4, 4⟩
def fKS_STAT_PLANREF : Field := ⟨rKS_STAT, 3, 3⟩
def fKS_STAT_SILENT : Field := ⟨rKS_STAT, 2, 2⟩
def fKS_STAT_MISMATCH : Field := ⟨rKS_STAT, 1, 1⟩
def fKS_STAT_PCHG : Field := ⟨rKS_STAT, 0, 0⟩
/-- KS_SETCNT (R364). -/
def rKS_SETCNT : Reg := ⟨0xa02008, 1, 4, 1, 0, 0x0, 0x0, false, false,
  [⟨31,24,.rc,0⟩, ⟨23,16,.rc,0⟩, ⟨15,8,.rc,0⟩, ⟨7,0,.rc,0⟩]⟩
def fKS_SETCNT_SILENT_N : Field := ⟨rKS_SETCNT, 31, 24⟩
def fKS_SETCNT_MISMATCH_N : Field := ⟨rKS_SETCNT, 23, 16⟩
def fKS_SETCNT_PLANREF_N : Field := ⟨rKS_SETCNT, 15, 8⟩
def fKS_SETCNT_WINREF_N : Field := ⟨rKS_SETCNT, 7, 0⟩
/-- KS_PSTAT (R364). -/
def rKS_PSTAT : Reg := ⟨0xa0200c, 1, 4, 1, 0, 0x0, 0x0, false, false,
  [⟨31,31,.ro,0⟩, ⟨8,8,.ro,0⟩]⟩
def fKS_PSTAT_BUSY : Field := ⟨rKS_PSTAT, 31, 31⟩
def fKS_PSTAT_PLANPEND : Field := ⟨rKS_PSTAT, 8, 8⟩
/-- KS_DEVID_LO (R364). -/
def rKS_DEVID_LO : Reg := ⟨0xa02010, 1, 4, 1, 0, 0x0, 0x0, false, false,
  [⟨31,0,.ro,0⟩]⟩
def fKS_DEVID_LO_DEVID : Field := ⟨rKS_DEVID_LO, 31, 0⟩
/-- KS_DEVID_HI (R364). -/
def rKS_DEVID_HI : Reg := ⟨0xa02014, 1, 4, 1, 0, 0x0, 0x0, false, false,
  [⟨31,0,.ro,0⟩]⟩
def fKS_DEVID_HI_DEVID : Field := ⟨rKS_DEVID_HI, 31, 0⟩
/-- KS_ROOT_LO (R364). -/
def rKS_ROOT_LO : Reg := ⟨0xa02018, 1, 4, 1, 0, 0x0, 0x0, false, false,
  [⟨31,0,.ro,0⟩]⟩
def fKS_ROOT_LO_ROOT : Field := ⟨rKS_ROOT_LO, 31, 0⟩
/-- KS_ROOT_HI (R364). -/
def rKS_ROOT_HI : Reg := ⟨0xa0201c, 1, 4, 1, 0, 0x0, 0x0, false, false,
  [⟨31,0,.ro,0⟩]⟩
def fKS_ROOT_HI_ROOT : Field := ⟨rKS_ROOT_HI, 31, 0⟩
/-- KS_BCN (R364). -/
def rKS_BCN : Reg := ⟨0xa02020, 1, 4, 1, 0, 0x0, 0xa02000, false, false,
  [⟨31,31,.rwl,0⟩, ⟨30,30,.rwl,0⟩, ⟨27,16,.rwl,0⟩, ⟨10,0,.rwl,0⟩]⟩
def fKS_BCN_EN : Field := ⟨rKS_BCN, 31, 31⟩
def fKS_BCN_TAG : Field := ⟨rKS_BCN, 30, 30⟩
def fKS_BCN_PORTS : Field := ⟨rKS_BCN, 27, 16⟩
def fKS_BCN_KEY : Field := ⟨rKS_BCN, 10, 0⟩
/-- KS_CUSTKEY (R364). -/
def rKS_CUSTKEY : Reg := ⟨0xa02024, 1, 4, 1, 0, 0x0, 0x0, false, false,
  [⟨11,8,.ro,0⟩, ⟨7,4,.ro,0⟩, ⟨1,0,.ro,0⟩]⟩
def fKS_CUSTKEY_REVOKED : Field := ⟨rKS_CUSTKEY, 11, 8⟩
def fKS_CUSTKEY_PROGRAMMED : Field := ⟨rKS_CUSTKEY, 7, 4⟩
def fKS_CUSTKEY_ACTIVE : Field := ⟨rKS_CUSTKEY, 1, 0⟩
/-- KS_LASTREF (R364). -/
def rKS_LASTREF : Reg := ⟨0xa02028, 1, 4, 1, 0, 0x0, 0x0, false, false,
  [⟨19,16,.ro,0⟩, ⟨15,0,.ro,0⟩]⟩
def fKS_LASTREF_REASON : Field := ⟨rKS_LASTREF, 19, 16⟩
def fKS_LASTREF_PLAN_ID : Field := ⟨rKS_LASTREF, 15, 0⟩
/-- KS_VADDR (R364). -/
def rKS_VADDR : Reg := ⟨0xa02030, 1, 4, 1, 0, 0x0, 0x0, false, false,
  [⟨17,3,.rw,0⟩]⟩
def fKS_VADDR_WORD : Field := ⟨rKS_VADDR, 17, 3⟩
/-- KS_VDATA (R364). -/
def rKS_VDATA : Reg := ⟨0xa02034, 1, 4, 1, 0, 0x0, 0x0, false, false,
  [⟨31,0,.rw,0⟩]⟩
def fKS_VDATA_DATA : Field := ⟨rKS_VDATA, 31, 0⟩
/-- KS_EXP0 (R364). -/
def rKS_EXP0 : Reg := ⟨0xa03000, 64, 32, 1, 0, 0x0, 0x0, false, true,
  [⟨31,0,.rw,0⟩]⟩
def fKS_EXP0_DEVID : Field := ⟨rKS_EXP0, 31, 0⟩
/-- KS_EXP1 (R364). -/
def rKS_EXP1 : Reg := ⟨0xa03004, 64, 32, 1, 0, 0x0, 0x0, false, true,
  [⟨31,0,.rw,0⟩]⟩
def fKS_EXP1_DEVID : Field := ⟨rKS_EXP1, 31, 0⟩
/-- KS_EXP2 (R364). -/
def rKS_EXP2 : Reg := ⟨0xa03008, 64, 32, 1, 0, 0x0, 0x0, false, true,
  [⟨31,0,.rw,0⟩]⟩
def fKS_EXP2_PROOF : Field := ⟨rKS_EXP2, 31, 0⟩
/-- KS_EXP3 (R364). -/
def rKS_EXP3 : Reg := ⟨0xa0300c, 64, 32, 1, 0, 0x0, 0x0, false, true,
  [⟨31,0,.rw,0⟩]⟩
def fKS_EXP3_PROOF : Field := ⟨rKS_EXP3, 31, 0⟩
/-- KS_EXP4 (R364). -/
def rKS_EXP4 : Reg := ⟨0xa03010, 64, 32, 1, 0, 0x0, 0x0, false, true,
  [⟨31,31,.rw,0⟩, ⟨27,16,.rw,0⟩, ⟨7,0,.rw,0⟩]⟩
def fKS_EXP4_V : Field := ⟨rKS_EXP4, 31, 31⟩
def fKS_EXP4_PORTS : Field := ⟨rKS_EXP4, 27, 16⟩
def fKS_EXP4_MISS : Field := ⟨rKS_EXP4, 7, 0⟩
/-- KS_EXP5 (R364). -/
def rKS_EXP5 : Reg := ⟨0xa03014, 64, 32, 1, 0, 0x0, 0x0, false, true,
  [⟨31,31,.rw,0⟩, ⟨16,0,.rw,0⟩]⟩
def fKS_EXP5_PT : Field := ⟨rKS_EXP5, 31, 31⟩
def fKS_EXP5_POINT : Field := ⟨rKS_EXP5, 16, 0⟩
/-- KS_EXP6 (R364). -/
def rKS_EXP6 : Reg := ⟨0xa03018, 64, 32, 1, 0, 0x0, 0x0, false, false,
  [⟨31,0,.ro,0⟩]⟩
def fKS_EXP6_LASTSEEN : Field := ⟨rKS_EXP6, 31, 0⟩
/-- KS_EXP7 (R364). -/
def rKS_EXP7 : Reg := ⟨0xa0301c, 64, 32, 1, 0, 0x0, 0x0, false, false,
  [⟨1,0,.ro,0⟩]⟩
def fKS_EXP7_STATE : Field := ⟨rKS_EXP7, 1, 0⟩
/-- LC_STATE (R364). -/
def rLC_STATE : Reg := ⟨0xa04000, 1, 4, 1, 0, 0x0, 0x0, false, false,
  [⟨8,8,.ro,0⟩, ⟨2,0,.ro,0⟩]⟩
def fLC_STATE_PENDING : Field := ⟨rLC_STATE, 8, 8⟩
def fLC_STATE_STATE : Field := ⟨rLC_STATE, 2, 0⟩
/-- LC_STAT (R364). -/
def rLC_STAT : Reg := ⟨0xa04004, 1, 4, 1, 0, 0x0, 0x0, false, false,
  [⟨3,3,.w1c,0⟩, ⟨2,2,.w1c,0⟩, ⟨1,1,.w1c,0⟩, ⟨0,0,.w1c,0⟩]⟩
def fLC_STAT_VAULTLOST : Field := ⟨rLC_STAT, 3, 3⟩
def fLC_STAT_TAMPER : Field := ⟨rLC_STAT, 2, 2⟩
def fLC_STAT_REFUSED : Field := ⟨rLC_STAT, 1, 1⟩
def fLC_STAT_DONE : Field := ⟨rLC_STAT, 0, 0⟩
/-- LC_SETCNT (R364). -/
def rLC_SETCNT : Reg := ⟨0xa04008, 1, 4, 1, 0, 0x0, 0x0, false, false,
  [⟨31,24,.rc,0⟩, ⟨23,16,.rc,0⟩, ⟨15,8,.rc,0⟩, ⟨7,0,.rc,0⟩]⟩
def fLC_SETCNT_VAULTLOST_N : Field := ⟨rLC_SETCNT, 31, 24⟩
def fLC_SETCNT_TAMPER_N : Field := ⟨rLC_SETCNT, 23, 16⟩
def fLC_SETCNT_REFUSED_N : Field := ⟨rLC_SETCNT, 15, 8⟩
def fLC_SETCNT_DONE_N : Field := ⟨rLC_SETCNT, 7, 0⟩
/-- LC_REQ (R364). -/
def rLC_REQ : Reg := ⟨0xa0400c, 1, 4, 1, 0, 0x0, 0x0, false, false,
  [⟨31,31,.w1s,0⟩, ⟨19,16,.ro,0⟩, ⟨2,0,.rw,0⟩]⟩
def fLC_REQ_GO : Field := ⟨rLC_REQ, 31, 31⟩
def fLC_REQ_RESULT : Field := ⟨rLC_REQ, 19, 16⟩
def fLC_REQ_TARGET : Field := ⟨rLC_REQ, 2, 0⟩
/-- LC_CHAL_LO (R364). -/
def rLC_CHAL_LO : Reg := ⟨0xa04010, 1, 4, 1, 0, 0x0, 0x0, false, false,
  [⟨31,0,.ro,0⟩]⟩
def fLC_CHAL_LO_CHAL : Field := ⟨rLC_CHAL_LO, 31, 0⟩
/-- LC_CHAL_HI (R364). -/
def rLC_CHAL_HI : Reg := ⟨0xa04014, 1, 4, 1, 0, 0x0, 0x0, false, false,
  [⟨31,0,.ro,0⟩]⟩
def fLC_CHAL_HI_CHAL : Field := ⟨rLC_CHAL_HI, 31, 0⟩
/-- LC_TAMPCFG (R364). -/
def rLC_TAMPCFG : Reg := ⟨0xa04018, 1, 4, 1, 0, 0x0, 0xa04018, false, false,
  [⟨31,31,.rwl,0⟩, ⟨23,16,.rwl,10⟩, ⟨11,8,.rwl,0⟩, ⟨7,4,.rwl,0⟩, ⟨3,0,.rwl,15⟩]⟩
def fLC_TAMPCFG_LOCK : Field := ⟨rLC_TAMPCFG, 31, 31⟩
def fLC_TAMPCFG_DEB : Field := ⟨rLC_TAMPCFG, 23, 16⟩
def fLC_TAMPCFG_POL : Field := ⟨rLC_TAMPCFG, 11, 8⟩
def fLC_TAMPCFG_PINEN : Field := ⟨rLC_TAMPCFG, 7, 4⟩
def fLC_TAMPCFG_INTEN : Field := ⟨rLC_TAMPCFG, 3, 0⟩
/-- LC_TAMPSRC (R364). -/
def rLC_TAMPSRC : Reg := ⟨0xa0401c, 1, 4, 1, 0, 0x0, 0x0, false, false,
  [⟨7,0,.ro,0⟩]⟩
def fLC_TAMPSRC_SRC : Field := ⟨rLC_TAMPSRC, 7, 0⟩
/-- LC_AUTH (R364). -/
def rLC_AUTH : Reg := ⟨0xa04100, 32, 4, 1, 0, 0x0, 0x0, false, false,
  [⟨31,0,.wo,0⟩]⟩
def fLC_AUTH_AUTH : Field := ⟨rLC_AUTH, 31, 0⟩
/-- MX_CTL (R381). -/
def rMX_CTL : Reg := ⟨0xb00000, 1, 4, 1, 0, 0x0, 0xb00000, false, false,
  [⟨31,31,.rwl,0⟩]⟩
def fMX_CTL_LOCK : Field := ⟨rMX_CTL, 31, 31⟩
/-- MX_STAT (R381). -/
def rMX_STAT : Reg := ⟨0xb00004, 1, 4, 1, 0, 0x0, 0x0, false, false,
  [⟨2,2,.w1c,0⟩, ⟨1,1,.w1c,0⟩, ⟨0,0,.w1c,0⟩]⟩
def fMX_STAT_CFGREF : Field := ⟨rMX_STAT, 2, 2⟩
def fMX_STAT_LOUPE : Field := ⟨rMX_STAT, 1, 1⟩
def fMX_STAT_DECERR : Field := ⟨rMX_STAT, 0, 0⟩
/-- MX_SETCNT (R381). -/
def rMX_SETCNT : Reg := ⟨0xb00008, 1, 4, 1, 0, 0x0, 0x0, false, false,
  [⟨23,16,.rc,0⟩, ⟨15,8,.rc,0⟩, ⟨7,0,.rc,0⟩]⟩
def fMX_SETCNT_CFGREF_N : Field := ⟨rMX_SETCNT, 23, 16⟩
def fMX_SETCNT_LOUPE_N : Field := ⟨rMX_SETCNT, 15, 8⟩
def fMX_SETCNT_DECERR_N : Field := ⟨rMX_SETCNT, 7, 0⟩
/-- MX_FAIR (R381). -/
def rMX_FAIR : Reg := ⟨0xb0000c, 1, 4, 1, 0, 0x0, 0xb00000, false, false,
  [⟨6,0,.rwl,8⟩]⟩
def fMX_FAIR_N : Field := ⟨rMX_FAIR, 6, 0⟩
/-- MX_ARB (R381). -/
def rMX_ARB : Reg := ⟨0xb00100, 5, 4, 1, 0, 0x0, 0xb00000, false, false,
  [⟨0,0,.rwl,0⟩]⟩
def fMX_ARB_MODE : Field := ⟨rMX_ARB, 0, 0⟩
/-- MX_WAIT (R381). -/
def rMX_WAIT : Reg := ⟨0xb00140, 5, 4, 1, 0, 0x0, 0x0, false, false,
  [⟨9,0,.rc,0⟩]⟩
def fMX_WAIT_MAXAGE : Field := ⟨rMX_WAIT, 9, 0⟩
/-- MX_MQOS (R381). -/
def rMX_MQOS : Reg := ⟨0xb00200, 48, 4, 1, 0, 0x0, 0xb00000, false, false,
  [⟨7,4,.rwl,15⟩, ⟨3,0,.rwl,8⟩]⟩
def fMX_MQOS_DLQOS : Field := ⟨rMX_MQOS, 7, 4⟩
def fMX_MQOS_QOS : Field := ⟨rMX_MQOS, 3, 0⟩
/-- MX_PRIO (R381). -/
def rMX_PRIO : Reg := ⟨0xb01000, 48, 32, 5, 4, 0x0, 0xb00000, false, false,
  [⟨3,0,.rwl,8⟩]⟩
def fMX_PRIO_PRIO : Field := ⟨rMX_PRIO, 3, 0⟩
/-- DDR_CTL (R381). -/
def rDDR_CTL : Reg := ⟨0xb10000, 1, 4, 1, 0, 0x0, 0xb10000, false, false,
  [⟨31,31,.rwl,0⟩, ⟨1,1,.rwl,1⟩, ⟨0,0,.w1s,0⟩]⟩
def fDDR_CTL_LOCK : Field := ⟨rDDR_CTL, 31, 31⟩
def fDDR_CTL_SCRUBEN : Field := ⟨rDDR_CTL, 1, 1⟩
def fDDR_CTL_INIT : Field := ⟨rDDR_CTL, 0, 0⟩
/-- DDR_STAT (R381). -/
def rDDR_STAT : Reg := ⟨0xb10004, 1, 4, 1, 0, 0x0, 0x0, false, false,
  [⟨3,3,.w1c,0⟩, ⟨2,2,.w1c,0⟩, ⟨1,1,.w1c,0⟩, ⟨0,0,.w1c,0⟩]⟩
def fDDR_STAT_TRAINFAIL : Field := ⟨rDDR_STAT, 3, 3⟩
def fDDR_STAT_TEMPHI : Field := ⟨rDDR_STAT, 2, 2⟩
def fDDR_STAT_UE : Field := ⟨rDDR_STAT, 1, 1⟩
def fDDR_STAT_CE : Field := ⟨rDDR_STAT, 0, 0⟩
/-- DDR_SETCNT (R381). -/
def rDDR_SETCNT : Reg := ⟨0xb10008, 1, 4, 1, 0, 0x0, 0x0, false, false,
  [⟨31,24,.rc,0⟩, ⟨23,16,.rc,0⟩, ⟨15,8,.rc,0⟩, ⟨7,0,.rc,0⟩]⟩
def fDDR_SETCNT_TRAINFAIL_N : Field := ⟨rDDR_SETCNT, 31, 24⟩
def fDDR_SETCNT_TEMPHI_N : Field := ⟨rDDR_SETCNT, 23, 16⟩
def fDDR_SETCNT_UE_N : Field := ⟨rDDR_SETCNT, 15, 8⟩
def fDDR_SETCNT_CE_N : Field := ⟨rDDR_SETCNT, 7, 0⟩
/-- DDR_CFG (R381). -/
def rDDR_CFG : Reg := ⟨0xb1000c, 1, 4, 1, 0, 0x0, 0xb10000, false, false,
  [⟨12,12,.rwl,0⟩, ⟨10,8,.rwl,0⟩, ⟨6,6,.rwl,0⟩, ⟨5,4,.rwl,0⟩, ⟨1,0,.rwl,0⟩]⟩
def fDDR_CFG_TYPE : Field := ⟨rDDR_CFG, 12, 12⟩
def fDDR_CFG_RATE : Field := ⟨rDDR_CFG, 10, 8⟩
def fDDR_CFG_RANKS : Field := ⟨rDDR_CFG, 6, 6⟩
def fDDR_CFG_DENS : Field := ⟨rDDR_CFG, 5, 4⟩
def fDDR_CFG_DEV : Field := ⟨rDDR_CFG, 1, 0⟩
/-- DDR_STATE (R381). -/
def rDDR_STATE : Reg := ⟨0xb10010, 1, 4, 1, 0, 0x0, 0x0, false, false,
  [⟨22,16,.ro,0⟩, ⟨1,0,.ro,0⟩]⟩
def fDDR_STATE_SIZE : Field := ⟨rDDR_STATE, 22, 16⟩
def fDDR_STATE_STATE : Field := ⟨rDDR_STATE, 1, 0⟩
/-- DDR_UE_ADDR_LO (R381). -/
def rDDR_UE_ADDR_LO : Reg := ⟨0xb10014, 1, 4, 1, 0, 0x0, 0x0, false, false,
  [⟨31,0,.ro,0⟩]⟩
def fDDR_UE_ADDR_LO_V : Field := ⟨rDDR_UE_ADDR_LO, 31, 0⟩
/-- DDR_UE_ADDR_HI (R381). -/
def rDDR_UE_ADDR_HI : Reg := ⟨0xb10018, 1, 4, 1, 0, 0x0, 0x0, false, false,
  [⟨3,0,.ro,0⟩]⟩
def fDDR_UE_ADDR_HI_V : Field := ⟨rDDR_UE_ADDR_HI, 3, 0⟩
/-- DDR_CE_CNT (R381). -/
def rDDR_CE_CNT : Reg := ⟨0xb1001c, 1, 4, 1, 0, 0x0, 0x0, false, false,
  [⟨31,0,.rc,0⟩]⟩
def fDDR_CE_CNT_CNT : Field := ⟨rDDR_CE_CNT, 31, 0⟩
/-- DDR_SCRUB (R381). -/
def rDDR_SCRUB : Reg := ⟨0xb10020, 1, 4, 1, 0, 0x0, 0x0, false, false,
  [⟨7,0,.rw,24⟩]⟩
def fDDR_SCRUB_HOURS : Field := ⟨rDDR_SCRUB, 7, 0⟩
/-- PM_CTL (R398). -/
def rPM_CTL : Reg := ⟨0xc00000, 1, 4, 1, 0, 0x0, 0xc00000, false, false,
  [⟨31,31,.rwl,0⟩, ⟨0,0,.rwl,0⟩]⟩
def fPM_CTL_LOCK : Field := ⟨rPM_CTL, 31, 31⟩
def fPM_CTL_IDLEEN : Field := ⟨rPM_CTL, 0, 0⟩
/-- PM_STAT (R398). -/
def rPM_STAT : Reg := ⟨0xc00004, 1, 4, 1, 0, 0x0, 0x0, false, false,
  [⟨4,4,.w1c,0⟩, ⟨3,3,.w1c,0⟩, ⟨2,2,.w1c,0⟩, ⟨1,1,.w1c,0⟩, ⟨0,0,.w1c,0⟩]⟩
def fPM_STAT_DLWAKE : Field := ⟨rPM_STAT, 4, 4⟩
def fPM_STAT_SSFAULT : Field := ⟨rPM_STAT, 3, 3⟩
def fPM_STAT_REQREF : Field := ⟨rPM_STAT, 2, 2⟩
def fPM_STAT_SLEEP_ABORT : Field := ⟨rPM_STAT, 1, 1⟩
def fPM_STAT_WAKE : Field := ⟨rPM_STAT, 0, 0⟩
/-- PM_SETCNT (R398). -/
def rPM_SETCNT : Reg := ⟨0xc00008, 1, 4, 1, 0, 0x0, 0x0, false, false,
  [⟨31,24,.rc,0⟩, ⟨23,16,.rc,0⟩, ⟨15,8,.rc,0⟩, ⟨7,0,.rc,0⟩]⟩
def fPM_SETCNT_DLWAKE_N : Field := ⟨rPM_SETCNT, 31, 24⟩
def fPM_SETCNT_SSFAULT_N : Field := ⟨rPM_SETCNT, 23, 16⟩
def fPM_SETCNT_REQREF_N : Field := ⟨rPM_SETCNT, 15, 8⟩
def fPM_SETCNT_SLEEP_ABORT_N : Field := ⟨rPM_SETCNT, 7, 0⟩
/-- PM_REQ (R398). -/
def rPM_REQ : Reg := ⟨0xc0000c, 1, 4, 1, 0, 0x0, 0x0, false, false,
  [⟨31,31,.w1s,0⟩, ⟨8,8,.ro,0⟩, ⟨2,0,.rw,0⟩]⟩
def fPM_REQ_GO : Field := ⟨rPM_REQ, 31, 31⟩
def fPM_REQ_PEND : Field := ⟨rPM_REQ, 8, 8⟩
def fPM_REQ_TARGET : Field := ⟨rPM_REQ, 2, 0⟩
/-- PM_IDLE (R398). -/
def rPM_IDLE : Reg := ⟨0xc00010, 1, 4, 1, 0, 0x0, 0x0, false, false,
  [⟨23,0,.rw,16000⟩]⟩
def fPM_IDLE_TIMER : Field := ⟨rPM_IDLE, 23, 0⟩
/-- PM_WAKECFG (R398). -/
def rPM_WAKECFG : Reg := ⟨0xc00014, 1, 4, 1, 0, 0x0, 0xc00000, false, false,
  [⟨3,0,.rwl,1⟩]⟩
def fPM_WAKECFG_EN : Field := ⟨rPM_WAKECFG, 3, 0⟩
/-- PM_WAKESRC (R398). -/
def rPM_WAKESRC : Reg := ⟨0xc00018, 1, 4, 1, 0, 0x0, 0x0, false, false,
  [⟨3,0,.ro,0⟩]⟩
def fPM_WAKESRC_SRC : Field := ⟨rPM_WAKESRC, 3, 0⟩
/-- PM_STATE (R398). -/
def rPM_STATE : Reg := ⟨0xc0001c, 1, 4, 1, 0, 0x0, 0x0, false, false,
  [⟨2,0,.ro,0⟩]⟩
def fPM_STATE_STATE : Field := ⟨rPM_STATE, 2, 0⟩
/-- PM_ALARM (R398). -/
def rPM_ALARM : Reg := ⟨0xc00020, 1, 4, 1, 0, 0x0, 0x0, false, false,
  [⟨31,0,.rw,0⟩]⟩
def fPM_ALARM_S : Field := ⟨rPM_ALARM, 31, 0⟩
/-- PM_PIN (R398). -/
def rPM_PIN : Reg := ⟨0xc00024, 1, 4, 1, 0, 0x0, 0x0, false, false,
  [⟨19,0,.ro,0⟩]⟩
def fPM_PIN_PIN : Field := ⟨rPM_PIN, 19, 0⟩
/-- PM_PLATE_RET (R398). -/
def rPM_PLATE_RET : Reg := ⟨0xc00028, 1, 4, 1, 0, 0x0, 0xc00000, false, false,
  [⟨0,0,.rwl,0⟩]⟩
def fPM_PLATE_RET_RET : Field := ⟨rPM_PLATE_RET, 0, 0⟩
/-- PM_DOM (R398). -/
def rPM_DOM : Reg := ⟨0xc00100, 20, 4, 1, 0, 0x0, 0x0, false, false,
  [⟨31,31,.w1s,0⟩, ⟨30,30,.rw,0⟩, ⟨26,24,.ro,0⟩, ⟨21,20,.ro,0⟩, ⟨15,0,.rw,1000⟩]⟩
def fPM_DOM_CLRFLT : Field := ⟨rPM_DOM, 31, 31⟩
def fPM_DOM_AUTO : Field := ⟨rPM_DOM, 30, 30⟩
def fPM_DOM_STATE : Field := ⟨rPM_DOM, 26, 24⟩
def fPM_DOM_FCAUSE : Field := ⟨rPM_DOM, 21, 20⟩
def fPM_DOM_TIMER : Field := ⟨rPM_DOM, 15, 0⟩
/-- PM_DWAKE_CNT (R398). -/
def rPM_DWAKE_CNT : Reg := ⟨0xc00200, 20, 4, 1, 0, 0x0, 0x0, false, false,
  [⟨31,0,.rc,0⟩]⟩
def fPM_DWAKE_CNT_CNT : Field := ⟨rPM_DWAKE_CNT, 31, 0⟩
/-- BT_CFG (R398). -/
def rBT_CFG : Reg := ⟨0xc10000, 1, 4, 1, 0, 0x0, 0x0, false, false,
  [⟨31,31,.rw,0⟩, ⟨13,12,.rw,1⟩, ⟨11,8,.rw,4⟩, ⟨4,0,.rw,2⟩]⟩
def fBT_CFG_EN : Field := ⟨rBT_CFG, 31, 31⟩
def fBT_CFG_ITERM : Field := ⟨rBT_CFG, 13, 12⟩
def fBT_CFG_VCV : Field := ⟨rBT_CFG, 11, 8⟩
def fBT_CFG_ICHG : Field := ⟨rBT_CFG, 4, 0⟩
/-- BT_STAT (R398). -/
def rBT_STAT : Reg := ⟨0xc10004, 1, 4, 1, 0, 0x0, 0x0, false, false,
  [⟨3,3,.w1c,0⟩, ⟨2,2,.w1c,0⟩, ⟨1,1,.w1c,0⟩, ⟨0,0,.w1c,0⟩]⟩
def fBT_STAT_LOW : Field := ⟨rBT_STAT, 3, 3⟩
def fBT_STAT_PRESENT : Field := ⟨rBT_STAT, 2, 2⟩
def fBT_STAT_ABSENT : Field := ⟨rBT_STAT, 1, 1⟩
def fBT_STAT_DONE : Field := ⟨rBT_STAT, 0, 0⟩
/-- BT_SETCNT (R398). -/
def rBT_SETCNT : Reg := ⟨0xc10008, 1, 4, 1, 0, 0x0, 0x0, false, false,
  [⟨31,24,.rc,0⟩, ⟨23,16,.rc,0⟩, ⟨15,8,.rc,0⟩, ⟨7,0,.rc,0⟩]⟩
def fBT_SETCNT_LOW_N : Field := ⟨rBT_SETCNT, 31, 24⟩
def fBT_SETCNT_PRESENT_N : Field := ⟨rBT_SETCNT, 23, 16⟩
def fBT_SETCNT_ABSENT_N : Field := ⟨rBT_SETCNT, 15, 8⟩
def fBT_SETCNT_DONE_N : Field := ⟨rBT_SETCNT, 7, 0⟩
/-- BT_STATE (R398). -/
def rBT_STATE : Reg := ⟨0xc1000c, 1, 4, 1, 0, 0x0, 0x0, false, false,
  [⟨31,31,.ro,1⟩, ⟨26,24,.ro,0⟩, ⟨11,0,.ro,0⟩]⟩
def fBT_STATE_PRESENT : Field := ⟨rBT_STATE, 31, 31⟩
def fBT_STATE_CHG : Field := ⟨rBT_STATE, 26, 24⟩
def fBT_STATE_VBAT : Field := ⟨rBT_STATE, 11, 0⟩
/-- BI_CTL (R415). -/
def rBI_CTL : Reg := ⟨0xd00000, 1, 4, 1, 0, 0x0, 0xd00000, false, false,
  [⟨31,31,.rwl,0⟩, ⟨0,0,.rwl,0⟩]⟩
def fBI_CTL_LOCK : Field := ⟨rBI_CTL, 31, 31⟩
def fBI_CTL_ONLINE : Field := ⟨rBI_CTL, 0, 0⟩
/-- BI_STAT (R415). -/
def rBI_STAT : Reg := ⟨0xd00004, 1, 4, 1, 0, 0x0, 0x0, false, false,
  [⟨4,4,.w1c,0⟩, ⟨3,3,.w1c,0⟩, ⟨2,2,.w1c,0⟩, ⟨1,1,.w1c,0⟩, ⟨0,0,.w1c,0⟩]⟩
def fBI_STAT_GATED : Field := ⟨rBI_STAT, 4, 4⟩
def fBI_STAT_ONFAIL : Field := ⟨rBI_STAT, 3, 3⟩
def fBI_STAT_OVR : Field := ⟨rBI_STAT, 2, 2⟩
def fBI_STAT_FAIL : Field := ⟨rBI_STAT, 1, 1⟩
def fBI_STAT_DONE : Field := ⟨rBI_STAT, 0, 0⟩
/-- BI_SETCNT (R415). -/
def rBI_SETCNT : Reg := ⟨0xd00008, 1, 4, 1, 0, 0x0, 0x0, false, false,
  [⟨31,24,.rc,0⟩, ⟨23,16,.rc,0⟩, ⟨15,8,.rc,0⟩, ⟨7,0,.rc,0⟩]⟩
def fBI_SETCNT_GATED_N : Field := ⟨rBI_SETCNT, 31, 24⟩
def fBI_SETCNT_ONFAIL_N : Field := ⟨rBI_SETCNT, 23, 16⟩
def fBI_SETCNT_OVR_N : Field := ⟨rBI_SETCNT, 15, 8⟩
def fBI_SETCNT_FAIL_N : Field := ⟨rBI_SETCNT, 7, 0⟩
/-- BI_RESULT (R415). -/
def rBI_RESULT : Reg := ⟨0xd0000c, 1, 4, 1, 0, 0x0, 0x0, false, false,
  [⟨26,16,.ro,0⟩, ⟨10,0,.ro,0⟩]⟩
def fBI_RESULT_ABORT : Field := ⟨rBI_RESULT, 26, 16⟩
def fBI_RESULT_PASS : Field := ⟨rBI_RESULT, 10, 0⟩
/-- BI_ONCNT (R415). -/
def rBI_ONCNT : Reg := ⟨0xd00010, 1, 4, 1, 0, 0x0, 0x0, false, false,
  [⟨31,0,.rc,0⟩]⟩
def fBI_ONCNT_CNT : Field := ⟨rBI_ONCNT, 31, 0⟩
/-- BI_ONABORT_CNT (R415). -/
def rBI_ONABORT_CNT : Reg := ⟨0xd00014, 1, 4, 1, 0, 0x0, 0x0, false, false,
  [⟨31,0,.rc,0⟩]⟩
def fBI_ONABORT_CNT_CNT : Field := ⟨rBI_ONABORT_CNT, 31, 0⟩
/-- BI_UNUSABLE (R415). -/
def rBI_UNUSABLE : Reg := ⟨0xd00018, 1, 4, 1, 0, 0x0, 0x0, false, false,
  [⟨23,23,.ro,0⟩, ⟨22,22,.ro,0⟩, ⟨21,21,.ro,0⟩, ⟨19,8,.ro,0⟩, ⟨7,0,.ro,0⟩]⟩
def fBI_UNUSABLE_CHG : Field := ⟨rBI_UNUSABLE, 23, 23⟩
def fBI_UNUSABLE_IRIGAM : Field := ⟨rBI_UNUSABLE, 22, 22⟩
def fBI_UNUSABLE_UB : Field := ⟨rBI_UNUSABLE, 21, 21⟩
def fBI_UNUSABLE_PORTS : Field := ⟨rBI_UNUSABLE, 19, 8⟩
def fBI_UNUSABLE_CL : Field := ⟨rBI_UNUSABLE, 7, 0⟩
/-- BI_DIRECT (R415). -/
def rBI_DIRECT : Reg := ⟨0xd0001c, 1, 4, 1, 0, 0x0, 0x0, false, false,
  [⟨31,31,.w1s,0⟩, ⟨17,16,.ro,0⟩, ⟨11,8,.rw,0⟩, ⟨4,0,.rw,0⟩]⟩
def fBI_DIRECT_GO : Field := ⟨rBI_DIRECT, 31, 31⟩
def fBI_DIRECT_RES : Field := ⟨rBI_DIRECT, 17, 16⟩
def fBI_DIRECT_OP : Field := ⟨rBI_DIRECT, 11, 8⟩
def fBI_DIRECT_UNIT : Field := ⟨rBI_DIRECT, 4, 0⟩
/-- BI_BUDGET (R415). -/
def rBI_BUDGET : Reg := ⟨0xd00040, 11, 4, 1, 0, 0x0, 0x0, false, false,
  [⟨15,0,.rwl,0⟩]⟩
def fBI_BUDGET_US : Field := ⟨rBI_BUDGET, 15, 0⟩
/-- UB_CTL (R428). -/
def rUB_CTL : Reg := ⟨0xe00000, 1, 4, 1, 0, 0x0, 0xe00000, false, false,
  [⟨31,31,.rwl,0⟩, ⟨29,24,.rwl,0⟩, ⟨18,8,.rwl,0⟩, ⟨1,1,.rwl,0⟩, ⟨0,0,.rwl,0⟩]⟩
def fUB_CTL_LOCK : Field := ⟨rUB_CTL, 31, 31⟩
def fUB_CTL_EXP : Field := ⟨rUB_CTL, 29, 24⟩
def fUB_CTL_KEY : Field := ⟨rUB_CTL, 18, 8⟩
def fUB_CTL_ROLE : Field := ⟨rUB_CTL, 1, 1⟩
def fUB_CTL_EN : Field := ⟨rUB_CTL, 0, 0⟩
/-- UB_STAT (R428). -/
def rUB_STAT : Reg := ⟨0xe00004, 1, 4, 1, 0, 0x0, 0x0, false, false,
  [⟨5,5,.w1c,0⟩, ⟨4,4,.w1c,0⟩, ⟨3,3,.w1c,0⟩, ⟨2,2,.w1c,0⟩, ⟨1,1,.w1c,0⟩, ⟨0,0,.w1c,0⟩]⟩
def fUB_STAT_ROLEERR : Field := ⟨rUB_STAT, 5, 5⟩
def fUB_STAT_TAKEOVER : Field := ⟨rUB_STAT, 4, 4⟩
def fUB_STAT_HBLOSS : Field := ⟨rUB_STAT, 3, 3⟩
def fUB_STAT_RXERR : Field := ⟨rUB_STAT, 2, 2⟩
def fUB_STAT_LINKDN : Field := ⟨rUB_STAT, 1, 1⟩
def fUB_STAT_UP : Field := ⟨rUB_STAT, 0, 0⟩
/-- UB_SETCNT (R428). -/
def rUB_SETCNT : Reg := ⟨0xe00008, 1, 4, 1, 0, 0x0, 0x0, false, false,
  [⟨31,24,.rc,0⟩, ⟨23,16,.rc,0⟩, ⟨15,8,.rc,0⟩, ⟨7,0,.rc,0⟩]⟩
def fUB_SETCNT_TAKEOVER_N : Field := ⟨rUB_SETCNT, 31, 24⟩
def fUB_SETCNT_HBLOSS_N : Field := ⟨rUB_SETCNT, 23, 16⟩
def fUB_SETCNT_RXERR_N : Field := ⟨rUB_SETCNT, 15, 8⟩
def fUB_SETCNT_LINKDN_N : Field := ⟨rUB_SETCNT, 7, 0⟩
/-- UB_LINK (R428). -/
def rUB_LINK : Reg := ⟨0xe0000c, 1, 4, 1, 0, 0x0, 0x0, false, false,
  [⟨31,31,.ro,0⟩, ⟨17,16,.ro,0⟩, ⟨8,8,.ro,0⟩, ⟨7,0,.rc,0⟩]⟩
def fUB_LINK_UP : Field := ⟨rUB_LINK, 31, 31⟩
def fUB_LINK_WIDTH : Field := ⟨rUB_LINK, 17, 16⟩
def fUB_LINK_ROLE : Field := ⟨rUB_LINK, 8, 8⟩
def fUB_LINK_RETRAINS : Field := ⟨rUB_LINK, 7, 0⟩
/-- UB_HB (R428). -/
def rUB_HB : Reg := ⟨0xe00010, 1, 4, 1, 0, 0x0, 0x0, false, false,
  [⟨31,20,.rw,1000⟩, ⟨19,12,.rw,10⟩, ⟨11,0,.rw,100⟩]⟩
def fUB_HB_TAKEWAIT : Field := ⟨rUB_HB, 31, 20⟩
def fUB_HB_MISS : Field := ⟨rUB_HB, 19, 12⟩
def fUB_HB_PERIOD : Field := ⟨rUB_HB, 11, 0⟩
/-- UB_CKPT (R428). -/
def rUB_CKPT : Reg := ⟨0xe00014, 1, 4, 1, 0, 0x0, 0x0, false, false,
  [⟨7,0,.rw,1⟩]⟩
def fUB_CKPT_EVERY : Field := ⟨rUB_CKPT, 7, 0⟩
/-- UB_LEND (R428). -/
def rUB_LEND : Reg := ⟨0xe00018, 1, 4, 1, 0, 0x0, 0x0, false, true,
  [⟨7,0,.rw,0⟩]⟩
def fUB_LEND_OFFER : Field := ⟨rUB_LEND, 7, 0⟩
/-- UB_CKTEN (R428). -/
def rUB_CKTEN : Reg := ⟨0xe00020, 8, 4, 1, 0, 0x0, 0x0, false, false,
  [⟨31,0,.rw,0⟩]⟩
def fUB_CKTEN_TEN : Field := ⟨rUB_CKTEN, 31, 0⟩
/-- UB_MIR (R428). -/
def rUB_MIR : Reg := ⟨0xe00040, 8, 4, 1, 0, 0x0, 0x0, false, false,
  [⟨31,31,.rw,0⟩, ⟨30,17,.rw,0⟩, ⟨16,0,.rw,0⟩]⟩
def fUB_MIR_V : Field := ⟨rUB_MIR, 31, 31⟩
def fUB_MIR_COUNT : Field := ⟨rUB_MIR, 30, 17⟩
def fUB_MIR_BASE : Field := ⟨rUB_MIR, 16, 0⟩
/-- SL_CTL (R415). -/
def rSL_CTL : Reg := ⟨0xf00000, 1, 4, 1, 0, 0x0, 0xf00000, false, false,
  [⟨31,31,.rwl,0⟩, ⟨1,1,.w1s,0⟩, ⟨0,0,.rwl,1⟩]⟩
def fSL_CTL_LOCK : Field := ⟨rSL_CTL, 31, 31⟩
def fSL_CTL_LOGREARM : Field := ⟨rSL_CTL, 1, 1⟩
def fSL_CTL_LOGEN : Field := ⟨rSL_CTL, 0, 0⟩
/-- SL_STAT (R415). -/
def rSL_STAT : Reg := ⟨0xf00004, 1, 4, 1, 0, 0x0, 0x0, false, false,
  [⟨2,2,.w1c,0⟩, ⟨1,1,.w1c,0⟩, ⟨0,0,.w1c,0⟩]⟩
def fSL_STAT_SEALED : Field := ⟨rSL_STAT, 2, 2⟩
def fSL_STAT_WDOG : Field := ⟨rSL_STAT, 1, 1⟩
def fSL_STAT_STOPBATH : Field := ⟨rSL_STAT, 0, 0⟩
/-- SL_SETCNT (R415). -/
def rSL_SETCNT : Reg := ⟨0xf00008, 1, 4, 1, 0, 0x0, 0x0, false, false,
  [⟨23,16,.rc,0⟩, ⟨15,8,.rc,0⟩, ⟨7,0,.rc,0⟩]⟩
def fSL_SETCNT_SEALED_N : Field := ⟨rSL_SETCNT, 23, 16⟩
def fSL_SETCNT_WDOG_N : Field := ⟨rSL_SETCNT, 15, 8⟩
def fSL_SETCNT_STOPBATH_N : Field := ⟨rSL_SETCNT, 7, 0⟩
/-- SL_STATE (R415). -/
def rSL_STATE : Reg := ⟨0xf0000c, 1, 4, 1, 0, 0x0, 0x0, false, false,
  [⟨17,16,.ro,0⟩, ⟨0,0,.ro,0⟩]⟩
def fSL_STATE_LOG : Field := ⟨rSL_STATE, 17, 16⟩
def fSL_STATE_STOPBATH : Field := ⟨rSL_STATE, 0, 0⟩
/-- SL_CAUSE (R415). -/
def rSL_CAUSE : Reg := ⟨0xf00010, 1, 4, 1, 0, 0x0, 0x0, false, false,
  [⟨4,0,.ro,0⟩]⟩
def fSL_CAUSE_CAUSE : Field := ⟨rSL_CAUSE, 4, 0⟩
/-- SL_WDOG (R415). -/
def rSL_WDOG : Reg := ⟨0xf00014, 1, 4, 1, 0, 0x0, 0xf00014, false, false,
  [⟨31,31,.rwl,0⟩, ⟨25,16,.rwl,0⟩, ⟨9,0,.rwl,1000⟩]⟩
def fSL_WDOG_EN : Field := ⟨rSL_WDOG, 31, 31⟩
def fSL_WDOG_MIN : Field := ⟨rSL_WDOG, 25, 16⟩
def fSL_WDOG_TIMEOUT : Field := ⟨rSL_WDOG, 9, 0⟩
/-- SL_WDKICK (R415). -/
def rSL_WDKICK : Reg := ⟨0xf00018, 1, 4, 1, 0, 0x0, 0x0, false, false,
  [⟨0,0,.w1s,0⟩]⟩
def fSL_WDKICK_KICK : Field := ⟨rSL_WDKICK, 0, 0⟩
/-- SL_STOP (R415). -/
def rSL_STOP : Reg := ⟨0xf0001c, 1, 4, 1, 0, 0x0, 0x0, false, false,
  [⟨0,0,.w1s,0⟩]⟩
def fSL_STOP_GO : Field := ⟨rSL_STOP, 0, 0⟩
/-- SL_IMGADDR (R415). -/
def rSL_IMGADDR : Reg := ⟨0xf00020, 1, 4, 1, 0, 0x0, 0x0, false, false,
  [⟨10,2,.rw,0⟩]⟩
def fSL_IMGADDR_WORD : Field := ⟨rSL_IMGADDR, 10, 2⟩
/-- SL_IMGDATA (R415). -/
def rSL_IMGDATA : Reg := ⟨0xf00024, 1, 4, 1, 0, 0x0, 0x0, false, false,
  [⟨31,0,.wo,0⟩]⟩
def fSL_IMGDATA_DATA : Field := ⟨rSL_IMGDATA, 31, 0⟩
/-- SL_SAFE0 (R415). -/
def rSL_SAFE0 : Reg := ⟨0xf00100, 8, 16, 1, 0, 0x0, 0xf00000, false, false,
  [⟨31,31,.rwl,0⟩, ⟨30,30,.rwl,0⟩, ⟨29,28,.rwl,0⟩, ⟨27,26,.rwl,0⟩, ⟨8,0,.rwl,0⟩]⟩
def fSL_SAFE0_V : Field := ⟨rSL_SAFE0, 31, 31⟩
def fSL_SAFE0_TAG : Field := ⟨rSL_SAFE0, 30, 30⟩
def fSL_SAFE0_PORTS : Field := ⟨rSL_SAFE0, 29, 28⟩
def fSL_SAFE0_TALF : Field := ⟨rSL_SAFE0, 27, 26⟩
def fSL_SAFE0_LEN : Field := ⟨rSL_SAFE0, 8, 0⟩
/-- SL_SAFE1 (R415). -/
def rSL_SAFE1 : Reg := ⟨0xf00104, 8, 16, 1, 0, 0x0, 0xf00000, false, false,
  [⟨31,16,.rwl,0⟩, ⟨15,0,.rwl,0⟩]⟩
def fSL_SAFE1_T0 : Field := ⟨rSL_SAFE1, 31, 16⟩
def fSL_SAFE1_T1 : Field := ⟨rSL_SAFE1, 15, 0⟩
/-- SL_SAFE2 (R415). -/
def rSL_SAFE2 : Reg := ⟨0xf00108, 8, 16, 1, 0, 0x0, 0xf00000, false, false,
  [⟨23,16,.rwl,0⟩, ⟨15,8,.rwl,0⟩, ⟨7,0,.rwl,0⟩]⟩
def fSL_SAFE2_OFS_ST : Field := ⟨rSL_SAFE2, 23, 16⟩
def fSL_SAFE2_OFS_SQ : Field := ⟨rSL_SAFE2, 15, 8⟩
def fSL_SAFE2_OFS_TAL : Field := ⟨rSL_SAFE2, 7, 0⟩
/-- SL_SAFE3 (R415). -/
def rSL_SAFE3 : Reg := ⟨0xf0010c, 8, 16, 1, 0, 0x0, 0xf00000, false, false,
  [⟨25,16,.rwl,0⟩, ⟨10,0,.rwl,0⟩]⟩
def fSL_SAFE3_CB : Field := ⟨rSL_SAFE3, 25, 16⟩
def fSL_SAFE3_KEY : Field := ⟨rSL_SAFE3, 10, 0⟩
/-- SL_SAFEST (R415). -/
def rSL_SAFEST : Reg := ⟨0xf00180, 8, 4, 1, 0, 0x0, 0x0, false, false,
  [⟨31,0,.ro,0⟩]⟩
def fSL_SAFEST_STNUM : Field := ⟨rSL_SAFEST, 31, 0⟩

/-! The status flags, each with its set counter (R205) and its interrupt source (R193). -/

def kPLT_STAT_SPARE : Flag := ⟨fPLT_STAT_SPARE, some fPLT_SETCNT_SPARE_N, .dev 33⟩
def kPLT_STAT_CETHR : Flag := ⟨fPLT_STAT_CETHR, some fPLT_SETCNT_CETHR_N, .dev 33⟩
def kPLT_STAT_UE : Flag := ⟨fPLT_STAT_UE, some fPLT_SETCNT_UE_N, .dev 33⟩
def kPLT_STAT_CE : Flag := ⟨fPLT_STAT_CE, some fPLT_SETCNT_CE_N, .dev 33⟩
def kSHM_STAT_MAPDROP : Flag := ⟨fSHM_STAT_MAPDROP, some fSHM_SETCNT_MAPDROP_N, .dev 34⟩
def kSHM_STAT_REFUSED : Flag := ⟨fSHM_STAT_REFUSED, some fSHM_SETCNT_REFUSED_N, .dev 34⟩
def kSHM_STAT_DONE : Flag := ⟨fSHM_STAT_DONE, some fSHM_SETCNT_DONE_N, .dev 34⟩
def kSCH_STAT_NOFB : Flag := ⟨fSCH_STAT_NOFB, some fSCH_SETCNT_NOFB_N, .dev 35⟩
def kSCH_STAT_SPANWAIT : Flag := ⟨fSCH_STAT_SPANWAIT, some fSCH_SETCNT_SPANWAIT_N, .dev 35⟩
def kSCH_STAT_MIGRATE : Flag := ⟨fSCH_STAT_MIGRATE, some fSCH_SETCNT_MIGRATE_N, .dev 35⟩
def kSCH_STAT_CAPCHG : Flag := ⟨fSCH_STAT_CAPCHG, some fSCH_SETCNT_CAPCHG_N, .dev 35⟩
def kDLM_STAT_CAP : Flag := ⟨fDLM_STAT_CAP, some fDLM_SETCNT1_CAP_N, .dev 32⟩
def kDLM_STAT_QUAR : Flag := ⟨fDLM_STAT_QUAR, some fDLM_SETCNT1_QUAR_N, .dev 32⟩
def kDLM_STAT_STALE : Flag := ⟨fDLM_STAT_STALE, some fDLM_SETCNT0_STALE_N, .dev 32⟩
def kDLM_STAT_QFULL : Flag := ⟨fDLM_STAT_QFULL, some fDLM_SETCNT0_QFULL_N, .dev 32⟩
def kDLM_STAT_EXPIRED : Flag := ⟨fDLM_STAT_EXPIRED, some fDLM_SETCNT0_EXPIRED_N, .dev 32⟩
def kDLM_STAT_LATE : Flag := ⟨fDLM_STAT_LATE, some fDLM_SETCNT0_LATE_N, .dev 32⟩
def kNEG_STAT_PTLOST : Flag := ⟨fNEG_STAT_PTLOST, some fNEG_SETCNT_PTLOST_N, .dev 36⟩
def kNEG_STAT_BISTFAIL : Flag := ⟨fNEG_STAT_BISTFAIL, some fNEG_SETCNT_BISTFAIL_N, .dev 36⟩
def kNEG_STAT_RESTART : Flag := ⟨fNEG_STAT_RESTART, some fNEG_SETCNT_RESTART_N, .dev 36⟩
def kNEG_STAT_MISMATCH : Flag := ⟨fNEG_STAT_MISMATCH, some fNEG_SETCNT_MISMATCH_N, .dev 36⟩
def kEZ_STAT_IWREF : Flag := ⟨fEZ_STAT_IWREF, some fEZ_SETCNT_IWREF_N, .core 16⟩
def kEZ_STAT_LOOPERR : Flag := ⟨fEZ_STAT_LOOPERR, some fEZ_SETCNT_LOOPERR_N, .core 16⟩
def kEZ_STAT_PRIV : Flag := ⟨fEZ_STAT_PRIV, some fEZ_SETCNT_PRIV_N, .core 16⟩
def kEZ_STAT_ILLEGAL : Flag := ⟨fEZ_STAT_ILLEGAL, some fEZ_SETCNT_ILLEGAL_N, .core 16⟩
def kEZ_AFLAGS_DV : Flag := ⟨fEZ_AFLAGS_DV, some fEZ_ASETCNT0_DV_N, .core 17⟩
def kEZ_AFLAGS_IX : Flag := ⟨fEZ_AFLAGS_IX, some fEZ_ASETCNT1_IX_N, .core 17⟩
def kEZ_AFLAGS_UF : Flag := ⟨fEZ_AFLAGS_UF, some fEZ_ASETCNT1_UF_N, .core 17⟩
def kEZ_AFLAGS_OF : Flag := ⟨fEZ_AFLAGS_OF, some fEZ_ASETCNT0_OF_N, .core 17⟩
def kEZ_AFLAGS_DZ : Flag := ⟨fEZ_AFLAGS_DZ, some fEZ_ASETCNT0_DZ_N, .core 17⟩
def kEZ_AFLAGS_IV : Flag := ⟨fEZ_AFLAGS_IV, some fEZ_ASETCNT0_IV_N, .core 17⟩
def kEZ_SAFLAGS_DV : Flag := ⟨fEZ_SAFLAGS_DV, some fEZ_SASETCNT0_DV_N, .core 17⟩
def kEZ_SAFLAGS_IX : Flag := ⟨fEZ_SAFLAGS_IX, some fEZ_SASETCNT1_IX_N, .core 17⟩
def kEZ_SAFLAGS_UF : Flag := ⟨fEZ_SAFLAGS_UF, some fEZ_SASETCNT1_UF_N, .core 17⟩
def kEZ_SAFLAGS_OF : Flag := ⟨fEZ_SAFLAGS_OF, some fEZ_SASETCNT0_OF_N, .core 17⟩
def kEZ_SAFLAGS_DZ : Flag := ⟨fEZ_SAFLAGS_DZ, some fEZ_SASETCNT0_DZ_N, .core 17⟩
def kEZ_SAFLAGS_IV : Flag := ⟨fEZ_SAFLAGS_IV, some fEZ_SASETCNT0_IV_N, .core 17⟩
def kIC_STAT_SPUR : Flag := ⟨fIC_STAT_SPUR, some fIC_SETCNT_SPUR_N, .core 18⟩
def kIC_STAT_EOIERR : Flag := ⟨fIC_STAT_EOIERR, some fIC_SETCNT_EOIERR_N, .core 18⟩
def kEP_STAT_DLATE : Flag := ⟨fEP_STAT_DLATE, some fEP_SETCNT_DLATE_N, .port⟩
def kEP_STAT_SPEED : Flag := ⟨fEP_STAT_SPEED, some fEP_SETCNT_SPEED_N, .port⟩
def kEP_STAT_CFGREF : Flag := ⟨fEP_STAT_CFGREF, some fEP_SETCNT_CFGREF_N, .port⟩
def kEP_STAT_LINKDN : Flag := ⟨fEP_STAT_LINKDN, some fEP_SETCNT_LINKDN_N, .port⟩
def kFE_LSTAT_UNSUP : Flag := ⟨fFE_LSTAT_UNSUP, none, .lane⟩
def kFE_LSTAT_MALFORM : Flag := ⟨fFE_LSTAT_MALFORM, some fFE_LSETCNT_MALFORM_N, .lane⟩
def kFE_LSTAT_RINGDROP : Flag := ⟨fFE_LSTAT_RINGDROP, some fFE_LSETCNT_RINGDROP_N, .lane⟩
def kFE_LSTAT_NOMATCH : Flag := ⟨fFE_LSTAT_NOMATCH, some fFE_LSETCNT_NOMATCH_N, .lane⟩
def kFE_LSTAT_AUTHFAIL : Flag := ⟨fFE_LSTAT_AUTHFAIL, some fFE_LSETCNT_AUTHFAIL_N, .lane⟩
def kFE_USTAT_PTREF : Flag := ⟨fFE_USTAT_PTREF, some fFE_USETCNT1_PTREF_N, .none⟩
def kFE_USTAT_ABORT : Flag := ⟨fFE_USTAT_ABORT, some fFE_USETCNT1_ABORT_N, .none⟩
def kFE_USTAT_UE : Flag := ⟨fFE_USTAT_UE, some fFE_USETCNT0_UE_N, .none⟩
def kFE_USTAT_CE : Flag := ⟨fFE_USTAT_CE, some fFE_USETCNT0_CE_N, .none⟩
def kFE_USTAT_LOADREF : Flag := ⟨fFE_USTAT_LOADREF, some fFE_USETCNT0_LOADREF_N, .none⟩
def kFE_USTAT_LOADOK : Flag := ⟨fFE_USTAT_LOADOK, some fFE_USETCNT0_LOADOK_N, .none⟩
def kCS_STAT_DSREF : Flag := ⟨fCS_STAT_DSREF, some fCS_SETCNT_DSREF_N, .dev 37⟩
def kCS_STAT_WREF : Flag := ⟨fCS_STAT_WREF, some fCS_SETCNT_WREF_N, .dev 37⟩
def kCS_STAT_EVLOST : Flag := ⟨fCS_STAT_EVLOST, some fCS_SETCNT_EVLOST_N, .dev 37⟩
def kCS_STAT_COL : Flag := ⟨fCS_STAT_COL, some fCS_SETCNT_COL_N, .dev 37⟩
def kTU_STAT_LEAP : Flag := ⟨fTU_STAT_LEAP, none, .dev 38⟩
def kTU_STAT_FREERUN : Flag := ⟨fTU_STAT_FREERUN, some fTU_SETCNT_FREERUN_N, .dev 38⟩
def kTU_STAT_HOLD : Flag := ⟨fTU_STAT_HOLD, some fTU_SETCNT_HOLD_N, .dev 38⟩
def kTU_STAT_SRCCHG : Flag := ⟨fTU_STAT_SRCCHG, some fTU_SETCNT_SRCCHG_N, .dev 38⟩
def kTU_STAT_STEP : Flag := ⟨fTU_STAT_STEP, some fTU_SETCNT_STEP_N, .dev 38⟩
def kHI_STAT_CFGREF : Flag := ⟨fHI_STAT_CFGREF, none, .dev 39⟩
def kHI_STAT_LINKDN : Flag := ⟨fHI_STAT_LINKDN, some fHI_SETCNT_LINKDN_N, .dev 39⟩
def kHI_STAT_IDXERR : Flag := ⟨fHI_STAT_IDXERR, some fHI_SETCNT_IDXERR_N, .dev 39⟩
def kHI_STAT_HOSTERR : Flag := ⟨fHI_STAT_HOSTERR, some fHI_SETCNT_HOSTERR_N, .dev 39⟩
def kHI_STAT_NOBUF : Flag := ⟨fHI_STAT_NOBUF, some fHI_SETCNT_NOBUF_N, .dev 39⟩
def kKS_STAT_WINREF : Flag := ⟨fKS_STAT_WINREF, some fKS_SETCNT_WINREF_N, .dev 40⟩
def kKS_STAT_PLANREF : Flag := ⟨fKS_STAT_PLANREF, some fKS_SETCNT_PLANREF_N, .dev 40⟩
def kKS_STAT_SILENT : Flag := ⟨fKS_STAT_SILENT, some fKS_SETCNT_SILENT_N, .dev 40⟩
def kKS_STAT_MISMATCH : Flag := ⟨fKS_STAT_MISMATCH, some fKS_SETCNT_MISMATCH_N, .dev 40⟩
def kKS_STAT_PCHG : Flag := ⟨fKS_STAT_PCHG, none, .dev 40⟩
def kLC_STAT_VAULTLOST : Flag := ⟨fLC_STAT_VAULTLOST, some fLC_SETCNT_VAULTLOST_N, .dev 41⟩
def kLC_STAT_TAMPER : Flag := ⟨fLC_STAT_TAMPER, some fLC_SETCNT_TAMPER_N, .dev 41⟩
def kLC_STAT_REFUSED : Flag := ⟨fLC_STAT_REFUSED, some fLC_SETCNT_REFUSED_N, .dev 41⟩
def kLC_STAT_DONE : Flag := ⟨fLC_STAT_DONE, some fLC_SETCNT_DONE_N, .dev 41⟩
def kMX_STAT_CFGREF : Flag := ⟨fMX_STAT_CFGREF, some fMX_SETCNT_CFGREF_N, .dev 42⟩
def kMX_STAT_LOUPE : Flag := ⟨fMX_STAT_LOUPE, some fMX_SETCNT_LOUPE_N, .dev 42⟩
def kMX_STAT_DECERR : Flag := ⟨fMX_STAT_DECERR, some fMX_SETCNT_DECERR_N, .dev 42⟩
def kDDR_STAT_TRAINFAIL : Flag := ⟨fDDR_STAT_TRAINFAIL, some fDDR_SETCNT_TRAINFAIL_N, .dev 43⟩
def kDDR_STAT_TEMPHI : Flag := ⟨fDDR_STAT_TEMPHI, some fDDR_SETCNT_TEMPHI_N, .dev 43⟩
def kDDR_STAT_UE : Flag := ⟨fDDR_STAT_UE, some fDDR_SETCNT_UE_N, .dev 43⟩
def kDDR_STAT_CE : Flag := ⟨fDDR_STAT_CE, some fDDR_SETCNT_CE_N, .dev 43⟩
def kPM_STAT_DLWAKE : Flag := ⟨fPM_STAT_DLWAKE, some fPM_SETCNT_DLWAKE_N, .dev 44⟩
def kPM_STAT_SSFAULT : Flag := ⟨fPM_STAT_SSFAULT, some fPM_SETCNT_SSFAULT_N, .dev 44⟩
def kPM_STAT_REQREF : Flag := ⟨fPM_STAT_REQREF, some fPM_SETCNT_REQREF_N, .dev 44⟩
def kPM_STAT_SLEEP_ABORT : Flag := ⟨fPM_STAT_SLEEP_ABORT, some fPM_SETCNT_SLEEP_ABORT_N, .dev 44⟩
def kPM_STAT_WAKE : Flag := ⟨fPM_STAT_WAKE, none, .dev 44⟩
def kBT_STAT_LOW : Flag := ⟨fBT_STAT_LOW, some fBT_SETCNT_LOW_N, .dev 45⟩
def kBT_STAT_PRESENT : Flag := ⟨fBT_STAT_PRESENT, some fBT_SETCNT_PRESENT_N, .dev 45⟩
def kBT_STAT_ABSENT : Flag := ⟨fBT_STAT_ABSENT, some fBT_SETCNT_ABSENT_N, .dev 45⟩
def kBT_STAT_DONE : Flag := ⟨fBT_STAT_DONE, some fBT_SETCNT_DONE_N, .dev 45⟩
def kBI_STAT_GATED : Flag := ⟨fBI_STAT_GATED, some fBI_SETCNT_GATED_N, .dev 46⟩
def kBI_STAT_ONFAIL : Flag := ⟨fBI_STAT_ONFAIL, some fBI_SETCNT_ONFAIL_N, .dev 46⟩
def kBI_STAT_OVR : Flag := ⟨fBI_STAT_OVR, some fBI_SETCNT_OVR_N, .dev 46⟩
def kBI_STAT_FAIL : Flag := ⟨fBI_STAT_FAIL, some fBI_SETCNT_FAIL_N, .dev 46⟩
def kBI_STAT_DONE : Flag := ⟨fBI_STAT_DONE, none, .dev 46⟩
def kUB_STAT_ROLEERR : Flag := ⟨fUB_STAT_ROLEERR, none, .dev 47⟩
def kUB_STAT_TAKEOVER : Flag := ⟨fUB_STAT_TAKEOVER, some fUB_SETCNT_TAKEOVER_N, .dev 47⟩
def kUB_STAT_HBLOSS : Flag := ⟨fUB_STAT_HBLOSS, some fUB_SETCNT_HBLOSS_N, .dev 47⟩
def kUB_STAT_RXERR : Flag := ⟨fUB_STAT_RXERR, some fUB_SETCNT_RXERR_N, .dev 47⟩
def kUB_STAT_LINKDN : Flag := ⟨fUB_STAT_LINKDN, some fUB_SETCNT_LINKDN_N, .dev 47⟩
def kUB_STAT_UP : Flag := ⟨fUB_STAT_UP, none, .dev 47⟩
def kSL_STAT_SEALED : Flag := ⟨fSL_STAT_SEALED, some fSL_SETCNT_SEALED_N, .dev 48⟩
def kSL_STAT_WDOG : Flag := ⟨fSL_STAT_WDOG, some fSL_SETCNT_WDOG_N, .dev 48⟩
def kSL_STAT_STOPBATH : Flag := ⟨fSL_STAT_STOPBATH, some fSL_SETCNT_STOPBATH_N, .dev 48⟩

/-- Every register of BAR0, in the order in which an offset is looked up. -/
def allRegs : List Reg :=
  [rGL_DEV_ID, rGL_STRAP, rGL_TEMP, rGL_HEALTH, rPLT_CTL, rPLT_STAT, rPLT_SETCNT, rPLT_UE_ADDR, rPLT_UE_INFO, rPLT_BG_STAT, rPLT_TRAY_ERR, rPLT_CE_CNT] ++
  [rSHM_OWNER, rSHM_EPOCH, rSHM_STAT, rSHM_SETCNT, rSHM_LASTREF, rSHM_MAP, rVP_STAT, rVF_PC, rVF_IDX, rVF_CAUSE, rVF_INFO, rSCH_CTL] ++
  [rSCH_PLAN, rSCH_CAP, rSCH_STAT, rSCH_SETCNT, rSCH_OFFCNT, rSCH_QDEPTH, rSCH_MIG, rDLM_CTL, rDLM_STAT, rDLM_SETCNT0, rDLM_SETCNT1, rDLM_LAST] ++
  [rDLM_TN_CFG, rDLM_TN_CNT, rNEG_CTL, rNEG_STAT, rNEG_SETCNT, rNEG_LAST0, rNEG_LAST1, rNEG_LAST2, rNEG_LAST3, rNEG_BIST, rNEG_TN_CFG, rNEG_TN_CNT] ++
  [rEZ_CTL, rEZ_STAT, rEZ_SETCNT, rEZ_IADDR, rEZ_IDATA, rEZ_IWIN, rEZ_CTXCFG, rEZ_CTXSTAT, rEZ_PC, rEZ_ENTRY, rEZ_SUPPC, rEZ_CAUSE] ++
  [rEZ_XBASE, rEZ_XCFG, rEZ_AFLAGS, rEZ_SXCFG, rEZ_SAFLAGS, rEZ_SASETCNT0, rEZ_SASETCNT1, rEZ_ASETCNT0, rEZ_ASETCNT1, rIC_CTL, rIC_STAT, rIC_SETCNT] ++
  [rIC_RPRIO, rIC_SWI, rIC_PEND, rIC_SRC, rIC_ROUTE, rEP_CTL, rEP_STAT, rEP_SETCNT, rEP_LINK, rEP_MACLO, rEP_MACHI, rEP_EG] ++
  [rEP_HF, rEP_HFETYPE, rEP_RDCFG, rEP_RB, rEP_DTEN, rEP_RXOK_CNT, rEP_RXERR_CNT, rEP_RXQ_CNT, rEP_RXCTL_CNT, rEP_DUPEVICT_CNT, rEP_TXOK_CNT, rEP_TXREF_CNT] ++
  [rEP_TXLOST_CNT, rFE_LSTAT, rFE_LSETCNT, rFE_AUTHFAIL_CNT, rFE_NOMATCH_CNT, rFE_RINGDROP_CNT, rFE_MALFORM_CNT, rFE_LABORT, rFE_LABORT_CNT, rFE_CTL, rFE_USTAT, rFE_USETCNT0] ++
  [rFE_USETCNT1, rFE_UCODE_VER, rFE_LOAD, rFE_UE_ADDR, rFE_CE_CNT, rFE_STAGE, rFE_STORE, rCS_CTL, rCS_STAT, rCS_SETCNT, rCS_COL_CNT, rCS_EVDROP_CNT] ++
  [rCS_EVOK_CNT, rCS_DSDIR, rCS_DSMEM, rTU_CTL, rTU_STAT, rTU_SETCNT, rTU_NOW_NS, rTU_NOW_SLO, rTU_NOW_SHI, rTU_UTCOFF, rTU_SRCCFG, rTU_SEL] ++
  [rTU_OFFSET, rTU_HOLD, rTU_HOLDEST, rTU_PPSDLY, rTU_PPSSTAMP, rTU_PTPDS, rTU_PTPROLE, rTU_IRIG, rTU_PTBASE, rTU_SETSEC, rHI_CTL, rHI_STAT] ++
  [rHI_SETCNT, rHI_POLL, rHI_SUMBASE_LO, rHI_SUMBASE_HI, rHI_DBBASE_LO, rHI_DBBASE_HI, rHI_STBASE_LO, rHI_STBASE_HI, rHI_RDTMO, rHI_ERRINFO, rHI_ERRADDR_LO, rHI_ERRADDR_HI] ++
  [rHI_LINK, rHI_HFDROP_CNT, rHI_TN_BASE_LO, rHI_TN_BASE_HI, rHI_TN_SIZE, rHI_TN_VEC, rHI_TN_CTL, rHI_HROUTE, rHI_VMOD, rMSIX_TABLE, rMSIX_PBA, rTN_CTL] ++
  [rTN_EPOCH, rTN_DRAM, rTN_PROOF, rKS_CTL, rKS_STAT, rKS_SETCNT, rKS_PSTAT, rKS_DEVID_LO, rKS_DEVID_HI, rKS_ROOT_LO, rKS_ROOT_HI, rKS_BCN] ++
  [rKS_CUSTKEY, rKS_LASTREF, rKS_VADDR, rKS_VDATA, rKS_EXP0, rKS_EXP1, rKS_EXP2, rKS_EXP3, rKS_EXP4, rKS_EXP5, rKS_EXP6, rKS_EXP7] ++
  [rLC_STATE, rLC_STAT, rLC_SETCNT, rLC_REQ, rLC_CHAL_LO, rLC_CHAL_HI, rLC_TAMPCFG, rLC_TAMPSRC, rLC_AUTH, rMX_CTL, rMX_STAT, rMX_SETCNT] ++
  [rMX_FAIR, rMX_ARB, rMX_WAIT, rMX_MQOS, rMX_PRIO, rDDR_CTL, rDDR_STAT, rDDR_SETCNT, rDDR_CFG, rDDR_STATE, rDDR_UE_ADDR_LO, rDDR_UE_ADDR_HI] ++
  [rDDR_CE_CNT, rDDR_SCRUB, rPM_CTL, rPM_STAT, rPM_SETCNT, rPM_REQ, rPM_IDLE, rPM_WAKECFG, rPM_WAKESRC, rPM_STATE, rPM_ALARM, rPM_PIN] ++
  [rPM_PLATE_RET, rPM_DOM, rPM_DWAKE_CNT, rBT_CFG, rBT_STAT, rBT_SETCNT, rBT_STATE, rBI_CTL, rBI_STAT, rBI_SETCNT, rBI_RESULT, rBI_ONCNT] ++
  [rBI_ONABORT_CNT, rBI_UNUSABLE, rBI_DIRECT, rBI_BUDGET, rUB_CTL, rUB_STAT, rUB_SETCNT, rUB_LINK, rUB_HB, rUB_CKPT, rUB_LEND, rUB_CKTEN] ++
  [rUB_MIR, rSL_CTL, rSL_STAT, rSL_SETCNT, rSL_STATE, rSL_CAUSE, rSL_WDOG, rSL_WDKICK, rSL_STOP, rSL_IMGADDR, rSL_IMGDATA, rSL_SAFE0] ++
  [rSL_SAFE1, rSL_SAFE2, rSL_SAFE3, rSL_SAFEST]

/-- The block ranges of BAR0 (R450). -/
def blockRanges : List (Nat × Nat) :=
  [(0x0, 0x13), (0x100000, 0x1140ff), (0x200000, 0x204fff), (0x208000, 0x208bff), (0x20c000, 0x20cbff), (0x300000, 0x31ffff), (0x400000, 0x48015f), (0x500000, 0x50bfff), (0x510000, 0x51bfff), (0x520000, 0x52001f), (0x600000, 0x61ffff)] ++
  [(0x700000, 0x77ffff), (0x800000, 0x800053), (0x900000, 0x94103f), (0xa00000, 0xa0417f), (0xb00000, 0xb10023), (0xc00000, 0xc1000f), (0xd00000, 0xd0006b), (0xe00000, 0xe0005f), (0xf00000, 0xf0019f), (0x1000000, 0x13fffff)]

end Sys2Proof.Machine
end

