-- ==== Sys2Proof/Machine/StCore.lean ====
section
/-! DEFINITION. The state of the Easel cores, the spans, decision sections and the activation scheduler, as plain
data. -/

namespace Sys2Proof.Machine
open Sys2Proof

/-- The stream operations (R120). -/
inductive SOp where
  | mov | ldff | lds | sts | cvt | add | sub | mul | fma | min | max | abs | neg | and | or | xor | shl | shr | div
  | sqrt | cmp | mulw | fmaw | dot | cmul | redadd | redmin | redmax | psum | dadd | dsub
  deriving DecidableEq, Repr

/-- The short-vector operations (R132, R134). -/
inductive HOp where
  | add | sub | mul | fma | min | max | and | or | xor | shli | shrai | shrli | cmpeq | cmplt | cmple | sel | splat
  | cvt | redadd | redmin | redmax | redadd2 | cmul | dadd | dsub | movs | mand | mor | mxor | mnot | mpop | setn | grp
  deriving DecidableEq, Repr

/-- A vector instruction. -/
inductive VOp where
  | str (op : SOp) (x : StreamArgs)
  | sht (op : HOp) (x : ShortArgs)
  deriving DecidableEq, Repr

/-- An activation (R19): tenant, source kind and index as in the fault record (R49), trigger time stamp in ns of
station time, budget in ns, its deadline on the monotonic timebase (R43), whether its miss is already recorded, whether it
runs on a partner's behalf (R427), and its number among all posts, which tells it from an equal one. -/
structure Act where
  tenant   : Nat
  kind     : Nat
  idx      : Nat
  trig     : Nat
  budget   : Nat
  deadline : Nat
  missed   : Bool
  lent     : Bool
  id       : Nat
  deriving DecidableEq, Repr

/-- One hardware loop level (R152). -/
structure Loop where
  lb  : Word
  le  : Word
  lc  : Word
  act : Bool
  deriving DecidableEq, Repr

/-- Scalar registers s1–s31, flags, PC and loop registers (R137, R157). `inv` says that `s` holds the registers as the
Negative pass holds them, complemented (R212). -/
structure RSet where
  s   : Tab Word
  inv : Bool
  n  : Bool
  z  : Bool
  c  : Bool
  v  : Bool
  pc : Word
  l0 : Loop
  l1 : Loop
  l2 : Loop
  deriving DecidableEq, Repr

/-- A fault that has been found (R177–R180): its code and class level, the faulting instruction, the data address,
port or instruction word, the LOOPERR sub-cause or TRAP number, whether it is imprecise, whether a vector instruction
raised it, the element, port, tank and address for the fault record of R99, and the cycle in which its instruction
issued. -/
structure FaultRec where
  code  : Nat
  level : Nat
  pc    : Word
  info  : Word
  sub   : Nat
  trap  : Nat
  imp   : Bool
  vec   : Bool
  idx   : Nat
  port  : Nat
  chain : Bool
  tank  : Nat
  addr  : Nat
  at_   : Nat
  deriving DecidableEq, Repr

/-- What kind of long operation is pending (R150). -/
inductive LongKind where
  | divide | plate | dram | point | window | store
  deriving DecidableEq, Repr

/-- What a Plate load still has to sample (R142): the physical word, found at issue (R177), the byte in it and the size,
whether it sign-extends, its register, the cycle in which it samples, and the fault that a poisoned word raises. -/
structure Sampling where
  wa   : Nat
  off  : Nat
  size : Nat
  sext : Bool
  rd   : Nat
  cyc  : Nat
  bad  : FaultRec
  deriving DecidableEq, Repr

/-- A pending long operation (R150, R151): the registers it writes, the cycle its result is readable, the fault
or arithmetic exception it will raise, and what it still has to sample. -/
structure LongOp where
  kind  : LongKind
  res   : List (Nat × Word)
  ready : Nat
  pc    : Word
  arith : Option Nat
  fault : Option FaultRec
  samp  : Option Sampling
  deriving DecidableEq, Repr

/-- One register set with what hangs on it: a context's or the supervisor's. `dslot` holds the results of Tray
loads that their delay slot has not yet passed (R151); `latch` is the point read latch (R293); `pwr` is a PWR whose V
is not written yet: launched, or judged with its V and the instant the judgement returns (R145); `held` are faults not yet delivered (R184). -/
structure Thr where
  r     : RSet
  dslot : List (Nat × Word)
  pend  : List LongOp
  latch : List Word
  pwr   : Option (Option (Bool × Nat))
  held  : List FaultRec
  deriving DecidableEq, Repr

/-- A decision output (R217). -/
inductive DecOut where
  | point (p : Nat) (nov noq : Bool) (q : Nat) (v : Nat) (trig : Nat)
  | pub (cb : Nat)
  deriving DecidableEq, Repr

/-- A write of the Loupe that the main pass logs (R225): a scalar register, a mask, n bytes of a class at byte o of a v register,
VCOUNT or g. -/
inductive LWrite where
  | reg (n : Nat) (v : Word)
  | mask (m v : Nat)
  | vreg (r o n cls v : Nat)
  | vcount (v : Nat)
  | group (v : Nat)
  deriving DecidableEq, Repr

/-- The entry state of a decision section (R209). -/
structure Shadow where
  r      : RSet
  vcount : Nat
  vceil  : Nat
  g      : Nat
  v      : Tab Byte
  vcls   : Tab Nat
  m      : Tab Nat
  deriving DecidableEq, Repr

/-- An open decision section (R209–R222): the pass, its signature and outputs and those of the main pass, the log of INs
with the position of the Negative pass in it, the restarts taken, where the pass started, how many instructions it has
retired, and the Loupe's writes with the main pass's count at each (R225). -/
structure Sec where
  neg      : Bool
  pcBegin  : Word
  shadow   : Shadow
  sig      : DWord
  sigMain  : DWord
  held     : List DecOut
  heldMain : List DecOut
  inlog    : List (Nat × Word)
  inpos    : Nat
  restarts : Nat
  start    : Nat
  retired  : Nat
  llog     : List (Nat × LWrite)
  deriving DecidableEq, Repr

/-- One of the eight contexts of a core (R157). -/
structure Ctx where
  thr     : Thr
  tenant  : Nat
  vcount  : Nat
  vceil   : Nat
  g       : Nat
  ml      : Nat
  ct      : Bool
  strict  : Bool
  dl      : Bool
  quar    : Bool
  sec     : Option Sec
  negres  : Nat
  waitRel : List DecOut
  deriving DecidableEq, Repr

/-- A save bank of exception entry (R184, R191). -/
structure Bank where
  cause : Word
  pc    : Word
  fpc   : Word
  info  : Word
  disp  : Nat
  rml   : Nat
  ctx   : Nat
  rsup  : Bool
  deriving DecidableEq, Repr

/-- What an instruction reads when it starts (R103, R114): VCOUNT, its ceiling, the words of the Tray descriptor
blocks of A, B and D, the Tray words of them that were in error, and the port of the first block that could not be read
(R76). -/
structure Snap where
  vc   : Nat
  ceil : Nat
  a    : Option (List Nat)
  b    : Option (List Nat)
  d    : Option (List Nat)
  errs : List Nat
  bad  : Option Nat
  deriving DecidableEq, Repr

/-- A vector instruction in a span's issue queue (R84): the scalar registers it read at issue (R114), its issue
cycle, whether it is pre-rolled behind an unresolved branch and whether it stands in a taken branch's shadow
(R155), the element it restarts from, its carry (R100) and how many elements its restarts have removed from its source
tanks (R96), what it read when it first started, its issue cycle as its identity, and the identity of its candidate
consumer once that has issued (R97). -/
structure VEnt where
  op    : VOp
  pc    : Word
  regs  : Tab Word
  issue : Nat
  pre   : Bool
  shad  : Bool
  first : Nat
  carry : Option Nat
  taken : Nat
  snap  : Option Snap
  id    : Nat
  cand  : Option Nat
  deriving DecidableEq, Repr

/-- One write that a running vector instruction holds until its count expires. -/
inductive VWrite where
  | plate (a : Nat) (bs : List Byte)
  | vreg (reg e : Nat) (bs : List Byte) (cls : Nat)
  | mask (m : Nat) (v : Nat)
  | tpush (t h : Nat) (x : Nat) (size cls : Nat)
  | tpop (t h n : Nat)
  | tclear (t h : Nat)
  | sreg (r : Nat) (v : Word)
  | vcount (v : Nat)
  | vceil (v : Nat)
  | group (g : Nat)
  deriving DecidableEq, Repr

/-- A vector instruction, or a chained pair, that has started: the half it uses, its start and end cycles, its
held writes, the arithmetic exceptions its elements raised (how often each), its fault, the Plate words its reads
found in error with the kind of error, the carries with which its instructions would restart, and whether a branch
verdict is still outstanding for it. -/
structure VJob where
  ents   : List VEnt
  h      : Nat
  start  : Nat
  fin    : Nat
  chain  : Bool
  writes : List VWrite
  flags  : List Nat
  fault  : Option FaultRec
  ecc    : List (Nat × Nat)
  carry  : List (Option Nat)
  pre    : Bool
  shad   : Bool
  deriving DecidableEq, Repr

/-- An outstanding branch verdict (R155): when it arrives, whether the branch is taken, whether the instruction at
c + 1 has already been met in its shadow, and where that instruction stands. -/
structure Branch where
  due   : Nat
  taken : Bool
  met   : Bool
  fall  : Nat
  deriving DecidableEq, Repr

/-- Moderation state of one interrupt source at a core (R195–R201): its unreleased sets and the first of them, whether
sets are released, since when its request line is high, the instant of its last set (a source is set once in a cycle)
and the cycle of its release, the cycle in which it was last released again while pending (R206), and the cycle in which it
was last withdrawn while pending, with its priority (R198). -/
structure SrcSt where
  cnt     : Nat
  first   : Nat
  released : Bool
  line    : Nat
  lastSet : Option Nat
  relAt   : Nat
  again   : Option Nat
  gone    : Option (Nat × Nat)
  deriving DecidableEq, Repr

/-- A core's interrupt controller (R192–R199): the claim stack above entry 0, the entry latch, and the moderation
and pending state of each source. -/
structure Ic where
  stack : List (Nat × Nat)
  latch : Bool
  srcs  : Tab SrcSt
  deriving DecidableEq, Repr

/-- The activation that occupies a core, with the context that runs it, its span (log2 width), whether it has
ended and waits only for its fixed release, and whether a section of it mismatched (R221). -/
structure Run where
  act   : Act
  ctx   : Nat
  wlog  : Nat
  ended : Bool
  mism  : Bool
  deriving DecidableEq, Repr

/-- A vector fault that is not delivered yet (R189): the issue cycle of its instruction, and the instructions from their
restart points. -/
structure VHeld where
  at_  : Nat
  ents : List VEnt
  deriving DecidableEq, Repr

/-- The Loupe at a core (R225): whether it holds issue, its breakpoints, and whether issue goes on past one. -/
structure LoupeSt where
  halt : Bool
  bps  : List Word
  go   : Bool
  deriving DecidableEq, Repr

/-- An Easel core with its span's issue state. `cyc` is the core-clock cycle of its next issue; `sup` says that
supervisor mode runs; `run` is the dispatched activation; `rpc` and `rwait` are the resume point (R457); `vfin` are the
cycles at which the counts on the lower and the upper half of its span last ended (R84); `vcount`, `vceil` and `g` serve
the supervisor's own vector instructions; `freed` is the cycle in which the last activation ended; `vflt` says that a
vector fault froze the span, and `vheld` are the vector faults that are not delivered yet (R189); `vlast` is the cycle before
which nothing in the queue starts: the last start, or the span's thaw (R84). -/
structure CoreSt where
  cyc     : Nat
  stopped : Bool
  held    : Bool
  sup     : Bool
  waiting : Bool
  run     : Option Run
  thr     : Thr
  ml      : Nat
  rpc     : Word
  rwait   : Bool
  banks   : Tab Bank
  sio     : Nat
  remap   : Bool
  vq      : List VEnt
  jobs    : List VJob
  frozen  : Bool
  br      : Option Branch
  queue   : List Act
  ic      : Ic
  vfin    : Nat × Nat
  vcount  : Nat
  vceil   : Nat
  g       : Nat
  freed   : Nat
  vflt    : Bool
  vheld   : List VHeld
  vlast   : Nat
  loupe   : LoupeSt
  deriving DecidableEq, Repr

/-- A pipe's place in a span (R109): first pipe and log2 width, the layout that waits to form, and whether
it has waited for a running member (R85). -/
structure PipeSt where
  base : Nat
  wlog : Nat
  ten  : Nat
  wait : Option (Nat × Nat)
  late : Bool
  deriving DecidableEq, Repr

/-- A tank's contents for one core, tank and H selection (R96): elements as held (R213) with their size, and the
span width they were written with. -/
structure Tank where
  elems : List (Nat × Nat)
  wlog  : Nat
  deriving DecidableEq, Repr

/-- The deadline monitor's per-tenant state: the values in effect for the period (R36, R44), the run of
consecutive misses (R46) and of consecutive mismatching activations (R221). -/
structure Dlm where
  cfg  : Word
  e    : Nat
  run  : Nat
  mrun : Nat
  deriving DecidableEq, Repr

def Loop.init : Loop := ⟨0, 0, 0, false⟩
def RSet.init : RSet := ⟨[], false, false, false, false, false, 0, Loop.init, Loop.init, Loop.init⟩
def Thr.init : Thr := ⟨RSet.init, [], [], List.replicate 8 0, none, []⟩
def Bank.init : Bank := ⟨0, 0, 0, 0, 0, 0, 0, false⟩
def Snap.init : Snap := ⟨0, 0, none, none, none, [], none⟩
def SrcSt.init : SrcSt := ⟨0, 0, false, 0, none, 0, none, none⟩
def LoupeSt.init : LoupeSt := ⟨false, [], false⟩
def Ic.init : Ic := ⟨[], false, []⟩
def Tank.init : Tank := ⟨[], 0⟩
/-- A context at reset holds its home tenant 8·n + k (R10, R163). -/
def Ctx.init (n k : Nat) : Ctx :=
  ⟨Thr.init, 8 * n + k, 0, 0, 1, 0, false, false, false, false, none, 0, []⟩
/-- A core in reset: it leaves reset when start-up BIST ends (R439), in supervisor mode at address 0 (R139). -/
def CoreSt.init : CoreSt :=
  ⟨0, false, true, true, false, none, Thr.init, 0, 0, false, [], 0, false, [], [], false, none, [], Ic.init,
   (0, 0), 0, 0, 1, 0, false, [], 0, LoupeSt.init⟩
def PipeSt.init (p : Nat) : PipeSt := ⟨p, 0, 0, none, false⟩
/-- DLM_TN_CFG resets to POLICY FALLBACK (R50). -/
def Dlm.init : Dlm := ⟨1, 0, 0, 0⟩

end Sys2Proof.Machine
end

