-- ==== Sys2Proof/Machine/StNet.lean ====
section
/-! DEFINITION. The state of the ports, Frame Engine lanes, station-bus records, Contact sheet and host rings, as
plain data. -/

namespace Sys2Proof.Machine
open Sys2Proof

/-- A point record (R284): VALUE, time stamp in ns, QUALITY, DEADBAND, CHG, TYPE, OWNER, FLAGS, and the change
reference held beside the sheet (R297). -/
structure Point where
  val   : DWord
  ts    : Nat
  q     : Nat
  dead  : Word
  chg   : Nat
  ty    : Nat
  owner : Nat
  flags : Nat
  ref   : DWord
  deriving DecidableEq, Repr

/-- Words 5–7 of a point that wait for the plan boundary (R288). -/
structure PtCfg where
  pt    : Nat
  w5    : Option Word
  w6    : Option Word
  w7    : Option Word
  deriving DecidableEq, Repr

/-- Who writes a point (R291, R298); the Frame Engine by port group. -/
inductive PtSrc where
  | fe (grp : Fin 2) | ez | host | tu
  deriving DecidableEq, Repr

/-- What a point write answers to when it is judged (R291): a core's PWR with its mode, a context's released
decision output, a lane's PTWR, a host command's ring set, the Ubeolyn mirror, or nothing. -/
inductive PtBack where
  | none
  | pwr (core : Nat) (ctx : Option Nat)
  | held (core ctx : Nat)
  | lane (l : Nat) (eg : Bool) (n : Nat)
  | host (set : Nat)
  | mirror
  deriving DecidableEq, Repr

/-- A point write on its way to the Contact sheet (R290): the fields it names, its time stamp (`none`: station
time at landing, R292), the owner it must find (R287), the BUDGET of the GOOSE subscription that writes it (R19),
how often it has lost a collision, the trigger time stamp that it passes on where its stamp is another (R19, R255),
the instant at which its crossing delivers it (R145), and the trigger's instant on the monotonic timebase (R43). -/
structure PtWrite where
  src   : PtSrc
  pt    : Nat
  val   : Option DWord
  q     : Option Nat
  ts    : Option Nat
  owner : Option Nat
  sub   : Option Nat
  back  : PtBack
  lost  : Nat
  trig  : Option Nat
  rdy   : Nat
  trigM : Option Nat
  deriving DecidableEq, Repr

/-- A publication request on its way to the lanes (R250): the control block, whether it publishes the fallback
dataset, the activation whose decision output it is, whether a takeover asks for it, the deadline of the activation that
released it (R258), and the instant of the request (R51). -/
structure PubReq where
  cb       : Nat
  fallback : Bool
  dec      : Option Nat
  takeover : Bool
  deadline : Option Nat
  at_      : Nat
  deriving DecidableEq, Repr

/-- An event record on its way to a ring (R298, R336): the ring set and words 0–7; `ringSeq` says that word 7 is
the ring's own sequence number and `pt` that word 6 carries LOST. -/
structure EvRec where
  set     : Nat
  words   : List Word
  ringSeq : Bool
  pt      : Bool
  deriving DecidableEq, Repr

/-- A frame in an ingress queue (R237), with its last-bit station time (R307), the outcome of its tag check, the
instant at which the MAC delivers it to the lane (R229), and the instant of its last bit on the monotonic timebase. -/
structure QFrame where
  f     : Frame
  stamp : Nat
  tag   : Option Bool
  ready : Nat
  arr   : Nat
  deriving DecidableEq, Repr

/-- A frame to be built, or in an egress queue (R256): its class, the deadline of the activation that released it,
the activation whose decision frame it is, and its tenant (R257, R258), its control block, where it has one, and the instant
at which the egress build stage has passed (R51). -/
structure TxFrame where
  f        : Frame
  cls      : Nat
  deadline : Option Nat
  dec      : Option Nat
  tenant   : Option Nat
  cb       : Option Nat
  rdy      : Nat
  deriving DecidableEq, Repr

/-- A Plate write of a routine on its way (R271, R276): the cycle of its acknowledge, the tenant, the address, the bytes,
and the record, by kind and index, whose stream it writes (R24). -/
structure FePlw where
  due : Nat
  ten : Nat
  at_ : Nat
  bs  : List Byte
  rc  : Option (Nat × Nat)
  deriving DecidableEq, Repr

/-- A Frame Engine thread (R267): x1–x24 (x25–x31 are derived), flags, return stack, staging buffer (value, quality,
time stamp), whether a routine runs, its word address, cycle, effective bound and commit state; the fetch window, the
CRC and lookup in progress, the outstanding Plate writes, how many PTWRs the thread has issued, and the last of them (0 while
it is not judged, then the instant at which the judgement is back) with the cycle at which PACK holds. `cust` is the table TENANT while customer code
runs, `hookRet` the address that a hook returns to, `build` and `efrm`
are the frame that the egress thread builds and the bytes put so far, `ekey` the slot pair and key in effect when its
build started (R252). `perr` is a latent parity error in a register (R276), and `old` says that the routine started in
the customer bank that has since been exchanged (R280). -/
structure FeThr where
  x       : Tab Word
  z       : Bool
  n       : Bool
  c       : Bool
  stk     : List Nat
  sv      : Option DWord
  sq      : Option Nat
  st      : Option Nat
  run     : Bool
  pc      : Nat
  cyc     : Nat
  commit  : Bool
  bound   : Nat
  win     : Nat
  crc     : Option (Nat × Word)
  crcDone : Bool
  look    : Option (Nat × Option Nat)
  lookDone : Bool
  lookTab : Nat
  acks    : List FePlw
  ptN     : Nat
  ptwr    : Option Nat
  ptDue   : Nat
  pack    : Bool
  ptcol   : Bool
  cust    : Option Nat
  hookRet : Option Nat
  build   : Option TxFrame
  efrm    : Option (List Byte)
  ekey    : Option (Nat × Nat × List Byte)
  perr    : Bool
  old     : Bool
  deriving DecidableEq, Repr

/-- A Frame Engine lane: its two threads, the frames that wait to be built (R264, R274), and the instant at which the
ingress thread's present routine started, or its last one ended (R237, R273). -/
structure LaneSt where
  ing   : FeThr
  eg    : FeThr
  build : List TxFrame
  free  : Nat
  deriving DecidableEq, Repr

/-- A port (R229–R258): ingress queue, class queues in one list in queue order, the frame on the wire and the instant
at which its last bit leaves, the activations that hold it (R257), when the pair's last supervision frame was sent, and the
frame of each kind of queue that was last refused at full, with the instant: a pop of the same cycle takes it in (R235). -/
structure PortSt where
  ing   : List QFrame
  egq   : List TxFrame
  tx    : Option TxFrame
  holds : List Nat
  life  : Nat
  txEnd : Nat
  lateIn : Option QFrame
  lateEg : Option (TxFrame × Nat)
  deriving DecidableEq, Repr

/-- A redundancy pair (R238, R239): the duplicate table in order of arrival (source, sequence, arrival, port), and the
sequence number of frames sent. -/
structure PairSt where
  dup : List (BitVec 48 × BitVec 16 × Nat × Nat)
  seq : Nat
  deriving DecidableEq, Repr

/-- The kinds of station-bus record, in the numbering of REC_STAT (R332): 1 SV, 2 GOOSE, 3 publication, 4 Burst. -/
structure RecInst where
  kind  : Nat
  idx   : Nat
  words : List Word
  tmpl  : List Byte
  deriving DecidableEq, Repr

/-- Running state of a record: the eight status counters (R334), whether a frame has been taken, the instant at
which timeAllowedtoLive ends (R248), the last accepted stNum, smpCnt or SMPN, and the last sqNum. -/
structure RecSt where
  cnt  : List Nat
  seen : Bool
  tal  : Option Nat
  last : Nat
  lastSq : Nat
  deriving DecidableEq, Repr

/-- Running state of a publication (R250): stNum, sqNum, the members last sent, the present
interval in µs, when the next retransmission is due, whether the fallback dataset was sent last, and the station time of the
last event, which the frame's t carries (R305). -/
structure PubSt where
  st   : Nat
  sq   : Nat
  last : Option (List GooseMember)
  iv   : Nat
  due  : Option Nat
  fb   : Bool
  at_  : Nat
  deriving DecidableEq, Repr

/-- A fetched command (R330) with its ring index and, where its HADDR is read, the data or the error; and the bytes that it has
copied before a plan boundary (R341). -/
structure HCmd where
  w    : List Word
  idx  : Nat
  data : Option HostResp
  asked : Bool
  put   : Nat
  deriving DecidableEq, Repr

/-- A completion that waits for a free slot (R335). -/
structure HCpl where
  w0 : Word
  d0 : Word
  d1 : Word
  ix : Nat
  deriving DecidableEq, Repr

/-- A completion that waits for the plan boundary (R334): what was installed, and its command. -/
structure HWait where
  set  : Nat
  cmd  : HCmd
  inst : Option RecInst
  ok   : Bool
  plan : Bool
  deriving DecidableEq, Repr

/-- A ring set (R322–R325, R340): the device's indices, the host's as last read, halt, status-block count, the
fetched commands, the waiting completions, the event ring's sequence and loss counts, whether a ring appeared full
at the last poll, and the transmit descriptors fetched. -/
structure HSet where
  cmdPI : Nat
  cmdCI : Nat
  cmdFI : Nat
  cplPI : Nat
  cplCI : Nat
  evtPI : Nat
  evtCI : Nat
  txPI  : Nat
  txCI  : Nat
  rxPI  : Nat
  rxDI  : Nat
  halt  : Bool
  upd   : Nat
  cmds  : List HCmd
  cpls  : List HCpl
  seq   : Nat
  lost  : Nat
  full  : Bool
  txq   : List (List Word)
  deriving DecidableEq, Repr

/-- What an outstanding read of host memory is for (R327, R330). -/
inductive HReadKind where
  | summary
  | doorbell (set : Nat)
  | restart (set : Nat)
  | cmd (set n : Nat)
  | tx (set n : Nat)
  | cmdData (set idx : Nat)
  | rxd (set : Nat) (frame : List Byte) (tagged : Bool) (port stamp : Nat)
  deriving DecidableEq, Repr

/-- An outstanding read of host memory. -/
structure HRead where
  kind : HReadKind
  addr : Nat
  len  : Nat
  sent : Nat
  deriving DecidableEq, Repr

/-- A host MSI-X vector's moderation (R203): unreleased sets, the first of them, the last message sent, and how
many messages have gone out. -/
structure VecSt where
  cnt   : Nat
  first : Nat
  last  : Option Nat
  sent  : Nat
  deriving DecidableEq, Repr

/-- The host interface; `turn` is the ring set that was served last (R331), and `srcAt` the cycle after that of each device
source's last set on its vector (R195, R339). -/
structure HostSt where
  sets   : Tab HSet
  reads  : List HRead
  vecs   : Tab VecSt
  waits  : List HWait
  bg     : List (Nat × Nat)
  bgPend : List (Nat × Nat × Bool)
  polls  : Nat
  turn   : Nat
  srcAt  : Tab Nat
  perst  : Bool
  deriving DecidableEq, Repr

def Point.init : Point := ⟨0, 0, 0, 0, 0, 0, 0x1FF, 0, 0⟩
def FeThr.init : FeThr :=
  { x := [], z := false, n := false, c := false, stk := [], sv := none, sq := none, st := none, run := false, pc := 0,
    cyc := 0, commit := false, bound := 0, win := 0, crc := none, crcDone := false, look := none,
    lookDone := false, lookTab := 0, acks := [], ptN := 0, ptwr := none, ptDue := 0, pack := false, ptcol := false, cust := none,
    hookRet := none, build := none, efrm := none, ekey := none, perr := false, old := false }
def LaneSt.init : LaneSt := ⟨FeThr.init, FeThr.init, [], 0⟩
def PortSt.init : PortSt := ⟨[], [], none, [], 0, 0, none, none⟩
def PairSt.init : PairSt := ⟨[], 0⟩
def RecSt.init : RecSt := ⟨List.replicate 8 0, false, none, 0, 0⟩
def PubSt.init : PubSt := ⟨0, 0, none, 0, none, false, 0⟩
def HSet.init : HSet := ⟨0, 0, 0, 0, 0, 0, 0, 0, 0, 0, 0, false, 0, [], [], 0, 0, false, []⟩
def VecSt.init : VecSt := ⟨0, 0, none, 0⟩
def HostSt.init : HostSt := ⟨[], [], [], [], [], [], 0, 256, [], false⟩

end Sys2Proof.Machine
end

