-- ==== Sys2Proof/Machine/StSys.lean ====
section
/-! DEFINITION. The state of time, keys and lifecycle, power, self-test, Safelight and the Ubeolyn link, as plain
data. -/

namespace Sys2Proof.Machine
open Sys2Proof

/-- Time (R43, R304): the monotonic timebase in units of 1/24 ns, station time in ns with its 2^−32 ns fraction
and frequency correction, and the core clock in effect (R438). -/
structure Clock where
  mono : Nat
  sub  : Nat
  tai  : Nat
  frac : Nat
  corr : Int
  slow : Bool
  deriving DecidableEq, Repr

/-- A peer-delay exchange of a port as requester (R309): its sequence number, the request's egress stamp, and of a two-step
response the request's receipt, the response's own stamp and its correction. -/
structure PdReq where
  seq  : Nat
  t1   : Nat
  resp : Option (Nat × Nat × Int)
  deriving DecidableEq, Repr

/-- The time unit's sources (R308–R317): whether time has been set once (`set`, R308) and a source acquired since free-run
(`acq`, R313); 1PPS edges towards qualification and the last edge; by IRIG-B source the
frames towards qualification, the last second and its arrival; the sources that meet their conditions apart from being
enabled (`cond`, R311); the PTP ports (R309): the Sync that waits for its Follow_Up, the parent and its port, the best Announce of each port with the instant and the interval of the last one, the
path delay of each port, each port's exchange in progress as requester and as
responder, and the last Sync it sent with its egress stamp; holdover; the seconds value that waits, with its boundary, and the UTC offset that waits; the UTC
offsets that earlier instants had, newest first, each with the TAI instant that ended it (R305); the leap that waits;
seconds latches; the values last written to the time points; the instant
at which the 1PPS output rose; and each replica's difference from the time unit. -/
structure TuSt where
  set      : Bool
  acq      : Bool
  ppsRun   : Nat
  ppsLast  : Nat
  irig     : Tab (Nat × Nat × Nat)
  cond     : Nat
  ptpSync  : Option (Nat × Nat × Nat)
  ptpDelay : Tab Int
  ptpGm    : Option PtpMsg
  ptpPort  : Nat
  ptpErb   : Tab PtpMsg
  ptpAnn   : Tab (Nat × Nat)
  pdReq    : Tab PdReq
  pdResp   : Tab (Nat × Int)
  syncTx   : Tab (Nat × Nat)
  holdFrom : Nat
  holdE0   : Nat
  holdF    : Nat
  holds    : Nat
  setsec   : Option (Word × Nat)
  utcHost  : Option Nat
  utcKnown : Bool
  utcWas   : List (Nat × Nat)
  leap     : Nat
  leapAt   : Nat
  latHost  : Nat
  latSup   : Nat
  latCtx   : Tab Nat
  ptVals   : List Nat
  pps      : Option Nat
  repl     : Tab Nat
  deriving DecidableEq, Repr

/-- The key service and lifecycle (R344–R358): Vault generation and counts, boot nonce, seeds installed by handovers
during an advance, slice epochs, owners whose advance is not installed; fuses and customer key slots; the challenge,
the request in check (target, challenge, LC_AUTH), the transition that waits for the boundary, the one that waits for
the dispatched activations, and a running wipe (when it ends, and the state it leads to); a tamper found in Off; and
the proofs and images, with the customer image that the last swap put out of effect (R280). -/
structure KsSt where
  gen      : Nat
  cnt      : Tab Nat
  nonce    : Nat
  seed     : Tab DWord
  slep     : Tab Nat
  adv      : List Nat
  fuse     : Nat
  maint    : Bool
  cprog    : Nat
  crev     : Nat
  chash    : Tab (BitVec 256)
  chal     : DWord
  req      : Option (Nat × DWord × List Byte)
  pend     : Option Nat
  trans    : Option Nat
  wipe     : Option (Nat × Option Nat)
  offTamp  : Option Nat
  proof    : Tab (BitVec 256)
  heard    : Tab Nat
  root     : BitVec 256
  bcnSeq   : Nat
  vendor   : List Byte
  customer : List Byte
  custOld  : List Byte
  planImg  : List Byte
  deriving DecidableEq, Repr

/-- One key slot pair of the Vault (R349): owner, changeover in ns, and the current and next keys. -/
structure KeyPair where
  owner : Nat
  chg   : Nat
  cur   : Option (Nat × List Byte)
  nxt   : Option (Nat × List Byte)
  prev  : Option (Nat × List Byte)
  prevTo : Nat
  deriving DecidableEq, Repr

/-- The plan in effect and the plan that waits (R34–R38): the image, where the current period began on both
timebases, the slot, the lost clusters it answers, homes and migrations, when the next boundary is due, and where a
period whose station time was stepped ends on the monotonic timebase (R37), and how many activations have been posted. -/
structure PlanSt where
  img     : Option PlanImage
  fb      : Nat
  waiting : Option PlanImage
  began   : Nat
  beganM  : Nat
  next    : Nat
  period  : Nat
  slot    : Nat
  inslot  : Bool
  lost    : BitVec 8
  homes   : Tab Nat
  mig     : List (Nat × Nat × Nat)
  endM    : Option Nat
  posts   : Nat
  deriving DecidableEq, Repr

/-- An access from outside that stalls until its domain is ON (R389). -/
structure Stall where
  dom  : Nat
  rdr  : Reader
  off  : Nat
  data : Option Word
  deriving DecidableEq, Repr

/-- Power (R382–R396): the request that waits or is taken (target, instant at which its entry completes, 0 before the
sleep-request cycle); by domain the header-switch steps
closed, and the instant of its last access or of its ramp's first step; when Idle last ended; the
output pins; and the accesses that stall. -/
structure PmSt where
  entry   : Option (Nat × Nat)
  ramp    : Tab Nat
  usedAt  : Tab Nat
  idleAt  : Nat
  pwren   : Bool
  alarmN  : Bool
  replN   : Bool
  ppsOut  : Bool
  stall   : List Stall
  deriving DecidableEq, Repr

/-- Self-test (R399–R408): the running start-up slice and its start; a critical failure, a failed time-unit PLL, excluded
temperature sensors, usable PCIe lanes and a failed DRAM PLL; the online slice in progress (kind, unit, start) with the
end of its gap, the step of R403 that each bank index has reached, REPLACE, and the marks of failed units as BI_UNUSABLE lays
them out. -/
structure BistSt where
  running : Bool
  slice   : Nat
  start   : Nat
  crit    : Bool
  time    : Bool
  sensors : Nat
  pcie    : Nat
  dram    : Bool
  online  : Option (SliceKind × Nat × Nat)
  step    : Tab Nat
  replace : Bool
  gapTo   : Nat
  unus    : Word
  deriving DecidableEq, Repr

/-- Safelight (R409–R412): when the watchdog last started and whether a kick started it, triggers with their arrivals, the
station time of the stop, and by safe-state slot when a build ends, the stNum it carries, its sqNum, its interval in µs
and when it is sent again; the log ring and when the seal is due. -/
structure SlSt where
  kick   : Option (Nat × Bool)
  trig   : List (Nat × Nat)
  stopAt : Nat
  build  : Tab Nat
  st     : Tab Nat
  sq     : Tab Nat
  iv     : Tab Nat
  due    : Tab Nat
  logN   : Nat
  logNx  : Nat
  sealAt : Option Nat
  deriving DecidableEq, Repr

/-- The Ubeolyn link (R416–R427): session values, sequence numbers and epochs by virtual channel, credits held and
owed, replay buffers, heartbeat bookkeeping, frames that wait to be sent, checkpoints that wait, and lent work. -/
structure UbSt where
  session : DWord
  peer    : Option DWord
  peerId  : DWord
  hbSent  : Nat
  hbCount : Nat
  hbLast  : Nat
  hbEver  : Bool
  take    : Option Nat
  txSeq   : Tab Nat
  txEp    : Tab Nat
  rxSeq   : Tab Nat
  rxEp    : Tab Nat
  credit  : Tab Nat
  owed    : Tab Nat
  replay  : List UbFrame
  out     : List UbFrame
  ckpt    : List (Nat × Nat × List Byte)
  ckcnt   : Tab Nat
  stm     : Tab Nat
  lent    : List Act
  offered : Nat
  deriving DecidableEq, Repr

end Sys2Proof.Machine
end

