-- ==== Sys2Proof/Machine/State.lean ====
section
/-! DEFINITION. The whole state of an EVT2560 as plain data, why a step can stop, and the state after reset. -/

namespace Sys2Proof.Machine
open Sys2Proof

/-- Why the machine stops with a fault. No command of the manual stops the device: every meaning answers a next
state. The one constructor is kept for `Host.Outcome`; nothing raises it (safe). -/
inductive Fault where
  /-- Raised by nobody. Safe. -/
  | never
  deriving DecidableEq, Repr

/-- Why a command is refused. -/
inductive Refusal where
  /-- The command has no meaning yet; raised by the dispatcher alone. Safe. -/
  | notModelled (mnemonic : String)
  deriving DecidableEq, Repr

/-- How the last access of the host, the supervisor's BAR0 window or the management SPI was answered (R7, R9, R413,
R452): bytes, least significant first as read, not yet, since its power domain wakes first (R389), an error response, or a PCIe completion status. -/
inductive Resp where
  | none
  | data (bs : List Byte)
  | stalled
  | err
  | poisoned
  | ur
  | ca
  deriving DecidableEq, Repr

/-- The state of the device. Registers are one sparse table keyed by BAR0 offset (`Regs.lean`), absent keys reading
as the reset value of the register; `eff` holds, under the same keys, the values in effect of the registers whose
writes wait for the plan boundary (R36), and `newRegs` the keys written since the last one. `resp` is the answer to
the last access from outside, `setAt` the cycle in which a flag bit was last set, or in which its counter last counted with
the count before that cycle (R204, R205), `vfStr` the instructions that each tenant's fault record restarts (R100), `patrol` the next DRAM unit of patrol scrub and
`patrolAt` when its pass began, `mxRead` when each arbiter's greatest age was last read (R381), and `ddrHot` a DRAM case above 85 °C.
Memories hold bytes as stored: Plate and Tray fogged (R67, R77), DRAM
encrypted (R347). -/
structure State where
  clk     : Clock
  regs    : Tab Word
  eff     : Tab Word
  fresh   : Nat
  newRegs : List Nat
  setAt   : Tab (Nat × Nat)
  -- memories
  plate   : Tab Byte
  tray    : Tab Byte
  imem    : Tab Byte
  dram    : Tab Byte
  vault   : Tab Byte
  store   : Tab Byte
  slimg   : Tab Byte
  host    : Tab Byte
  -- latent errors and poison (R72–R76, R281, R378): 1 correctable, 2 uncorrectable
  plateEcc : Tab Nat
  trayEcc  : Tab Nat
  dramEcc  : Tab Nat
  storeEcc : Tab Nat
  poison   : List Nat
  -- compute
  cores   : Tab CoreSt
  ctxs    : Tab Ctx
  pipes   : Tab PipeSt
  vreg    : Tab Byte
  vcls    : Tab Nat
  mask    : Tab Nat
  tanks   : Tab Tank
  dlm     : Tab Dlm
  dlmSeq  : Nat
  vfStr   : Tab (List VEnt)
  -- scheduler
  plan    : PlanSt
  postq   : List Act
  -- station side
  lanes   : Tab LaneSt
  ports   : Tab PortSt
  pairs   : Tab PairSt
  points  : Tab Point
  ptcfg   : List PtCfg
  ptq     : List PtWrite
  evq     : List EvRec
  pubq    : List PubReq
  recs    : Tab (List Word)
  tmpls   : Tab (List Byte)
  recst   : Tab RecSt
  pubst   : Tab PubSt
  latchH  : Option (Nat × Point)
  latchS  : Option (Nat × Point)
  shadow  : Tab Byte
  newImg  : List (Nat × List Byte)
  verify  : Option Nat
  -- host, time, keys, power, test, Safelight, link
  hi      : HostSt
  tu      : TuSt
  ks      : KsSt
  keys    : Tab KeyPair
  pm      : PmSt
  bist    : BistSt
  sl      : SlSt
  ub      : UbSt
  resp    : Resp
  patrol  : Nat
  patrolAt : Nat
  mxRead  : Tab Nat
  ddrHot  : Bool
  pending : List Instr
  deriving DecidableEq, Repr

def Clock.init : Clock := ⟨0, 0, 0, 0, 0, false⟩
def TuSt.init : TuSt :=
  { set := false, acq := false, ppsRun := 0, ppsLast := 0, irig := [], cond := 0,
    ptpSync := none, ptpDelay := [], ptpGm := none, ptpPort := 0, ptpErb := [], ptpAnn := [], pdReq := [],
    pdResp := [], syncTx := [],
    holdFrom := 0, holdE0 := 0, holdF := 0, holds := 0, setsec := none, utcHost := none, utcKnown := false, utcWas := [],
    leap := 0, leapAt := 0, latHost := 0, latSup := 0, latCtx := [], ptVals := [], pps := none, repl := [] }
def KsSt.init : KsSt :=
  { gen := 0, cnt := [], nonce := 0, seed := [], slep := [], adv := [], fuse := 3,
    maint := false, cprog := 1, crev := 0, chash := [], chal := 0, req := none, pend := none, trans := none, wipe := none,
    offTamp := none,
    proof := [], heard := [], root := 0, bcnSeq := 0, vendor := [], customer := [], custOld := [], planImg := [] }
def KeyPair.init : KeyPair := ⟨0, 0, none, none, none, 0⟩
def PlanSt.init : PlanSt :=
  { img := none, fb := 0, waiting := none, began := 0, beganM := 0, next := 1000000, period := 1000000, slot := 0,
    inslot := false, lost := 0, homes := [], mig := [], endM := none, posts := 0 }
def PmSt.init : PmSt := ⟨none, [], [], 0, true, true, true, false, []⟩
def BistSt.init : BistSt := ⟨true, 0, 0, false, false, 0, 8, false, none, [], false, 0, 0⟩
def SlSt.init : SlSt :=
  { kick := none, trig := [], stopAt := 0, build := [], st := [], sq := [], iv := [], due := [], logN := 0, logNx := 0,
    sealAt := none }
def UbSt.init : UbSt :=
  { session := 0, peer := none, peerId := 0, hbSent := 0, hbCount := 0, hbLast := 0, hbEver := false, take := none,
    txSeq := [], txEp := [], rxSeq := [], rxEp := [], credit := [], owed := [], replay := [],
    out := [], ckpt := [], ckcnt := [], stm := [], lent := [], offered := 0 }

/-- The machine right after reset (R437, R439): start-up BIST is about to run its slice 0, every core is held in
reset, every register and point has its reset value, every memory is empty, and no command waits. -/
def State.reset : State :=
  { clk := Clock.init, regs := [], eff := [], fresh := 0, newRegs := [], setAt := [],
    plate := [], tray := [], imem := [], dram := [], vault := [], store := [], slimg := [], host := [],
    plateEcc := [], trayEcc := [], dramEcc := [], storeEcc := [], poison := [],
    cores := [], ctxs := [], pipes := [], vreg := [], vcls := [], mask := [], tanks := [], dlm := [], dlmSeq := 0,
    vfStr := [],
    plan := PlanSt.init, postq := [], lanes := [], ports := [], pairs := [], points := [],
    ptcfg := [], ptq := [], evq := [], pubq := [], recs := [], tmpls := [], recst := [], pubst := [],
    latchH := none, latchS := none, shadow := [], newImg := [], verify := none,
    hi := HostSt.init, tu := TuSt.init, ks := KsSt.init, keys := [], pm := PmSt.init, bist := BistSt.init,
    sl := SlSt.init, ub := UbSt.init, resp := .none, patrol := 0, patrolAt := 0, mxRead := [], ddrHot := false, pending := [] }

end Sys2Proof.Machine
end

