-- ==== Sys2Proof/Machine/Ops.lean ====
section
/-! DEFINITION. The named operations that every command uses: registers and fields, status flags with their set
counters and interrupt sources, time, free values, event records and the entries of the sparse tables. -/

namespace Sys2Proof.Machine
open Sys2Proof


-- Registers (R7–R9) ------------------------------------------------------------------------------------------

/-- The default BIST slice budgets, µs (R399). -/
def budgetReset : List Nat := [100, 50, 2400, 130, 170, 170, 200, 4, 1200, 12000, 3000]

/-- Storage key of element (i, j). -/
def Reg.key (r : Reg) (i j : Nat) : Nat := r.base + i * r.st + j * r.st2 + r.kofs

/-- Reset value of element (i, j) of a register, from its field table. -/
def Reg.rst (r : Reg) (i j : Nat) : Word :=
  if r.base = 0xd00040 then BitVec.ofNat 32 (budgetReset.getD i 0)
  else BitVec.ofNat 32 (r.flds.foldl (fun a f => a + f.rst * 2 ^ f.lo) (0 * j))

/-- The stored value of a register. -/
def State.reg (s : State) (r : Reg) (i j : Nat) : Word :=
  (tfind s.regs (r.key i j)).getD (r.rst i j)

/-- Store a register. -/
def State.setReg (s : State) (r : Reg) (i j : Nat) (v : Word) : State :=
  { s with regs := tput s.regs (r.key i j) v }

/-- The value in effect of a register whose writes wait for the plan boundary (R36). -/
def State.effReg (s : State) (r : Reg) (i j : Nat) : Word :=
  (tfind s.eff (r.key i j)).getD (r.rst i j)

def State.setEff (s : State) (r : Reg) (i j : Nat) (v : Word) : State :=
  { s with eff := tput s.eff (r.key i j) v }

/-- Width of a field. -/
def Field.w (f : Field) : Nat := f.hi - f.lo + 1

/-- Put `v` into the bits of a field. -/
def Field.ins (f : Field) (w : Word) (v : Nat) : Word :=
  let x := w.toNat
  BitVec.ofNat 32 (x - bits x f.lo f.w * 2 ^ f.lo + v % 2 ^ f.w * 2 ^ f.lo)

/-- The value of a register field. -/
def State.f (s : State) (f : Field) (i : Nat := 0) (j : Nat := 0) : Nat := bits (s.reg f.reg i j).toNat f.lo f.w

/-- A field as a Bool. -/
def State.fb (s : State) (f : Field) (i : Nat := 0) (j : Nat := 0) : Bool := s.f f i j != 0

/-- The value in effect of a deferred field. -/
def State.e (s : State) (f : Field) (i : Nat := 0) (j : Nat := 0) : Nat := bits (s.effReg f.reg i j).toNat f.lo f.w

/-- Write a register field, as hardware does. -/
def State.setF (s : State) (f : Field) (v : Nat) (i : Nat := 0) (j : Nat := 0) : State :=
  s.setReg f.reg i j (f.ins (s.reg f.reg i j) v)

/-- Add to a counter field, saturating at its width. -/
def State.bump (s : State) (f : Field) (i : Nat := 0) (j : Nat := 0) (n : Nat := 1) : State :=
  s.setF f (min (s.f f i j + n) (2 ^ f.w - 1)) i j

/-- A counter that wraps at its width. -/
def State.wrapInc (s : State) (f : Field) (i : Nat := 0) (j : Nat := 0) : State :=
  s.setF f (s.f f i j + 1) i j

-- Time (R2, R43, R304) ---------------------------------------------------------------------------------------

/-- Timebase units (1/24 ns) in a core, quadrant or fabric cycle: 0.625 ns or 0.8333 ns (R2, R438). -/
def State.cyc (s : State) : Nat := if s.clk.slow then 20 else 15
/-- Timebase units in a nanosecond, and in a Safelight cycle of 10 ns (R27). -/
def nsU : Nat := 24
def slU : Nat := 240

/-- When an item launched at `t` has crossed into an island of clock period `u` with a bound of `k` cycles: they are counted from
the first destination edge at or after the launch (R28). -/
def crossed (t u k : Nat) : Nat := cdiv t u * u + k * u

/-- Let `d` units of time pass: station time advances one corrected nanosecond per 1 ns cycle (R304). -/
def Clock.advance (k : Clock) (d : Nat) : Clock :=
  let u := k.sub + d
  let t := u / 24 * ((2 ^ 32 : Int) + k.corr).toNat + k.frac
  { k with mono := k.mono + d, sub := u % 24, tai := k.tai + t / 2 ^ 32, frac := t % 2 ^ 32 }

def State.advance (s : State) (d : Nat) : State := { s with clk := s.clk.advance d }

/-- Let time pass until the instant `m`, unless it has passed (log entry 6). -/
def State.advanceTo (s : State) (m : Nat) : State := s.advance (m - s.clk.mono)

/-- Time now: units, nanoseconds, and fabric cycles of the monotonic timebase, and station time in ns. -/
def State.now (s : State) : Nat := s.clk.mono
def State.nowNs (s : State) : Nat := s.clk.mono / nsU
def State.nowCyc (s : State) : Nat := s.clk.mono / s.cyc
def State.tai (s : State) : Nat := s.clk.tai
def taiSec (t : Nat) : Nat := t / 1000000000
def taiNs (t : Nat) : Nat := t % 1000000000

/-- Draw a free value (log entry 2). -/
def State.draw (s : State) : DWord × State := (Config.freeValue s.fresh, { s with fresh := s.fresh + 1 })

-- Lifecycle, stop bath ----------------------------------------------------------------------------------------

/-- The lifecycle state code (R353, R354). -/
def State.lc (s : State) : Nat := if s.ks.maint && s.ks.fuse == 3 then 4 else s.ks.fuse
def State.stopped (s : State) : Bool := s.fb fSL_STATE_STOPBATH
def State.maint (s : State) : Bool := s.lc == 4

-- Output pins ---------------------------------------------------------------------------------------------------------

/-- Width of the 1PPS output pulse in timebase units (R318, PPSW). -/
def ppsWidth (w : Nat) : Nat := [10000, 1000000, 100000000, 200000000].getD w 0 * 24

/-- Output pins follow the state that drives them: ALARM_N in stop bath (R410), REPLACE_N (R408), and 1PPS out while
its pulse lasts (R318). -/
def settle (s : State) : State :=
  { s with pm := { s.pm with
      alarmN := !s.stopped
      replN := !s.bist.replace
      ppsOut := s.fb fTU_CTL_PPSOE && (match s.tu.pps with
        | some m => s.clk.mono < m + ppsWidth (s.f fTU_CTL_PPSW)
        | none => false) } }

/-- A command that completes answers the settled state. -/
def done (s : State) : Host.Outcome State Fault Refusal := .next (settle s)

-- Entries of the tables ----------------------------------------------------------------------------------------

def State.core (s : State) (c : Nat) : CoreSt := (tfind s.cores c).getD CoreSt.init
def State.setCore (s : State) (c : Nat) (k : CoreSt) : State := { s with cores := tput s.cores c k }
def State.modCore (s : State) (c : Nat) (f : CoreSt → CoreSt) : State := s.setCore c (f (s.core c))
/-- Context k of core c lies at key 8·c + k. -/
def State.ctx (s : State) (c k : Nat) : Ctx := (tfind s.ctxs (8 * c + k)).getD (Ctx.init c k)
def State.setCtx (s : State) (c k : Nat) (x : Ctx) : State := { s with ctxs := tput s.ctxs (8 * c + k) x }
def State.modCtx (s : State) (c k : Nat) (f : Ctx → Ctx) : State := s.setCtx c k (f (s.ctx c k))
def State.pipe (s : State) (p : Nat) : PipeSt := (tfind s.pipes p).getD (PipeSt.init p)
def State.setPipe (s : State) (p : Nat) (x : PipeSt) : State := { s with pipes := tput s.pipes p x }
def State.dl (s : State) (t : Nat) : Dlm := (tfind s.dlm t).getD Dlm.init
def State.setDl (s : State) (t : Nat) (x : Dlm) : State := { s with dlm := tput s.dlm t x }
def State.lane (s : State) (l : Nat) : LaneSt := (tfind s.lanes l).getD LaneSt.init
def State.setLane (s : State) (l : Nat) (x : LaneSt) : State := { s with lanes := tput s.lanes l x }
def State.port (s : State) (p : Nat) : PortSt := (tfind s.ports p).getD PortSt.init
def State.setPort (s : State) (p : Nat) (x : PortSt) : State := { s with ports := tput s.ports p x }
def State.modPort (s : State) (p : Nat) (f : PortSt → PortSt) : State := s.setPort p (f (s.port p))
def State.pair (s : State) (p : Nat) : PairSt := (tfind s.pairs p).getD PairSt.init
def State.setPair (s : State) (p : Nat) (x : PairSt) : State := { s with pairs := tput s.pairs p x }
def State.pt (s : State) (p : Nat) : Point := (tfind s.points p).getD Point.init
def State.setPt (s : State) (p : Nat) (x : Point) : State := { s with points := tput s.points p x }
/-- Records by kind (1 SV, 2 GOOSE, 3 publication, 4 Burst SV) and index. -/
def recKey (kind idx : Nat) : Nat := kind * 65536 + idx
def State.recw (s : State) (kind idx : Nat) : List Word := (tfind s.recs (recKey kind idx)).getD []
def State.rst (s : State) (kind idx : Nat) : RecSt := (tfind s.recst (recKey kind idx)).getD RecSt.init
def State.setRst (s : State) (kind idx : Nat) (x : RecSt) : State :=
  { s with recst := tput s.recst (recKey kind idx) x }
def State.pub (s : State) (cb : Nat) : PubSt := (tfind s.pubst cb).getD PubSt.init
def State.setPub (s : State) (cb : Nat) (x : PubSt) : State := { s with pubst := tput s.pubst cb x }
def State.hset (s : State) (t : Nat) : HSet := (tfind s.hi.sets t).getD HSet.init
def State.setHset (s : State) (t : Nat) (x : HSet) : State := { s with hi := { s.hi with sets := tput s.hi.sets t x } }
def State.key (s : State) (p : Nat) : KeyPair := (tfind s.keys p).getD KeyPair.init
def State.setKey (s : State) (p : Nat) (x : KeyPair) : State := { s with keys := tput s.keys p x }

/-- A word of a record, 0 past its end. -/
def wd (ws : List Word) (i : Nat) : Nat := (ws.getD i 0).toNat
def w32 (v : Nat) : Word := BitVec.ofNat 32 v

/-- The core and context of a tenant: its home (R10), or where a fallback plan moved it (R106). -/
def State.place (s : State) (t : Nat) : Nat × Nat :=
  match tfind s.plan.homes t with
  | some p => (p / 8, p % 8)
  | none => (t / 8, t % 8)

-- Event records (R298, R336) -----------------------------------------------------------------------------------

/-- Copy a record into the stop-bath log while it runs (R412). -/
def logRecord (s : State) (ws : List Word) : State :=
  if !s.stopped && s.fb fSL_CTL_LOGEN && s.f fSL_STATE_LOG == 0 && s.ks.wipe.isNone then
    { s with vault := mwrite s.vault (0x20000 + 32 * s.sl.logNx) (ws.flatMap fun w => leBytes 4 w.toNat)
             sl := { s.sl with logNx := (s.sl.logNx + 1) % 2046, logN := min (s.sl.logN + 1) 2046 } }
  else s

/-- The place of bit `lo` of element (i, j) of a register in `setAt`. -/
def setKey (r : Reg) (i j lo : Nat) : Nat := r.key i j * 32 + lo

/-- What `setAt` holds of a bit or counter for the present cycle, if it was set in it. -/
def setNow (s : State) (key : Nat) : Option Nat :=
  match tfind s.setAt key with
  | some (t, b) => if t = s.nowCyc then some b else none
  | none => none

/-- Note that a bit or counter is set in this cycle, and what it read before the cycle. -/
def noteSet (s : State) (key old : Nat) : State :=
  { s with setAt := tput s.setAt key (s.nowCyc, (setNow s key).getD old) }

/-- Set a flag without its interrupt: the bit becomes 1 and its set counter counts, saturating (R204, R205). -/
def flagOn (s : State) (k : Flag) (i : Nat := 0) (j : Nat := 0) : State :=
  let s := (noteSet s (setKey k.f.reg i j k.f.lo) (s.f k.f i j)).setF k.f 1 i j
  match k.cnt with
  | some c => (noteSet s (setKey c.reg i j c.lo) (s.f c i j)).bump c i j
  | none => s

-- Scalar registers (R137) ---------------------------------------------------------------------------------------------------

/-- What a register holds for a value, or the value that it holds: the complement in the Negative pass (R212). -/
def RSet.turn (r : RSet) (v : Word) : Word := if r.inv then ~~~v else v
/-- s0 reads as 0. -/
def RSet.get (r : RSet) (n : Nat) : Word := if n = 0 then 0 else r.turn (tget 0 r.s n)
/-- Writes to s0 are discarded. -/
def RSet.put (r : RSet) (n : Nat) (v : Word) : RSet := if n = 0 then r else { r with s := tput r.s n (r.turn v) }
/-- s1–s31 complemented (R212). -/
def RSet.flip (r : RSet) : RSet :=
  { r with inv := !r.inv, s := (List.range 31).map fun i => (i + 1, ~~~(tget 0 r.s (i + 1))) }
/-- The registers as an untransformed set. -/
def RSet.plain (r : RSet) : RSet := if r.inv then r.flip else r

-- Interrupt sources (R193–R203) ----------------------------------------------------------------------------------

/-- Whether a core is idle: in WAIT in supervisor mode with no context dispatched (R202). -/
def CoreSt.idle (k : CoreSt) : Bool := k.waiting && k.sup && k.run.isNone

/-- Fixed time from release to request line, in core or fabric cycles (R197). -/
def lineDelay (src : Nat) : Nat := if src < 32 then 2 else if src < 64 then 6 else 14

def CoreSt.src (k : CoreSt) (n : Nat) : SrcSt := (tfind k.ic.srcs n).getD SrcSt.init
def CoreSt.setSrc (k : CoreSt) (n : Nat) (x : SrcSt) : CoreSt :=
  { k with ic := { k.ic with srcs := tput k.ic.srcs n x } }

/-- Release a source's counted sets as one pending request in cycle `t` (R201); its line rises at `line`. That of a source
that is pending already stays as it is (R196). -/
def SrcSt.release (x : SrcSt) (t line : Nat) : SrcSt :=
  if x.released then { x with cnt := 0, again := some t }
  else { x with cnt := 0, released := true, line := line, relAt := t, again := none }

/-- Release a source's counted sets in the present cycle. -/
def releaseSrc (s : State) (c n : Nat) : State :=
  s.modCore c fun k => k.setSrc n ((k.src n).release s.nowCyc (s.now + lineDelay n * s.cyc))

/-- An idle core releases the unreleased sets of every source in its first idle cycle (R201, R202): that of its WAIT, or
the one in which it resumes its WAIT behind an activation's switch (R457). -/
def idleRelease (s : State) (c : Nat) : State :=
  let k := s.core c
  if k.idle && k.cyc ≤ s.nowCyc then
    (k.ic.srcs.filter fun e => e.2.cnt != 0).foldl (fun s e =>
      s.modCore c fun y => y.setSrc e.1 ((y.src e.1).release y.cyc ((y.cyc + lineDelay e.1) * s.cyc))) s
  else s

/-- One set of source `n` at core `c` (R195, R201): a source is set at most once in a cycle; the set is counted, and released
at MCNT, at MTIME 0 or on an idle core. -/
def countSet (s : State) (c n : Nat) : State :=
  let s := idleRelease s c
  let k := s.core c
  let x := k.src n
  if s.fb fIC_SRC_EN c n && s.fb fIC_SRC_PRIO c n && x.lastSet != some s.nowCyc then
    let x := { x with cnt := x.cnt + 1, first := if x.cnt == 0 then s.now else x.first, lastSet := some s.nowCyc }
    let s := s.setCore c (k.setSrc n x)
    if max (s.f fIC_SRC_MCNT c n) 1 ≤ x.cnt || s.f fIC_SRC_MTIME c n == 0 || (k.idle && k.cyc ≤ s.nowCyc) then
      releaseSrc s c n
    else s
  else s

def State.vec (s : State) (v : Nat) : VecSt := (tfind s.hi.vecs v).getD VecSt.init
def State.setVec (s : State) (v : Nat) (x : VecSt) : State := { s with hi := { s.hi with vecs := tput s.hi.vecs v x } }

/-- The message of MSI-X vector `v`: a posted write of its data to its address (R203). -/
def postMsix (s : State) (v : Nat) : State :=
  let x := s.vec v
  let a := (s.reg rMSIX_TABLE (4 * v) 0).toNat + 2 ^ 32 * (s.reg rMSIX_TABLE (4 * v + 1) 0).toNat
  { s.setVec v { x with last := some s.now, sent := x.sent + 1 } with
    host := mwrite s.host a (leBytes 4 (s.reg rMSIX_TABLE (4 * v + 2) 0).toNat) }

/-- The sets of MSI-X vector `v` are released: its message, or its pending bit while it is masked (R203). -/
def sendMsix (s : State) (v : Nat) : State :=
  let s := s.setVec v { s.vec v with cnt := 0 }
  if (s.reg rMSIX_TABLE (4 * v + 3) 0).toNat % 2 == 1 then
    s.setReg rMSIX_PBA (v / 32) 0 (s.reg rMSIX_PBA (v / 32) 0 ||| w32 (2 ^ (v % 32)))
  else postMsix s v

/-- MTIME of a vector, in units of 1/24 ns. -/
def vecTime (s : State) (v : Nat) : Nat := s.f fHI_VMOD_MTIME v * 256 * s.cyc

/-- The instant at which the held sets of a vector are released: MTIME after the first of them, or when the vector turns
quiet, MTIME after its last message (R203). -/
def vecDue (s : State) (v : Nat) : Nat :=
  let x := s.vec v
  (match x.last with | none => x.first | some t => min t x.first) + vecTime s v

/-- One set of a host vector (R203, R339): released at MCNT, at MTIME 0, or when the vector is quiet. -/
def vecSet (s : State) (v : Nat) : State :=
  let x := s.vec v
  let mt := vecTime s v
  let quiet := match x.last with | none => true | some t => t + mt ≤ s.now
  let x := { x with cnt := x.cnt + 1, first := if x.cnt == 0 then s.now else x.first }
  let s := s.setVec v x
  if max (s.f fHI_VMOD_MCNT v) 1 ≤ x.cnt || mt == 0 || quiet then sendMsix s v else s

/-- One set of device source `n`: at the core its route names, and at its host vector where one is enabled (R194,
R339). -/
def devSet (s : State) (n : Nat) : State :=
  let s := countSet s (s.f fIC_ROUTE_CORE (n - 32)) n
  if s.fb fHI_HROUTE_EN (n - 32) && tget 0 s.hi.srcAt n != s.nowCyc + 1 then
    vecSet { s with hi := { s.hi with srcAt := tput s.hi.srcAt n (s.nowCyc + 1) } } (s.f fHI_HROUTE_VEC (n - 32))
  else s

/-- Post a record into the staging FIFO of 1,024 entries, or drop and count it (R235, R236, R299). -/
def postRec (s : State) (r : EvRec) : State :=
  let s := if r.set == 256 then logRecord s r.words else s
  if s.evq.length < 1024 then { s with evq := s.evq ++ [r] }
  else
    let h := s.hset r.set
    let s := s.setHset r.set { h with lost := min (h.lost + 1) 0xFFFF }
    let s := flagOn (s.bump fCS_EVDROP_CNT_CNT) kCS_STAT_EVLOST
    devSet s 37

/-- A device notice to the supervisor's event ring (R336, KIND 3). -/
def notice (s : State) (src flags d4 d5 : Nat) : State :=
  postRec s ⟨256, [w32 src, w32 flags, w32 (taiNs s.tai), w32 (taiSec s.tai), w32 d4, w32 d5, w32 0x3000, 0],
    true, false⟩

/-- Hardware sets a status flag (R195, R204, R205): the flag, its counter, one set of its interrupt source; sets of
FE_USTAT (R283) and BT_STAT (R395) post a notice. -/
def raise (s : State) (k : Flag) (i : Nat := 0) (j : Nat := 0) : State :=
  let s := flagOn s k i j
  match k.src with
  | .dev n => let s := devSet s n; if n == 45 then notice s 45 (2 ^ k.f.lo) 0 0 else s
  | .port => devSet s (64 + i)
  | .lane => devSet s (76 + i)
  | .core n => countSet s i n
  | .none => notice s 0 (2 ^ k.f.lo) 0 0

/-- Raise a flag if `b`. -/
def raiseIf (b : Bool) (s : State) (k : Flag) (i : Nat := 0) (j : Nat := 0) : State := if b then raise s k i j else s

/-- Any W1C flag of a status register is 1. -/
def anyFlag (s : State) (r : Reg) (i j : Nat) : Bool :=
  r.flds.any fun f => f.acc == .w1c && bits (s.reg r i j).toNat f.lo (f.hi - f.lo + 1) != 0

/-- The status register of a device source (R193). -/
def srcReg : Nat → Option Reg
  | 32 => some rDLM_STAT | 33 => some rPLT_STAT | 34 => some rSHM_STAT | 35 => some rSCH_STAT
  | 36 => some rNEG_STAT | 37 => some rCS_STAT | 38 => some rTU_STAT | 39 => some rHI_STAT
  | 40 => some rKS_STAT | 41 => some rLC_STAT | 42 => some rMX_STAT | 43 => some rDDR_STAT
  | 44 => some rPM_STAT | 45 => some rBT_STAT | 46 => some rBI_STAT | 47 => some rUB_STAT | 48 => some rSL_STAT
  | _ => none

/-- Whether source `n` is asserted at core `c` (R195). -/
def asserted (s : State) (c n : Nat) : Bool :=
  if n = 0 then false
  else if n < 16 then bit (s.reg rIC_SWI c 0).toNat n
  else if n = 16 then anyFlag s rEZ_STAT c 0
  else if n = 17 then (List.range 8).any (fun k => anyFlag s rEZ_AFLAGS c k) || anyFlag s rEZ_SAFLAGS c 0
  else if n = 18 then anyFlag s rIC_STAT c 0
  else if n = 19 then (List.range 8).any fun k => (s.ctx c k).quar
  else if n < 64 then match srcReg n with | some r => anyFlag s r 0 0 | none => false
  else if n < 76 then anyFlag s rEP_STAT (n - 64) 0
  else if n < 88 then anyFlag s rFE_LSTAT (n - 76) 0
  else false

/-- Whether source `n` is pending at core `c` (R195). -/
def srcPending (s : State) (c n : Nat) : Bool :=
  ((s.core c).src n).released && asserted s c n && s.fb fIC_SRC_EN c n && s.fb fIC_SRC_PRIO c n

/-- Source `n` of core `c` is withdrawn (R195); a source that was pending keeps the cycle and its priority for a claim of
this cycle (R206). -/
def SrcSt.withdrawn (x : SrcSt) (cyc prio : Nat) : SrcSt :=
  { x with cnt := 0, released := false, lastSet := none, again := none
           gone := if x.released && x.relAt < cyc then some (cyc, prio) else x.gone }

/-- Withdraw a source that is no longer asserted, at every core (R195). -/
def withdraw (s : State) (n : Nat) : State :=
  { s with cores := s.cores.map fun (c, k) =>
      match tfind k.ic.srcs n with
      | some x => if asserted s c n then (c, k) else (c, k.setSrc n (x.withdrawn s.nowCyc (s.f fIC_SRC_PRIO c n)))
      | none => (c, k) }

/-- Priority of the claim that is running (R196). -/
def CoreSt.rprio (k : CoreSt) : Nat := match k.ic.stack with | [] => 0 | (p, _) :: _ => p

/-- The priority with which a source qualifies for a claim, judged at the start of the present cycle: a release in it is not
seen yet, and a withdrawal in it not yet either (R198, R206). -/
def claimPrio (s : State) (c n : Nat) (x : SrcSt) : Nat :=
  match x.gone with
  | some (t, p) =>
    if t = s.nowCyc then p else if srcPending s c n && x.relAt < s.nowCyc then s.f fIC_SRC_PRIO c n else 0
  | none => if srcPending s c n && x.relAt < s.nowCyc then s.f fIC_SRC_PRIO c n else 0

/-- The pending source above the running priority that a claim takes: highest priority, lowest number (R198). -/
def bestSrc (s : State) (c : Nat) : Option (Nat × Nat) :=
  let k := s.core c
  k.ic.srcs.foldl (fun b (n, x) =>
    let p := claimPrio s c n x
    if k.rprio < p then
      match b with
      | some (q, m) => if q < p then some (p, n) else some (q, m)
      | none => some (p, n)
    else b) none

/-- The request line of a core is high (R196). -/
def lineHigh (s : State) (c : Nat) : Bool :=
  let k := s.core c
  let thr := match k.run with
    | some r => if (s.ctx c r.ctx).dl then s.f fIC_CTL_ACTTHR c else 0
    | none => 0
  s.fb fIC_CTL_EN c &&
    k.ic.srcs.any fun (n, x) =>
      srcPending s c n && x.line ≤ s.now && k.rprio < s.f fIC_SRC_PRIO c n && thr ≤ s.f fIC_SRC_PRIO c n

end Sys2Proof.Machine
end

