-- ==== Sys2Proof/Machine/Domain.lean ====
section
/-! DEFINITION. Device states and power domains as an access meets them (R11, R382, R388–R392). Domain D1 to D20 is numbered
from 0. -/

namespace Sys2Proof.Machine
open Sys2Proof

/-- PM_STATE.STATE (R382). -/
def pmState (s : State) : Nat := s.f fPM_STATE_STATE
/-- The fabric has clock and power (R382): Run or Idle, and D13 has not failed (R392). -/
def fabricOn (s : State) : Bool := pmState s ≤ 1 && s.f fPM_DOM_STATE 12 == 0

/-- Domain d + 1 is FAULTED (R392). -/
def domFaulted (s : State) (d : Nat) : Bool := s.f fPM_DOM_STATE d == 4
/-- Domain d + 1 is ON. -/
def domOn (s : State) (d : Nat) : Bool := s.f fPM_DOM_STATE d == 0
/-- Domain d + 1 is gated, or ramps: an access stalls until it is ON (R389). -/
def domStalls (s : State) (d : Nat) : Bool := s.f fPM_DOM_STATE d == 1 || s.f fPM_DOM_STATE d == 2

/-- Domains that may gate themselves (R388). -/
def mayGate (d : Nat) : Bool := d < 12 || d == 14 || d == 15 || d == 16 || d == 17 || d == 19

/-- Wake time of domain d + 1 (R388). -/
def wakeNs (d : Nat) : Nat := if d = 14 || d = 15 then 24000 else if d = 16 then 30000 else 20000

/-- The power domain, numbered from 0, that holds the register at an offset (R11): EZ and IC with their cluster, ports and
lanes with their port group, the control store with EP0–EP5, UB, DDR, KS, TU and BI. Every other block but GL, LC, PM, BT,
BI_BUDGET and SL lies in the fabric. -/
def regDomain (off : Nat) : Option Nat :=
  if 0x300000 ≤ off && off < 0x320000 then some ((off - 0x300000) / 0x4000)
  else if 0x400000 ≤ off && off < 0x480000 then some ((off - 0x400000) / 0x10000)
  else if (0x500000 ≤ off && off < 0x506000) || (0x510000 ≤ off && off < 0x516000) || (0x520000 ≤ off && off < 0x620000) then some 13
  else if (0x506000 ≤ off && off < 0x50C000) || (0x516000 ≤ off && off < 0x51C000) then some 14
  else if 0xE00000 ≤ off && off < 0xE00060 then some 15
  else if 0xB10000 ≤ off && off < 0xB10024 then some 16
  else if 0xA02000 ≤ off && off < 0xA04000 then some 17
  else if 0x800000 ≤ off && off < 0x800054 then some 18
  else if 0xD00000 ≤ off && off < 0xD00040 then some 19
  else if (0x100000 ≤ off && off < 0x300000) || (0x480000 ≤ off && off < 0x500000) || (0x700000 ≤ off && off < 0xA02000 && off < 0x942000) ||
      (0xA00000 ≤ off && off < 0xA02000) || (0xB00000 ≤ off && off < 0xB10000) || (0x1000000 ≤ off && off < 0x1400000) then some 12
  else none

/-- The registers of domain d + 1 return to their reset values. -/
def dropRegs (s : State) (d : Nat) : State :=
  let keep (k : Nat) : Bool := regDomain k != some d
  { s with regs := s.regs.filter fun e => keep e.1
           eff := s.eff.filter fun e => keep e.1
           newRegs := s.newRegs.filter keep }

/-- A failed unit's mark (R401), which holds while the unit has not passed a later start-up BIST, and BI_UNUSABLE, which
shows it. -/
def unitBad (s : State) (f : Field) : Nat := bits s.bist.unus.toNat f.lo f.w
def markBad (s : State) (f : Field) (v : Nat) : State :=
  let s := s.setF f v
  { s with bist := { s.bist with unus := f.ins s.bist.unus v } }

/-- A gated domain starts to ramp: the first step of its header switches closes (R391). -/
def startRamp (s : State) (d : Nat) : State :=
  let s := s.setF fPM_DOM_STATE 2 d
  { s with pm := { s.pm with ramp := tput s.pm.ramp d 1, usedAt := tput s.pm.usedAt d s.now } }

/-- An access or work of its own keeps a domain that is ON from gating (R389). -/
def domUsed (s : State) (d : Nat) : State :=
  if mayGate d then { s with pm := { s.pm with usedAt := tput s.pm.usedAt d s.now } } else s

/-- An access to domain d + 1 (R389, R390, R392): the first to a gated one starts its wake, others join it; one to a FAULTED
domain ends with an error. -/
def demandWake (s : State) (d : Nat) (dl : Bool) : State :=
  let st := s.f fPM_DOM_STATE d
  if 3 ≤ st then raiseIf (st == 4) { s with resp := .err } kMX_STAT_DECERR
  else if st = 1 then raiseIf dl ((startRamp s d).bump fPM_DWAKE_CNT_CNT d) kPM_STAT_DLWAKE
  else if st = 2 then raiseIf dl s kPM_STAT_DLWAKE
  else domUsed s d

/-- The instant at which a domain that ramps is ON (R388). -/
def rampEnd (s : State) (d : Nat) : Nat := tget 0 s.pm.usedAt d + wakeNs d * nsU

end Sys2Proof.Machine
end

