-- ==== Sys2Proof/Machine/Mem.lean ====
section
/-! DEFINITION. Plate, Tray, DRAM, instruction RAM and Vault: resolution, fogging, error correction and access. -/

namespace Sys2Proof.Machine
open Sys2Proof

-- Keys and seeds (R67, R77, R344, R347) ---------------------------------------------------------------------------

/-- CNT(o), held in the Vault (R345). -/
def cntOf (s : State) (o : Nat) : Nat := tget 0 s.ks.cnt o

/-- CNT(o) behind the keys in effect: an advance counts from the instant at which its seeds are installed (R345). -/
def cntIn (s : State) (o : Nat) : Nat :=
  if s.ks.adv.contains o then (cntOf s o + 2 ^ 32 - 1) % 2 ^ 32 else cntOf s o

/-- K(o) = KDF(root, "TENANT", {o, GEN, CNT(o)}) (R344). -/
def keyAt (s : State) (o cnt : Nat) : BitVec 256 :=
  kdf Config.root "TENANT" (leBytes 2 o ++ leBytes 8 s.ks.gen ++ leBytes 4 cnt)
def tenantKey (s : State) (o : Nat) : BitVec 256 := keyAt s o (cntIn s o)

/-- The seed of a sheet for its owner's key, its number, its epoch and the boot nonce (R67). -/
def seedFrom (s : State) (key : BitVec 256) (sheet epoch : Nat) : DWord :=
  (kdf key "SHEET" (leBytes 2 sheet ++ leBytes 4 epoch ++ leBytes 8 s.ks.nonce)).truncate 64

/-- The seed of a sheet: the one its handover installed while an advance of its owner waits (R363), else the one
derived from its owner and epoch. -/
def sheetSeed (s : State) (sheet : Nat) : DWord :=
  (tfind s.ks.seed sheet).getD
    (seedFrom s (tenantKey s (s.f fSHM_OWNER_OWNER sheet)) sheet (s.reg rSHM_EPOCH sheet 0).toNat)

/-- The seed of Tray slice k of core c, for the tenant the context holds (R77). -/
def sliceSeed (s : State) (c k : Nat) : DWord :=
  (kdf (tenantKey s (s.ctx c k).tenant) "SLICE" (leBytes 1 c ++ leBytes 1 k ++
    leBytes 4 (tget 0 s.ks.slep (8 * c + k)))).truncate 64

/-- The XTS keys of an owner (R347). -/
def xtsKey (s : State) (o : Nat) : BitVec 256 := kdf (tenantKey s o) "XTS" []

/-- In RETIRED no key is derived, and memories read as noise (R346). -/
def keyless (s : State) : Bool := s.lc == 5

-- Plate (R54–R63, R67–R75) ----------------------------------------------------------------------------------------

/-- The bank hash h(w) (R57). -/
def bankOf (w : Nat) : Nat := Nat.xor (w % 1024) (w / 1024 % 32 * 33)

/-- The keystream word of a physical word address under its sheet's seed (R67). -/
def keystream (s : State) (wa : Nat) : Nat :=
  (if keyless s then Config.noise s.now wa else Config.fogP (sheetSeed s (wa / 32768)) wa).toNat

/-- A Plate word, unfogged. -/
def plateWord (s : State) (wa : Nat) : Nat := Nat.xor (leVal (mread s.plate (8 * wa) 8)) (keystream s wa)

/-- Store a Plate word: its data XOR the keystream (R67). -/
def putPlateWord (s : State) (wa v : Nat) : State :=
  { s with plate := mwrite s.plate (8 * wa) (leBytes 8 (Nat.xor v (keystream s wa))) }

/-- An activation of owner o that was dispatched before the boundary still runs (R345). -/
def ownerRuns (s : State) (o : Nat) : Bool :=
  s.cores.any fun e => match e.2.run with | some r => (s.ctx e.1 r.ctx).tenant == o | none => false

/-- Every access to the sheet is refused: in its handover (R66), and from the end of its owner's activations to the end of
an epoch advance (R345). -/
def sheetHeld (s : State) (sheet : Nat) : Bool :=
  let o := s.f fSHM_OWNER_OWNER sheet
  s.f fSHM_OWNER_STATE sheet != 0 || (s.ks.adv.contains o && !ownerRuns s o)

/-- The quadrant that holds a physical word has FAILED power (R392). -/
def quadFailed (s : State) (wa : Nat) : Bool := domFaulted s (8 + bankOf (wa % 32768) / 256)

/-- The word that map `m` names for a Plate-space byte address (R61, R63), or UNMAPPED 1 or WPROT 2. -/
def sheetWord (s : State) (m a : Nat) (wr : Bool) : Except Nat Nat :=
  let e := (s.effReg rSHM_MAP m (a / 2 ^ 18)).toNat
  let sheet := bits e 0 9
  if !bit e 31 then .error 1
  else if wr && bit e 30 then .error 2
  else if sheetHeld s sheet then .error 1
  else .ok (32768 * sheet + a / 8 % 32768)

/-- The word that an access names lies in a FAULTED quadrant (R392). -/
def wordLost (s : State) (m a : Nat) (wr : Bool) : Bool :=
  match sheetWord s m a wr with | .ok wa => quadFailed s wa | .error _ => false

/-- Resolve a Plate-space byte address through map `m`: the physical word address, or UNMAPPED 1, also where the word's
quadrant is lost (R392; log entry 132), or WPROT 2. -/
def plateResolve (s : State) (m a : Nat) (wr : Bool) : Except Nat Nat :=
  if wordLost s m a wr then .error 1 else sheetWord s m a wr

/-- Count a corrected Plate error, and write the word back unless a write has come between (R72). -/
def plateCe (s : State) (wa : Nat) : State :=
  let b := bankOf (wa % 32768)
  let s := s.bump fPLT_CE_CNT_CNT b
  let thr := s.f fPLT_CTL_CETHR
  let s := raise { s with plateEcc := if tget 0 s.plateEcc wa = 1 then tdel s.plateEcc wa else s.plateEcc } kPLT_STAT_CE
  raiseIf (thr != 0 && s.f fPLT_CE_CNT_CNT b == thr) s kPLT_STAT_CETHR

/-- Poison a word in which an uncorrectable error is found, unless a write has come between, and record it (R74). -/
def plateUe (s : State) (wa master : Nat) : State :=
  let s := if tget 0 s.plateEcc wa = 0 then s else { s with plateEcc := tdel s.plateEcc wa, poison := wa :: s.poison }
  let s := s.setF fPLT_UE_ADDR_WADDR wa
  let s := s.setF fPLT_UE_INFO_BG (bankOf (wa % 32768) / 32)
  let s := s.setF fPLT_UE_INFO_MASTER master
  let s := s.setF fPLT_UE_INFO_OWNER (s.f fSHM_OWNER_OWNER (wa / 32768))
  raise s kPLT_STAT_UE

/-- What a read of a word finds (R72, R74): whether it is good, with the corrections, poisoning and records that
the read makes. -/
def plateCheck (s : State) (wa master : Nat) : Bool × State :=
  if s.poison.contains wa then (false, s)
  else match tget 0 s.plateEcc wa with
    | 0 => (true, s)
    | 1 => (true, plateCe s wa)
    | _ => (false, plateUe s wa master)

/-- Read `n` bytes at a physical word and byte offset: the value, or POISON 3. -/
def plateReadPhys (s : State) (wa off n master : Nat) : Except Nat Nat × State :=
  let (ok, s) := plateCheck s wa master
  if ok then (.ok (plateWord s wa / 2 ^ (8 * off) % 2 ^ (8 * n)), s) else (.error 3, s)

/-- Write `n` bytes at a physical word and byte offset. A full word clears poison; a narrower write reads, merges
and refogs, or finds POISON 3 (R68, R74). -/
def plateWritePhys (s : State) (wa off n v master : Nat) : Except Nat Unit × State :=
  if n = 8 then
    (.ok (), putPlateWord { s with poison := s.poison.filter (· != wa), plateEcc := tdel s.plateEcc wa } wa (v % 2 ^ 64))
  else
    let (ok, s) := plateCheck s wa master
    if ok then
      let o := plateWord s wa
      let o' := o - o / 2 ^ (8 * off) % 2 ^ (8 * n) * 2 ^ (8 * off) + v % 2 ^ (8 * n) * 2 ^ (8 * off)
      (.ok (), putPlateWord s wa o')
    else (.error 3, s)

/-- Read `n` bytes, naturally aligned, from the Plate space of map `m`. -/
def plateRead (s : State) (m a n master : Nat) : Except Nat Nat × State :=
  match plateResolve s m a false with
  | .error e => (.error e, raiseIf (wordLost s m a false) s kMX_STAT_DECERR)
  | .ok wa => plateReadPhys s wa (a % 8) n master

/-- Write `n` bytes, naturally aligned, to the Plate space of map `m`. -/
def plateWrite (s : State) (m a n v master : Nat) : Except Nat Unit × State :=
  match plateResolve s m a true with
  | .error e => (.error e, raiseIf (wordLost s m a true) s kMX_STAT_DECERR)
  | .ok wa => plateWritePhys s wa (a % 8) n v master

/-- Sign-extend the low n bits. -/
def sextW (n v : Nat) : Word := w32 (uenc 32 (sval n v))

/-- The registers of a loaded value: a word, or an even/odd pair (R147). -/
def loadRegs (rd n v : Nat) (signed : Bool) : List (Nat × Word) :=
  if n = 8 then [(rd, w32 v), (rd + 1, w32 (v / 2 ^ 32))]
  else [(rd, if signed then sextW (8 * n) v else w32 v)]

/-- A Plate load samples its word (R142): the value goes to its registers, or POISON is found (R74). An error is found in the
sampling cycle (R72). -/
def sampleOp (s : State) (o : LongOp) : LongOp × State :=
  match o.samp with
  | none => (o, s)
  | some x =>
    let o := { o with samp := none }
    let s := if tget 0 s.plateEcc x.wa = 0 then s else s.advanceTo (x.cyc * s.cyc)
    match plateReadPhys s x.wa x.off x.size 0 with
    | (.ok v, s) => ({ o with res := loadRegs x.rd x.size v x.sext }, s)
    | (.error _, s) => ({ o with fault := some x.bad }, s)

/-- The loads of a register set that sample by cycle n sample. -/
def sampleThr (s : State) (t : Thr) (n : Nat) : Thr × State :=
  t.pend.foldl (fun (acc : Thr × State) o =>
    let (o, s) := if o.samp.any (fun x => x.cyc ≤ n) then sampleOp acc.2 o else (o, acc.2)
    ({ acc.1 with pend := acc.1.pend ++ [o] }, s)) ({ t with pend := [] }, s)

/-- Before another master writes the Plate at cycle n, the loads that have had their cycle sample (R71, R142). -/
def sampleDue (s : State) (n : Nat) : State :=
  let s := s.ctxs.foldl (fun s e =>
    if e.2.thr.pend.any fun o => o.samp.isSome then
      let (t, s) := sampleThr s e.2.thr n
      { s with ctxs := tmod (Ctx.init (e.1 / 8) (e.1 % 8)) s.ctxs e.1 fun x => { x with thr := t } }
    else s) s
  s.cores.foldl (fun s e =>
    if e.2.thr.pend.any fun o => o.samp.isSome then
      let (t, s) := sampleThr s e.2.thr n
      s.modCore e.1 fun x => { x with thr := t }
    else s) s

/-- A byte of a Plate space as it stands, without effect; `none` where it cannot be read. -/
def platePeek (s : State) (m a : Nat) : Option Nat :=
  match plateResolve s m a false with
  | .error _ => none
  | .ok wa => if s.poison.contains wa then none else some (plateWord s wa / 2 ^ (8 * (a % 8)) % 256)

/-- Write bytes for the Frame Engine to tenant t's Plate space: 0, or why not: UNMAPPED 1, also where the sheet is not the
tenant's (R78), WPROT 2, or POISON 3 (R74). -/
def feWrite (s : State) (t a : Nat) : List Byte → Nat × State
  | [] => (0, s)
  | b :: bs =>
    match plateResolve s t a true with
    | .error e => (e, raiseIf (wordLost s t a true) s kMX_STAT_DECERR)
    | .ok wa =>
      if s.f fSHM_OWNER_OWNER (wa / 32768) != t then (1, s)
      else match plateWritePhys s wa (a % 8) 1 b.toNat 1 with
        | (.ok _, s) => feWrite s t (a + 1) bs
        | (.error e, s) => (e, s)

-- Tray (R76, R77, R141) -------------------------------------------------------------------------------------------

/-- The stored key of byte `a` of core c's 128 KiB Tray. -/
def trayKey (c a : Nat) : Nat := c * 131072 + a

/-- The keystream byte of a Tray byte address. -/
def trayFog (s : State) (c a : Nat) : Nat :=
  (if keyless s then Config.noise s.now (a / 8) else Config.fogP (sliceSeed s c (a / 16384 % 8)) (a / 8)).toNat /
    2 ^ (8 * (a % 8)) % 256

def trayByte (s : State) (c a : Nat) : Nat := Nat.xor (mget s.tray (trayKey c a)).toNat (trayFog s c a)

def putTrayByte (s : State) (c a v : Nat) : State :=
  { s with tray := mset s.tray (trayKey c a) (BitVec.ofNat 8 (Nat.xor (v % 256) (trayFog s c a))) }

/-- `n` bytes of the Tray from `a`, unfogged. -/
def trayBytes (s : State) (c a : Nat) : Nat → List Byte
  | 0 => []
  | n + 1 => BitVec.ofNat 8 (trayByte s c a) :: trayBytes s c (a + 1) n

def putTrayBytes (s : State) (c a : Nat) : List Byte → State
  | [] => s
  | b :: bs => putTrayBytes (putTrayByte s c a b.toNat) c (a + 1) bs

/-- What a read of a Tray word finds (R76): good, with a single-bit error counted, or POISON. -/
def trayCheck (s : State) (c a : Nat) : Bool × State :=
  match tget 0 s.trayEcc (trayKey c a / 8) with
  | 0 => (true, s)
  | 1 => (true, { s.bump fPLT_TRAY_ERR_CE c with trayEcc := tdel s.trayEcc (trayKey c a / 8) })
  | _ => (false, s.bump fPLT_TRAY_ERR_UE c)

/-- Writing whole Tray words leaves no error in them (R76; log entry 72). -/
def trayFresh (s : State) (c a n : Nat) : State :=
  if a % 8 = 0 && n % 8 = 0 then { s with trayEcc := tclear s.trayEcc (trayKey c a / 8) (n / 8) } else s

-- DRAM (R347, R375–R379) ------------------------------------------------------------------------------------------

/-- The controller is trained (R379), and its domain has not failed (R392). -/
def dramReady (s : State) : Bool := s.f fDDR_STATE_STATE == 2 && s.f fPM_DOM_STATE 16 != 4

/-- The capacity of the fitted DRAM in GiB for a DDR_CFG value (R375, R381): 64 data bits of x8 or x16 devices of the
density, on each rank. That of a module, and of codes outside the tables, is
not given, but it is at most the largest (log entry 86). -/
def dramGiB (cfg : Word) : Nat :=
  let w := cfg.toNat
  let gbit := (if bit w 12 then [16, 24, 32] else [8, 16])[bits w 4 2]?
  match gbit, bits w 0 2 with
  | some g, 0 => g * (1 + bits w 6 1)
  | some g, 1 => g / 2 * (1 + bits w 6 1)
  | _, _ => min (if bit w 12 then 64 else 32) (Config.dramGiB cfg).toNat

/-- Offset `off` lies in owner o's window in effect. -/
def inWindow (s : State) (o off : Nat) : Bool := s.e fTN_DRAM_V o == 1 && off < s.e fTN_DRAM_SIZE o * 2 ^ 24

/-- The DRAM byte address of offset `off` of owner o's window in effect, where it lies inside. -/
def dramAddr (s : State) (o off : Nat) : Option Nat :=
  if dramReady s && inWindow s o off then
    some (s.e fTN_DRAM_BASE o * 2 ^ 24 + off)
  else none

/-- A decrypted 64-byte unit. -/
def dramUnit (s : State) (o u : Nat) : Nat :=
  let c := BitVec.ofNat 512 (leVal (mread s.dram (64 * u) 64))
  if keyless s then c.toNat.xor (Config.noise s.now u).toNat else (xtsDec (xtsKey s o) u c).toNat

def putDramUnit (s : State) (o u v : Nat) : State :=
  { s with dram := mwrite s.dram (64 * u) (leBytes 64 (xtsEnc (xtsKey s o) u (BitVec.ofNat 512 v)).toNat) }

/-- What a read of a DRAM unit finds (R378). -/
def dramCheck (s : State) (u : Nat) : Bool × State :=
  match tget 0 s.dramEcc u with
  | 0 => (true, s)
  | 1 => (true, raise { s.bump fDDR_CE_CNT_CNT with dramEcc := tdel s.dramEcc u } kDDR_STAT_CE)
  | _ =>
    let s := s.setReg rDDR_UE_ADDR_LO 0 0 (w32 (64 * u))
    let s := s.setReg rDDR_UE_ADDR_HI 0 0 (w32 (64 * u / 2 ^ 32 % 16))
    (false, raise s kDDR_STAT_UE)

/-- Read `n` bytes inside one unit of o's window at DRAM address `p`: the value, or an uncorrectable error. -/
def dramRead (s : State) (o p n : Nat) : Option Nat × State :=
  let (ok, s) := dramCheck s (p / 64)
  if ok then (some (dramUnit s o (p / 64) / 2 ^ (8 * (p % 64)) % 2 ^ (8 * n)), s) else (none, s)

/-- Write `n` bytes inside one unit (R347): read, decrypt, merge, encrypt, write. -/
def dramWrite (s : State) (o p n v : Nat) : State :=
  let u := p / 64
  let old := dramUnit s o u
  let sh := 2 ^ (8 * (p % 64))
  let new := old - old / sh % 2 ^ (8 * n) * sh + v % 2 ^ (8 * n) * sh
  let s := putDramUnit s o u new
  if n = 64 then { s with dramEcc := tdel s.dramEcc u } else s

-- Instruction RAM (R139, R162, R374) -------------------------------------------------------------------------------

/-- A word of core c's instruction RAM. -/
def imemWord (s : State) (c w : Nat) : Nat := leVal (mread s.imem (c * 65536 + 4 * w) 4)

def putImem (s : State) (c w v : Nat) : State :=
  { s with imem := mwrite s.imem (c * 65536 + 4 * w) (leBytes 4 v) }

/-- Whether tenant activations occupy context k of core c: queued or running (R162, R163). -/
def ctxBusy (s : State) (c k : Nat) : Bool :=
  let co := s.core c
  let t := (s.ctx c k).tenant
  (match co.run with | some r => r.ctx == k | none => false) || co.queue.any fun a => a.tenant == t

/-- Whether word w lies in the window of a busy context (R140, R162). -/
def imemBusy (s : State) (c w : Nat) : Bool :=
  (List.range 8).any fun k =>
    ctxBusy s c k && s.e fEZ_IWIN_BASE c k ≤ w / 256 && w / 256 ≤ s.e fEZ_IWIN_LIMIT c k

-- CRC-32 (R254) ------------------------------------------------------------------------------------------------------

def crc32Bit (c : Nat) : Nat := if c % 2 == 1 then Nat.xor (c / 2) 0xEDB88320 else c / 2
def crc32Byte (c : Nat) (b : Byte) : Nat :=
  let c := Nat.xor c b.toNat
  crc32Bit (crc32Bit (crc32Bit (crc32Bit (crc32Bit (crc32Bit (crc32Bit (crc32Bit c)))))))

/-- CRC-32 with the IEEE 802.3 polynomial, initial value 0xFFFF_FFFF and final inversion (R254). -/
def crc32 (bs : List Byte) : Nat := Nat.xor (bs.foldl crc32Byte 0xFFFFFFFF) 0xFFFFFFFF

def crc64Bit (c : Nat) : Nat :=
  if c / 2 ^ 63 % 2 == 1 then Nat.xor (c * 2 % 2 ^ 64) 0x42F0E1EBA9EA3693 else c * 2 % 2 ^ 64
def crc64Byte (c : Nat) (b : Byte) : Nat :=
  let c := Nat.xor c (b.toNat * 2 ^ 56)
  crc64Bit (crc64Bit (crc64Bit (crc64Bit (crc64Bit (crc64Bit (crc64Bit (crc64Bit c)))))))

/-- CRC-64 with the ECMA-182 polynomial, continued from `c` (R219). -/
def crc64 (c : DWord) (bs : List Byte) : DWord := BitVec.ofNat 64 (bs.foldl crc64Byte c.toNat)

end Sys2Proof.Machine
end

