-- ==== Sys2Proof/Machine/HostQ.lean ====
section
/-! DEFINITION. The rings in host memory as the device writes them: depths, status blocks, completions and event
records (R322–R325, R333, R335, R336, R339, R340). -/

namespace Sys2Proof.Machine
open Sys2Proof

/-- A 64-bit value held in a LO and a HI register. -/
def reg64 (s : State) (lo hi : Reg) (i j : Nat) : Nat := (s.reg lo i j).toNat + 2 ^ 32 * (s.reg hi i j).toNat

/-- Base address of ring r of a set: 0 CMD, 1 CPL, 2 EVT, 3 TX, 4 RX. -/
def ringBase (s : State) (set r : Nat) : Nat := reg64 s rHI_TN_BASE_LO rHI_TN_BASE_HI set r

/-- log2 size of ring r of a set; 0 where TX or RX is absent. -/
def ringLog (s : State) (set r : Nat) : Nat := bits (s.reg rHI_TN_SIZE set 0).toNat (4 * r) 4

/-- Entries of ring r, and the depth between two indices (R323). -/
def ringN (s : State) (set r : Nat) : Nat := 2 ^ ringLog s set r
def ringDepth (p c : Nat) : Nat := (p + 65536 - c) % 65536
def ringFull (s : State) (set r p c : Nat) : Bool := ringN s set r - 1 ≤ ringDepth p c

/-- Address of the entry at index i of ring r with entries of n bytes. -/
def ringAddr (s : State) (set r n i : Nat) : Nat := ringBase s set r + n * (i % ringN s set r)

/-- The set is enabled and not halted. -/
def setLive (s : State) (set : Nat) : Bool := s.fb fHI_TN_CTL_EN set && !(s.hset set).halt

/-- A posted write to host memory; lost while the link is down (R320). -/
def hostWrite (s : State) (a : Nat) (bs : List Byte) : State :=
  if s.fb fHI_LINK_UP then { s with host := mwrite s.host (a % 2 ^ 64) bs } else s

/-- Write a set's status block (R325). -/
def statusBlock (s : State) (set : Nat) : State :=
  let h := s.hset set
  let h := { h with upd := (h.upd + 1) % 2 ^ 32 }
  let s := s.setHset set h
  hostWrite s (reg64 s rHI_STBASE_LO rHI_STBASE_HI 0 0 + 16 * set)
    (leBytes 4 (h.cmdCI + 65536 * h.cplPI) ++ leBytes 4 (h.evtPI + 65536 * h.txCI) ++
     leBytes 4 (h.rxDI + 2 ^ 31 * b2n h.halt) ++ leBytes 4 h.upd)

/-- Queue a command's completion (R331, R333): none under NOCPL with STATUS OK. -/
def complCmd (s : State) (set : Nat) (c : HCmd) (status d0 d1 : Nat) : State :=
  let w := wd c.w 0
  if status = 0 && bit w 9 then s
  else
    let h := s.hset set
    s.setHset set { h with cpls := h.cpls ++
      [⟨w32 (w / 65536 + w % 256 * 2 ^ 16 + status * 2 ^ 24), w32 d0, w32 d1, c.idx⟩] }

/-- Write the oldest waiting completion into a free slot, then the status block, then count a set of the completion
vector (R325, R335, R339). -/
def writeCpl (s : State) (set : Nat) : State :=
  let h := s.hset set
  match h.cpls with
  | [] => s
  | c :: cs =>
    if !setLive s set || ringFull s set 1 h.cplPI h.cplCI then s
    else
      let s := hostWrite s (ringAddr s set 1 16 h.cplPI)
        (leBytes 4 c.w0.toNat ++ leBytes 4 c.d0.toNat ++ leBytes 4 c.d1.toNat ++ leBytes 4 c.ix)
      let s := s.setHset set { h with cpls := cs, cplPI := (h.cplPI + 1) % 65536 }
      vecSet (statusBlock s set) (s.f fHI_TN_VEC_CPLVEC set)

/-- Drop an event record and count it (R299). -/
def dropEvent (s : State) (set : Nat) : State :=
  let h := s.hset set
  let s := s.setHset set { h with lost := min (h.lost + 1) 0xFFFF }
  raise (s.bump fCS_EVDROP_CNT_CNT) kCS_STAT_EVLOST

/-- Take the oldest record out of the staging FIFO into its ring, or drop it (R298, R299, R336): word 6 of a point
event carries LOST, and word 7 of every kind but 1 the ring's sequence number. -/
def drainEvent (s : State) : State :=
  match s.evq with
  | [] => s
  | r :: rs =>
    let s := { s with evq := rs }
    let h := s.hset r.set
    if !setLive s r.set || !s.fb fHI_LINK_UP || ringFull s r.set 2 h.evtPI h.evtCI then dropEvent s r.set
    else
      let ws := r.words
      let ws := if r.pt then ws.set 6 (ws.getD 6 0 ||| w32 (h.lost * 65536)) else ws
      let ws := if r.ringSeq then ws.set 7 (w32 h.seq) else ws
      let s := hostWrite s (ringAddr s r.set 2 32 h.evtPI) (ws.flatMap fun w => leBytes 4 w.toNat)
      let s := s.setHset r.set { h with evtPI := (h.evtPI + 1) % 65536, lost := if r.pt then 0 else h.lost
                                        seq := if r.ringSeq then (h.seq + 1) % 2 ^ 32 else h.seq }
      let s := statusBlock (s.bump fCS_EVOK_CNT_CNT) r.set
      vecSet s (s.f fHI_TN_VEC_EVTVEC r.set)

/-- HI_ERRADDR takes a host address (R340, R342). -/
def errAddr (s : State) (addr : Nat) : State :=
  (s.setReg rHI_ERRADDR_LO 0 0 (w32 addr)).setReg rHI_ERRADDR_HI 0 0 (w32 (addr / 2 ^ 32))

/-- HOSTERR and the address of a failed read, as their register fields say of every read (R342). -/
def failMark (s : State) (addr : Nat) : State := raise (errAddr s addr) kHI_STAT_HOSTERR

/-- Halt a ring set (R340): HALT, the flag, and the record of what failed. -/
def haltSet (s : State) (set ring kind addr : Nat) : State :=
  let s := s.setHset set { s.hset set with halt := true }
  let s := s.setF fHI_ERRINFO_SET set
  let s := s.setF fHI_ERRINFO_RING ring
  let s := s.setF fHI_ERRINFO_KIND kind
  let s := errAddr s addr
  raise (statusBlock s set) (if kind = 4 then kHI_STAT_IDXERR else kHI_STAT_HOSTERR)

end Sys2Proof.Machine
end

