-- ==== Sys2Proof/Machine/Sched.lean ====
section
/-! DEFINITION. Activations and deadlines: posting, recording misses, the fallback policies, quarantine, release of
decision outputs, and the end of an activation. Frames handed to the Ubeolyn link stand here too, because a
completion may send a checkpoint. -/

namespace Sys2Proof.Machine
open Sys2Proof

-- Ubeolyn frames (R418–R420) ----------------------------------------------------------------------------------------

/-- Credits of 64 bytes that a frame of `n` payload bytes takes on a virtual channel (R420). -/
def ubCredits (n : Nat) : Nat := cdiv (n + 36) 64

/-- Keep the newest frames whose lengths come to at most 64 KiB on each channel (R420). -/
def ubTrim (fs : List UbFrame) : List UbFrame :=
  (fs.reverse.foldl (fun (acc : List UbFrame × List Nat) f =>
    let used := acc.2.getD f.vc.val 0 + f.payload.length + 36
    if used ≤ 65536 then (f :: acc.1, acc.2.set f.vc.val used) else acc) ([], [0, 0, 0, 0])).1

/-- The CREDITS field of the next frame returns what is owed (R418, R420). -/
def ubOwed (s : State) : List Byte × State :=
  let cr := (List.range 4).map fun v => min 255 (tget 0 s.ub.owed v)
  let left := s.ub.owed.filterMap fun (v, n) => if n ≤ 255 then none else some (v, n - 255)
  (cr.map (BitVec.ofNat 8), { s with ub := { s.ub with owed := left } })

/-- Hand a waiting frame to the link if its channel has the credits (R420) and, on VC 1–3, this session's first
heartbeat is out (R418): it takes the next SEQ and the channel's EPOCH and is kept for replay. -/
def ubHand (s : State) (f : UbFrame) : Option State :=
  let v := f.vc.val
  let need := ubCredits f.payload.length
  if v = 0 then some (ubOwed s).2
  else if !s.ub.hbEver || tget 0 s.ub.credit v < need then none
  else
    let q := tget 0 s.ub.txSeq v
    let ep := tget 0 s.ub.txEp v
    let (cr, s) := ubOwed s
    let f := { f with seq := w32 q, epoch := BitVec.ofNat 24 ep, credits := cr }
    some { s with ub := { s.ub with
      credit := tput s.ub.credit v (tget 0 s.ub.credit v - need)
      txSeq := tput s.ub.txSeq v ((q + 1) % 2 ^ 32)
      txEp := if q = 2 ^ 32 - 1 then tput s.ub.txEp v (ep + 1) else s.ub.txEp
      replay := ubTrim (s.ub.replay ++ [f]) } }

/-- Send as many waiting frames as their channels allow, in order. -/
def ubPump (s : State) : State :=
  s.ub.out.foldl (fun (s : State) f =>
    match ubHand s f with
    | some s => s
    | none => { s with ub := { s.ub with out := s.ub.out ++ [f] } }) { s with ub := { s.ub with out := [] } }

/-- Queue a frame for the link while it is up. -/
def ubSend (s : State) (vc : Fin 4) (ty : Nat) (payload : List Byte) : State :=
  if s.fb fUB_LINK_UP then
    ubPump { s with ub := { s.ub with out := s.ub.out ++
      [⟨BitVec.ofNat 8 ty, vc.val != 0, 0, [], vc, 0, true, payload⟩] } }
  else s

def ubActive (s : State) : Bool := s.fb fUB_LINK_ROLE
/-- Bit t of UB_CKTEN (R423). -/
def ckten (s : State) (t : Nat) : Bool := bit (s.reg rUB_CKTEN (t / 32) 0).toNat (t % 32)
/-- Standby: the link is enabled and this device's role is not active (R423, R426). -/
def standby (s : State) : Bool := s.fb fUB_CTL_EN && !ubActive s

/-- The nine CKPT frames of a checkpoint (R423). -/
def ckptSend (s : State) (t : Nat) : State :=
  let (c, k) := s.place t
  (List.range 9).foldl (fun s i =>
    let off := 2040 * i
    let n := if i < 8 then 2040 else 64
    ubSend s 2 3 (beBytes 4 t ++ beBytes 4 off ++ trayBytes s c (16384 * k + off) n)) s

/-- Count a completion of t towards its next checkpoint (R423). -/
def ckptCount (s : State) (t : Nat) : State :=
  let ev := s.f fUB_CKPT_EVERY
  if ubActive s && s.fb fUB_LINK_UP && ckten s t && ev != 0 then
    let n := tget 0 s.ub.ckcnt t + 1
    if ev ≤ n then ckptSend { s with ub := { s.ub with ckcnt := tput s.ub.ckcnt t 0 } } t
    else { s with ub := { s.ub with ckcnt := tput s.ub.ckcnt t n } }
  else s

-- Activations (R19, R43) ----------------------------------------------------------------------------------------------

/-- The instant on the monotonic timebase of a station time, by their relation now. -/
def monoOf (s : State) (t : Nat) : Nat := s.now + t * nsU - s.tai * nsU

/-- An activation with its deadline on the monotonic timebase: trigger instant plus budget (R43). -/
def mkAct (t kind idx trig trigM budget : Nat) : Act := ⟨t, kind, idx, trig, budget, trigM + budget * nsU, false, false, 0⟩

/-- The trigger of an activation on the monotonic timebase. -/
def trigMono (a : Act) : Nat := a.deadline - a.budget * nsU

/-- The post of an activation raises a hold at each decision port that lists its tenant (R257). -/
def raiseHolds (s : State) (a : Act) : State :=
  (List.range 12).foldl (fun s p =>
    if s.fb fEP_EG_DEC p && bit (s.reg rEP_DTEN p (a.tenant / 32)).toNat (a.tenant % 32) then
      s.modPort p fun x => { x with holds := x.holds ++ [a.id] }
    else s) s

/-- Hand an activation, whose trigger fell at `trigM` on the monotonic timebase, to the scheduler; it arrives with
ACTIVATION_POST (R40). -/
def post (s : State) (t kind idx trig trigM budget : Nat) : State :=
  let a := { mkAct t kind idx trig trigM budget with id := s.plan.posts }
  raiseHolds { s with postq := s.postq ++ [a], plan := { s.plan with posts := s.plan.posts + 1 } } a

/-- The source budget the plan in effect gives a point or slot, 0xFFFF_FFFF where it names none (R19). -/
def planPointBudget (s : State) (p : Nat) : Option Nat :=
  s.plan.img.bind fun im => (im.points.find? fun e => e.1 == p).map Prod.snd
def planSlotBudget (s : State) (n : Nat) : Nat :=
  ((s.plan.img.bind fun im => (im.slots.find? fun e => e.1 == n).map Prod.snd)).getD 0xFFFFFFFF

/-- The core on which tenant t's activation runs, which its home may have left (R104), and the run. -/
def runOf (s : State) (t : Nat) : Option (Nat × Run) :=
  s.cores.findSome? fun (c, k) => k.run.bind fun r => if r.act.tenant == t then some (c, r) else none

/-- The core on which activation a itself runs, whether or not its miss is recorded. -/
def runsOn (s : State) (a : Act) : Option (Nat × Run) :=
  (runOf s a.tenant).filter fun x => x.2.act.id == a.id

/-- Easel program counter of a dispatched activation, 0 when it is not dispatched (R49). -/
def runPc (s : State) (a : Act) : Nat :=
  match runsOn s a with
  | some (c, r) => (s.ctx c r.ctx).thr.r.pc.toNat
  | none => 0

/-- The context that holds tenant t's state: its home, or, until a migration is done, the one it leaves (R106). -/
def State.holder (s : State) (t : Nat) : Nat × Nat :=
  match s.plan.mig.find? fun m => m.1 == t with
  | some m => (m.2.1 / 8, m.2.1 % 8)
  | none => s.place t

/-- The flag of a miss cause (R49, R50). -/
def missFlag : Nat → Flag
  | 1 => kDLM_STAT_LATE | 2 => kDLM_STAT_EXPIRED | 3 => kDLM_STAT_QFULL | 4 => kDLM_STAT_STALE
  | 5 => kDLM_STAT_QUAR | _ => kDLM_STAT_CAP

/-- Write, count and post the fault record of a miss (R49), with the program counter at it. -/
def missRecord (s : State) (a : Act) (cause diff pc : Nat) (quar : Bool) : State :=
  let w := [a.tenant + cause * 2 ^ 8 + a.kind * 2 ^ 12 + a.idx % 2 ^ 16 * 2 ^ 16, taiNs a.trig, taiSec a.trig % 2 ^ 32,
    a.budget, diff, pc, 0x1000 + b2n quar * 2 ^ 8 + bits (s.dl a.tenant).cfg.toNat 0 2, s.dlmSeq % 2 ^ 32].map w32
  let s := (List.range 8).foldl (fun s i => s.setReg rDLM_LAST i 0 (w.getD i 0)) s
  let s := { s with dlmSeq := s.dlmSeq + 1 }
  let s := s.bump fDLM_TN_CNT_MISSES a.tenant
  let s := raise s (missFlag cause)
  if s.fb fDLM_CTL_EVT then postRec s ⟨256, w, false, false⟩ else s

/-- Ask for the fallback dataset of every valid publication of the tenant (R21, R46). -/
def fallbackPubs (s : State) (t : Nat) : State :=
  { s with pubq := s.pubq ++ s.recs.filterMap fun (k, ws) =>
      if k / 65536 == 3 && bit (wd ws 0) 31 && bits (wd ws 0) 16 8 == t
      then some ⟨k % 65536, true, none, false, none, s.now⟩ else none }

/-- Decision frames of activation `id` that still have to enter port p's MAC (R257). -/
def decWaiting (s : State) (p id : Nat) : Bool :=
  (s.port p).egq.any (fun f => f.dec == some id) ||
  (s.lane p).build.any (fun b => b.dec == some id) ||
  (match (s.lane p).eg.build with | some b => b.dec == some id | none => false) ||
  s.pubq.any fun b => b.dec == some id && bit (wd (s.recw 3 b.cb) 2) (16 + p)

/-- Activation `id` is posted and has not completed. -/
def actLive (s : State) (id : Nat) : Bool :=
  s.postq.any (·.id == id) || s.ub.lent.any (·.id == id) ||
  s.cores.any fun e => e.2.queue.any (·.id == id) || (match e.2.run with | some r => r.act.id == id | none => false)

/-- The holds of activations that have completed and leave no decision frame for the port are lowered (R257). -/
def endHolds (s : State) : State :=
  { s with ports := s.ports.map fun e =>
      (e.1, { e.2 with holds := e.2.holds.filter fun id => actLive s id || decWaiting s e.1 id }) }

/-- Clear the span registers and tanks that core c controls (R81): w pipes from pipe c on. -/
def clearSpan (s : State) (c wlog : Nat) : State :=
  let w := 2 ^ wlog
  { s with vreg := tclear s.vreg (c * 2048) (w * 2048)
           vcls := tclear s.vcls (c * 2048) (w * 2048)
           mask := tclear s.mask (c * 8) (w * 8)
           tanks := tclear s.tanks (c * 24) 24 }

/-- Core c has no activation any more: the context's open section, held outputs and pending operations go, its span's
registers and tanks are cleared, and supervisor mode resumes at its resume point after the 24-cycle switch, unless a
handler is running (R159, R457). -/
def freeCore (s : State) (c : Nat) : State :=
  match (s.core c).run with
  | none => s
  | some r =>
    let s := s.modCtx c r.ctx fun x =>
      { x with sec := none, waitRel := [], dl := false,
               thr := { x.thr with r := x.thr.r.plain, pend := [], dslot := [], held := [], pwr := none } }
    let s := s.modCore c fun k =>
      let k := { k with run := none, vq := [], jobs := [], frozen := false, vflt := false, vheld := [], br := none }
      if k.sup then k
      else { k with sup := true, waiting := k.rwait, cyc := max k.cyc s.nowCyc + 24, freed := max k.cyc s.nowCyc,
                    thr := { k.thr with r := { k.thr.r with pc := k.rpc } } }
    endHolds (clearSpan s c r.wlog)

/-- EZ_CAUSE of a context that reached the top (R181, R190). -/
def causeTop (s : State) (c k code orig : Nat) (sup : Bool) : State :=
  s.setReg rEZ_CAUSE c 0 (w32 (code + 7 * 2 ^ 8 + orig * 2 ^ 11 + b2n sup * 2 ^ 15 + k * 2 ^ 16 + 2 ^ 19))

/-- Record a removed or refused activation with cause QUAR; no policy acts, and in stop bath nothing is recorded (R48, R181). -/
def quarRecord (s : State) (a : Act) : State := if s.stopped then s else missRecord s a 5 0xFFFFFFFF 0 false

/-- Quarantine context k of core c (R181): its activation ends, its outputs go, the fallback datasets are
published, and its queued activations are recorded QUAR. -/
def quarantine (s : State) (c k code orig : Nat) : State :=
  let t := (s.ctx c k).tenant
  let running := match (s.core c).run with | some r => r.ctx == k | none => false
  let s := if running then freeCore s c else s
  let s := fallbackPubs s t
  let q := (s.place t).1
  let (gone, kept) := (s.core q).queue.partition fun a => a.tenant == t
  let s := s.modCore q fun x => { x with queue := kept }
  let s := endHolds (gone.foldl quarRecord s)
  let s := s.modCtx c k fun x => { x with quar := true, sec := none, waitRel := [] }
  let s := s.setDl t { s.dl t with mrun := 0 }
  let s := raise s kDLM_STAT_QUAR
  causeTop (countSet s c 19) c k code orig false

/-- A stop-bath trigger on its way to Safelight (R409): it arrives after `d` units, 3 Safelight cycles from another
island (R29). -/
def stopTrigger (s : State) (bit_ : Nat) (at_ : Nat := crossed s.now slU 3) : State :=
  { s with sl := { s.sl with trig := s.sl.trig ++ [(bit_, at_)] } }

/-- Quarantine every tenant context (R356, R357). -/
def quarantineAll (s : State) : State :=
  (List.range 256).foldl (fun s i => quarantine s (i / 8) (i % 8) 0 0) s

/-- A wipe of 327.68 µs starts (R352); `target` is the lifecycle state that it leads to. -/
def startWipe (s : State) (target : Option Nat) : State :=
  { s with ks := { s.ks with wipe := some (s.now + 327680 * nsU, target) } }

/-- A transition in effect goes on once the dispatched activations are complete (R356). -/
def transitionGo (s : State) : State :=
  match s.ks.trans with
  | some t =>
    if (s.cores.any fun e => e.2.run.isSome) then s
    else startWipe (quarantineAll { s with ks := { s.ks with trans := none } }) (some t)
  | none => s

/-- An activation is aborted on the core where it runs: its held outputs go (R46, R105), and the run of mismatches ends
(R221). -/
def abortRun (s : State) (a : Act) : State :=
  match runsOn s a with
  | some (c, _) => (freeCore s c).setDl a.tenant { (freeCore s c).dl a.tenant with mrun := 0 }
  | none => s

/-- A miss (R45, R46): its record, the count of consecutive misses and the tenant's policy, which aborts the activation
where it runs. While EN is 0 no policy acts (R50), and in stop bath nothing is judged (R48). -/
def miss (s : State) (a : Act) (cause diff : Nat) (pc : Nat := runPc s a) : State :=
  if s.stopped then s
  else if !s.fb fDLM_CTL_EN then missRecord s a cause diff pc false
  else
    let t := a.tenant
    let d := s.dl t
    let pol := bits d.cfg.toNat 0 2
    let qt := bits d.cfg.toNat 8 4
    let run := d.run + 1
    let q := pol == 2 && (if qt == 0 then 16 else qt) ≤ run
    let s := s.setDl t { d with run := if q then 0 else run }
    let s := missRecord s a cause diff pc q
    if pol == 0 then s
    else
      let s := fallbackPubs (abortRun s a) t
      let (c, k) := s.holder t
      let s := if q then quarantine s c k 0 0 else s
      transitionGo (if pol == 3 then stopTrigger s 4 else s)

/-- A decision output leaves: a point write to the Contact sheet, which the held-output buffer retries 8 times
(R218), or a publication request to egress. -/
def releaseOut (s : State) (c k : Nat) (a : Act) (o : DecOut) : State :=
  match o with
  | .point p nov noq q v trig =>
    { s with ptq := s.ptq ++ [⟨.ez, p, if nov then none else some (BitVec.ofNat 64 v), if noq then none else some q,
        some trig, some a.tenant, none, .held c k, 0, none, 0, some (trigMono a)⟩] }
  | .pub cb => { s with pubq := s.pubq ++ [⟨cb, false, some a.id, false, some a.deadline, s.now⟩] }

/-- Release outputs together in issue order (R47, R218). -/
def releaseAll (s : State) (c k : Nat) (a : Act) (os : List DecOut) : State :=
  os.foldl (fun s o => releaseOut s c k a o) s

/-- ACT0–ACT3: the activation in the layout of fault-record words 0–3 (R143). -/
def actWord (a : Act) (i : Nat) : Word :=
  match i with
  | 0 => w32 (a.tenant + a.kind * 2 ^ 12 + a.idx % 2 ^ 16 * 2 ^ 16)
  | 1 => w32 (taiNs a.trig)
  | 2 => w32 (taiSec a.trig)
  | _ => w32 a.budget

/-- A decision output in a LENDOUT payload (R427). Its layout is not given (log entry 12). -/
def outBytes : DecOut → List Byte
  | .point p nov noq q v trig => beBytes 4 (p + b2n noq * 2 ^ 30 + b2n nov * 2 ^ 31) ++ beBytes 4 q ++ beBytes 8 v ++
      beBytes 8 trig
  | .pub cb => beBytes 4 (2 ^ 29 + cb) ++ beBytes 20 0

/-- deadline − E of an activation (R45). -/
def fixedAt (s : State) (a : Act) : Nat := a.deadline - (s.dl a.tenant).e

/-- A completion now is on time: it falls no later than the fabric cycle in which deadline − E is reached (R44, R48). -/
def onTime (s : State) (a : Act) : Bool := s.nowCyc ≤ fixedAt s a / s.cyc

/-- A completion is judged (R22, R44); `pc` is the program counter at it. -/
def judge (s : State) (a : Act) (pc : Nat) : State :=
  if !s.fb fDLM_CTL_EN || s.stopped then s
  else if onTime s a then (s.setDl a.tenant { s.dl a.tenant with run := 0 }).wrapInc fDLM_TN_CNT_DONE a.tenant
  else if a.missed then s
  else miss s a 1 ((s.now + (s.dl a.tenant).e - a.deadline) / nsU % 2 ^ 32) pc

/-- The activation of core c completes (R22, R44): its wire-time stamp is judged against its deadline, and the
core is freed. -/
def complete (s : State) (c : Nat) : State :=
  match (s.core c).run with
  | none => s
  | some r =>
    let a := r.act
    let t := a.tenant
    let outs := (s.ctx c r.ctx).waitRel
    let pc := runPc s a
    let s := if a.lent then
        ubSend s 3 10 ((List.range 4).flatMap (fun i => beBytes 4 (actWord a i).toNat) ++ outs.flatMap outBytes)
      else releaseAll s c r.ctx a outs
    let s := freeCore s c
    let d := s.dl t
    let mmq := bits (s.effReg rNEG_TN_CFG t 0).toNat 16 4
    let mr := if r.mism then d.mrun + 1 else 0
    let s := s.setDl t { d with mrun := mr }
    let s := if a.lent then s else judge s a pc
    let s := if r.mism && mmq != 0 && mmq ≤ mr then quarantine s c r.ctx 0 0 else s
    transitionGo (ckptCount s t)

end Sys2Proof.Machine
end

