-- ==== Sys2Proof/Machine/Points.lean ====
section
/-! DEFINITION. The Contact sheet: judging changes, landing writes, collisions, and what each writer learns
(R284–R302). -/

namespace Sys2Proof.Machine
open Sys2Proof

/-- The value bits that a write stores for a point type (R285, R245, R255). -/
def storedBits (ty v : Nat) : Nat :=
  if ty = 1 then v % 2
  else if ty = 2 then v % 4
  else if ty = 3 ∨ ty = 5 ∨ ty = 6 then v % 2 ^ 32
  else if ty = 10 then v % 2 ^ 18 + bits v 24 8 * 2 ^ 24
  else if ty = 11 then v % 2 ^ 40
  else v % 2 ^ 64

/-- The magnitude of packed decimal digits, where all are BCD (R169). -/
def bcdVal (v : Nat) : Nat → Option Nat
  | 0 => some 0
  | n + 1 => if v % 16 < 10 then (bcdVal (v / 16) n).map fun x => v % 16 + 10 * x else none

/-- Floating-point absolute change (R296): the subtraction in binary64, rounded to nearest, against a binary32
DEADBAND; NaN and infinity by bit pattern. -/
def floatChange (f : Fmt) (v r dead : Nat) : Bool :=
  let special (x : Nat) : Bool := match f.unpack x with | .fin _ _ _ => false | _ => true
  if special v || special r then v != r
  else
    let a := (f.conv f64 .near v).1
    let b := (f.conv f64 .near r).1
    let d := f64.abs (f64.sub .near a b).1
    let t := (f32.conv f64 .near dead).1
    !f64.isNan t && f64.cmp d t == .gt

/-- Whether a stored value differs from the change reference by the rule of its type (R296). -/
def valueChange (ty v r dead : Nat) : Bool :=
  if ty = 1 ∨ ty = 2 ∨ ty = 3 then (BitVec.ofNat 32 (Nat.xor v r) &&& BitVec.ofNat 32 dead) != 0
  else if ty = 4 then dead < (sval 64 v - sval 64 r).natAbs
  else if ty = 5 then dead < ((v : Int) - r).natAbs
  else if ty = 6 then floatChange f32 v r dead
  else if ty = 7 then floatChange f64 v r dead
  else if ty = 8 ∨ ty = 9 then v != r
  else if ty = 10 then bits v 16 2 != bits r 16 2 || bits v 24 8 != 0
  else if ty = 11 then bits v 32 8 != 0
  else if ty = 12 then
    match bcdVal v 16, bcdVal r 16 with
    | some a, some b => dead < ((a : Int) - b).natAbs
    | _, _ => v != r
  else false

/-- Whether a point takes this write (R287): TYPE 0 takes none; a writer bound to an owner needs that owner; the
host port needs an owned point. -/
def writeAllowed (p : Point) (w : PtWrite) : Bool :=
  p.ty != 0 && (match w.owner with | some o => p.owner == o | none => true) &&
    (w.src != .host || p.owner != 0x1FF)

/-- Writer code of an event record (R298). -/
def writerCode : PtSrc → Nat
  | .fe _ => 0 | .ez => 1 | .host => 2 | .tu => 3

/-- Words 0–4 of a record (R284). -/
def ptWords (p : Point) : List Word :=
  [w32 (p.val.toNat % 2 ^ 32), w32 (p.val.toNat / 2 ^ 32), w32 (taiNs p.ts), w32 (taiSec p.ts),
   w32 (p.q * 65536 + taiSec p.ts / 2 ^ 32 % 65536)]

/-- Word i of a record (R284). -/
def ptWord (p : Point) (i : Nat) : Word :=
  if i < 5 then (ptWords p).getD i 0
  else if i = 5 then p.dead
  else if i = 6 then w32 (p.chg * 2 ^ 24 + p.ty * 2 ^ 16 + p.owner)
  else w32 p.flags

/-- On the active device, mirror a landed write to a point of a UB_MIR range (R422). -/
def mirrorOut (s : State) (pi : Nat) (p : Point) : State :=
  let hit := (List.range 8).any fun i =>
    s.fb fUB_MIR_V i && s.f fUB_MIR_BASE i ≤ pi && pi < s.f fUB_MIR_BASE i + 16 * s.f fUB_MIR_COUNT i
  if hit && ubActive s && s.fb fUB_CTL_EN then
    ubSend s 1 2 ((ptWords p).flatMap (fun w => beBytes 4 w.toNat) ++ beBytes 4 pi ++ beBytes 8 0)
  else s

/-- The budget of a watched point's activation (R19): the plan's entry, else the GOOSE subscription's, else the
largest. -/
def watchBudget (s : State) (pi : Nat) (sub : Option Nat) : Nat :=
  match planPointBudget s pi with
  | some b => b
  | none => sub.getD 0xFFFFFFFF

/-- Land one write and judge it for change (R290, R292, R296, R297). -/
def landWrite (s : State) (w : PtWrite) : State :=
  let p := s.pt w.pt
  let ts := w.ts.getD s.tai
  let v := match w.val with | some v => storedBits p.ty v.toNat | none => p.val.toNat
  let q := match w.q with | some q => q % 2 ^ 13 | none => p.q
  let vchg := valueChange p.ty v p.ref.toNat p.dead.toNat
  let qchg := q != p.q
  let p := { p with val := BitVec.ofNat 64 v, q := q, ts := ts }
  if vchg || qchg then
    let p := { p with chg := (p.chg + 1) % 256, ref := p.val }
    let s := mirrorOut (s.setPt w.pt p) w.pt p
    let s := if bit p.flags 0 && s.fb fCS_CTL_EVEN && p.owner ≤ 0x100 then
        postRec s ⟨p.owner, ptWords p ++ [w32 (p.chg * 2 ^ 24 + w.pt),
          w32 (b2n qchg * 2 ^ 11 + b2n vchg * 2 ^ 10 + writerCode w.src * 2 ^ 8 + p.ty), 0], true, true⟩
      else s
    if bit p.flags 1 && p.owner < 256 then
      let trig := match w.src with | .fe _ => w.trig.getD ts | .ez => ts | _ => s.tai
      post s p.owner 3 w.pt trig (w.trigM.getD (monoOf s trig)) (watchBudget s w.pt w.sub)
    else s
  else mirrorOut (s.setPt w.pt p) w.pt p

/-- Rank of a source in a collision (R291): lower wins. -/
def ptRank : PtSrc → Nat
  | .fe 0 => 0 | .fe 1 => 1 | .ez => 2 | .host => 3 | .tu => 4

/-- The counter of a port's dropped writes (R303). -/
def colField : PtSrc → Field
  | .fe _ => fCS_COL_CNT_FE | .ez => fCS_COL_CNT_EZ | .host => fCS_COL_CNT_HOST | .tu => fCS_COL_CNT_TU

/-- Tell a core's PWR its judgement, which returns 4 core cycles after the grant (R145). -/
def tellPwr (s : State) (c : Nat) (k : Option Nat) (v : Bool) : State :=
  let due := s.now + 4 * s.cyc
  let f (t : Thr) : Thr := if t.pwr == some none then { t with pwr := some (some (v, due)) } else t
  match k with
  | none => s.modCore c fun x => { x with thr := f x.thr }
  | some k => s.modCtx c k fun x => { x with thr := f x.thr }

/-- Tell a lane the judgement of its n-th PTWR, which counts where it is the last one: flag PTCOL, readable after the crossing back (R269, R271). -/
def tellLane (s : State) (l : Nat) (eg : Bool) (n : Nat) (col : Bool) : State :=
  let x := s.lane l
  let f (t : FeThr) : FeThr := if t.ptwr.isSome && t.ptN == n then { t with ptwr := some (s.now + 5 * 24), ptcol := col } else t
  s.setLane l (if eg then { x with eg := f x.eg } else { x with ing := f x.ing })

/-- Complete the host command of a POINT_WR (R332, R333). -/
def tellHost (s : State) (set status : Nat) : State :=
  match takeOut (fun w => w.set == set && !w.plan) s.hi.waits with
  | none => s
  | some (w, ws) => complCmd { s with hi := { s.hi with waits := ws } } set w.cmd status 0 0

/-- A released point write is dropped (R218, R302). -/
def ptLost (s : State) : State := raise s kNEG_STAT_PTLOST

/-- What follows a landed write, for its writer. -/
def tellLanded (s : State) (w : PtWrite) : State :=
  match w.back with
  | .pwr c k => tellPwr s c k false
  | .lane l e n => tellLane s l e n false
  | .host set => tellHost s set 0
  | _ => s

/-- What follows a write that lost a collision (R291): the flag and count, and its writer's answer; the time unit,
a vendor routine, the mirror and a held output try again in the next sheet cycle, a held output at most 8 times (R218). -/
def tellLost (s : State) (w : PtWrite) : State :=
  let s := raise (s.bump (colField w.src)) kCS_STAT_COL
  let again := { s with ptq := { w with lost := w.lost + 1 } :: s.ptq }
  match w.back with
  | .pwr c k => tellPwr s c k true
  | .lane l e n => tellLane s l e n true
  | .host set => tellHost s set 1
  | .held _ _ => if w.lost < 8 then again else ptLost s
  | .mirror => again
  | .none => again

/-- A write that the sheet refuses under R287 changes nothing. -/
def tellRefused (s : State) (w : PtWrite) : State :=
  match w.back with
  | .pwr c k => tellPwr s c k false
  | .lane l e n => tellLane s l e n false
  | .host set => tellHost s set 3
  | .held _ _ => ptLost s
  | _ => s

/-- The writes that the ports named in `srcs` bring to the sheet in one cycle: the oldest of each. -/
def grants (s : State) : List PtSrc → List PtWrite × State
  | [] => ([], s)
  | x :: xs =>
    let (gs, s) := grants s xs
    match takeOut (fun w => w.src == x) s.ptq with
    | some (w, q) => (w :: gs, { s with ptq := q })
    | none => (gs, s)

/-- A write loses when a higher-ranked write of the cycle names its point and is not refused (R291). -/
def loses (s : State) (ws : List PtWrite) (w : PtWrite) : Bool :=
  ws.any fun v => v.pt == w.pt && ptRank v.src < ptRank w.src && writeAllowed (s.pt v.pt) v

/-- One sheet cycle (R290, R291), once the crossings have delivered what it takes: every granted write lands, loses or
is refused. A write that reaches the
sheet after the boundary that moved its point to another owner is refused (R302). -/
def sheetCycle (s : State) (srcs : List PtSrc) : State :=
  let (ws, s) := grants s srcs
  let s0 := s
  let s := (s.advanceTo (ws.foldl (fun n w => max n w.rdy) 0)).advance s.cyc
  ws.foldl (fun s w =>
    if !writeAllowed (s0.pt w.pt) w then tellRefused s w
    else if loses s0 ws w then tellLost s w
    else tellLanded (landWrite s w) w) s

/-- The first retry that waits for the given kind of writer. -/
def retryWaits (s : State) (p : PtWrite → Bool) : Bool := s.ptq.any fun w => p w && w.lost != 0

/-- POINT_WRITE (R291): the oldest waiting write of each named port reaches the sheet in one sheet cycle. -/
def execPointWrite (fe0 fe1 ez host tu : Bool) (s : State) : Host.Outcome State Fault Refusal :=
  done (sheetCycle s ((if fe0 then [.fe 0] else []) ++ (if fe1 then [.fe 1] else []) ++ (if ez then [.ez] else []) ++
    (if host then [.host] else []) ++ (if tu then [.tu] else [])))

/-- TIME_UNIT_RETRY (R291): a time-unit write that lost tries again. -/
def execTimeUnitRetry (s : State) : Host.Outcome State Fault Refusal :=
  done (if retryWaits s (fun w => w.src == .tu) then sheetCycle s [.tu] else s)

/-- HELD_WRITE_RETRY (R218): the held-output buffer tries a released write again. -/
def execHeldWriteRetry (s : State) : Host.Outcome State Fault Refusal :=
  done (if retryWaits s (fun w => w.src == .ez) then sheetCycle s [.ez] else s)

/-- MIRROR_RETRY (R422): a mirrored write that lost tries again through the host write port. -/
def execMirrorRetry (s : State) : Host.Outcome State Fault Refusal :=
  done (if retryWaits s (fun w => w.src == .host) then sheetCycle s [.host] else s)

/-- EVENT_DRAIN (R299): the host engine takes one record out of the staging FIFO. -/
def execEventDrain (s : State) : Host.Outcome State Fault Refusal := done (drainEvent s)

-- The direct window (R289) ------------------------------------------------------------------------------------------

/-- Words 5–7 as the window reads them: the value that waits for the boundary, else the live word (R289). -/
def windowWord (s : State) (pi i : Nat) : Word :=
  let h := s.ptcfg.find? fun x => x.pt == pi
  let p := s.pt pi
  match i, h.bind (·.w5), h.bind (·.w6), h.bind (·.w7) with
  | 5, some v, _, _ => v
  | 6, _, some v, _ => w32 (p.chg * 2 ^ 24) ||| (v &&& 0x00FF01FF)
  | 7, _, _, some v => v &&& 0xB
  | _, _, _, _ => ptWord p i

/-- A record as a reader's latch holds it. -/
def latched (s : State) : Reader → Option (Nat × Point)
  | .host => s.latchH | .supervisor => s.latchS

/-- Read a word of the direct window (R289): word 0 takes the snapshot. Words 5–7 show a waiting value. -/
def windowRead (s : State) (r : Reader) (pi i : Nat) : Word × State :=
  if i = 0 then
    let l := some (pi, s.pt pi)
    (ptWord (s.pt pi) 0, match r with | .host => { s with latchH := l } | .supervisor => { s with latchS := l })
  else
    let held := (s.ptcfg.find? fun x => x.pt == pi).map fun x =>
      match i with | 5 => x.w5.isSome | 6 => x.w6.isSome | 7 => x.w7.isSome | _ => false
    match latched s r with
    | some (q, p) => if q = pi && held != some true then (ptWord p i, s) else (windowWord s pi i, s)
    | none => (windowWord s pi i, s)

/-- Hold new words 5–7 for the next plan boundary; the later write stands (R288, R302). -/
def holdPtCfg (s : State) (pi : Nat) (w5 w6 w7 : Option Word) : State :=
  let old := (s.ptcfg.find? fun x => x.pt == pi).getD ⟨pi, none, none, none⟩
  let new : PtCfg := ⟨pi, w5.orElse fun _ => old.w5, w6.orElse fun _ => old.w6, w7.orElse fun _ => old.w7⟩
  { s with ptcfg := s.ptcfg.filter (fun x => x.pt != pi) ++ [new] }

/-- Write a word of the direct window (R289). -/
def windowWrite (s : State) (pi i : Nat) (v : Word) : State :=
  let busy (s : State) : State := s.setF fKS_PSTAT_BUSY 1
  if i = 5 then busy (holdPtCfg s pi (some v) none none)
  else if i = 6 then busy (holdPtCfg s pi none (some v) none)
  else if i = 7 then busy (holdPtCfg s pi none none (some v))
  else raise s kCS_STAT_WREF

/-- The configuration that waits for a point takes effect (R288): reserved owners load as unowned, TYPE 13–255 as
UNUSED, and a change of OWNER or TYPE resets the point's value, stamp, CHG and reference. -/
def loadPtCfg (s : State) (x : PtCfg) : State :=
  let p := s.pt x.pt
  let w6 := (x.w6.getD (ptWord p 6)).toNat
  let o := bits w6 0 9
  let o := if 0x100 < o then 0x1FF else o
  let ty := bits w6 16 8
  let ty := if 12 < ty then 0 else ty
  let p' := { p with dead := x.w5.getD p.dead, owner := o, ty := ty,
                     flags := match x.w7 with | some v => (v &&& 0xB).toNat | none => p.flags }
  s.setPt x.pt (if o != p.owner || ty != p.ty || (x.w6.isSome && 0x100 < bits w6 0 9 && bits w6 0 9 != 0x1FF)
    then { p' with val := 0, ts := 0, chg := 0, ref := 0, q := 1 } else p')

def execDirectWindowRead (rdr : Reader) (pt : Fin 131072) (w : Fin 8) (s : State) : Host.Outcome State Fault Refusal :=
  done (let (v, s) := windowRead s rdr pt w
    { s with resp := .data (leBytes 4 v.toNat) })
def execDirectWindowWrite (pt : Fin 131072) (w : Fin 8) (v : Word) (s : State) : Host.Outcome State Fault Refusal :=
  done (windowWrite s pt w v)

end Sys2Proof.Machine
end

