-- ==== Sys2Proof/Machine/PortQ.lean ====
section
/-! DEFINITION. Ports: line rates, redundancy pairs, egress queues and the host-frame path (R229–R260). -/

namespace Sys2Proof.Machine
open Sys2Proof

/-- The domain of a port and its lane (R11). -/
def portDom (p : Nat) : Nat := if p < 6 then 13 else 14
/-- A port has clock and power (R382, R388, R392): its domain is ON, in Run or Idle, or in stop bath, which restarts it
(R397). -/
def portPower (s : State) (p : Nat) : Bool := (pmState s ≤ 1 || s.stopped) && s.f fPM_DOM_STATE (portDom p) == 0

/-- Line rate of a port mode in Mb/s (R229); 0 where it is disabled. -/
def modeRate : Nat → Nat
  | 1 => 100 | 2 => 1000 | 3 => 1000 | 4 => 100 | 5 => 10000 | 6 => 25000 | 7 => 25000 | _ => 0

/-- Ingress and egress times of a mode, ns (R229). -/
def modeIngress : Nat → Nat
  | 1 => 4424 | 2 => 344 | 3 => 344 | 4 => 4424 | 5 => 64 | 6 => 64 | 7 => 320 | _ => 0
def modeEgress : Nat → Nat
  | 1 => 3680 | 2 => 260 | 3 => 260 | 4 => 3680 | 5 => 40 | 6 => 40 | 7 => 72 | _ => 0

def portMode (s : State) (p : Nat) : Nat := s.f fEP_CTL_MODE p
def portEn (s : State) (p : Nat) : Bool := s.fb fEP_CTL_EN p
def linkUp (s : State) (p : Nat) : Bool := s.fb fEP_LINK_UP p
def portMac (s : State) (p : Nat) : BitVec 48 :=
  BitVec.ofNat 48 ((s.reg rEP_MACLO p 0).toNat + 2 ^ 32 * s.f fEP_MACHI_MAC p)

/-- Wire time in ns of a frame of `len` bytes, as a ceiling (R257: (bytes + 20)·8 over the line rate). -/
def wireNs (s : State) (p len : Nat) : Nat :=
  if modeRate (portMode s p) = 0 then 0 else cdiv ((len + 20) * 8000) (modeRate (portMode s p))

-- Pairs (R238) -------------------------------------------------------------------------------------------------------

/-- The RED mode that pair `q` runs: the one in effect, where both ports run one MODE with EN = 1. -/
def pairRed (s : State) (q : Nat) : Nat :=
  if portEn s (2 * q) && portEn s (2 * q + 1) && portMode s (2 * q) == portMode s (2 * q + 1)
  then s.e fEP_RDCFG_RED q else 0

/-- A RedBox pair's interlink port: an unpaired port of the pair's port group (R238). -/
def interlink (s : State) (q : Nat) : Option Nat :=
  let il := s.e fEP_RB_ILPORT q
  if pairRed s q = 3 && il < 12 && il / 6 == 2 * q / 6 && pairRed s (il / 2) == 0 && il / 2 != q then some il else none

/-- RDCFG and RB take effect while both ports' EN are 0 (R262). -/
def loadPair (s : State) (q : Nat) : State :=
  if portEn s (2 * q) || portEn s (2 * q + 1) then s
  else (s.setEff rEP_RDCFG q 0 (s.reg rEP_RDCFG q 0)).setEff rEP_RB q 0 (s.reg rEP_RB q 0)

/-- A pair with a port enabled that cannot run redundantly as configured sets CFGREF (R238). -/
def checkPair (s : State) (q : Nat) : State :=
  let red := s.e fEP_RDCFG_RED q
  let bad : Bool := red != 0 && (portEn s (2 * q) || portEn s (2 * q + 1)) &&
    (pairRed s q == 0 || (red == 3 && (interlink s q).isNone))
  raiseIf bad s kEP_STAT_CFGREF (2 * q)

-- Frames ---------------------------------------------------------------------------------------------------------------

/-- A frame that the device builds. -/
def mkFrame (dmac smac : BitVec 48) (tags : List (BitVec 16)) (etype : Nat) (body : FrameBody) (len : Nat)
    (bytes : List Byte) : Frame :=
  { dmac := dmac, smac := smac, tags := tags, etype := BitVec.ofNat 16 etype, len := max len 64, fcsOk := true,
    red := none, ringForward := false, body := body, tag := none, bytes := bytes }

/-- A frame's bytes with its 802.1Q tags in place. -/
def taggedBytes (f : Frame) : List Byte :=
  f.bytes.take 12 ++ f.tags.flatMap (fun t => [0x81, 0x00] ++ beBytes 2 t.toNat) ++ f.bytes.drop 12

-- Egress (R256–R258) ---------------------------------------------------------------------------------------------------

/-- Frames of a class that wait at a port. -/
def classDepth (s : State) (p cls : Nat) : Nat := ((s.port p).egq.filter fun f => f.cls == cls).length

/-- A class 0–2 frame is longer than a decision port's DMAX allows (R257). -/
def overDmax (s : State) (p : Nat) (t : TxFrame) : Bool :=
  t.cls < 3 && !t.f.ringForward && s.fb fEP_EG_DEC p &&
    s.f fEP_EG_DMAX p * modeRate (portMode s p) < (t.f.len + 20) * 8000

/-- A counter loses one count. -/
def uncount (s : State) (c : Field) (p : Nat) : State := s.setF c (s.f c p - 1) p

/-- Place a frame in its class queue (R256), where no pop of the same cycle finds it (R235): a link that is down loses it, a
decision port refuses a class 0–2 frame longer than DMAX, and a full queue refuses it (R236, R257, R258), unless a pop of
the same cycle makes room (R235). Stop bath takes no further frame (R410). -/
def enqueue (s : State) (p : Nat) (t : TxFrame) : State :=
  if s.stopped then s
  else if !linkUp s p then s.bump fEP_TXLOST_CNT_CNT p
  else if overDmax s p t then s.bump fEP_TXREF_CNT_CNT p
  else
    let t := { t with rdy := max t.rdy ((s.now / nsU + 1) * nsU) }
    if 32 ≤ classDepth s p t.cls then
      (s.modPort p fun x => { x with lateEg := some (t, s.now) }).bump fEP_TXREF_CNT_CNT p
    else s.modPort p fun x => { x with egq := x.egq ++ [t] }

/-- A pop has freed an entry of a class queue: a frame that was refused at full in this cycle is accepted after all, and the
refusal is not counted (R235). -/
def acceptLate (s : State) (p cls : Nat) : State :=
  match (s.port p).lateEg with
  | some (t, at_) =>
    if t.cls = cls && at_ / nsU = s.now / nsU then
      uncount (s.modPort p fun x => { x with egq := x.egq ++ [t], lateEg := none }) fEP_TXREF_CNT_CNT p
    else s
  | none => s

/-- Hand a frame to its port's egress thread, which builds it (R264, R274). -/
def handLane (s : State) (p : Nat) (t : TxFrame) : State :=
  if s.stopped then s
  else
    let l := s.lane p
    s.setLane p { l with build := l.build ++ [t] }

-- Host-frame receive (R260, R338) ----------------------------------------------------------------------------------------

/-- Drop a received host frame: one that finds no posted buffer (R338), or one of a halted set (R340). -/
def hfDrop (s : State) (nobuf : Bool) : State := raiseIf nobuf (s.bump fHI_HFDROP_CNT_CNT) kHI_STAT_NOBUF

/-- Receive descriptors of a set that are being fetched. -/
def rxOut (s : State) (set : Nat) : Nat :=
  (s.hi.reads.filter fun r => match r.kind with | .rxd k _ _ _ _ => k == set | _ => false).length

/-- Hand a frame to a set's receive ring: its next descriptor is read for the buffer's address (R338). -/
def hostReceive (s : State) (set p stamp : Nat) (f : Frame) : State :=
  let h := s.hset set
  if h.halt then hfDrop s false
  else if !setLive s set || ringLog s set 4 == 0 || !s.fb fHI_LINK_UP then hfDrop s true
  else if ringDepth h.rxPI h.rxDI ≤ rxOut s set then hfDrop s true
  else { s with hi := { s.hi with reads := s.hi.reads ++
    [⟨.rxd set (taggedBytes f) (!f.tags.isEmpty) p stamp, ringAddr s set 4 16 (h.rxDI + rxOut s set), 16, s.now⟩] } }

/-- The owner of a port's host-frame path, where it has one (R260). -/
def hfOwner (s : State) (p : Nat) : Option Nat :=
  let o := s.f fEP_HF_OWNER p
  if o ≤ 0x100 then some o else none

/-- A lane counter with its flag (R263). -/
def laneCount (s : State) (l : Nat) (c : Field) (k : Flag) : State := raise (s.bump c l) k l

/-- Count a frame that matched nothing (R24, R270 DROP 2). -/
def noMatch (s : State) (l : Nat) : State := laneCount s l fFE_NOMATCH_CNT_CNT kFE_LSTAT_NOMATCH

/-- Offer a frame that matched no subscription to the port's host-frame path (R260): it goes there under UNM, for the two
EtherTypes, and as a supervision frame under SUP; otherwise it is dropped and counted. -/
def hostPath (s : State) (p : Nat) (f : Frame) (stamp : Nat) : State :=
  let e := f.etype.toNat
  let et : Bool := e != 0 && (e == s.f fEP_HFETYPE_ETYPE0 p || e == s.f fEP_HFETYPE_ETYPE1 p)
  let sup : Bool := (match f.body with | .supervision => true | _ => false)
  match hfOwner s p with
  | some o =>
    if et || s.fb fEP_HF_UNM p || (sup && s.fb fEP_HF_SUP p) then hostReceive s o p stamp f else noMatch s p
  | none => noMatch s p

/-- Station time of an island's replica, which differs from the time unit's by at most 2 ns (R306). -/
def replicaDelta : Nat → Int
  | 1 => 1 | 2 => 2 | 3 => -1 | 4 => -2 | _ => 0
def replicaTime (s : State) (isl : Nat) : Nat := ((s.tai : Int) + replicaDelta (tget 0 s.tu.repl isl)).toNat
def clusterIsl (c : Nat) : Nat := c / 4
def portIsl (p : Nat) : Nat := 13 + p / 6

end Sys2Proof.Machine
end

