-- ==== Sys2Proof/Machine/Time.lean ====
section
/-! DEFINITION. The time unit: sources, selection, steps, holdover, leap seconds, replicas and time points
(R304–R318). -/

namespace Sys2Proof.Machine
open Sys2Proof

/-- The time unit runs in Run, Idle and Sleep, and in stop bath (R316), unless its PLL failed (R402). -/
def tuOn (s : State) : Bool := (pmState s ≤ 2 || s.stopped) && !s.bist.time && !domFaulted s 18

def sec : Nat := 1000000000

/-- Let time pass until station time reaches `t` (log entry 6). -/
def State.advanceTai (s : State) (t : Nat) : State :=
  if t ≤ s.tai then s
  else
    let rate := ((2 ^ 32 : Int) + s.clk.corr).toNat
    s.advance (cdiv ((t - s.tai) * 2 ^ 32 - s.clk.frac) rate * nsU - s.clk.sub)

-- Holdover (R314) ------------------------------------------------------------------------------------------------------

/-- E after `t` ns of holdover: E0 + F·t + ½·D·t², with F and D in 10^−12 (R314), in units of 1/(2·10^21) ns. -/
def holdUnit : Nat := 2 * 10 ^ 21
def holdE (e0 f d t : Nat) : Nat := e0 * holdUnit + f * t * (2 * 10 ^ 9) + d * t * t

/-- F and D in force: 0 while the 10 MHz reference is qualified. -/
def holdF (s : State) : Nat := if bit (s.f fTU_SEL_QUAL) 4 then 0 else s.tu.holdF
def holdD (s : State) : Nat := if bit (s.f fTU_SEL_QUAL) 4 then 0 else s.f fTU_HOLD_DRIFT

/-- E now, in holdover. -/
def holdNow (s : State) : Nat :=
  holdE s.tu.holdE0 (holdF s) (holdD s) ((s.now - s.tu.holdFrom) / nsU)

/-- The greatest holdover time below 2^n ns for which E stays within `lim` ns, searched by bits. -/
def holdSpan (e0 f d lim : Nat) : Nat → Nat → Nat
  | 0, t => t
  | n + 1, t =>
    let u := t + 2 ^ n
    holdSpan e0 f d lim n (if holdE e0 f d u ≤ lim * holdUnit then u else t)

/-- TU_HOLDEST.E as read. -/
def holdEst (s : State) : Nat := if s.f fTU_SEL_STATE = 3 then min (holdNow s / holdUnit) (2 ^ 32 - 1) else 0

/-- The largest n up to `k` for which 2^−n s ≥ e, in units of 1/(2·10^21) ns. -/
def taccFor (e : Nat) : Nat → Nat
  | 0 => 0
  | k + 1 => if e * 2 ^ (k + 1) ≤ sec * holdUnit then k + 1 else taccFor e k

/-- TU_SEL.TACC (R314): from E in holdover, from the last offset while locked, else 31. -/
def tacc (s : State) : Nat :=
  match s.f fTU_SEL_STATE with
  | 3 => taccFor (holdNow s) 30
  | 2 => min 24 (taccFor ((sval 32 (s.f fTU_OFFSET_OFS)).natAbs * holdUnit) 30)
  | _ => 31

-- Time points (R315) ---------------------------------------------------------------------------------------------------

/-- The quality of time points 0 and 3: good when locked, questionable in holdover, else invalid. -/
def timeQ (s : State) : Nat := match s.f fTU_SEL_STATE with | 2 => 0 | 3 => 3 | _ => 1

/-- Type, value and quality of the four time points. -/
def timePoint (s : State) (i : Nat) : Nat × Nat × Nat :=
  match i with
  | 0 => (3, s.f fTU_SEL_TIMESRC + s.f fTU_SEL_STATE % 4 * 2 ^ 4 + b2n (s.tu.leap != 0) * 2 ^ 6 +
      b2n (s.tu.leap == 1) * 2 ^ 7 + tacc s * 2 ^ 8, timeQ s)
  | 1 => (4, uenc 64 (sval 16 (s.f fTU_UTCOFF_OFF)), if s.tu.utcKnown then 0 else 1)
  | 2 => (9, match s.tu.ptpGm with | some g => g.gmId.toNat | none => 0, if s.f fTU_SEL_TIMESRC = 0 then 0 else 1)
  | _ => (4, uenc 64 (sval 32 (s.f fTU_OFFSET_OFS)), timeQ s)

/-- Write time point `i` through the time-unit port, if its TYPE matches; `always` writes it unchanged too. -/
def putTimePoint (s : State) (always : Bool) (i : Nat) : State :=
  let (ty, v, q) := timePoint s i
  let p := (s.f fTU_PTBASE_BASE + i) % 131072
  let now := v * 8 + q
  if !s.fb fTU_PTBASE_EN || (s.pt p).ty != ty || (!always && s.tu.ptVals[i]? == some now) then s
  else
    let vs := (s.tu.ptVals ++ List.replicate 4 (2 ^ 80)).take 4
    { s with ptq := s.ptq ++ [⟨.tu, p, some (BitVec.ofNat 64 v), some q, none, none, none, .none, 0, none, 0, none⟩]
             tu := { s.tu with ptVals := vs.set i now } }

/-- Write each time point that has changed. -/
def timePoints (s : State) : State := (List.range 4).foldl (fun s i => putTimePoint s false i) s

-- Steps (R306, R313, R37) ----------------------------------------------------------------------------------------------

/-- Station time at an instant of the monotonic timebase that lies ahead, at the present rate, rounded up. -/
def taiAhead (s : State) (m : Nat) : Nat :=
  s.tai + cdiv ((m - s.now) * ((2 ^ 32 : Int) + s.clk.corr).toNat + nsU * s.clk.frac) (nsU * 2 ^ 32)

/-- Next period start after a step (R37): the first aligned instant of the stepped time that lies at least 100 µs
after the running period's end on the monotonic timebase, or after the step once that end has passed. -/
def planAfterStep (s : State) : State :=
  let p := s.plan
  let e := p.endM.getD (p.beganM + p.period * nsU)
  { s with plan := { p with next := cdiv (taiAhead s (max e s.now + 100000 * nsU)) p.period * p.period, endM := some e } }

/-- An instant of station time as the stepped time has it. -/
def shift (d : Int) (t : Nat) : Nat := ((t : Int) + d).toNat

/-- Step station time by `d` ns, in every replica at one instant. A seconds value that waits for the same second
boundary is discarded (R317). The instants against which a source's next event is judged move with it. -/
def stepTime (s : State) (d : Int) : State :=
  let atSec : Bool := s.tai % sec == 0
  let s := { s with
    clk := { s.clk with tai := shift d s.clk.tai, frac := 0 }
    tu := { s.tu with ppsLast := shift d s.tu.ppsLast, set := true,
                      irig := s.tu.irig.map fun (i, n, t, a) => (i, n, t, shift d a)
                      ptpSync := s.tu.ptpSync.map fun (q, rx, c) => (q, shift d rx, c)
                      pdReq := s.tu.pdReq.map fun (p, x) => (p, { x with t1 := shift d x.t1, resp := x.resp.map fun (t2, t4, c) => (t2, shift d t4, c) })
                      syncTx := s.tu.syncTx.map fun (p, q, t) => (p, q, shift d t)
                      setsec := if atSec then none else s.tu.setsec.map fun (v, _) => (v, (shift d s.clk.tai / sec + 1) * sec) } }
  raise (planAfterStep s) kTU_STAT_STEP

-- Selection (R311–R314) ------------------------------------------------------------------------------------------------

def srcRank (s : State) (i : Nat) : Nat := bits (s.reg rTU_SRCCFG 0 0).toNat (4 * i) 3
/-- ROLE of a port: 0 off, 1 slave-only, 2 master-capable, 3 transparent. -/
def ptpRole (s : State) (p : Nat) : Nat := bits (s.f fTU_PTPROLE_ROLE) (2 * p) 2

/-- Source `i` is qualified (R311): it is enabled and meets its conditions. 1PPS also needs a time that has been set once
(R308), PTP a port in the slave state. -/
def qualOk (s : State) (i : Nat) : Bool :=
  srcRank s i != 0 && bit s.tu.cond i &&
    match i with
    | 0 => s.tu.ptpGm.isSome && (ptpRole s s.tu.ptpPort == 1 || ptpRole s s.tu.ptpPort == 2)
    | 1 => s.tu.set
    | _ => true

/-- The qualified source among 0–3 with the lowest rank, the lower number on a tie; 7 for none (R312). -/
def bestTime (s : State) : Nat :=
  ((List.range 4).foldl (fun (b : Nat × Nat) i =>
    if qualOk s i && srcRank s i < b.1 then (srcRank s i, i) else b) (8, 7)).2

/-- The UTC offset changes (R305, TU_STAT.LEAP). The old one stays in effect for stamps before this instant. -/
def setUtc (s : State) (off : Nat) : State :=
  let old := s.f fTU_UTCOFF_OFF
  if old = off then s
  else raise ({ s with tu := { s.tu with utcWas := (s.tai, old) :: s.tu.utcWas } }.setF fTU_UTCOFF_OFF off) kTU_STAT_LEAP

/-- The UTC offset in effect at a TAI instant (R305). -/
def utcAt (s : State) (t : Nat) : Nat :=
  s.tu.utcWas.foldl (fun off (e, old) => if t < e then old else off) (s.f fTU_UTCOFF_OFF)

/-- Enter holdover (R314). -/
def enterHold (s : State) : State :=
  let n := s.tu.holds
  let s := { s with tu := { s.tu with holdFrom := s.now, holdE0 := Config.holdE0 n, holdF := Config.holdF n,
                                      holds := n + 1 } }
  raise (s.setF fTU_SEL_STATE 3) kTU_STAT_HOLD

/-- Enter free-run: the next source acquired steps (R313, R314). -/
def goFree (s : State) : State :=
  raise ({ s with tu := { s.tu with acq := false } }.setF fTU_SEL_STATE 0) kTU_STAT_FREERUN

/-- Select the time source anew (R312, R314) after qualification or configuration changed. -/
def reselect (s : State) : State :=
  let q := (List.range 5).foldl (fun a i => a + b2n (qualOk s i) * 2 ^ i) 0
  let s := s.setF fTU_SEL_QUAL q
  let s := s.setF fTU_SEL_FREQREF (b2n (bit q 4))
  let old := s.f fTU_SEL_TIMESRC
  let st := s.f fTU_SEL_STATE
  let new := if s.fb fTU_CTL_EN then bestTime s else 7
  let s :=
    if new = old then s
    else
      let s := raise (s.setF fTU_SEL_TIMESRC new) kTU_STAT_SRCCHG
      match old, s.tu.utcHost with
      | 0, some u => setUtc { s with tu := { s.tu with utcHost := none, utcKnown := true } } u
      | _, _ => s
  timePoints <|
    if !s.fb fTU_CTL_EN then (if st = 0 then s else goFree s)
    else if new = old then s
    else if new = 7 then (if st = 0 then s else enterHold s)
    else if st = 0 then s.setF fTU_SEL_STATE 1
    else if st = 3 then s.setF fTU_SEL_STATE (if s.tu.acq then 2 else 1)
    else s

/-- Whether source `i` meets its conditions, apart from those of `qualOk`. -/
def setQual (s : State) (i : Nat) (b : Bool) : State :=
  { s with tu := { s.tu with cond := s.tu.cond - b2n (bit s.tu.cond i) * 2 ^ i + b2n b * 2 ^ i } }

/-- Rate correction in 2^−32 ns per ns of one part in 10^6, and the slew limit in ppm (R304, R318). -/
def slewPpm (c : Nat) : Nat := [10, 50, 100, 500].getD c 10

/-- A measured offset of source `i`, source minus station time (R313): the time source's offset steers station time, by a
step where it is the first source acquired after free-run or the offset passes STEPTHR. The slew rate within SLEWMAX is a
free value. Time that has been set may qualify 1PPS (R308). In stop bath the unit counts and steers no more (R316). -/
def sourceOffset (s : State) (i : Nat) (off : Int) : State :=
  if !s.fb fTU_CTL_EN || s.f fTU_SEL_TIMESRC != i || s.stopped then s
  else
    let s := s.setF fTU_OFFSET_OFS (uenc 32 off)
    let s :=
      if !s.tu.acq || s.f fTU_CTL_STEPTHR * 1000 < off.natAbs then
        reselect (stepTime { s with tu := { s.tu with acq := true } } off)
      else if off = 0 then s
      else
        let (v, s) := s.draw
        let lim : Nat := slewPpm (s.f fTU_CTL_SLEWMAX) * 2 ^ 32 / 1000000
        let r : Int := (v.toNat % (lim + 1) : Nat)
        { s with clk := { s.clk with corr := if off < 0 then -r else r } }
    timePoints (s.setF fTU_SEL_STATE 2)

-- 1PPS and IRIG-B (R308, R311) ------------------------------------------------------------------------------------------

/-- Signed distance of a station time from the nearest whole second. -/
def phase (t : Int) : Int :=
  let r := t % (sec : Int)
  if r ≤ 500000000 then r else r - sec

/-- PPS_EDGE (R311): the next 1PPS input edge arrives `err` ns after the instant one second after the last edge (the
first one, after a whole second). It is stamped, judged, and gives the phase of the second once 4 consecutive edges
lie within ±1 µs. -/
def ppsEdge (s : State) (err : Int) : State :=
  let base := if s.tu.ppsRun = 0 && s.tu.ppsLast = 0 then s.tai / sec * sec else s.tu.ppsLast
  let s := s.advanceTai ((base : Int) + sec + err).toNat
  let near : Bool := err.natAbs ≤ 1000 && s.tai ≤ base + sec + 1000
  let run := if near then min (s.tu.ppsRun + 1) 4 else 0
  let s := { s with tu := { s.tu with ppsRun := run, ppsLast := s.tai } }
  let s := s.setF fTU_PPSSTAMP_NS (taiNs s.tai)
  let s := reselect (setQual s 1 (run == 4))
  if s.tu.set && run = 4 then sourceOffset s 1 (-(phase ((s.tai : Int) - s.f fTU_PPSDLY_DLY))) else s

/-- Days before a year since 1970, and the TAI second of a UTC date. -/
def leapYears (y : Nat) : Nat := y / 4 - y / 100 + y / 400
def daysTo (y : Nat) : Nat := (y - 1970) * 365 + (leapYears (y - 1) - leapYears 1969)

/-- An IRIG-B frame's TAI seconds (R308): UTC from the code, TU_IRIG.YEAR where it has no year, plus the offset.
With EXT the control-function offset of local time is taken off first. -/
def irigTai (s : State) (g : IrigFrame) : Nat :=
  let y := g.year.getD (s.f fTU_IRIG_YEAR)
  let u : Int := (daysTo y + g.day - 1) * 86400 + g.secOfDay
  let u := if s.fb fTU_IRIG_EXT then u - g.offMin * 60 else u
  (u + sval 16 (s.f fTU_UTCOFF_OFF)).toNat

/-- The leap that a source announces is due at the end of the UTC day (R305): its kind and its TAI instant in ns. -/
def planLeap (s : State) (kind : Nat) : State :=
  let off := sval 16 (s.f fTU_UTCOFF_OFF)
  let utc : Int := (s.tai / sec : Nat) - off
  let midnight : Int := (utc / 86400 + 1) * 86400 + off
  let at_ : Int := (if kind = 2 then midnight - 1 else midnight) * sec
  timePoints { s with tu := { s.tu with leap := kind, leapAt := if kind = 0 then 0 else at_.toNat } }

/-- A received IRIG-B frame (R308, R311): 3 consecutive valid frames that agree qualify its source, and one invalid
frame disqualifies it. Its on-time edge arrives `err` ns after the instant one second after the last one's, where there is
one. -/
def irigFrame (s : State) (i : Nat) (g : IrigFrame) : State :=
  let (run, last, at_) := tget (0, 0, 0) s.tu.irig i
  let s := if run = 0 then s else s.advanceTai ((at_ : Int) + sec + g.err).toNat
  if !g.valid then
    let s := { s with tu := { s.tu with irig := tput s.tu.irig i (0, 0, 0) } }
    reselect (setQual s i false)
  else
    let t := irigTai s g
    let run := if run != 0 && t = last + 1 then min (run + 1) 3 else 1
    let s := { s with tu := { s.tu with irig := tput s.tu.irig i (run, t, s.tai) } }
    let s := reselect (setQual s i (run == 3))
    if run != 3 then s
    else
      let d : Int := if i = 2 then s.f fTU_PPSDLY_DLY else 0
      let s := if s.f fTU_SEL_TIMESRC = i && s.fb fTU_IRIG_EXT
        then planLeap s (if !g.leapPend then 0 else if g.leapDel then 2 else 1) else s
      sourceOffset s i ((t * sec : Nat) - ((s.tai : Int) - d))

-- PTP (R309) -----------------------------------------------------------------------------------------------------------

/-- The device's clockIdentity: EP0's address with 0xFFFE inserted. -/
def clockId (s : State) : Nat :=
  let a := (portMac s 0).toNat
  a / 2 ^ 24 * 2 ^ 40 + 0xFFFE * 2 ^ 24 + a % 2 ^ 24

/-- Comparison key of a data set: priority1, class, accuracy, variance, priority2, identity, then steps removed and the
sender. -/
def dsKey (p1 cls acc var p2 gm steps src port : Nat) : Nat :=
  ((((((p1 * 2 ^ 8 + cls) * 2 ^ 8 + acc) * 2 ^ 16 + var) * 2 ^ 8 + p2) * 2 ^ 64 + gm) * 2 ^ 16 + steps) * 2 ^ 80 +
    src * 2 ^ 16 + port
def gmKey (m : PtpMsg) : Nat :=
  dsKey m.p1.toNat m.gmClass.toNat m.gmAcc.toNat m.gmVar.toNat m.p2.toNat m.gmId.toNat m.steps.toNat m.src.toNat
    m.srcPort.toNat

/-- A port's stamp of an event frame's first bit after the start-of-frame delimiter (R307), from the stamp of its last
bit. -/
def sfdStamp (s : State) (p len last : Nat) : Nat := last - len * 8000 / modeRate (portMode s p)

/-- A message of the device itself, with its default data set (R309, TU_PTPDS). An Announce of profile C37.238 carries
its TLV. -/
def ownMsg (s : State) (p : Nat) (k : PtpKind) (seq : BitVec 16) (origin : Nat) (corr : Int) : PtpMsg :=
  { kind := k, seq := seq, domain := BitVec.ofNat 8 (s.f fTU_PTPDS_DOMAIN), twoStep := true, origin := origin,
    corr := corr, p1 := BitVec.ofNat 8 (s.f fTU_PTPDS_P1), gmClass := BitVec.ofNat 8 (s.f fTU_PTPDS_CLASS),
    p2 := BitVec.ofNat 8 (s.f fTU_PTPDS_P2), gmId := BitVec.ofNat 64 (clockId s),
    utcOff := BitVec.ofNat 16 (s.f fTU_UTCOFF_OFF), utcValid := s.tu.utcKnown, leap61 := s.tu.leap == 1,
    leap59 := s.tu.leap == 2, logAnn := 0, gmAcc := Config.ptpAcc, gmVar := Config.ptpVar, steps := 0,
    src := BitVec.ofNat 64 (clockId s), srcPort := BitVec.ofNat 16 (p + 1),
    tlv := k == .announce && s.f fTU_PTPROLE_PROFILE == 2 }

/-- The message that a port of the device sends: a boundary clock, slaved through a master-capable port, passes its
parent's data set on with one step more (R309). -/
def ptpMsg (s : State) (p : Nat) (k : PtpKind) (seq : BitVec 16) (origin : Nat) (corr : Int) : PtpMsg :=
  let m := ownMsg s p k seq origin corr
  match s.tu.ptpGm with
  | some g =>
    if ptpRole s s.tu.ptpPort = 2 then
      { m with p1 := g.p1, gmClass := g.gmClass, gmAcc := g.gmAcc, gmVar := g.gmVar, p2 := g.p2, gmId := g.gmId,
               steps := g.steps + 1 }
    else m
  | none => m

/-- A PTP frame of this device for a port, in egress class 1. -/
def ptpSend (s : State) (p : Nat) (m : PtpMsg) : State :=
  let peer : Bool := match m.kind with | .pdelayReq => true | .pdelayResp => true | .pdelayRespFollowUp => true | _ => false
  let d : BitVec 48 := if peer then 0x0180C200000E#48 else 0x011B19000000#48
  handLane s p ⟨mkFrame d (portMac s p) [] 0x88F7 (.ptp m) 90 [], 1, none, none, none, none, 0⟩

/-- A measured PTP offset qualifies the slave and steers. -/
def ptpOffset (s : State) (off : Int) : State :=
  sourceOffset (reselect (setQual s 0 true)) 0 off

/-- The best master over all ports (R309): slave-only ports follow any, master-capable ports one better than the device
itself. -/
def ptpBest (s : State) : Option (Nat × PtpMsg) :=
  (List.range 12).foldl (fun b p =>
    match tfind s.tu.ptpErb p with
    | none => b
    | some m =>
      if !(ptpRole s p == 1 || (ptpRole s p == 2 && decide (gmKey m < gmKey (ownMsg s p .announce 0 0 0)))) then b
      else match b with
        | some (_, g) => if gmKey m < gmKey g then some (p, m) else b
        | none => some (p, m)) none

/-- The best Announce of the port: the same sender's newest, or a better one. -/
def portBest (old : Option PtpMsg) (m : PtpMsg) : PtpMsg :=
  match old with
  | some g => if (m.src == g.src && m.srcPort == g.srcPort) || gmKey m < gmKey g then m else g
  | none => m

/-- The best master is followed through its port (R309); where there is none, no port is a slave, and PTP is lost (R311). -/
def ptpFollow (s : State) : State :=
  match ptpBest s with
  | none => reselect (setQual { s with tu := { s.tu with ptpGm := none, ptpSync := none } } 0 false)
  | some (q, g) =>
    let s := if q = s.tu.ptpPort then s else { s with tu := { s.tu with ptpSync := none } }
    { s with tu := { s.tu with ptpGm := some g, ptpPort := q } }

/-- An Announce (R309, R311): the best master so far is followed; its UTC offset and leap flags are used while PTP is
the time source. An offset received makes the offset known (R305). An Announce that is its port's best restarts the port's
announceReceiptTimeout. -/
def ptpAnnounce (s : State) (p : Nat) (m : PtpMsg) : State :=
  let best := portBest (tfind s.tu.ptpErb p) m
  let s := { s with tu := { s.tu with
    ptpErb := tput s.tu.ptpErb p best
    ptpAnn := if best = m then tput s.tu.ptpAnn p (s.now, m.logAnn) else s.tu.ptpAnn
    utcKnown := s.tu.utcKnown || m.utcValid } }
  let s := ptpFollow s
  if s.tu.ptpGm == some m && s.tu.ptpPort == p && s.f fTU_SEL_TIMESRC == 0 then
    let s := if m.utcValid then setUtc s m.utcOff.toNat else s
    planLeap s (if m.leap61 then 1 else if m.leap59 then 2 else 0)
  else timePoints s

/-- The end of a port's announceReceiptTimeout, 3 intervals after its master's last Announce (R311). -/
def annDue (x : Nat × Nat) : Nat := x.1 + 3 * 2 ^ x.2 * sec * nsU

/-- The port whose announceReceiptTimeout ends first. -/
def annFirst (s : State) : Option (Nat × Nat × Nat) :=
  s.tu.ptpAnn.foldl (fun b e => match b with
    | some x => if annDue e.2 < annDue x.2 then some e else b
    | none => some e) none

/-- ANNOUNCE_TIMEOUT (R309, R311): the first timeout due takes its port's master away; where that was the device's own, PTP
loses qualification, and the best of the others is followed. -/
def announceTimeout (s : State) : State :=
  match annFirst s with
  | none => s
  | some (p, x) =>
    let s := s.advanceTo (annDue x)
    let mine : Bool := s.tu.ptpGm.isSome && s.tu.ptpPort == p
    let s := { s with tu := { s.tu with ptpErb := tdel s.tu.ptpErb p, ptpAnn := tdel s.tu.ptpAnn p } }
    if mine then ptpFollow (reselect (setQual { s with tu := { s.tu with ptpGm := none, ptpSync := none } } 0 false)) else s

/-- A port answers peer-delay requests and makes its own, whatever its role but off: an ordinary, boundary or transparent
clock (R309). The response's Follow_Up leaves when the response's egress stamp is known. -/
def ptpPeer (s : State) (p stamp : Nat) (m : PtpMsg) : State :=
  match m.kind, tfind s.tu.pdReq p with
  | .pdelayReq, _ =>
    ptpSend { s with tu := { s.tu with pdResp := tput s.tu.pdResp p (m.seq.toNat, m.corr) } } p
      (ptpMsg s p .pdelayResp m.seq stamp 0)
  | .pdelayResp, some ⟨q, t1, _⟩ =>
    if q != m.seq.toNat then s
    else if m.twoStep then { s with tu := { s.tu with pdReq := tput s.tu.pdReq p ⟨q, t1, some (m.origin, stamp, m.corr)⟩ } }
    else
      let d : Int := (((stamp : Int) - t1) - m.corr) / 2
      { s with tu := { s.tu with ptpDelay := tput s.tu.ptpDelay p d, pdReq := tdel s.tu.pdReq p } }
  | .pdelayRespFollowUp, some ⟨q, t1, some (t2, t4, c)⟩ =>
    if q != m.seq.toNat then s
    else
      let d : Int := (((t4 : Int) - t1) - ((m.origin : Int) - t2) - c - m.corr) / 2
      { s with tu := { s.tu with ptpDelay := tput s.tu.ptpDelay p d, pdReq := tdel s.tu.pdReq p } }
  | _, _ => s

/-- A PTP message with its receive stamp reaches the time unit (R309). Ports whose role is off and messages of another
domain are not used; time comes from the parent through the slave port alone; a transparent clock measures its peers only;
management messages go to the host-frame path. -/
def ptpReceive (s : State) (p stamp : Nat) (m : PtpMsg) : State :=
  if !tuOn s || ptpRole s p = 0 || m.domain.toNat != s.f fTU_PTPDS_DOMAIN then s
  else
    let slave : Bool := p == s.tu.ptpPort && ptpRole s p != 3 &&
      match s.tu.ptpGm with | some g => m.src == g.src && m.srcPort == g.srcPort | none => false
    let delay : Int := tget 0 s.tu.ptpDelay p
    match m.kind with
    | .announce => if ptpRole s p = 3 then s else ptpAnnounce s p m
    | .sync =>
      if !slave then s
      else if m.twoStep then { s with tu := { s.tu with ptpSync := some (m.seq.toNat, stamp, uenc 64 m.corr) } }
      else ptpOffset s ((m.origin : Int) + m.corr + delay - stamp)
    | .followUp =>
      match s.tu.ptpSync with
      | some (q, rx, c) =>
        if slave && q = m.seq.toNat then
          ptpOffset { s with tu := { s.tu with ptpSync := none } } ((m.origin : Int) + m.corr + sval 64 c + delay - rx)
        else s
      | none => s
    | .pdelayReq => ptpPeer s p stamp m
    | .pdelayResp => ptpPeer s p stamp m
    | .pdelayRespFollowUp => ptpPeer s p stamp m
    | .management => s

/-- The event frame of the device leaves the port with egress stamp `t` (R307, R309): the stamp of a Sync is kept for its
Follow_Up, that of a Pdelay_Req for the exchange, and that of a Pdelay_Resp goes out in its Follow_Up. -/
def ptpSent (s : State) (p t : Nat) (m : PtpMsg) : State :=
  match m.kind with
  | .sync => { s with tu := { s.tu with syncTx := tput s.tu.syncTx p (m.seq.toNat, t) } }
  | .pdelayReq => { s with tu := { s.tu with pdReq := tput s.tu.pdReq p ⟨m.seq.toNat, t, none⟩ } }
  | .pdelayResp =>
    match tfind s.tu.pdResp p with
    | some (q, c) =>
      if q = m.seq.toNat then
        ptpSend { s with tu := { s.tu with pdResp := tdel s.tu.pdResp p } } p (ptpMsg s p .pdelayRespFollowUp m.seq t c)
      else s
    | none => s
  | _ => s

/-- The port is a master (R309): master-capable, not the slave port, and no better Announce was heard on it. -/
def ptpMaster (s : State) (p : Nat) : Bool :=
  ptpRole s p == 2 && !(s.tu.ptpGm.isSome && s.tu.ptpPort == p) &&
    match tfind s.tu.ptpErb p with
    | some m => gmKey (ptpMsg s p .announce 0 0 0) ≤ gmKey m
    | none => true

/-- The message of a port's state machine that is due (R309): Announce, Sync and the Follow_Up of the Sync that left, as a
two-step master; Pdelay_Req as a requester. -/
def ptpDue (s : State) (p : Nat) (m : PtpMsg) : Option PtpMsg :=
  match m.kind with
  | .announce => if ptpMaster s p then some { ptpMsg s p .announce m.seq s.tai 0 with logAnn := m.logAnn } else none
  | .sync => if ptpMaster s p then some (ptpMsg s p .sync m.seq s.tai 0) else none
  | .followUp =>
    match tfind s.tu.syncTx p with
    | some (q, t) => if ptpMaster s p && q = m.seq.toNat then some (ptpMsg s p .followUp m.seq t 0) else none
    | none => none
  | .pdelayReq => if ptpRole s p = 0 then none else some (ptpMsg s p .pdelayReq m.seq s.tai 0)
  | _ => none

-- Seconds, leaps, replicas ------------------------------------------------------------------------------------------------

/-- TU_SETSEC (R318): the seconds value waits for the next second boundary; [47:32] become 0 there. -/
def putSetsec (s : State) (v : Word) : State := { s with tu := { s.tu with setsec := some (v, (s.tai / sec + 1) * sec) } }

/-- A waiting seconds value whose boundary has come is applied, as a step from that boundary on (log entry 131). -/
def applySetsec (s : State) : State :=
  match s.tu.setsec with
  | some (v, b) =>
    if b ≤ s.tai then reselect (stepTime { s with tu := { s.tu with setsec := none } } ((v.toNat * sec : Nat) - (b : Int))) else s
  | none => s

/-- Time passes to the next second boundary, where a waiting seconds value is applied. -/
def nextSecond (s : State) : State := applySetsec (s.advanceTai ((s.tai / sec + 1) * sec))

/-- A write of TU_UTCOFF (R317): it waits while PTP is the time source. -/
def writeUtc (s : State) (v : Nat) : State :=
  if s.f fTU_SEL_TIMESRC = 0 then { s with tu := { s.tu with utcHost := some v } }
  else timePoints (setUtc { s with tu := { s.tu with utcKnown := true } } v)

/-- The leap instant (R305): the UTC offset changes by one and LEAP is set. -/
def leapSecond (s : State) : State :=
  if s.tu.leap = 0 then s
  else
    let s := s.advanceTai s.tu.leapAt
    let off := sval 16 (s.f fTU_UTCOFF_OFF)
    let off := if s.tu.leap = 1 then off + 1 else off - 1
    let s := { s with tu := { s.tu with leap := 0, leapAt := 0 } }
    timePoints (setUtc s (uenc 16 off))

/-- Key of an island's replica. -/
def islKey : Island → Nat
  | .cluster n => n | .quadrant n => 8 + n | .fabric => 12 | .portGroup n => 13 + n | .safelight => 15

/-- Every 1,024 ns a replica is corrected (R306); how far it then differs from the time unit until the next
correction is a free value within ±2 ns. -/
def correctReplica (s : State) (k : Nat) : State :=
  let (v, s) := s.draw
  { s with tu := { s.tu with repl := tput s.tu.repl k (v.toNat % 5) } }

/-- Enter free-run when E passes ERRMAX (R314): at the instant found by the formula, if holdover lasts that long. -/
def freeRun (s : State) : State :=
  if s.f fTU_SEL_STATE != 3 then s
  else
    let lim := s.f fTU_HOLD_ERRMAX
    let span := if lim < s.tu.holdE0 then 0 else holdSpan s.tu.holdE0 (holdF s) (holdD s) lim 62 0 + 1
    if span = 2 ^ 62 then s
    else
      let s := s.advanceTo (s.tu.holdFrom + span * nsU)
      timePoints (goFree s)

/-- A command of the time unit has effect while D19 is on (R316); a seconds value that fell due before it is applied first. -/
def tuDo (s : State) (f : State → State) : State := if tuOn s then f (applySetsec s) else s

def execPpsEdge (err : Int) (s : State) : Host.Outcome State Fault Refusal := done (tuDo s fun s => ppsEdge s err)
def execIrigBFrame (am : Bool) (g : IrigFrame) (s : State) : Host.Outcome State Fault Refusal :=
  done (tuDo s fun s => irigFrame s (if am then 3 else 2) g)
/-- REFERENCE_EXCURSION (R311). -/
def execReferenceExcursion (s : State) : Host.Outcome State Fault Refusal :=
  done (tuDo s fun s => reselect (setQual s 4 false))
/-- REFERENCE_QUALIFIED (R311): within ±5 ppm for 1 s. -/
def execReferenceQualified (s : State) : Host.Outcome State Fault Refusal :=
  done (tuDo s fun s => reselect (setQual s 4 true))
/-- ANNOUNCE_TIMEOUT (R311): 3 announce intervals after the last Announce. -/
def execAnnounceTimeout (s : State) : Host.Outcome State Fault Refusal :=
  done (tuDo s announceTimeout)
/-- PPS_EDGE_MISSING (R311): the edge expected one second after the last is missing by more than 1 µs. -/
def execPpsEdgeMissing (s : State) : Host.Outcome State Fault Refusal :=
  done (tuDo s fun s =>
    if s.tu.ppsRun = 0 && s.tu.ppsLast = 0 then s
    else
      let s := s.advanceTai (s.tu.ppsLast + sec + 1001)
      let s := { s with tu := { s.tu with ppsRun := 0, ppsLast := 0 } }
      reselect (setQual s 1 false))
def execFreerun (s : State) : Host.Outcome State Fault Refusal := done (tuDo s freeRun)
def execLeapSecond (s : State) : Host.Outcome State Fault Refusal := done (tuDo s leapSecond)
def execReplicaCorrection (isl : Island) (s : State) : Host.Outcome State Fault Refusal :=
  done (tuDo s fun s => correctReplica s (islKey isl))
/-- TU_SETSEC (R318): the written seconds value waits for the next second boundary. -/
def execTuSetsec (v : Word) (s : State) : Host.Outcome State Fault Refusal := done (tuDo s fun s => putSetsec s v)
/-- TIME_POINT_UPDATE (R315): OFFSET is written once per second whether or not it changed. -/
def execTimePointUpdate (s : State) : Host.Outcome State Fault Refusal :=
  done (tuDo s fun s => putTimePoint (timePoints s) true 3)
/-- PPS_OUT (R318): at the next TAI second the output rises if PPSOE is 1, and stays high for PPSW. -/
def execPpsOut (s : State) : Host.Outcome State Fault Refusal :=
  done (tuDo s fun s =>
    let s := nextSecond s
    if s.fb fTU_CTL_PPSOE then { s with tu := { s.tu with pps := some s.now } } else s)
/-- PTP_TRANSMIT (R309): the port's state machine sends its periodic message: Announce, Sync and Follow_Up as a
two-step master, Pdelay_Req as requester. -/
def execPtpTransmit (p : Port) (m : PtpMsg) (s : State) : Host.Outcome State Fault Refusal :=
  done (tuDo s fun s => match ptpDue s p m with | some m => ptpSend s p m | none => s)

end Sys2Proof.Machine
end

