-- ==== Sys2Proof/Machine/Words.lean ====
section
/-! DEFINITION. Which instruction a word of instruction RAM spells (R110, R111, R116, R120, R132, R134, R146–R149), and which
microword a word of a lane's store spells (R268, R270). Nothing else is an instruction: it raises ILLEGAL (R113, R268). -/

namespace Sys2Proof.Machine
open Sys2Proof

/-- The n bits of a word from bit `lo` on. -/
def wf (w : Word) (lo n : Nat) : BitVec n := w.extractLsb' lo n
/-- The register that the five bits from bit `lo` name. -/
def wreg (w : Word) (lo : Nat) : Reg5 := (wf w lo 5).toFin

/-- The fields of a stream instruction (R111); no bit says whether it stands in a taken branch's shadow (`sh`). -/
def streamFields (w v : Word) (sh : Bool := false) : StreamArgs :=
  ⟨wf w 18 2, wf w 14 4, wf w 10 4, wf w 0 10, wf v 30 2, wf v 20 10, wf v 10 10, wf v 0 10, sh⟩

/-- The fields of a short-vector instruction (R116). -/
def shortFields (w : Word) (sh : Bool := false) : ShortArgs :=
  ⟨wf w 20 4, wf w 18 2, wf w 15 3, wf w 10 5, wf w 5 5, wf w 0 5, sh⟩

/-- A stream instruction: its OP picks the operation (R120). -/
def streamWord (c : Core) (w v : Word) (sh : Bool := false) : Option Instr :=
  let x := streamFields w v sh
  match (wf w 20 6).toNat with
  | 0x00 => some (.vmov c x)
  | 0x01 => some (.vldff c x)
  | 0x02 => some (.vlds c x)
  | 0x03 => some (.vsts c x)
  | 0x04 => some (.vcvt c x)
  | 0x08 => some (.vadd c x)
  | 0x09 => some (.vsub c x)
  | 0x0A => some (.vmul c x)
  | 0x0B => some (.vfma c x)
  | 0x0C => some (.vmin c x)
  | 0x0D => some (.vmax c x)
  | 0x0E => some (.vabs c x)
  | 0x0F => some (.vneg c x)
  | 0x10 => some (.vand c x)
  | 0x11 => some (.vor c x)
  | 0x12 => some (.vxor c x)
  | 0x13 => some (.vshl c x)
  | 0x14 => some (.vshr c x)
  | 0x15 => some (.vdiv c x)
  | 0x16 => some (.vsqrt c x)
  | 0x18 => some (.vcmp c x)
  | 0x1A => some (.vmulw c x)
  | 0x1B => some (.vfmaw c x)
  | 0x1C => some (.vdot c x)
  | 0x20 => some (.vcmul c x)
  | 0x24 => some (.vredadd c x)
  | 0x25 => some (.vredmin c x)
  | 0x26 => some (.vredmax c x)
  | 0x27 => some (.vprefix c x)
  | 0x28 => some (.vdadd c x)
  | 0x29 => some (.vdsub c x)
  | _ => none

/-- A short-vector instruction: its OP picks the operation (R132), VCTL's VB the action (R134). -/
def shortWord (c : Core) (w : Word) (sh : Bool := false) : Option Instr :=
  let x := shortFields w sh
  match (wf w 24 5).toNat with
  | 0x00 => some (.vaddShort c x)
  | 0x01 => some (.vsubShort c x)
  | 0x02 => some (.vmulShort c x)
  | 0x03 => some (.vfmaShort c x)
  | 0x04 => some (.vminShort c x)
  | 0x05 => some (.vmaxShort c x)
  | 0x06 => some (.vandShort c x)
  | 0x07 => some (.vorShort c x)
  | 0x08 => some (.vxorShort c x)
  | 0x09 => some (.vshli c x)
  | 0x0A => some (.vshrai c x)
  | 0x0B => some (.vshrli c x)
  | 0x0C => some (.vcmpeq c x)
  | 0x0D => some (.vcmplt c x)
  | 0x0E => some (.vcmple c x)
  | 0x0F => some (.vsel c x)
  | 0x10 => some (.vsplat c x)
  | 0x11 => some (.vcvtShort c x)
  | 0x12 => some (.vredaddShort c x)
  | 0x13 => some (.vredminShort c x)
  | 0x14 => some (.vredmaxShort c x)
  | 0x15 => some (.vredadd2 c x)
  | 0x16 => some (.vcmulShort c x)
  | 0x17 => some (.vdaddShort c x)
  | 0x18 => some (.vdsubShort c x)
  | 0x19 => some (.vmovs c x)
  | 0x1A => some (.mand c x)
  | 0x1B => some (.mor c x)
  | 0x1C => some (.mxor c x)
  | 0x1D => some (.mnot c x)
  | 0x1E => some (.mpop c x)
  | _ =>
    match x.vb.toNat with
    | 0 => some (.vsetn c x)
    | 1 => some (.vgrp c x)
    | _ => none

/-- A register operation: its func picks it (R148). -/
def aluWord (c : Core) (w : Word) : Option Instr :=
  let rd := wreg w 21
  let ra := wreg w 16
  let rb := wreg w 11
  let sh := wf w 11 5
  let sb := w.getLsbD 10
  match (wf w 0 6).toNat with
  | 0x00 => some (.add c rd ra rb sb)
  | 0x01 => some (.sub c rd ra rb sb)
  | 0x02 => some (.adc c rd ra rb sb)
  | 0x03 => some (.sbc c rd ra rb sb)
  | 0x04 => some (.andR c rd ra rb sb)
  | 0x05 => some (.orR c rd ra rb sb)
  | 0x06 => some (.xorR c rd ra rb sb)
  | 0x07 => some (.andn c rd ra rb sb)
  | 0x08 => some (.shl c rd ra rb sb)
  | 0x09 => some (.shrl c rd ra rb sb)
  | 0x0A => some (.shra c rd ra rb sb)
  | 0x0B => some (.ror c rd ra rb sb)
  | 0x0C => some (.shli c rd ra sh sb)
  | 0x0D => some (.shrli c rd ra sh sb)
  | 0x0E => some (.shrai c rd ra sh sb)
  | 0x0F => some (.rori c rd ra sh sb)
  | 0x10 => some (.mul c rd ra rb sb)
  | 0x11 => some (.mulh c rd ra rb sb)
  | 0x12 => some (.mulhu c rd ra rb sb)
  | 0x13 => some (.mull c rd ra rb sb)
  | 0x14 => some (.mullu c rd ra rb sb)
  | 0x18 => some (.div c rd ra rb sb)
  | 0x19 => some (.divu c rd ra rb sb)
  | 0x1A => some (.rem c rd ra rb sb)
  | 0x1B => some (.remu c rd ra rb sb)
  | 0x20 => some (.cmp c rd ra rb sb)
  | 0x21 => some (.tst c rd ra rb sb)
  | 0x22 => some (.minS c rd ra rb sb)
  | 0x23 => some (.maxS c rd ra rb sb)
  | 0x24 => some (.minu c rd ra rb sb)
  | 0x25 => some (.maxu c rd ra rb sb)
  | 0x26 => some (.clz c rd ra sb)
  | 0x27 => some (.csel c (wf w 6 4) rd ra rb sb)
  | 0x28 => some (.sextb c rd ra sb)
  | 0x29 => some (.sexth c rd ra sb)
  | _ => none

/-- A system operation: its func picks it, and rd, ra and rb are 0 (R149). -/
def sysWord (c : Core) (w : Word) : Option Instr :=
  if wf w 11 15 != 0 then none
  else match (wf w 0 6).toNat with
  | 0x00 => some (.nop c)
  | 0x01 => some (.sync c)
  | 0x02 => some (.endA c)
  | 0x03 => some (.wait c)
  | 0x04 => some (.rfe c)
  | 0x05 => some (.resume c)
  | 0x08 => some (.negBegin c)
  | 0x09 => some (.checkN c)
  | _ => none

/-- The instruction at core c whose first word is `w` and whose next word is `v` (R110, R146, R147). IN and OUT are read
without their port, which their command names by its register. -/
def easelWord (c : Core) (w v : Word) (sh : Bool := false) : Option Instr :=
  let rd := wreg w 21
  let ra := wreg w 16
  let imm := wf w 0 16
  match (wf w 26 6).toNat with
  | 0x00 => aluWord c w
  | 0x01 => some (.addi c rd ra imm)
  | 0x02 => some (.addis c rd ra imm)
  | 0x03 => some (.andi c rd ra imm)
  | 0x04 => some (.ori c rd ra imm)
  | 0x05 => some (.xori c rd ra imm)
  | 0x06 => some (.lui c rd imm)
  | 0x07 => some (.cmpi c ra imm)
  | 0x10 => some (.ldb c rd ra imm)
  | 0x11 => some (.ldbu c rd ra imm)
  | 0x12 => some (.ldh c rd ra imm)
  | 0x13 => some (.ldhu c rd ra imm)
  | 0x14 => some (.ldw c rd ra imm)
  | 0x15 => some (.ldd c rd ra imm)
  | 0x18 => some (.stb c rd ra imm)
  | 0x19 => some (.sth c rd ra imm)
  | 0x1A => some (.stw c rd ra imm)
  | 0x1B => some (.std c rd ra imm)
  | 0x20 => some (.bCond c (wf w 22 4) (wf w 0 22))
  | 0x22 => some (.jal c (wf w 0 26))
  | 0x23 => some (.jalr c rd ra imm)
  | 0x24 => some (.loopR c ra imm)
  | 0x25 => some (.loopi c (wf w 16 10) imm)
  | 0x28 => some (.inp c rd ra imm)
  | 0x29 => some (.out c rd ra imm)
  | 0x2C => some (.trap c rd ra imm)
  | 0x2D => sysWord c w
  | 0x37 => streamWord c w v sh
  | n => if 0x38 ≤ n then shortWord c w sh else none

/-- The instruction whose word a command is spelt with: an IN or OUT that names what its port does is spelt IN or OUT
(R143, R147). -/
def wordForm : Instr → Instr
  | .prd c rd ra imm | .tnowNs c rd ra imm | .icClaim c rd ra imm | .bar0Window c false rd ra imm => .inp c rd ra imm
  | .pwr c rd ra imm | .pub c rd ra imm | .vcount c rd ra imm | .xaflags c rd ra imm | .sioPage c rd ra imm
  | .icEoi c rd ra imm | .bar0Window c true rd ra imm => .out c rd ra imm
  | i => i

/-- The microword that a store word spells on a thread (R268, R270). -/
def feWord (l : Lane) (e : Bool) (w : Word) : Option Instr :=
  let d := wreg w 21
  let r := wreg w 16
  let i := wf w 0 16
  match (wf w 26 6).toNat with
  | 0x00 => some (.feNop l e d r i)
  | 0x01 => some (.movi l e d r i)
  | 0x02 => some (.movhi l e d r i)
  | 0x03 => some (.feAddi l e d r i)
  | 0x04 => some (.feAdd l e d r i)
  | 0x05 => some (.feSub l e d r i)
  | 0x06 => some (.feAnd l e d r i)
  | 0x07 => some (.feOr l e d r i)
  | 0x08 => some (.feXor l e d r i)
  | 0x09 => some (.feAndi l e d r i)
  | 0x0A => some (.feShli l e d r i)
  | 0x0B => some (.shri l e d r i)
  | 0x0C => some (.feCmpi l e d r i)
  | 0x0D => some (.feCmp l e d r i)
  | 0x10 => some (.getF l e d r i)
  | 0x11 => some (.peek l e d r i)
  | 0x12 => some (.skipF l e d r i)
  | 0x13 => some (.seekF l e d r i)
  | 0x14 => some (.berlen l e d r i)
  | 0x18 => some (.crcs l e d r i)
  | 0x19 => some (.crcr l e d r i)
  | 0x1A => some (.look l e d r i)
  | 0x1B => some (.rrec l e d r i)
  | 0x1C => some (.tagchk l e d r i)
  | 0x20 => some (.plw l e d r i)
  | 0x21 => some (.plh l e d r i)
  | 0x24 => some (.ptv l e d r i)
  | 0x25 => some (.ptq l e d r i)
  | 0x26 => some (.pts l e d r i)
  | 0x27 => some (.ptwr l e d r i)
  | 0x28 => some (.postF l e d r i)
  | 0x29 => some (.cnt l e d r i)
  | 0x2C => some (.ebeg l e d r i)
  | 0x2D => some (.eput l e d r i)
  | 0x2E => some (.esend l e d r i)
  | 0x30 => some (.tsfwd l e d r i)
  | 0x34 => some (.dropF l e d r i)
  | 0x35 => some (.hostF l e d r i)
  | 0x36 => some (.feEnd l e d r i)
  | 0x37 => some (.commit l e d r i)
  | 0x3C => some (.br l e (wf w 21 5) i)
  | 0x3D => some (.feWait l e (wf w 21 5) i)
  | 0x3E => some (.callF l e d r i)
  | 0x3F => some (.retF l e d r i)
  | _ => none

end Sys2Proof.Machine
end

