-- ==== Sys2Proof/Machine/FE.lean ====
section
/-! DEFINITION. Frame Engine microcode: routine start and end, every micro-operation, commit and abandonment
(R264–R282). -/

namespace Sys2Proof.Machine
open Sys2Proof

-- Images (R278) ----------------------------------------------------------------------------------------------------------

/-- A routine table entry (R278). -/
structure FeEntry where
  entry  : Nat
  kind   : Nat
  etype  : Nat
  bound  : Nat
  boundx : Nat
  tenant : Nat
  deriving DecidableEq, Repr

/-- `n` bytes of an image at an offset. -/
def imgBytes (img : List Byte) (o n : Nat) : List Byte := (img.drop o).take n
def imgVal (img : List Byte) (o n : Nat) : Nat := leVal (imgBytes img o n)

/-- Routine table entry i of an image. -/
def feEntry (img : List Byte) (i : Nat) : FeEntry :=
  let w0 := imgVal img (32 + 8 * i) 4
  let w1 := imgVal img (36 + 8 * i) 4
  ⟨bits w0 18 14, bits w0 16 2, bits w0 0 16, bits w1 0 16, bits w1 24 8, bits w1 16 8⟩
def feEntries (img : List Byte) : List FeEntry := (List.range (imgVal img 10 1)).map (feEntry img)

/-- The vendor's entries in effect, and the customer's in the bank that a thread runs from (R280). -/
def vendEntries (s : State) : List FeEntry := feEntries s.ks.vendor
def custEntries (s : State) (old : Bool) : List FeEntry := feEntries (if old then s.ks.custOld else s.ks.customer)

/-- The customer hook of a kind, where one is loaded: 1 PRE, 2 UNMATCHED (R272). -/
def hookEntry (s : State) (old : Bool) (kind : Nat) : Option FeEntry := (custEntries s old).find? fun e => e.kind == kind

/-- Effective bound (R273). -/
def effBound (s : State) (e : FeEntry) : Nat := e.bound + (if s.clk.slow then e.boundx else 0)

/-- Which routine a frame's EtherType enters (R272): its table entry, else the UNMATCHED hook, else the vendor
default at word 0. -/
def routineFor (s : State) (old : Bool) (et : Nat) : FeEntry :=
  match (vendEntries s ++ custEntries s old).find? (fun e => e.kind == 0 && e.etype == et) with
  | some e => e
  | none =>
    match hookEntry s old 2 with
    | some e => e
    | none => ⟨0, 0, 0, 20, 0, 0⟩

-- Record counters (R334) -----------------------------------------------------------------------------------------------

/-- Add to status counter `w` of a record. -/
def recBump (s : State) (k i w : Nat) (n : Nat := 1) : State :=
  let x := s.rst k i
  s.setRst k i { x with cnt := x.cnt.set w (min (x.cnt.getD w 0 + n) 0xFFFFFFFF) }

/-- Put a value into status counter `w` of a record. -/
def recPut (s : State) (k i w v : Nat) : State :=
  let x := s.rst k i
  s.setRst k i { x with cnt := x.cnt.set w (v % 2 ^ 32) }

/-- A frame that a record matches is dropped. -/
def recDrop (s : State) (k i : Nat) : State := recBump s k i 1

-- Threads ----------------------------------------------------------------------------------------------------------------

def feThr (s : State) (l : Nat) (e : Bool) : FeThr := if e then (s.lane l).eg else (s.lane l).ing
def setFeThr (s : State) (l : Nat) (e : Bool) (t : FeThr) : State :=
  let x := s.lane l
  s.setLane l (if e then { x with eg := t } else { x with ing := t })

/-- The frame at the head of a port's ingress queue. -/
def headFrame (s : State) (l : Nat) : Option QFrame := (s.port l).ing.head?

/-- Bytes that a frame takes in an ingress queue, and whether a frame fits into it (R237). -/
def ingBytes (f : Frame) : Nat := cdiv f.len 64 * 64
def ingFits (x : PortSt) (f : Frame) : Bool :=
  x.ing.length < 64 && (x.ing.map fun q => ingBytes q.f).sum + ingBytes f ≤ 32768

/-- The frame leaves the ingress queue (R266). A frame that was refused at full in the same cycle, and fits now, is accepted
after all, and its refusal is not counted (R235, R261). -/
def popFrame (s : State) (l : Nat) : State :=
  let s := s.modPort l fun x => { x with ing := x.ing.drop 1 }
  match (s.port l).lateIn with
  | some q =>
    if q.arr / nsU = s.now / nsU && ingFits (s.port l) q.f then
      uncount (s.modPort l fun x => { x with ing := x.ing ++ [q], lateIn := none }) fEP_RXQ_CNT_CNT l
    else s
  | none => s

/-- Replace the n-th frame of the ingress queue. -/
def setQueued (s : State) (l n : Nat) (q : QFrame) : State := s.modPort l fun x => { x with ing := x.ing.set n q }

/-- The lanes run: RUN is 1, no vendor image waits for the boundary at which it takes effect, D14 is powered, and for lanes
6–11 D15 too, and start-up BIST has ended (R265, R280). -/
def lanesRun (s : State) (l : Nat) : Bool :=
  s.fb fFE_CTL_RUN && !(s.newImg.any fun x => x.1 == 0) && pmState s ≤ 1 && s.f fPM_DOM_STATE 13 == 0 && (l < 6 || s.f fPM_DOM_STATE 14 == 0) && !s.stopped

/-- The routine of a thread ends; an ingress routine's frame leaves its queue, and an egress frame that was lost or refused
holds nothing up (R257). -/
def endThread (s : State) (l : Nat) (e : Bool) : State :=
  let t := feThr s l e
  let s := setFeThr s l e { FeThr.init with ptN := t.ptN }
  if e then endHolds s
  else
    let x := s.lane l
    popFrame (s.setLane l { x with free := if t.run then x.free + t.cyc * nsU else x.free }) l

/-- The instant at which a routine for the frame at the head of a lane's queue starts: it was delivered, and the lane is free
(R237). -/
def laneStart (s : State) (l : Nat) (q : QFrame) : Nat := max q.ready (s.lane l).free

/-- Plate writes of a thread that are acknowledged by cycle `n` land (R271, R276); one that fails is dropped and counted
at the lane and against its stream (R24, R78). False where one meets poison (R74). -/
def feLand (s : State) (l : Nat) (e : Bool) (n : Nat) : Bool × State :=
  let t := feThr s l e
  let (due, rest) := t.acks.partition fun w => w.due ≤ n
  if due.isEmpty then (true, s)
  else due.foldl (fun (ok, s) w =>
    match feWrite (sampleDue s s.nowCyc) w.ten w.at_ w.bs with
    | (0, s) => (ok, s)
    | (3, s) => (false, s)
    | (_, s) =>
      let s := raise (s.bump fFE_RINGDROP_CNT_CNT l) kFE_LSTAT_RINGDROP l
      (ok, match w.rc with | some (k, i) => recDrop s k i | none => s)) (true, setFeThr s l e { t with acks := rest })

/-- The record of an abandonment on a lane (R276, R283). -/
def abandonRec (s : State) (l : Nat) (t : FeThr) (cause : Nat) : State :=
  let s := s.setF fFE_LABORT_LATE (b2n t.commit) l
  let s := s.setF fFE_LABORT_PC t.pc l
  let s := s.setF fFE_LABORT_CAUSE cause l
  raise (s.bump fFE_LABORT_CNT_CNT l) kFE_USTAT_ABORT

/-- A routine is abandoned (R276): its frame is lost, its Plate writes that are not acknowledged are dropped, and the cause,
place and commit state are recorded. -/
def abandon (s : State) (l : Nat) (e : Bool) (cause : Nat) : State :=
  let t := feThr s l e
  if !t.run then s
  else
    let (_, s) := feLand s l e t.cyc
    let s := if e && t.build.isSome then s.bump fEP_TXLOST_CNT_CNT l else s
    endThread (abandonRec s l t cause) l e

/-- Abandonment causes (R283). -/
def abLINK : Nat := 1
def abUE : Nat := 2
def abPARITY : Nat := 3
def abWDOG : Nat := 4
def abORDER : Nat := 5
def abREGION : Nat := 6
def abILLEGAL : Nat := 7

/-- Register n of a thread (R267): x25–x31 show the frame, lane and lookup; the egress thread sees them as 0. -/
def feReg (s : State) (l : Nat) (e : Bool) (t : FeThr) (n : Nat) : Nat :=
  if n = 0 then 0
  else if n < 25 then (tget 0 t.x n).toNat
  else if e then 0
  else match headFrame s l with
    | none => 0
    | some q =>
      match n with
      | 25 => q.f.bytes.length
      | 26 => q.f.etype.toNat
      | 27 => match q.f.tags with
              | [] => 0
              | tg :: _ => bits tg.toNat 13 3 * 2 ^ 13 + 2 ^ 12 + tg.toNat % 4096
      | 28 => l
      | 29 => match t.look with | some (_, some r) => r | _ => 0xFFFFFFFF
      | 30 => match t.look with
              | some (_, some r) => bits (wd (s.recw (if t.lookTab = 2 then 4 else t.lookTab + 1) r) 0) 16 8
              | _ => (Config.freeValue (2 ^ 80 + s.fresh)).toNat % 2 ^ 32
      | _ => taiNs q.stamp

/-- Write a register: x0 and x25–x31 discard it. -/
def FeThr.put (t : FeThr) (n v : Nat) : FeThr :=
  if n = 0 || 25 ≤ n then t else { t with x := tput t.x n (w32 v) }
def FeThr.cur (t : FeThr) : Nat := (tget 0 t.x 24).toNat

/-- The record kind of a LOOK table (R270): 0 SV, 1 GOOSE, 2 Burst SV, in the numbering of REC_STAT. -/
def lookKind (n : Nat) : Nat := if n = 2 then 4 else n + 1

-- Conditions (R269) ---------------------------------------------------------------------------------------------------------

def feCondPos (s : State) (l : Nat) (e : Bool) (t : FeThr) : Nat → Bool
  | 0 => true
  | 1 => t.z
  | 2 => t.n
  | 3 => t.c
  | 4 => t.win ≤ t.cur && t.cur + 4 ≤ t.win + 16
  | 5 => t.crcDone || (match t.crc with | some (d, _) => d ≤ t.cyc | none => false)
  | 6 => t.lookDone || (match t.look with | some (d, _) => d ≤ t.cyc | none => false)
  | 7 => match t.look with | some (_, some _) => true | _ => false
  | 8 => match headFrame s l with | some q => !e && q.tag.isSome | none => false
  | 9 => match headFrame s l with | some q => !e && q.tag == some true | none => false
  | 10 => t.acks.all fun w => w.due ≤ t.cyc
  | 11 => t.pack
  | 12 => t.ptcol
  | 13 => match t.build with | some b => e && classDepth s l b.cls < 32 | none => false
  | 14 => feReg s l e t 25 ≤ t.cur
  | _ => false

def feCond (s : State) (l : Nat) (e : Bool) (t : FeThr) (c : Nat) : Bool :=
  if c < 16 then feCondPos s l e t c else !feCondPos s l e t (c - 16)

-- Running one microword -------------------------------------------------------------------------------------------------------

/-- Where an operation may stand (R270): only after COMMIT; only in the vendor region; only on the egress thread. -/
structure FeCls where
  post   : Bool
  vendor : Bool
  egress : Bool

def fePlain : FeCls := ⟨false, false, false⟩
def feVendor : FeCls := ⟨false, true, false⟩
def fePost : FeCls := ⟨true, false, false⟩
def fePostVendor : FeCls := ⟨true, true, false⟩
def feEgress : FeCls := ⟨false, true, true⟩

/-- What a microword does: go on after some cycles, go on at another word, stall one cycle, end the routine, or
abandon it. -/
inductive FeRes where
  | go (s : State) (t : FeThr) (cycles : Nat)
  | jump (s : State) (t : FeThr) (pc cycles : Nat)
  | stall
  | fin (s : State)
  | abort (s : State) (cause : Nat)

/-- The fetch of a store word (R281): a single-bit error is corrected and counted, an uncorrectable one recorded. -/
def feFetch (s : State) (w : Nat) : Bool × State :=
  match tget 0 s.storeEcc w with
  | 0 => (true, s)
  | 1 => (true, raise { s.bump fFE_CE_CNT_CNT with storeEcc := tdel s.storeEcc w } kFE_USTAT_CE)
  | _ => (false, raise (s.setF fFE_UE_ADDR_WORD (w % 16384)) kFE_USTAT_UE)

/-- Words 0x3800–0x3FFF (R278). -/
def customerWord (w : Nat) : Bool := 0x3800 ≤ w && w < 0x4000

/-- The store word that a thread fetches: the bank that a swap took out of effect has its errors above the store's. -/
def storeWord (t : FeThr) : Nat := if t.old && customerWord t.pc then t.pc + 0x4000 else t.pc

/-- The word that a thread fetches. -/
def threadWord (s : State) (t : FeThr) : Word :=
  w32 (leVal (if t.old && customerWord t.pc then mread s.shadow (4 * (t.pc - 0x3800)) 4 else mread s.store (4 * t.pc) 4))

/-- The word that a thread fetches spells no microword (R268). -/
def wordBad (s : State) (t : FeThr) : Bool := (feWord 0 false (threadWord s t)).isNone

/-- A thread fetches command i: its word spells it, or the fetch itself abandons the routine and which microword it was
meant to be does not matter (R268, R281). -/
def feFetched (s : State) (l : Lane) (e : Bool) (i : Instr) : Bool :=
  let t := feThr s l e
  feWord l e (threadWord s t) == some i || wordBad s t || 2 ≤ tget 0 s.storeEcc (storeWord t)

/-- What a microword does: its word alone picks it, so a command that the thread does not fetch changes nothing (R268, R270;
log entry 8). -/
def feRuns (s : State) (l : Lane) (e : Bool) (i : Instr) (t : State) : Host.Outcome State Fault Refusal :=
  done (if feFetched s l e i then t else s)

/-- The routine of a thread ends once its Plate writes have landed; poison still abandons it (R74). A frame that an egress
routine leaves unsent is counted as lost (log entry 27). -/
def feFin (s : State) (l : Nat) (e : Bool) : State :=
  let t := feThr s l e
  match feLand s l e (t.acks.foldl (fun n w => max n w.due) 0) with
  | (true, s) => endThread (if e && t.build.isSome then s.bump fEP_TXLOST_CNT_CNT l else s) l e
  | (false, s) => abandon s l e abUE

/-- Run one microword of a thread under the rules of R268–R277; a thread without a routine runs none. The commit point of
an egress routine is ESEND (R274). -/
def feOp (s : State) (l : Nat) (e : Bool) (k : FeCls) (act : State → FeThr → FeRes) : State :=
  let t := feThr s l e
  if !t.run || !lanesRun s l then s
  else if t.bound ≤ t.cyc then abandon s l e abWDOG
  else if t.perr then abandon s l e abPARITY
  else
    let (ok, s) := feFetch s (storeWord t)
    if !ok then abandon s l e abUE
    else if wordBad s t then abandon s l e abILLEGAL
    else if k.vendor && customerWord t.pc then abandon s l e abREGION
    else if k.egress && !e then abandon s l e abILLEGAL
    else if k.post && !t.commit then abandon s l e abORDER
    else
      let (ok, s) := feLand s l e t.cyc
      let t := feThr s l e
      if !ok then abandon s l e abUE
      else match act s t with
        | .go s t' n => setFeThr s l e { t' with pc := (t.pc + 1) % 16384, cyc := t.cyc + n }
        | .jump s t' p n => setFeThr s l e { t' with pc := p % 16384, cyc := t.cyc + n }
        | .stall => setFeThr s l e { t with cyc := t.cyc + 1 }
        | .fin s => feFin s l e
        | .abort s c => abandon s l e c

def immS (i : BitVec 16) : Int := sval 16 i.toNat
/-- a + b on 32 bits, b signed. -/
def addW (a : Nat) (b : Int) : Nat := uenc 32 ((a : Int) + b)

/-- dst ← a value of the registers, in `n` cycles. -/
def feSet (s : State) (l : Nat) (e : Bool) (dst : Reg5) (f : (Nat → Nat) → Nat) : State :=
  feOp s l e fePlain fun s t => .go s (t.put dst (f (feReg s l e t))) 1

/-- Flags from a − b (R269). -/
def feCmpFlags (t : FeThr) (a b : Nat) : FeThr :=
  { t with z := a == b, n := bit (uenc 32 ((a : Int) - b)) 31, c := b ≤ a }

/-- The bytes of the frame that a thread reads: the egress thread has none (R267). -/
def feBytes (s : State) (l : Nat) (e : Bool) : List Byte :=
  if e then [] else match headFrame s l with | some q => q.f.bytes | none => []

/-- `n` bytes of the frame from offset `o`, network order; bytes past its end are a free value (log entry 24). -/
def frameVal (s : State) (l : Nat) (e : Bool) (o n : Nat) : Nat × State :=
  if o + n ≤ (feBytes s l e).length then (beVal (imgBytes (feBytes s l e) o n), s)
  else let (v, s) := s.draw; (v.toNat % 2 ^ (8 * n), s)

/-- The cycles that a fetch outside the window adds, with the window refilled at CUR (R271). -/
def winStall (t : FeThr) (o n : Nat) : Nat := if t.win ≤ o && o + n ≤ t.win + 16 then 0 else 2

/-- GET (R270, R271). -/
def feGet (s : State) (l : Nat) (e : Bool) (dst : Reg5) (imm : BitVec 16) : State :=
  feOp s l e fePlain fun s t =>
    let n := imm.toNat % 8
    if n = 0 || 4 < n then .abort s abILLEGAL
    else
      let (v, s) := frameVal s l e t.cur n
      let w := winStall t t.cur n
      .go s { (t.put 24 (t.cur + n)).put dst v with win := t.cur + n } (1 + w)

/-- PEEK (R270, R271): imm[15:4] is the offset from CUR; 3 cycles outside the window, which is then fetched there. -/
def fePeek (s : State) (l : Nat) (e : Bool) (dst : Reg5) (imm : BitVec 16) : State :=
  feOp s l e fePlain fun s t =>
    let n := imm.toNat % 8
    if n = 0 || 4 < n then .abort s abILLEGAL
    else
      let o := t.cur + imm.toNat / 16
      let (v, s) := frameVal s l e o n
      let w := winStall t o n
      .go s { t.put dst v with win := if w = 0 then t.win else o } (1 + w)

/-- The octets that a BER length at the head of bytes takes (R270): 1 where its form is not decoded. -/
def berOctets (bs : List Byte) : Nat :=
  match bs with
  | b :: _ => if b.toNat = 0x81 then 2 else if b.toNat = 0x82 then 3 else 1
  | [] => 1

/-- A BER definite length of 1–3 octets: its value and octets (R270). -/
def berLen (bs : List Byte) : Option (Nat × Nat) :=
  match bs with
  | b :: r =>
    if b.toNat < 0x80 then some (b.toNat, 1)
    else if b.toNat = 0x81 then (match r with | x :: _ => some (x.toNat, 2) | _ => none)
    else if b.toNat = 0x82 then (match r with | x :: y :: _ => some (x.toNat * 256 + y.toNat, 3) | _ => none)
    else none
  | [] => none

def feBerlen (s : State) (l : Nat) (e : Bool) (dst : Reg5) : State :=
  feOp s l e fePlain fun s t =>
    let bs := (feBytes s l e).drop t.cur
    let w := winStall t t.cur (berOctets bs)
    match berLen bs with
    | some (v, n) => .go s { (t.put 24 (t.cur + n)).put dst v with n := false, win := t.cur + n } (1 + w)
    | none => .go s { t.put dst 0 with n := true, win := if w = 0 then t.win else t.cur } (1 + w)

/-- CRCS (R270): CRC-32 over src bytes from CUR at 8 bytes a cycle; over bytes past the frame it is a free value. -/
def feCrcs (s : State) (l : Nat) (e : Bool) (src : Reg5) : State :=
  feOp s l e fePlain fun s t =>
    let n := feReg s l e t src
    let due := t.cyc + 1 + cdiv n 8
    if t.cur + n ≤ (feBytes s l e).length then
      .go s { t with crc := some (due, w32 (crc32 (imgBytes (feBytes s l e) t.cur n))), crcDone := false } 1
    else let (v, s) := s.draw; .go s { t with crc := some (due, v.truncate 32), crcDone := false } 1

def feCrcr (s : State) (l : Nat) (e : Bool) (dst : Reg5) : State :=
  feOp s l e fePlain fun s t =>
    match t.crc with
    | some (d, v) => if t.crcDone || d ≤ t.cyc then .go s (t.put dst v.toNat) 1 else .stall
    | none => .stall

-- Lookup (R243, R247, R255, R270) ------------------------------------------------------------------------------------------

/-- VID test of a record (R234): with VIDM only the record's VID; two or more tags match nothing. -/
def vidOk (w3 : Nat) (f : Frame) : Bool :=
  f.tags.length ≤ 1 && (!bit w3 19 || (match f.tags with | tg :: _ => tg.toNat % 4096 == w3 % 4096 | [] => false))

/-- Whether record words match a key, a frame's destination, VID and port. -/
def recMatch (kind : Nat) (ws : List Word) (key : Nat) (f : Frame) (p : Nat) : Bool :=
  bit (wd ws 0) 31 && bits (wd ws 0) 0 16 == key % 65536 && bit (wd ws 2) (16 + p) && f.tags.length ≤ 1 &&
  (if kind = 4 then wd ws 1 % 256 == key / 65536 % 256
   else wd ws 1 + 2 ^ 32 * bits (wd ws 2) 0 16 == f.dmac.toNat && vidOk (wd ws 3) f)

/-- The lowest-numbered record of a kind that satisfies `p`. -/
def findRec (s : State) (kind : Nat) (p : List Word → Bool) : Option Nat :=
  (s.recs.find? fun e => e.1 / 65536 == kind && p e.2).map fun e => e.1 % 65536

def feLook (s : State) (l : Nat) (e : Bool) (dst src : Reg5) (imm : BitVec 16) : State :=
  feOp s l e feVendor fun s t =>
    let n := imm.toNat % 4
    if n = 3 then .abort s abILLEGAL
    else
      let key := feReg s l e t src
      let r := match (if e then t.build.map (·.f) else (headFrame s l).map (·.f)) with
        | some f => findRec s (lookKind n) fun ws => recMatch (lookKind n) ws key f l
        | none => none
      .go s { t.put dst (r.getD 0xFFFFFFFF) with look := some (t.cyc + 4, r), lookDone := false, lookTab := n } 4

def feRrec (s : State) (l : Nat) (e : Bool) (dst : Reg5) (imm : BitVec 16) : State :=
  feOp s l e feVendor fun s t =>
    match t.look with
    | some (_, some r) => .go s (t.put dst (wd (s.recw (lookKind t.lookTab) r) (imm.toNat % 16))) 1
    | _ => let (v, s) := s.draw; .go s (t.put dst (v.toNat % 2 ^ 32)) 1

-- Plate writes and points -----------------------------------------------------------------------------------------------------

/-- Cycles from a PLW's issue to its acknowledge, and from a PTWR's to its judgement (R271). -/
def ackTime (s : State) : Nat := if s.clk.slow then 19 else 15
def judgeTime (s : State) : Nat := if s.clk.slow then 12 else 10

/-- PLW, PLH (R271): `n` bytes to byte address x[dst] of tenant x30's Plate space, on their way until acknowledged. -/
def fePlate (s : State) (l : Nat) (e : Bool) (dst src : Reg5) (n : Nat) : State :=
  feOp s l e feVendor fun s t =>
    let rc := match t.look with | some (_, r) => r | none => none
    let bs := if rc.isSome then leBytes n (feReg s l e t src) else []
    .go s { t with acks := t.acks ++ [⟨t.cyc + ackTime s, feReg s l e t 30 % 256, feReg s l e t dst, bs,
      rc.map fun r => (lookKind t.lookTab, r)⟩] } 1

def fePtv (s : State) (l : Nat) (e : Bool) (src : Reg5) (imm : BitVec 16) : State :=
  feOp s l e fePlain fun s t =>
    let lo := feReg s l e t src
    let v := if imm.toNat % 2 = 1 then feReg s l e t ((src.val + 1) % 32) * 2 ^ 32 + lo else lo
    .go s { t with sv := some (BitVec.ofNat 64 v) } 1

/-- The trigger time stamp of the routine's frame, and its instant on the monotonic timebase. -/
def feStamp (s : State) (l : Nat) (e : Bool := false) : Nat :=
  match headFrame s l with | some q => if e then s.tai else q.stamp | none => s.tai
def feArr (s : State) (l : Nat) (e : Bool := false) : Nat :=
  match headFrame s l with | some q => if e then s.now else q.arr | none => s.now

/-- A dataset's members in effect (R300); none where V is 0. -/
def dsMembers (s : State) (d : Nat) : List Nat :=
  let e := (s.effReg rCS_DSDIR d 0).toNat
  if bit e 31 then (List.range (bits e 16 7)).map fun j => (s.effReg rCS_DSMEM (bits e 0 16 + j) 0).toNat else []

/-- The points of the record that the last LOOK found, which a vendor routine may write (R287): a GOOSE subscription's
dataset, the status point of an SV or Burst SV one. -/
def recPoints (s : State) (t : FeThr) : List Nat :=
  match t.look with
  | some (_, some r) =>
    let ws := s.recw (lookKind t.lookTab) r
    if t.lookTab = 0 then [bits (wd ws 7) 0 17]
    else if t.lookTab = 2 then [bits (wd ws 5) 0 17]
    else (dsMembers s (bits (wd ws 7) 0 13)).map fun e => bits e 0 17
  | _ => []

/-- PTWR (R277, R287, R292): one point write of the staged fields. A customer routine may write only points of its table
entry's TENANT, a vendor routine only points of the subscribing record. -/
def fePtwr (s : State) (l : Nat) (e : Bool) (dst : Reg5) : State :=
  feOp s l e fePost fun s t =>
    let p := feReg s l e t dst % 131072
    let w (o : Option Nat) : PtWrite := ⟨.fe (if l < 6 then 0 else 1), p, t.sv, t.sq, some (t.st.getD (feStamp s l e)), o, none,
      .lane l e (t.ptN + 1), 0, none, 0, some (feArr s l e)⟩
    let sent (o : Option Nat) : FeRes := .go { s with ptq := s.ptq ++ [w o] }
      { t with pack := false, ptcol := false, ptN := t.ptN + 1, ptwr := some 0, ptDue := t.cyc + judgeTime s } 1
    let refused (s : State) : FeRes := .go s { t with pack := true, ptcol := false } 1
    match (if customerWord t.pc then t.cust else none) with
    | some o => if (s.pt p).owner != o then refused (raise s kFE_USTAT_PTREF) else sent (some o)
    | none => if (recPoints s t).contains p then sent none else refused s

/-- POST (R19): the activation of the found SV or Burst SV record, where its ACT enables one. -/
def fePost' (s : State) (l : Nat) (e : Bool) : State :=
  feOp s l e fePostVendor fun s t =>
    match t.look with
    | some (_, some r) =>
      let k := lookKind t.lookTab
      let ws := s.recw k r
      let s := if k != 2 && bit (wd ws 0) 30 then
          post s (bits (wd ws 0) 16 8) (if k = 4 then 2 else 1) r (feStamp s l e) (feArr s l e) (wd ws (if k = 4 then 7 else 10))
        else s
      .go s t 1
    | _ => .go s t 1

/-- The lane counters of CNT in the order of R263, and the flags of DROP (R270). -/
def feCount (s : State) (l n : Nat) : State :=
  match n with
  | 0 => laneCount s l fFE_AUTHFAIL_CNT_CNT kFE_LSTAT_AUTHFAIL
  | 1 => noMatch s l
  | 2 => laneCount s l fFE_RINGDROP_CNT_CNT kFE_LSTAT_RINGDROP
  | _ => laneCount s l fFE_MALFORM_CNT_CNT kFE_LSTAT_MALFORM
def feDrop (s : State) (l n : Nat) : State :=
  if n = 0 || 5 < n then s else if n = 5 then raise s kFE_LSTAT_UNSUP l else feCount s l (n - 1)

/-- What a 62351-6 tag covers (log entry 93): the frame's bytes, or the standard encoding of a frame whose contents are held
decoded, without tag and redundancy trailer. -/
def tagMsg (f : Frame) : List Byte :=
  if f.bytes.isEmpty then Config.frameBytes { f with tag := none, red := none } else f.bytes

/-- The 62351-6 tag that the device makes, with a key of a slot pair (R251, R252): the longest MAC of the algorithm. -/
def makeTag (pair : Nat) (k : Nat × List Byte) (f : Frame) : FrameTag := ⟨w32 pair, macOf k (tagMsg f)⟩

/-- Length on the wire of a frame that an egress routine has built. -/
def builtLen (f : Frame) : Nat :=
  match f.body with
  | .raw => max 64 (f.bytes.length + 4 * f.tags.length + 4 + (if f.red.isSome then 6 else 0))
  | .ptp _ | .supervision => f.len
  | _ => max 64 (Config.frameLen f)

/-- ESEND (R274): the tag and the FCS are appended, and the frame takes its place in its class queue once there is one. -/
def feEsend (s : State) (l : Nat) (e : Bool) : State :=
  feOp s l e feEgress fun s t =>
    match t.build with
    | none => .go s t 1
    | some b =>
      if 32 ≤ classDepth s l b.cls then .stall
      else
        let f := match t.efrm with | some bs => { b.f with bytes := bs } | none => b.f
        let f := match t.ekey with | some (pair, k) => { f with tag := some (makeTag pair k f) } | none => f
        .go (enqueue s l { b with f := { f with len := builtLen f } }) { t with build := none, efrm := none, commit := true } 1

/-- TSFWD (R309): the frame and its stamp go to the time unit; management messages to the host-frame path. -/
def tsForward (s : State) (l : Nat) (q : QFrame) : State :=
  match q.f.body with
  | .ptp m => match m.kind with
    | .management => hostPath s l q.f q.stamp
    | _ => ptpReceive s l (sfdStamp s l q.f.len q.stamp) m
  | _ => s

-- Control flow -----------------------------------------------------------------------------------------------------------------

/-- A branch or call target that customer code may not take (R277). -/
def badTarget (t : FeThr) (w : Nat) : Bool := customerWord t.pc && !customerWord w

def feBr (s : State) (l : Nat) (e : Bool) (cond : BitVec 5) (imm : BitVec 16) : State :=
  feOp s l e fePlain fun s t =>
    let w := imm.toNat % 16384
    if feCond s l e t cond.toNat then (if badTarget t w then .abort s abREGION else .jump s t w 2) else .go s t 1

def feWait (s : State) (l : Nat) (e : Bool) (cond : BitVec 5) : State :=
  feOp s l e fePlain fun s t => if feCond s l e t cond.toNat then .go s t 1 else .stall

def feCall (s : State) (l : Nat) (e : Bool) (imm : BitVec 16) : State :=
  feOp s l e fePlain fun s t =>
    let w := imm.toNat % 16384
    if 4 ≤ t.stk.length then .abort s abILLEGAL
    else if badTarget t w then .abort s abREGION
    else
      let r := (t.pc + 1) % 16384
      let t' := { t with stk := r :: t.stk }
      -- vendor code enters a customer hook, which runs with its own TENANT (R272, R277)
      let t' := if customerWord w && !customerWord t.pc then
          match (custEntries s t.old).find? fun x => x.entry == w with
          | some h => { t' with hookRet := some r, cust := some h.tenant }
          | none => t'
        else t'
      .jump s t' w 2

/-- RET (R271, R272, R277): a hook's return goes on with the dispatch that follows. -/
def feRet (s : State) (l : Nat) (e : Bool) : State :=
  feOp s l e fePlain fun s t =>
    match t.stk with
    | [] => .abort s abILLEGAL
    | r :: rs =>
      if customerWord t.pc && !customerWord r && t.hookRet != some r then .abort s abREGION
      else
        let t' := { t with stk := rs }
        let t' := if t.hookRet == some r && (rs.isEmpty || !customerWord r) then
            { t' with hookRet := none, cust := (match headFrame s l with
              | some q => some (routineFor s t.old q.f.etype.toNat).tenant | none => none) }
          else t'
        .jump s t' r 2

-- Routine start (R266, R272, R274) -----------------------------------------------------------------------------------------------

/-- INGRESS_ROUTINE_START: the head frame, delivered by the MAC, is dispatched in 4 cycles. -/
def ingressStart (s : State) (l : Nat) : State :=
  match headFrame s l with
  | none => s
  | some q =>
    if (s.lane l).ing.run || !lanesRun s l then s
    else
      let start := laneStart s l q
      let s := (s.advanceTo start).setLane l { s.lane l with free := start }
      let r := routineFor s false q.f.etype.toNat
      let t := { FeThr.init with run := true, cyc := 4, ptN := (feThr s l false).ptN }
      let t := match hookEntry s false 1 with
        | some h => { t with pc := h.entry, bound := effBound s h + effBound s r, cust := some h.tenant
                             stk := [r.entry], hookRet := some r.entry }
        | none => { t with pc := r.entry, bound := effBound s r, cust := some r.tenant }
      setFeThr s l false t

/-- The frame a lane builds next: of its highest class, the first in queue order (R256, R274). -/
def nextBuild (bs : List TxFrame) : Option (TxFrame × List TxFrame) :=
  let top := bs.foldl (fun m b => max m b.cls) 0
  takeOut (fun b => b.cls == top) bs

/-- The key in effect of a slot pair, by its identifier (R252, R349, R360); while a wipe runs there is none (R357). -/
def currentKey (s : State) (pair : Nat) : Option (Nat × List Byte) := if s.ks.wipe.isSome then none else (s.key pair).cur

/-- The bound of a vendor routine that builds a frame (R273), where no egress entry declares one. -/
def buildBound (f : Frame) : Nat :=
  match f.body with
  | .goose _ g => 54 + 2 * max g.members.length 8
  | .ptp _ => 24
  | _ => if f.etype == 0x88B5#16 then 40 else 20

/-- EGRESS_ROUTINE_START (R274): the lane takes its next frame to build, with the key in effect (R252); a publication with
TAG and no current key is not sent (R350). -/
def egressStart (s : State) (l : Nat) : State :=
  let x := s.lane l
  if x.eg.run || !lanesRun s l then s
  else match nextBuild x.build with
    | none => s
    | some (b, rest) =>
      let s := s.setLane l { x with build := rest }
      let r := (vendEntries s).find? fun e => e.kind == 3
      let bound := match r with | some e => effBound s e | none => buildBound b.f
      let start (key : Option (Nat × Nat × List Byte)) : State := setFeThr s l true
        { FeThr.init with ptN := (feThr s l true).ptN, run := true, pc := (match r with | some e => e.entry | none => 1), bound := bound, build := some b,
                          ekey := key }
      match b.cb with
      | none => start none
      | some cb =>
        let ws := s.recw 3 cb
        if bit (wd ws 0) 29 then
          match currentKey s (bits (wd ws 6) 21 11) with
          | some k => start (some (bits (wd ws 6) 21 11, k))
          | none => s.bump fEP_TXLOST_CNT_CNT l
        else start none

-- The commands -----------------------------------------------------------------------------------------------------------------

abbrev Res := Host.Outcome State Fault Refusal

def execIngressRoutineStart (l : Lane) (s : State) : Res := done (ingressStart s l)
def execEgressRoutineStart (l : Lane) (s : State) : Res := done (egressStart s l)

def execFeNop (l : Lane) (e : Bool) (dst src : Reg5) (imm : BitVec 16) (s : State) : Res :=
  feRuns s l e (.feNop l e dst src imm) (feOp s l e fePlain fun s t => .go s t 1)
def execMovi (l : Lane) (e : Bool) (dst src : Reg5) (imm : BitVec 16) (s : State) : Res :=
  feRuns s l e (.movi l e dst src imm) (feSet s l e dst fun _ => imm.toNat)
def execMovhi (l : Lane) (e : Bool) (dst src : Reg5) (imm : BitVec 16) (s : State) : Res :=
  feRuns s l e (.movhi l e dst src imm) (feSet s l e dst fun x => x dst % 65536 + imm.toNat * 65536)
def execFeAddi (l : Lane) (e : Bool) (dst src : Reg5) (imm : BitVec 16) (s : State) : Res :=
  feRuns s l e (.feAddi l e dst src imm) (feSet s l e dst fun x => addW (x src) (immS imm))
def execFeAdd (l : Lane) (e : Bool) (dst src : Reg5) (imm : BitVec 16) (s : State) : Res :=
  feRuns s l e (.feAdd l e dst src imm) (feSet s l e dst fun x => addW (x src) (x (imm.toNat % 32)))
def execFeSub (l : Lane) (e : Bool) (dst src : Reg5) (imm : BitVec 16) (s : State) : Res :=
  feRuns s l e (.feSub l e dst src imm) (feSet s l e dst fun x => addW (x src) (-(x (imm.toNat % 32) : Int)))
def execFeAnd (l : Lane) (e : Bool) (dst src : Reg5) (imm : BitVec 16) (s : State) : Res :=
  feRuns s l e (.feAnd l e dst src imm) (feSet s l e dst fun x => Nat.land (x src) (x (imm.toNat % 32)))
def execFeOr (l : Lane) (e : Bool) (dst src : Reg5) (imm : BitVec 16) (s : State) : Res :=
  feRuns s l e (.feOr l e dst src imm) (feSet s l e dst fun x => Nat.lor (x src) (x (imm.toNat % 32)))
def execFeXor (l : Lane) (e : Bool) (dst src : Reg5) (imm : BitVec 16) (s : State) : Res :=
  feRuns s l e (.feXor l e dst src imm) (feSet s l e dst fun x => Nat.xor (x src) (x (imm.toNat % 32)))
def execFeAndi (l : Lane) (e : Bool) (dst src : Reg5) (imm : BitVec 16) (s : State) : Res :=
  feRuns s l e (.feAndi l e dst src imm) (feSet s l e dst fun x => Nat.land (x src) imm.toNat)
def execFeShli (l : Lane) (e : Bool) (dst src : Reg5) (imm : BitVec 16) (s : State) : Res :=
  feRuns s l e (.feShli l e dst src imm) (feSet s l e dst fun x => x src * 2 ^ (imm.toNat % 32) % 2 ^ 32)
def execShri (l : Lane) (e : Bool) (dst src : Reg5) (imm : BitVec 16) (s : State) : Res :=
  feRuns s l e (.shri l e dst src imm) (feSet s l e dst fun x => x src / 2 ^ (imm.toNat % 32))
def execFeCmpi (l : Lane) (e : Bool) (dst src : Reg5) (imm : BitVec 16) (s : State) : Res :=
  feRuns s l e (.feCmpi l e dst src imm) (feOp s l e fePlain fun s t => .go s (feCmpFlags t (feReg s l e t src) (uenc 32 (immS imm))) 1)
def execFeCmp (l : Lane) (e : Bool) (dst src : Reg5) (imm : BitVec 16) (s : State) : Res :=
  feRuns s l e (.feCmp l e dst src imm) (feOp s l e fePlain fun s t => .go s (feCmpFlags t (feReg s l e t src) (feReg s l e t (imm.toNat % 32))) 1)
def execGetF (l : Lane) (e : Bool) (dst src : Reg5) (imm : BitVec 16) (s : State) : Res := feRuns s l e (.getF l e dst src imm) (feGet s l e dst imm)
def execPeek (l : Lane) (e : Bool) (dst src : Reg5) (imm : BitVec 16) (s : State) : Res := feRuns s l e (.peek l e dst src imm) (fePeek s l e dst imm)
def execSkipF (l : Lane) (e : Bool) (dst src : Reg5) (imm : BitVec 16) (s : State) : Res :=
  feRuns s l e (.skipF l e dst src imm) (feOp s l e fePlain fun s t =>
    .go s (t.put 24 (addW (addW t.cur (immS imm)) (feReg s l e t src))) 1)
/-- SEEK moves the byte cursor. In the customer region its target is held to words 0x3800–0x3FFF as R277 says, though it is
an offset into the frame (log entry 20). -/
def execSeekF (l : Lane) (e : Bool) (dst src : Reg5) (imm : BitVec 16) (s : State) : Res :=
  feRuns s l e (.seekF l e dst src imm) (feOp s l e fePlain fun s t =>
    let w := addW (feReg s l e t src) (immS imm)
    if badTarget t w then .abort s abREGION else .go s (t.put 24 w) 1)
def execBerlen (l : Lane) (e : Bool) (dst src : Reg5) (imm : BitVec 16) (s : State) : Res := feRuns s l e (.berlen l e dst src imm) (feBerlen s l e dst)
def execCrcs (l : Lane) (e : Bool) (dst src : Reg5) (imm : BitVec 16) (s : State) : Res := feRuns s l e (.crcs l e dst src imm) (feCrcs s l e src)
def execCrcr (l : Lane) (e : Bool) (dst src : Reg5) (imm : BitVec 16) (s : State) : Res := feRuns s l e (.crcr l e dst src imm) (feCrcr s l e dst)
def execLook (l : Lane) (e : Bool) (dst src : Reg5) (imm : BitVec 16) (s : State) : Res := feRuns s l e (.look l e dst src imm) (feLook s l e dst src imm)
def execRrec (l : Lane) (e : Bool) (dst src : Reg5) (imm : BitVec 16) (s : State) : Res := feRuns s l e (.rrec l e dst src imm) (feRrec s l e dst imm)
def execTagchk (l : Lane) (e : Bool) (dst src : Reg5) (imm : BitVec 16) (s : State) : Res :=
  feRuns s l e (.tagchk l e dst src imm) (feOp s l e feVendor fun s t => if feCondPos s l e t 8 then .go s t 1 else .stall)
def execPlw (l : Lane) (e : Bool) (dst src : Reg5) (imm : BitVec 16) (s : State) : Res := feRuns s l e (.plw l e dst src imm) (fePlate s l e dst src 4)
def execPlh (l : Lane) (e : Bool) (dst src : Reg5) (imm : BitVec 16) (s : State) : Res := feRuns s l e (.plh l e dst src imm) (fePlate s l e dst src 2)
def execPtv (l : Lane) (e : Bool) (dst src : Reg5) (imm : BitVec 16) (s : State) : Res := feRuns s l e (.ptv l e dst src imm) (fePtv s l e src imm)
def execPtq (l : Lane) (e : Bool) (dst src : Reg5) (imm : BitVec 16) (s : State) : Res :=
  feRuns s l e (.ptq l e dst src imm) (feOp s l e fePlain fun s t => .go s { t with sq := some (feReg s l e t src % 65536) } 1)
def execPts (l : Lane) (e : Bool) (dst src : Reg5) (imm : BitVec 16) (s : State) : Res :=
  feRuns s l e (.pts l e dst src imm) (feOp s l e fePlain fun s t => .go s { t with st := some (feStamp s l e) } 1)
def execPtwr (l : Lane) (e : Bool) (dst src : Reg5) (imm : BitVec 16) (s : State) : Res := feRuns s l e (.ptwr l e dst src imm) (fePtwr s l e dst)
def execPostF (l : Lane) (e : Bool) (dst src : Reg5) (imm : BitVec 16) (s : State) : Res := feRuns s l e (.postF l e dst src imm) (fePost' s l e)
def execCnt (l : Lane) (e : Bool) (dst src : Reg5) (imm : BitVec 16) (s : State) : Res :=
  feRuns s l e (.cnt l e dst src imm) (feOp s l e fePost fun s t => .go (feCount s l (imm.toNat % 4)) t 1)
def execEbeg (l : Lane) (e : Bool) (dst src : Reg5) (imm : BitVec 16) (s : State) : Res :=
  feRuns s l e (.ebeg l e dst src imm) (feOp s l e feEgress fun s t => .go s { t with efrm := some [] } 1)
def execEput (l : Lane) (e : Bool) (dst src : Reg5) (imm : BitVec 16) (s : State) : Res :=
  feRuns s l e (.eput l e dst src imm) (feOp s l e feEgress fun s t =>
    let n := imm.toNat % 8
    if n = 0 || 4 < n then .abort s abILLEGAL
    else .go s { t with efrm := some (t.efrm.getD [] ++ beBytes n (feReg s l e t src)) } 1)
def execEsend (l : Lane) (e : Bool) (dst src : Reg5) (imm : BitVec 16) (s : State) : Res := feRuns s l e (.esend l e dst src imm) (feEsend s l e)
def execTsfwd (l : Lane) (e : Bool) (dst src : Reg5) (imm : BitVec 16) (s : State) : Res :=
  feRuns s l e (.tsfwd l e dst src imm) (feOp s l e feVendor fun s _ =>
    match (if e then none else headFrame s l) with | some q => .fin (tsForward s l q) | none => .fin s)
def execDropF (l : Lane) (e : Bool) (dst src : Reg5) (imm : BitVec 16) (s : State) : Res :=
  feRuns s l e (.dropF l e dst src imm) (feOp s l e fePlain fun s _ => .fin (feDrop s l (imm.toNat % 8)))
def execHostF (l : Lane) (e : Bool) (dst src : Reg5) (imm : BitVec 16) (s : State) : Res :=
  feRuns s l e (.hostF l e dst src imm) (feOp s l e fePlain fun s _ =>
    match (if e then none else headFrame s l) with | some q => .fin (hostPath s l q.f q.stamp) | none => .fin s)
def execFeEnd (l : Lane) (e : Bool) (dst src : Reg5) (imm : BitVec 16) (s : State) : Res :=
  feRuns s l e (.feEnd l e dst src imm) (feOp s l e fePost fun s _ => .fin s)
/-- COMMIT (R275); a second one is illegal. The commit point of an egress routine is its ESEND (R274). -/
def execCommit (l : Lane) (e : Bool) (dst src : Reg5) (imm : BitVec 16) (s : State) : Res :=
  feRuns s l e (.commit l e dst src imm) (feOp s l e fePlain fun s t => if t.commit then .abort s abILLEGAL else .go s { t with commit := !e } 1)
def execCallF (l : Lane) (e : Bool) (dst src : Reg5) (imm : BitVec 16) (s : State) : Res := feRuns s l e (.callF l e dst src imm) (feCall s l e imm)
def execRetF (l : Lane) (e : Bool) (dst src : Reg5) (imm : BitVec 16) (s : State) : Res := feRuns s l e (.retF l e dst src imm) (feRet s l e)
def execBr (l : Lane) (e : Bool) (cond : BitVec 5) (imm : BitVec 16) (s : State) : Res := feRuns s l e (.br l e cond imm) (feBr s l e cond imm)
def execFeWait (l : Lane) (e : Bool) (cond : BitVec 5) (imm : BitVec 16) (s : State) : Res := feRuns s l e (.feWait l e cond imm) (feWait s l e cond)

/-- The lane's thread that waits for an event changes by it: the ingress thread, else the egress one. -/
def feEvent (s : State) (l : Nat) (waits : FeThr → Bool) (f : FeThr → FeThr) : State :=
  let i := feThr s l false
  let o := feThr s l true
  if i.run && waits i then setFeThr s l false (f i) else if o.run && waits o then setFeThr s l true (f o) else s

/-- CRC_DONE (R270): the CRC that runs completes. -/
def execCrcDone (l : Lane) (s : State) : Res :=
  done (feEvent s l (fun t => t.crc.isSome && !t.crcDone) fun t => match t.crc with
    | some (d, _) => { t with crcDone := true, cyc := max t.cyc d } | none => t)
/-- LOOK_DONE (R270). -/
def execLookDone (l : Lane) (s : State) : Res :=
  done (feEvent s l (fun t => t.look.isSome && !t.lookDone) fun t => match t.look with
    | some (d, _) => { t with lookDone := true, cyc := max t.cyc d } | none => t)
/-- The sheet's judgement of a thread's PTWR, where it is back: its instant. -/
def judgedAt (t : FeThr) : Option Nat :=
  match t.ptwr with
  | some (d + 1) => if t.run then some (d + 1) else none
  | _ => none

/-- PTWR_JUDGED (R271): the judgement is back, and PACK holds. -/
def execPtwrJudged (l : Lane) (s : State) : Res :=
  done (match (judgedAt (feThr s l false)).orElse fun _ => judgedAt (feThr s l true) with
    | some d => feEvent (s.advanceTo d) l (fun t => (judgedAt t).isSome) fun t =>
        { t with pack := true, ptwr := none, cyc := max t.cyc t.ptDue }
    | none => s)

/-- The oldest Plate write of a thread is acknowledged, and lands. -/
def ackOldest (s : State) (l : Nat) (e : Bool) : State :=
  match (feThr s l e).acks with
  | [] => s
  | a :: _ =>
    let t := feThr s l e
    match feLand (setFeThr s l e { t with cyc := max t.cyc a.due }) l e a.due with
    | (true, s) => s
    | (false, s) => abandon s l e abUE

/-- PLATE_WRITE_ACK (R271): the oldest Plate write is acknowledged. -/
def execPlateWriteAck (l : Lane) (s : State) : Res :=
  done (if (feThr s l false).run && !(feThr s l false).acks.isEmpty then ackOldest s l false
    else if (feThr s l true).run then ackOldest s l true else s)
/-- WDOG (R273): the thread's routine reaches its effective bound without having ended. Plate writes acknowledged before it
have landed. -/
def wdog (s : State) (l : Nat) (e : Bool) : State :=
  let t := feThr s l e
  if !t.run || !lanesRun s l then s
  else
    match feLand (setFeThr s l e { t with cyc := max t.cyc t.bound }) l e (t.bound - 1) with
    | (true, s) => abandon s l e abWDOG
    | (false, s) => abandon s l e abUE
def execWdog (l : Lane) (e : Bool) (s : State) : Res := done (wdog s l e)

end Sys2Proof.Machine
end

