-- ==== Sys2Proof/Machine/Frames.lean ====
section
/-! DEFINITION. Frames that arrive: the MAC, duplicate discard and ring forwarding, and what the vendor routines do
with sampled values, GOOSE, Burst SV, PTP and proof beacons (R229–R261, R307–R310, R361). -/

namespace Sys2Proof.Machine
open Sys2Proof

-- Drops (R24) ---------------------------------------------------------------------------------------------------------

/-- A malformed frame or block (R245, R247, R255). -/
def recMalform (s : State) (l k i : Nat) : State :=
  recDrop (recBump (laneCount s l fFE_MALFORM_CNT_CNT kFE_LSTAT_MALFORM) k i 3) k i

/-- A failed 62351-6 check (R24): counted at the lane and the record, with a notice to the supervisor. -/
def authFail (s : State) (l k i : Nat) : State :=
  let s := laneCount s l fFE_AUTHFAIL_CNT_CNT kFE_LSTAT_AUTHFAIL
  notice (recDrop (recBump s k i 2) k i) (76 + l) 1 (recKey k i) 0

-- Tags (R251, R252) ------------------------------------------------------------------------------------------------------

/-- The keys of a pair that are accepted now (R252): the current one, the next one from 2 s before its changeover, and the
one before the current until 2 s after the changeover that replaced it. A wipe takes them all (R357). -/
def keysAccepted (s : State) (pair : Nat) : List (Nat × List Byte) :=
  let k := s.key pair
  if s.ks.wipe.isSome then []
  else k.cur.toList ++ (if k.chg ≤ s.tai + 2 * sec then k.nxt.toList else []) ++
    (if s.tai ≤ k.prevTo then k.prev.toList else [])

/-- A field of `n` bytes at offset `o`, network order. -/
def netField (bs : List Byte) (o n : Nat) : Nat := beVal (imgBytes bs o n)
/-- A frame's bytes from the first one after the EtherType. -/
def payload (f : Frame) : List Byte := f.bytes.drop 14

/-- Whether a frame carries a tag: one of 62351-6, or the AUTH flag of a Burst SV frame or beacon (R253, R360). -/
def tagPresent (f : Frame) : Bool :=
  f.tag.isSome || (f.etype == 0x88B5#16 && bit (f.bytes.getD 16 0).toNat 2)

/-- The key identifier in a 62351-6 tag. -/
def tagKeyId (f : Frame) : Nat := match f.tag with | some t => t.keyId.toNat | none => 0
/-- The well-formed blocks of a Burst SV payload from offset `o` on, and whether all that NBLK names are there. -/
def bsvBlocks (bs : List Byte) : Nat → Nat → List (List Byte) × Bool
  | 0, _ => ([], true)
  | n + 1, o =>
    let S := netField bs (o + 2) 2
    let len := 24 + 2 * S
    if netField bs (o + 1) 1 != 1 || S < 16 || 256 < S || S % 16 != 0 || bs.length < o + len then ([], false)
    else
      let (r, ok) := bsvBlocks bs n (o + len)
      (imgBytes bs o len :: r, ok)

/-- Where the tag of a Burst SV frame or of a beacon begins, and the key identifier in it (R253, R360): a Burst SV tag stands
behind the last block. -/
def bsvTagAt (bs : List Byte) : Nat := 12 + ((bsvBlocks bs (netField bs 3 1) 12).1.map List.length).sum
def bsvKeyId (bs : List Byte) : Nat := netField bs (bsvTagAt bs) 4

/-- The pair that a frame's tag names, what its MAC covers, the MAC, and whether it has to be HMAC-SHA256-128 (R251, R253,
R360). -/
def frameTag (f : Frame) : Nat × List Byte × List Byte × Bool :=
  match f.tag with
  | some t => (t.keyId.toNat % 2048, tagMsg f, t.mac, false)
  | none =>
    let bs := payload f
    let o := if netField bs 0 1 = 2 then 38 else bsvTagAt bs
    (netField bs o 4 % 2048, bs.take o, (bs.drop (o + 4)).take 16, true)

/-- The tag check (R251–R253): the MAC verifies with a key that is accepted now. -/
def tagVerifies (s : State) (f : Frame) : Bool :=
  let (pair, msg, mac, burst) := frameTag f
  (keysAccepted s pair).any fun k => macOk k msg mac && (!burst || (k.1 == 0 && mac.length == 16))

/-- TAG_OUTCOME (R251, R252): the tag engine has checked the tag of the n-th frame of the ingress queue; a frame without a
tag has no pass. -/
def execTagOutcome (l : Lane) (n : Fin 64) (s : State) : Res :=
  done (match (s.port l).ing[n.val]? with
    | some q => setQueued s l n { q with tag := some (tagPresent q.f && tagVerifies s q.f) }
    | none => s)

/-- Whether a frame passes under AUTH (R251); `none` while its tag check is not finished. -/
def tagPass (auth pair keyId : Nat) (q : QFrame) : Option Bool :=
  if auth = 0 then some true
  else if !tagPresent q.f then some (auth == 1)
  else q.tag.map fun ok => ok && keyId % 2048 == pair

-- The vendor routines ------------------------------------------------------------------------------------------------------

/-- The port group of a lane as a writer of points (R291). -/
def fePort (l : Nat) : PtSrc := .fe (if l < 6 then 0 else 1)

/-- What a vendor routine does with a frame: it cannot go on yet, it ends, or its LOOK finds no record. -/
inductive FrameRes where
  | wait
  | fin (s : State)
  | miss (s : State)

/-- The UNMATCHED hook takes a frame that no record matched (R272); where none is loaded, R260 applies. A hook that is
called has its own bound beyond the routine's. -/
def unmatched (s : State) (l ns : Nat) (q : QFrame) : State :=
  let t := (s.lane l).ing
  match hookEntry s t.old 2 with
  | some h =>
    let r := (routineFor s t.old q.f.etype.toNat).entry
    setFeThr s l false { FeThr.init with
      ptN := t.ptN, run := true, old := t.old, pc := h.entry, cust := some h.tenant, stk := [r], hookRet := some r, cyc := ns
      bound := ns + effBound s h }
  | none =>
    let x := s.lane l
    endThread (setFeThr (hostPath (s.setLane l { x with free := x.free + ns * nsU }) l q.f q.stamp) l false
      { t with run := false }) l false

/-- When the routine for the head frame starts, or has started. -/
def frameStart (s : State) (l : Nat) (q : QFrame) : Nat :=
  if (s.lane l).ing.run then (s.lane l).free else laneStart s l q

/-- The vendor routine takes the whole frame at the head of a lane's queue, within `ns` of its start, which waits for the
lane's occupancy by earlier frames (R237, R273). A loaded PRE hook
runs first, and its bound adds to the lane's occupancy (R272, R273). -/
def frameDo (s : State) (l ns : Nat) (act : State → QFrame → FrameRes) : State :=
  match headFrame s l with
  | none => s
  | some q =>
    let t := (s.lane l).ing
    let pre := hookEntry s t.old 1
    if !lanesRun s l || t.commit || t.hookRet.isSome then s
    else if pre.isSome && !t.run then ingressStart s l
    else
      let ns := ns + (match pre with | some h => effBound s h | none => 0)
      let start := frameStart s l q
      let free (s : State) (at_ : Nat) : State := s.setLane l { s.lane l with free := at_ }
      match act (s.advanceTo (start + ns * nsU)) q with
      | .fin s => endThread (setFeThr (free s (start + ns * nsU)) l false { feThr s l false with run := false }) l false
      | .miss s => unmatched (free s start) l ns q
      | .wait => s

/-- BOUNDX of the 1.2 GHz clock, where it applies (R273). -/
def slowNs (s : State) (n : Nat) : Nat := if s.clk.slow then n else 0

-- Sampled values (R242–R245) -------------------------------------------------------------------------------------------------

/-- The selected channels in ascending order. -/
def svSel (ws : List Word) (cs : List SvChannel) : List SvChannel :=
  (cs.zipIdx.filter fun c => bit (wd ws 6) c.2).map Prod.fst

/-- An INT32 sample shifted right by k and saturated to i16 (R244). -/
def svI16 (v : Word) (k : Nat) : Nat :=
  let x := sval 32 v.toNat / (2 : Int) ^ k
  uenc 16 (max (-32768) (min 32767 x))

/-- The writes of one ASDU: address and bytes (R244). -/
def svWrites (ws : List Word) (a : Asdu) : List (Nat × List Byte) :=
  let sel := svSel ws a.chans
  let n := sel.length
  let base := bits (wd ws 4) 0 24
  let len := bits (wd ws 5) 0 16
  let k := bits (wd ws 6) 24 4
  let sl := a.smpCnt % len
  match bits (wd ws 4) 24 3 with
  | 0 => [(base + 4 * n * sl, sel.flatMap fun c => leBytes 4 c.value.toNat)]
  | 1 => [(base + 8 * n * sl, sel.flatMap fun c => leBytes 4 c.value.toNat ++ leBytes 4 c.quality.toNat)]
  | 2 => [(base + 2 * n * sl, sel.flatMap fun c => leBytes 2 (svI16 c.value k))]
  | 3 => sel.zipIdx.map fun (c, j) => (base + 4 * (j * len + sl), leBytes 4 c.value.toNat)
  | _ => sel.zipIdx.map fun (c, j) => (base + 2 * (j * len + sl), leBytes 2 (svI16 c.value k))

/-- Write all of them to a tenant's Plate space as the Frame Engine: 0, or what the worst of them met (R24, R74). -/
def ringWrites (s : State) (t : Nat) (ws : List (Nat × List Byte)) : Nat × State :=
  ws.foldl (fun (r, s) (a, bs) => if r = 3 then (r, s) else let (o, s) := feWrite s t a bs; (max r o, s))
    (0, sampleDue s s.nowCyc)

/-- Rank of a validity: good, questionable, then invalid; the reserved code counts as invalid. -/
def validRank : Nat → Nat
  | 0 => 0 | 3 => 1 | _ => 2

/-- The worst validity of channels, as a QUALITY (R245, R286). -/
def worstValidity (cs : List SvChannel) : Nat :=
  match cs.foldl (fun m c => max m (validRank (c.quality.toNat % 4))) 0 with
  | 0 => 0 | 1 => 3 | _ => 1

/-- Samples missing between consecutive sample counters modulo the wrap. -/
def svMissing (wrap prev now : Nat) : Nat := (now + 2 * wrap - prev - 1) % wrap

/-- Missing samples over the ASDUs of a frame, from the last counter on. -/
def svMissAll (wrap : Nat) : Option Nat → List Asdu → Nat
  | _, [] => 0
  | none, a :: r => svMissAll wrap (some a.smpCnt) r
  | some p, a :: r => svMissing wrap p a.smpCnt + svMissAll wrap (some a.smpCnt) r

/-- A ring failure: poison abandons the routine (R74), and else the samples are dropped and counted against the stream
(R24). -/
def ringFail (s : State) (l k i r : Nat) : State :=
  if r = 3 then abandonRec s l (s.lane l).ing abUE
  else recDrop (laneCount s l fFE_RINGDROP_CNT_CNT kFE_LSTAT_RINGDROP) k i

/-- A matched and accepted SV frame: rings, status point, activation (R244, R245, R19). -/
def svStore (s : State) (l i : Nat) (ws : List Word) (q : QFrame) (as : List Asdu) : State :=
  let t := bits (wd ws 0) 16 8
  let (r, s) := ringWrites s t (as.flatMap (svWrites ws))
  if r != 0 then ringFail s l 1 i r
  else
    let x := s.rst 1 i
    let wrap := bits (wd ws 5) 16 16
    let miss := svMissAll wrap (if x.seen then some x.last else none) as
    let lastA := as.getLastD ⟨0, 0, 0, 0, []⟩
    let v := lastA.smpCnt % 2 ^ 16 + lastA.smpSynch.toNat * 2 ^ 16 + min miss 255 * 2 ^ 24
    let s := s.setRst 1 i { x with seen := true, last := lastA.smpCnt }
    let s := recPut (recBump s 1 i 0) 1 i 4 lastA.smpCnt
    let s := if miss = 0 then s else recBump s 1 i 7
    let s := { s with ptq := s.ptq ++ [⟨fePort l, bits (wd ws 7) 0 17, some (BitVec.ofNat 64 v),
      some (worstValidity (as.flatMap fun a => svSel ws a.chans)), some q.stamp, none, none, .none, 0, none, 0,
      some q.arr⟩] }
    if bit (wd ws 0) 30 then post s t 1 i q.stamp q.arr (wd ws 10) else s

/-- Whether an SV record takes the frame's streams (R243). -/
def svMatch (ws : List Word) (appid : Nat) (as : List Asdu) (f : Frame) (p : Nat) : Bool :=
  recMatch 1 ws appid f p && as.all fun a => a.svIdCrc.toNat == wd ws 8 && a.confRev.toNat == wd ws 9

/-- SV_FRAME for the frame of a lane. -/
def svFrame (s : State) (l : Nat) (q : QFrame) (appid : Nat) (sim : Bool) (as : List Asdu) (other : Bool) : FrameRes :=
  let r := if other || as.isEmpty || 8 < as.length then none else findRec s 1 fun ws => svMatch ws appid as q.f l
  match r with
  | none => .miss s
  | some i =>
    let ws := s.recw 1 i
    if bit (wd ws 0) 29 != sim then .fin (recDrop s 1 i)
    else match tagPass (bits (wd ws 0) 27 2) (bits (wd ws 7) 21 11) (tagKeyId q.f) q with
      | none => .wait
      | some false => .fin (authFail s l 1 i)
      | some true =>
        if as.all fun a => a.chans.length == bits (wd ws 3) 24 5 && a.smpCnt < bits (wd ws 5) 16 16
        then .fin (svStore s l i ws q as)
        else .fin (recMalform s l 1 i)

/-- Selected channels of the record that takes an SV frame, for its bound. -/
def svSelCount (s : State) (l : Nat) (q : QFrame) (appid : Nat) (as : List Asdu) : Nat :=
  match findRec s 1 fun ws => svMatch ws appid as q.f l with
  | some i => ((List.range 24).filter fun c => bit (wd (s.recw 1 i) 6) c).length
  | none => 0

-- GOOSE (R246–R248) ----------------------------------------------------------------------------------------------------------

/-- What a received member gives a point (R285, R300): the value or the quality, `none` where its type differs. A
T member gives nothing. -/
def memberTake (s : State) (e : Nat) (m : GooseMember) : Option (Option Nat × Option Nat) :=
  if bit e 18 then (match m with | .utc _ => some (none, none) | _ => none)
  else if bit e 17 then (match m with | .bits _ v => some (none, some (v.toNat % 2 ^ 13)) | _ => none)
  else match (s.pt (bits e 0 17)).ty, m with
    | 1, .bool b => some (some (b2n b), none)
    | 2, .bits _ v => some (some v.toNat, none)
    | 3, .bits _ v => some (some v.toNat, none)
    | 4, .int v => some (some v.toNat, none)
    | 5, .uint v => some (some v.toNat, none)
    | 6, .f32 v => some (some v.toNat, none)
    | 7, .f64 v => some (some v.toNat, none)
    | 8, .utc v => some (some v.toNat, none)
    | 9, .octets _ v => some (some v.toNat, none)
    | _, _ => none

/-- Take every member; `none` if one differs from the dataset. -/
def membersTake (s : State) : List Nat → List GooseMember → Option (List (Nat × Option Nat × Option Nat))
  | [], [] => some []
  | e :: es, m :: ms =>
    match memberTake s e m, membersTake s es ms with
    | some x, some xs => some ((bits e 0 17, x) :: xs)
    | _, _ => none
  | _, _ => none

/-- Merge members of one point at the position of its first (R301). -/
def mergeMembers (xs : List (Nat × Option Nat × Option Nat)) : List (Nat × Option Nat × Option Nat) :=
  (xs.foldl (fun acc x =>
    if acc.any fun y => y.1 == x.1 then
      replaceFirst (fun y => y.1 == x.1) (fun y => (y.1, x.2.1.orElse fun _ => y.2.1, x.2.2.orElse fun _ => y.2.2)) acc
    else acc ++ [x]) []).filter fun x => x.2.1.isSome || x.2.2.isSome

/-- Write a dataset's points for a GOOSE subscription, for a trigger at `trigM` on the monotonic timebase. -/
def goosePut (s : State) (src : PtSrc) (ts trigM budget : Nat) (xs : List (Nat × Option Nat × Option Nat)) : State :=
  { s with ptq := s.ptq ++ xs.map fun (p, v, q) =>
      ⟨src, p, v.map (BitVec.ofNat 64), q, some ts, none, some budget, .none, 0, none, 0, some trigM⟩ }

/-- timeAllowedtoLive restarts (R248). -/
def talRestart (s : State) (i ms : Nat) : State :=
  s.setRst 2 i { s.rst 2 i with tal := some (s.now + ms * 1000000 * nsU) }

/-- A step of the frame sequence that is no gap: the next sqNum of one stNum, or a first frame of the next (R334). -/
def gooseNext (x : RecSt) (st sq : Nat) : Bool :=
  !x.seen || (if st = x.last then sq == x.lastSq || sq == (x.lastSq + 1) % 2 ^ 32 || (x.lastSq == 0xFFFFFFFF && sq == 1)
    else st == (x.last + 1) % 2 ^ 32 || (x.last == 0xFFFFFFFF && st == 1))

/-- A frame of a GOOSE stream is taken: counters and the last numbers. -/
def gooseTake (s : State) (i st sq : Nat) : State :=
  let x := s.rst 2 i
  let s := if gooseNext x st sq then s else recBump s 2 i 7
  let s := s.setRst 2 i { s.rst 2 i with seen := true, last := st, lastSq := sq }
  recPut (recPut (recBump s 2 i 0) 2 i 4 st) 2 i 5 sq

/-- The rows of R248 for a matching frame. -/
def gooseRows (s : State) (l i : Nat) (ws : List Word) (q : QFrame) (g : GooseBody) : State :=
  let x := s.rst 2 i
  if bit (wd ws 0) 29 != g.sim then recDrop s 2 i
  else if g.ndsCom then recBump (talRestart s i g.talMs) 2 i 0
  else if x.seen && x.last == g.stNum.toNat then gooseTake (talRestart s i g.talMs) i g.stNum.toNat g.sqNum.toNat
  else match membersTake s (dsMembers s (bits (wd ws 7) 0 13)) g.members with
    | none => recMalform s l 2 i
    | some xs =>
      let s := goosePut s (fePort l) q.stamp q.arr (wd ws 8) (mergeMembers xs)
      gooseTake (talRestart s i g.talMs) i g.stNum.toNat g.sqNum.toNat

/-- The subscription that takes a GOOSE frame on lane l (R247). -/
def gooseRec (s : State) (l : Nat) (f : Frame) (appid : Nat) (g : GooseBody) : Option Nat :=
  findRec s 2 fun ws => recMatch 2 ws appid f l && g.refCrc.toNat == wd ws 4 && g.dsCrc.toNat == wd ws 5 &&
      g.confRev.toNat == wd ws 6

/-- GOOSE_FRAME for the frame of a lane. -/
def gooseFrame (s : State) (l : Nat) (q : QFrame) (appid : Nat) (g : GooseBody) : FrameRes :=
  match gooseRec s l q.f appid g with
  | none => .miss s
  | some i =>
    let ws := s.recw 2 i
    match tagPass (bits (wd ws 0) 27 2) (bits (wd ws 7) 21 11) (tagKeyId q.f) q with
    | none => .wait
    | some false => .fin (authFail s l 2 i)
    | some true =>
      if g.unsup || g.members.isEmpty || 64 < g.members.length then .fin (recDrop (raise s kFE_LSTAT_UNSUP l) 2 i)
      else .fin (gooseRows s l i ws q g)

/-- The bound of a GOOSE routine (R273). -/
def gooseBound (s : State) (g : GooseBody) : Nat := 48 + 5 * g.members.length + slowNs s 4

/-- A frame that GOOSE subscription i takes is at the head of a lane and complete by the instant `d` (R261). -/
def gooseDue (s : State) (i d : Nat) : Bool :=
  (List.range 12).any fun l =>
    match (headFrame s l).map fun q => (q, q.f.body) with
    | some (q, FrameBody.goose a g) =>
      lanesRun s l && gooseRec s l q.f a.toNat g == some i && laneStart s l q + gooseBound s g * nsU ≤ d
    | _ => false

/-- TAL_EXPIRY (R248): every point of the dataset becomes invalid with oldData; a matching frame that completes in time is
taken first (R261). -/
def talExpire (s : State) (i : Nat) : State :=
  match (s.rst 2 i).tal with
  | none => s
  | some d =>
    if gooseDue s i d then s else
    let s := s.advanceTo d
    let s := recBump (s.setRst 2 i { s.rst 2 i with tal := none }) 2 i 6
    let ws := s.recw 2 i
    let ps := ((dsMembers s (bits (wd ws 7) 0 13)).map fun e => bits e 0 17).eraseDups
    let src : PtSrc := .fe (if bits (wd ws 2) 16 6 != 0 then 0 else 1)
    goosePut s src s.tai s.now (wd ws 8) (ps.map fun p => (p, none, some 0x81))

-- Burst SV (R253–R255) -----------------------------------------------------------------------------------------------------------

/-- Whether a Burst SV record takes a block (R255) of a frame with `tags` VLAN tags (R234). -/
def bsvMatch (ws : List Word) (tags bsid confRev ch p : Nat) : Bool :=
  tags ≤ 1 && bit (wd ws 0) 31 && bits (wd ws 0) 0 16 == bsid && wd ws 1 % 256 == ch && bit (wd ws 2) (16 + p) && wd ws 6 == confRev

/-- Quality of a block's Q (R254, R286): invalid, overrange as outOfRange, test. -/
def bsvQuality (q : Nat) : Nat := b2n (bit q 0) + b2n (bit q 1) * 2 ^ 3 + b2n (bit q 2) * 2 ^ 11

/-- One block that a record takes, and whether the frame goes on: poison ends it (R74). -/
def bsvBlock (s : State) (l i : Nat) (ws : List Word) (q : QFrame) (b : List Byte) : Bool × State :=
  let S := netField b 2 2
  if netField b (20 + 2 * S) 4 != crc32 (b.take (20 + 2 * S)) then (true, recMalform s l 4 i)
  else
    let t := bits (wd ws 0) 16 8
    let smpn := netField b 4 4
    let len := wd ws 4 % 65536
    let (r, s) := ringWrites s t ((List.range S).map fun j =>
      (bits (wd ws 3) 0 24 + 2 * ((smpn + j) % len), leBytes 2 (netField b (20 + 2 * j) 2)))
    if r != 0 then (r != 3, ringFail s l 4 i r)
    else
      let x := s.rst 4 i
      let d := (smpn + 2 ^ 32 - x.last) % 2 ^ 32
      let miss := if x.seen && d != 0 then d / S - 1 else 0
      let s := s.setRst 4 i { x with seen := true, last := smpn }
      let s := recPut (recBump s 4 i 0) 4 i 4 smpn
      let s := if miss = 0 then s else recBump s 4 i 7
      let s := { s with ptq := s.ptq ++ [⟨fePort l, bits (wd ws 5) 0 17, some (BitVec.ofNat 64 (smpn + min miss 255 * 2 ^ 32)),
        some (bsvQuality (netField b 17 1)), some (netField b 8 8), none, none, .none, 0, some q.stamp, 0,
        some q.arr⟩] }
      (true, if bit (wd ws 0) 30 then post s t 2 i q.stamp q.arr (wd ws 7) else s)

/-- One block against its record, and whether the frame goes on. -/
def bsvTake (s : State) (l : Nat) (q : QFrame) (bs b : List Byte) : Option (Bool × State) :=
  match findRec s 4 fun ws => bsvMatch ws q.f.tags.length (netField bs 4 2) (netField bs 8 4) (netField b 0 1) l with
  | none => some (true, s)
  | some i =>
    let ws := s.recw 4 i
    if bit (wd ws 0) 29 != bit (netField bs 2 1) 0 then some (true, recDrop s 4 i)
    else match tagPass (bits (wd ws 0) 27 2) (bits (wd ws 4) 21 11) (bsvKeyId bs) q with
      | none => none
      | some false => some (true, authFail s l 4 i)
      | some true => some (bsvBlock s l i ws q b)

/-- BURST_SV_FRAME for the frame of a lane. -/
def bsvFrame (s : State) (l : Nat) (q : QFrame) : FrameRes :=
  let bs := payload q.f
  let bad (s : State) := laneCount s l fFE_MALFORM_CNT_CNT kFE_LSTAT_MALFORM
  let n := netField bs 3 1
  if netField bs 0 1 != 1 || netField bs 1 1 != 1 || n = 0 || 2 < n then .fin (bad s)
  else
    let (blocks, ok) := bsvBlocks bs n 12
    let s := if ok then s else bad s
    let hit := blocks.any fun b =>
      (findRec s 4 fun ws => bsvMatch ws q.f.tags.length (netField bs 4 2) (netField bs 8 4) (netField b 0 1) l).isSome
    if !hit then (if ok then .miss s else .fin s)
    else match blocks.foldl (fun (o : Option (Bool × State)) b => o.bind fun (go, s) =>
        if go then bsvTake s l q bs b else some (go, s)) (some (true, s)) with
      | some (_, s) => .fin s
      | none => .wait

-- Proof beacons (R360, R361) --------------------------------------------------------------------------------------------------------

/-- KS_EXP word k of entry e: words 0–5 in effect (R364). -/
def expWord (s : State) (e k : Nat) : Nat :=
  match k with
  | 0 => (s.effReg rKS_EXP0 e 0).toNat | 1 => (s.effReg rKS_EXP1 e 0).toNat | 2 => (s.effReg rKS_EXP2 e 0).toNat
  | 3 => (s.effReg rKS_EXP3 e 0).toNat | 4 => (s.effReg rKS_EXP4 e 0).toNat | _ => (s.effReg rKS_EXP5 e 0).toNat

def expState (s : State) (e : Nat) : Nat := (s.reg rKS_EXP7 e 0).toNat % 4

/-- STATE of entry e changes (R361): the flag, the notice and the status point. -/
def expChange (s : State) (e st : Nat) : State :=
  if expState s e = st then s
  else
    let s := s.setReg rKS_EXP7 e 0 (w32 st)
    let s := if st = 2 then raise s kKS_STAT_MISMATCH else if st = 3 then raise s kKS_STAT_SILENT else s
    let s := notice s 40 (if st = 2 then 2 else if st = 3 then 4 else 0) e st
    let w5 := expWord s e 5
    if bit w5 31 then
      { s with ptq := s.ptq ++ [⟨.fe 0, bits w5 0 17, some (if st = 1 then 1 else 0),
          some (if st = 1 then 0 else if st = 2 then 1 else 0x81), none, none, none, .none, 0, none, 0, none⟩] }
    else s

def devIdNat : Nat := Config.devId.toNat

/-- PROOF_BEACON for the frame of a lane. -/
def beaconFrame (s : State) (l : Nat) (q : QFrame) : FrameRes :=
  let bs := payload q.f
  if netField bs 1 1 != 1 then .fin (laneCount s l fFE_MALFORM_CNT_CNT kFE_LSTAT_MALFORM)
  else if q.f.dmac != 0x034E56000002#48 || netField bs 4 8 = devIdNat then .fin s
  else
    let key := netField bs 38 4
    match tagPass 1 (key % 2048) key q with
    | none => .wait
    | some false => .fin (notice (laneCount s l fFE_AUTHFAIL_CNT_CNT kFE_LSTAT_AUTHFAIL) (76 + l) 1 0 0)
    | some true =>
      if !s.fb fKS_CTL_CHK then .fin s
      else
        let m (e : Nat) : Bool := bit (expWord s e 4) 31 && bit (expWord s e 4) (16 + l) &&
          expWord s e 0 + 2 ^ 32 * expWord s e 1 == netField bs 4 8
        match (List.range 64).find? m with
        | none => .fin s
        | some e =>
          let same := expWord s e 2 == netField bs 12 4 && expWord s e 3 == netField bs 16 4
          let s := { s.setReg rKS_EXP6 e 0 (w32 (taiSec s.tai)) with ks := { s.ks with heard := tput s.ks.heard e s.now } }
          .fin (expChange s e (if same then 1 else 2))

/-- SILENT (R361): no beacon for MISS seconds. -/
def silentEntry (s : State) (e : Nat) : State :=
  let w := expWord s e 4
  let miss := w % 256
  if !s.fb fKS_CTL_CHK || !bit w 31 || miss = 0 || expState s e = 3 then s
  else
    expChange (s.advanceTo (tget 0 s.ks.heard e + miss * sec * nsU)) e 3

-- The MAC and the pairs (R233, R237–R241) ---------------------------------------------------------------------------------------------

/-- Push a frame onto a port's ingress queue (R237, R280). Where it does not fit, a pop of the same cycle still takes it in
(R235). -/
def pushIngress (s : State) (p : Nat) (f : Frame) : State :=
  let x := s.port p
  let q : QFrame := ⟨f, replicaTime s (portIsl p), none, s.now + modeIngress (portMode s p) * nsU, s.now⟩
  if !s.fb fFE_CTL_RUN || s.stopped then s.bump fEP_RXQ_CNT_CNT p
  else if ingFits x f then s.setPort p { x with ing := x.ing ++ [q] }
  else (s.setPort p { x with lateIn := some q }).bump fEP_RXQ_CNT_CNT p

/-- FORGET of a pair in timebase units, held to its range (R239). -/
def forgetU (s : State) (q : Nat) : Nat := max 1 (min 1000 (s.e fEP_RDCFG_FORGET q)) * 1000000 * nsU

/-- An entry of the duplicate table that stands for a frame. -/
def dupIs (f : Frame) (e : BitVec 48 × BitVec 16 × Nat × Nat) : Bool := e.1 == f.smac && some e.2.1 == f.red

/-- Two copies whose last bits arrive in one port-group cycle (R23): the one on the lower-numbered port is kept, and takes
the place of the one that was queued. -/
def dupSwap (s : State) (p : Nat) (f : Frame) : Option State :=
  let x := s.pair (p / 2)
  match x.dup.find? fun e => dupIs f e && e.2.2.1 / nsU == s.now / nsU && p < e.2.2.2 with
  | some e =>
    let s := s.setPair (p / 2) { x with dup := x.dup.map fun y => if y == e then (e.1, e.2.1, e.2.2.1, p) else y }
    some (s.modPort e.2.2.2 fun y => { y with ing := y.ing.filter fun q => !(dupIs q.f e && q.arr == e.2.2.1) })
  | none => none

/-- Duplicate discard (R23, R239): whether this is the first copy, which then enters the table. -/
def dupFirst (s : State) (p : Nat) (f : Frame) : Bool × State :=
  let q := p / 2
  match f.red with
  | none => (true, s)
  | some n =>
    let x := s.pair q
    let live := x.dup.filter fun e => s.now < e.2.2.1 + forgetU s q
    if live.any (dupIs f) then (false, s.setPair q { x with dup := live })
    else
      let new := [(f.smac, n, s.now, p)]
      if 2048 ≤ live.length then
        (true, (s.setPair q { x with dup := live.drop 1 ++ new }).bump fEP_DUPEVICT_CNT_CNT (2 * q))
      else (true, s.setPair q { x with dup := live ++ new })

/-- A frame that the RedBox passes between ring and interlink, in class 2. -/
def forwarded (f : Frame) (red : Option (BitVec 16)) : TxFrame :=
  ⟨{ f with ringForward := true, red := red }, 2, none, none, none, none, 0⟩

/-- RedBox forwarding, store-and-forward (R241): from the ring to the interlink, and from the interlink to both ring
ports with the pair's next sequence number. -/
def redboxForward (s : State) (p : Nat) (f : Frame) : State :=
  match interlink s (p / 2) with
  | some il => if f.dmac == portMac s p then s else enqueue s il (forwarded f none)
  | none =>
    match (List.range 6).find? fun q => interlink s q == some p with
    | some q =>
      let x := s.pair q
      let s := s.setPair q { x with seq := (x.seq + 1) % 65536 }
      let t := forwarded f (some (BitVec.ofNat 16 x.seq))
      enqueue (enqueue s (2 * q) t) (2 * q + 1) t
    | none => s

/-- FRAME_RECEIVE: the last bit of a frame arrives at port p's balls. -/
def frameReceive (s : State) (p : Nat) (f : Frame) : State :=
  if !linkUp s p || !portEn s p || !portPower s p then s
  else
    let lim := if pairRed s (p / 2) = 0 then 1522 else 1528
    if !f.fcsOk || f.len < 64 || lim < f.len then s.bump fEP_RXERR_CNT_CNT p
    else match f.body with
      | .pause => s.bump fEP_RXCTL_CNT_CNT p
      | _ =>
        let s := s.bump fEP_RXOK_CNT_CNT p
        if pairRed s (p / 2) = 0 then pushIngress (redboxForward s p f) p f
        else match dupSwap s p f with
          | some s => pushIngress s p f
          | none =>
            let (first, s) := dupFirst s p f
            if first then pushIngress (redboxForward s p f) p f else s

/-- The fixed time of a cut-through port, ns (R241). -/
def cutNs (rate : Nat) : Nat := if 10000 ≤ rate then 256 else if rate = 1000 then 1024 else 8192

/-- CUT_THROUGH (R241, R310): a ring frame that is neither for this node nor its own leaves the other ring port. -/
def cutThrough (s : State) (p : Nat) (f : Frame) : State :=
  let q := p / 2
  let o := if p % 2 = 0 then p + 1 else p - 1
  let mine := f.dmac == portMac s p || f.smac == portMac s p || f.smac == portMac s o
  if pairRed s q < 2 || !linkUp s p || !linkUp s o || mine || s.stopped || !portPower s p then s
  else
    let ns := cutNs (modeRate (portMode s o))
    let body := match f.body with
      | .ptp m => match m.kind with
        | .sync => if ptpRole s p = 3 && ptpRole s o = 3 then FrameBody.ptp { m with corr := m.corr + ns } else f.body
        | _ => f.body
      | b => b
    let t : TxFrame := ⟨{ f with body := body, ringForward := true }, 3, none, none, none, none, 0⟩
    let s := s.advance (ns * nsU)
    s.modPort o fun x => match x.tx with
      | none => { x with tx := some t, txEnd := s.now + wireNs s o f.len * nsU }
      | some _ => { x with egq := t :: x.egq }

-- The commands ----------------------------------------------------------------------------------------------------------------

def execFrameReceive (p : Port) (f : Frame) (s : State) : Res := done (frameReceive s p f)
def execSvFrame (l : Lane) (s : State) : Res :=
  done (match (headFrame s l).map fun q => (q, q.f.body) with
    | some (q, FrameBody.sv a sim as other) =>
      frameDo s l (60 + as.length * (12 + 3 * max (svSelCount s l q a.toNat as) 8) + slowNs s 5)
        fun s q => svFrame s l q a.toNat sim as other
    | _ => s)
def execGooseFrame (l : Lane) (s : State) : Res :=
  done (match (headFrame s l).map fun q => q.f.body with
    | some (FrameBody.goose a g) =>
      frameDo s l (gooseBound s g) fun s q => gooseFrame s l q a.toNat g
    | _ => s)
def execBurstSvFrame (l : Lane) (s : State) : Res :=
  done (match headFrame s l with
    | some q =>
      if q.f.etype == 0x88B5#16 && netField (payload q.f) 0 1 != 2 then
        frameDo s l (40 + netField (payload q.f) 3 1 * (12 + netField (payload q.f) 14 2 / 4) + slowNs s 5)
          fun s q => bsvFrame s l q
      else s
    | none => s)
def execPtpEventFrame (l : Lane) (s : State) : Res :=
  done (match (headFrame s l).map fun q => q.f.body with
    | some (FrameBody.ptp _) => frameDo s l 24 fun s q => .fin (tsForward s l q)
    | _ => s)
def execProofBeacon (l : Lane) (s : State) : Res :=
  done (match headFrame s l with
    | some q =>
      if q.f.etype == 0x88B5#16 && netField (payload q.f) 0 1 == 2 then frameDo s l 40 fun s q => beaconFrame s l q else s
    | none => s)
def execSilent (e : Fin 64) (s : State) : Res := done (silentEntry s e)
def execTalExpiry (sub : Fin 4096) (s : State) : Res := done (talExpire s sub)
/-- DUPLICATE_FORGET (R239): FORGET after the first copy arrived, the entry goes. -/
def execDuplicateForget (pair : Fin 6) (mac : BitVec 48) (seq : BitVec 16) (s : State) : Res :=
  done (match (s.pair pair).dup.find? fun e => e.1 == mac && e.2.1 == seq with
    | some e =>
      let s := s.advanceTo (e.2.2.1 + forgetU s pair)
      s.setPair pair { s.pair pair with dup := (s.pair pair).dup.filter fun x => !(x.1 == mac && x.2.1 == seq) }
    | none => s)
def execCutThrough (p : Port) (f : Frame) (s : State) : Res := done (cutThrough s p f)

end Sys2Proof.Machine
end

