-- ==== Sys2Proof/Machine/Egress.lean ====
section
/-! DEFINITION. Publications and their ladder, egress scheduling, links, supervision, host frames and key changeover
(R229–R232, R240, R249–R262, R337, R349). -/

namespace Sys2Proof.Machine
open Sys2Proof

-- Publications (R249, R250, R305) ----------------------------------------------------------------------------------------

/-- TimeQuality as it stands at encoding (R305). -/
def timeQuality (s : State) : Nat :=
  let st := s.f fTU_SEL_STATE
  b2n s.tu.utcKnown * 128 + b2n (st == 0) * 64 + b2n (st ≤ 1) * 32 + tacc s

/-- A station time as UtcTime (R305): seconds under the offset in effect at that instant, 24-bit fraction and TimeQuality,
octet 0 in bits [7:0]. -/
def utcTime (s : State) (ts : Nat) : DWord :=
  let secs := uenc 32 ((taiSec ts : Int) - sval 16 (utcAt s ts))
  BitVec.ofNat 64 (leVal (beBytes 4 secs ++ beBytes 3 (taiNs ts * 2 ^ 24 / sec) ++ beBytes 1 (timeQuality s)))

/-- Members encoded again (R305): the time-stamp members take TimeQuality as it stands now. -/
def encodeAgain (s : State) (es : List Nat) (ms : List GooseMember) : List GooseMember :=
  ms.zipIdx.map fun (m, i) =>
    match m with
    | .utc v => if bit (es.getD i 0) 18 then .utc (BitVec.ofNat 64 (v.toNat % 2 ^ 56 + timeQuality s * 2 ^ 56)) else m
    | _ => m

/-- The member that a dataset entry sends (R285, R300). -/
def memberSend (s : State) (e : Nat) : GooseMember :=
  let p := s.pt (bits e 0 17)
  let v := p.val
  if bit e 18 then .utc (utcTime s p.ts)
  else if bit e 17 then .bits 13 (w32 p.q)
  else match p.ty with
    | 1 => .bool (v.toNat % 2 == 1)
    | 2 => .bits 2 (w32 v.toNat)
    | 3 => .bits 32 (w32 v.toNat)
    | 4 => .int v
    | 5 => .uint (w32 v.toNat)
    | 6 => .f32 (w32 v.toNat)
    | 7 => .f64 v
    | 8 => .utc v
    | _ => .octets 8 v

/-- Time-stamp members do not count as a difference (R250): they are masked. -/
def maskTimes (es : List Nat) (ms : List GooseMember) : List GooseMember :=
  ms.zipIdx.map fun (m, i) => if bit (es.getD i 0) 18 then .utc 0 else m

/-- timeAllowedtoLive factor (R249). -/
def talFactor : Nat → Nat
  | 2 => 3 | 3 => 4 | _ => 2

/-- A NUL-padded string field of a publication's template (R249). -/
def tmplField (s : State) (cb i : Nat) : List Byte :=
  (imgBytes ((tfind s.tmpls cb).getD []) (64 * i) 64).takeWhile (· != 0)

/-- The GOOSE frame of a control block for port p (R249). -/
def pubFrame (s : State) (cb : Nat) (ws : List Word) (p : Nat) (x : PubSt) (ms : List GooseMember) (talMs : Nat)
    (red : Option (BitVec 16)) : Frame :=
  let g : GooseBody :=
    { t := utcTime s x.at_, refCrc := w32 (crc32 (tmplField s cb 0)), dsCrc := w32 (crc32 (tmplField s cb 1)), confRev := w32 (wd ws 7),
      stNum := w32 x.st, sqNum := w32 x.sq, sim := bit (wd ws 0) 27, ndsCom := false, talMs := talMs, members := ms,
      unsup := false, fixLen := bit (wd ws 0) 28, goId := tmplField s cb 2 }
  let tags := if bit (wd ws 3) 12 then [BitVec.ofNat 16 (bits (wd ws 3) 13 3 * 2 ^ 13 + wd ws 3 % 4096)] else []
  let dmac := BitVec.ofNat 48 (wd ws 1 + 2 ^ 32 * bits (wd ws 2) 0 16)
  let f := mkFrame dmac (portMac s p) tags 0x88B8 (.goose (BitVec.ofNat 16 (wd ws 0)) g) 0 []
  { f with red := red, len := max 64 (Config.frameLen { f with red := red }) }

/-- The egress build stage after the dataset push (R51): the crossing, 5 ns, frame build, 30 ns, and tag finish, 40 ns. -/
def buildNs : Nat := 75

/-- Hand a control block's frame to the lanes of its ports, with its numbers in the record's status (R334); a pair's two
ports share one sequence number (R238). -/
def sendPub (s : State) (cb : Nat) (ws : List Word) (x : PubSt) (ms : List GooseMember) (cls : Nat) (dec : Option Nat)
    (deadline : Option Nat) : State :=
  let talMs := cdiv (talFactor (bits (wd ws 6) 0 2) * x.iv) 1000
  let s := recPut (recPut s 3 cb 4 x.st) 3 cb 5 x.sq
  (List.range 6).foldl (fun s q =>
    let on (p : Nat) : Bool := bit (wd ws 2) (16 + p)
    if !on (2 * q) && !on (2 * q + 1) then s
    else
      let pr := s.pair q
      let red := if pairRed s q = 0 then none else some (BitVec.ofNat 16 pr.seq)
      let s := if red.isSome then s.setPair q { pr with seq := (pr.seq + 1) % 65536 } else s
      [2 * q, 2 * q + 1].foldl (fun s p =>
        if on p then
          let l := s.lane p
          s.setLane p { l with build := l.build ++
            [⟨pubFrame s cb ws p x ms talMs red, cls, deadline, dec, some (bits (wd ws 0) 16 8), some cb, crossed s.now nsU buildNs⟩] }
        else s) s) s

/-- Safelight's copy of a control block's stNum (R411). -/
def safeStNum (s : State) (cb st : Nat) : State :=
  (List.range 8).foldl (fun s i =>
    if s.fb fSL_SAFE0_V i && s.f fSL_SAFE3_CB i == cb then s.setReg rSL_SAFEST i 0 (w32 st) else s) s

/-- The next number of a count that wraps from 0xFFFF_FFFF to 1 (R250). -/
def wrap1 (n : Nat) : Nat := if n = 0xFFFFFFFF then 1 else n + 1

/-- The members that a request would send now. -/
def pubMembers (s : State) (ws : List Word) (fallback : Bool) : List Nat × List GooseMember :=
  let es := dsMembers s (if fallback then bits (wd ws 4) 16 13 else bits (wd ws 4) 0 13)
  (es, es.map (memberSend s))

/-- Serve one publication request (R250): an event sends a frame and restarts the ladder; a refresh sends nothing. -/
def publish (s : State) (r : PubReq) : State :=
  let ws := s.recw 3 r.cb
  if !bit (wd ws 0) 31 || standby s || s.stopped then s
  else
    let (es, ms) := pubMembers s ws r.fallback
    let x := s.pub r.cb
    let same : Bool := match x.last with | some old => maskTimes es old == maskTimes es ms | none => false
    if same && !r.takeover then s
    else
      let t1 := min (bits (wd ws 5) 0 16) (bits (wd ws 5) 16 16 * 1000)
      let x := { x with st := wrap1 x.st, sq := 0, last := some ms, iv := t1, due := some (s.now + t1 * 1000 * nsU)
                        at_ := s.tai, fb := r.fallback }
      let s := safeStNum (s.setPub r.cb x) r.cb x.st
      let s := sendPub s r.cb ws x ms (if r.dec.isSome || r.fallback then 3 else 2) r.dec r.deadline
      if ubActive s && s.fb fUB_CTL_EN then ubSend s 1 4 (beBytes 4 r.cb ++ beBytes 4 x.st) else s

/-- The instant at which a request has crossed to egress and its dataset is pushed: 8 fabric cycles after it (R51). -/
def pushedAt (s : State) (r : PubReq) : Nat := crossed r.at_ s.cyc 8

/-- PUBLICATION_REQUEST (R250): the oldest request, once no released point write is on its way to the sheet. -/
def publicationRequest (s : State) : State :=
  match s.pubq with
  | [] => s
  | r :: rs =>
    if !fabricOn s || s.ptq.any fun w => w.src == .ez then s
    else endHolds (publish { s.advanceTo (pushedAt s r) with pubq := rs } r)

/-- A request that is an event of a control block falls due by the instant `d` (R261). -/
def eventDue (s : State) (cb d : Nat) : Bool :=
  s.pubq.any fun r => r.cb == cb && pushedAt s r ≤ d && (r.takeover ||
    let (es, ms) := pubMembers s (s.recw 3 cb) r.fallback
    !(match (s.pub cb).last with | some old => maskTimes es old == maskTimes es ms | none => false))

/-- RETRANSMISSION (R250): the ladder's next frame of a control block; an event that falls due with it takes its place
(R261). -/
def retransmit (s : State) (cb : Nat) : State :=
  let ws := s.recw 3 cb
  let x := s.pub cb
  match x.due, x.last with
  | some d, some ms =>
    if eventDue s cb d || !fabricOn s then s else
    let s := s.advanceTo d
    let iv := min (2 * x.iv) (bits (wd ws 5) 16 16 * 1000)
    let x := { x with sq := wrap1 x.sq, iv := iv, due := some (d + iv * 1000 * nsU) }
    if !bit (wd ws 0) 31 then s.setPub cb { x with due := none }
    else if standby s || s.stopped then s
    else sendPub (s.setPub cb x) cb ws x (encodeAgain s (pubMembers s ws x.fb).1 ms) 2 none none
  | _, _ => s

-- The wire (R256–R258) --------------------------------------------------------------------------------------------------------

/-- Whether a frame may start while holds stand (R257). -/
def mayStart (s : State) (p : Nat) (t : TxFrame) : Bool :=
  t.cls == 3 || t.f.ringForward || !s.fb fEP_EG_DEC p || (s.port p).holds.isEmpty

/-- The frame that starts next (R256): of the highest class that waits, the oldest, among those that are built and may
start. -/
def nextTx (s : State) (p : Nat) : Option (TxFrame × List TxFrame) :=
  let q := (s.port p).egq
  let ok (t : TxFrame) : Bool := mayStart s p t && t.rdy ≤ s.now
  let top := (q.filter ok).foldl (fun m t => max m t.cls) 0
  takeOut (fun t => t.cls == top && ok t) q

/-- Let time pass until a frame that may start is built, where none is yet (R51). -/
def untilBuilt (s : State) (p : Nat) : State :=
  match (s.port p).egq.filter (mayStart s p) with
  | [] => s
  | t :: ts => s.advanceTo (ts.foldl (fun m x => min m x.rdy) t.rdy)

/-- An activation's hold on a port goes when the last of its decision frames has entered the MAC (R257). -/
def dropHold (s : State) (p : Nat) (dec : Option Nat) : State :=
  match dec with
  | some id => if decWaiting s p id then s else s.modPort p fun x => { x with holds := x.holds.filter (· != id) }
  | none => s

/-- The egress stamp (R307): the first bit after the preamble and the start-of-frame delimiter, 8 bytes, at the balls. -/
def egressStamp (s : State) (p : Nat) : Nat :=
  replicaTime s (portIsl p) + modeEgress (portMode s p) + 64000 / modeRate (portMode s p)

/-- TRANSMIT_START: a frame is handed to the MAC. -/
def transmitStart (s : State) (p : Nat) : State :=
  if !linkUp s p || !portEn s p || !portPower s p || (s.port p).tx.isSome then s
  else
  let s := untilBuilt s p
  match nextTx s p with
    | none => s
    | some (t, rest) =>
      let out := s.now + modeEgress (portMode s p) * nsU
      let s := s.modPort p fun x => { x with egq := rest, tx := some t, txEnd := out + wireNs s p t.f.len * nsU }
      let s := acceptLate s p t.cls
      let late : Bool := match t.deadline with | some d => t.cls == 3 && d < out | none => false
      let s := raiseIf late s kEP_STAT_DLATE p
      let s := dropHold s p t.dec
      match t.f.body with
      | .ptp m => if t.f.ringForward then s else ptpSent s p (egressStamp s p) m
      | _ => s

/-- TRANSMIT_END: the last bit has left. -/
def transmitEnd (s : State) (p : Nat) : State :=
  if (s.port p).tx.isNone then s
  else
    let s := s.advanceTo (s.port p).txEnd
    (s.modPort p fun x => { x with tx := none }).bump fEP_TXOK_CNT_CNT p

-- Links (R229–R232) --------------------------------------------------------------------------------------------------------------

/-- A link goes down (R231, R232): its frames are lost and the lane's routines abandoned. -/
def linkDown (s : State) (p : Nat) : State :=
  if !linkUp s p then s
  else
    let s := (s.setF fEP_LINK_UP 0 p).setF fEP_LINK_FECLOCK 0 p
    let s := s.bump fEP_LINK_RETRAINS p
    let n := (s.port p).egq.length + b2n (s.port p).tx.isSome
    let s := s.bump fEP_TXLOST_CNT_CNT p 0 n
    let s := s.modPort p fun x => { x with egq := [], tx := none, ing := x.ing.filter fun q => q.ready ≤ s.now }
    let s := if (s.lane p).ing.commit then s else abandon s p false abLINK
    endHolds (raise (if (s.lane p).eg.commit then s else abandon s p true abLINK) kEP_STAT_LINKDN p)

/-- A port can carry a link: enabled, with a mode of the table, usable and powered. -/
def portReady (s : State) (p : Nat) : Bool :=
  portPower s p && portEn s p && modeRate (portMode s p) != 0 && !bit (unitBad s fBI_UNUSABLE_PORTS) p

/-- LINK_UP (R230, R231); an SGMII speed other than MODE's keeps the link down. -/
def linkUpEvent (s : State) (p sgmii : Nat) : State :=
  let m := portMode s p
  if !portReady s p then s
  else if (m == 3 || m == 4) && sgmii != modeRate m then raise (linkDown s p) kEP_STAT_SPEED p
  else if linkUp s p then s
  else (s.setF fEP_LINK_UP 1 p).setF fEP_LINK_FECLOCK (b2n (m == 7)) p

/-- A write of EPn_CTL (R232, R238, R262). -/
def epCtl (s : State) (p : Nat) (v : Word) : State :=
  let w := v.toNat
  if s.fb fEP_CTL_LOCK p then s
  else
    let en := portEn s p
    let mode := bits w 1 4
    let refused := en && mode != portMode s p
    let s := if en then s else s.setF fEP_CTL_MODE mode p
    let s := raiseIf refused s kEP_STAT_CFGREF p
    let newEn := bit w 0 && !bit (unitBad s fBI_UNUSABLE_PORTS) p
    let s := if en && !newEn then linkDown s p else s
    let s := loadPair s (p / 2)
    let s := s.setF fEP_CTL_EN (b2n newEn) p
    let s := checkPair (loadPair s (p / 2)) (p / 2)
    s.setF fEP_CTL_LOCK (b2n (bit w 31)) p

-- Supervision, host frames, keys ----------------------------------------------------------------------------------------------------

/-- LIFE of a pair in timebase units, held to its range (R240). -/
def lifeU (s : State) (q : Nat) : Nat := max 100 (min 10000 (s.e fEP_RDCFG_LIFE q)) * 1000000 * nsU

/-- SUPERVISION_SEND (R240). -/
def supervisionSend (s : State) (q : Nat) : State :=
  if pairRed s q = 0 || s.stopped || !portPower s (2 * q) then s
  else
    let s := s.advanceTo ((s.port (2 * q)).life + lifeU s q)
    let s := s.modPort (2 * q) fun x => { x with life := s.now }
    let pr := s.pair q
    let s := s.setPair q { pr with seq := (pr.seq + 1) % 65536 }
    [2 * q, 2 * q + 1].foldl (fun s p =>
      let f := mkFrame 0x01154E000100#48 (portMac s p) [] 0x88FB .supervision 64 []
      handLane s p ⟨{ f with red := some (BitVec.ofNat 16 pr.seq) }, 1, none, none, none, none, 0⟩) s

/-- The EtherType of a frame's bytes, behind C-tags from offset `o` on, of which `n` at most are looked through. -/
def etypeOf (bs : List Byte) (o : Nat) : Nat → Nat
  | 0 => netField bs o 2
  | n + 1 => if netField bs o 2 = 0x8100 then etypeOf bs (o + 4) n else netField bs o 2

/-- Refusal of a host frame by the path (R260, R337). -/
def hostFrameOk (s : State) (set p len : Nat) (bs : List Byte) : Bool :=
  let e := etypeOf bs 12 (len / 4)
  p < 12 && s.f fEP_HF_OWNER p == set && 14 ≤ len && len ≤ 1518 &&
    (s.fb fEP_HF_ANYSA p || netField bs 6 6 == (portMac s p).toNat) && e != 0x88B8 && e != 0x88BA && e != 0x88B5

/-- The frame of a transmit descriptor: padded to 60 bytes, with the FCS (R337). -/
def hostFrame (bs : List Byte) : Frame :=
  let bs := bs ++ List.replicate (60 - bs.length) 0
  { mkFrame (BitVec.ofNat 48 (netField bs 0 6)) (BitVec.ofNat 48 (netField bs 6 6)) [] (netField bs 12 2) .raw
      (bs.length + 4) bs with len := bs.length + 4 }

/-- TRANSMIT_DESCRIPTOR (R337): the oldest fetched descriptor of a set, with the bytes read from its buffer. -/
def transmitDescriptor (s : State) (set : Nat) (data : List Byte) : State :=
  let h := s.hset set
  match h.txq with
  | [] => s
  | d :: ds =>
    if !setLive s set then s
    else
      let w2 := wd d 2
      let p := bits w2 16 4
      let len := bits w2 0 11
      let ok := hostFrameOk s set p len data
      let t : TxFrame := ⟨hostFrame data, 0, none, none, none, none, 0⟩
      -- a frame that the port loses or refuses is not sent (log entry 130)
      let status : Nat := if data.length != len then 0x09 else if !ok || !linkUp s p || overDmax s p t then 0x03 else 0
      let s := if status = 0 then handLane s p t
               else if status = 3 && p < 12 then s.bump (if ok && !linkUp s p then fEP_TXLOST_CNT_CNT else fEP_TXREF_CNT_CNT) p
               else if status = 9 then failMark s (wd d 0 + 2 ^ 32 * wd d 1) else s
      let s := hostWrite s (ringAddr s set 3 16 h.txCI + 12) (leBytes 4 (wd d 3 % 2 ^ 24 + status * 2 ^ 24))
      let s := s.setHset set { s.hset set with txq := ds, txCI := (h.txCI + 1) % 65536 }
      vecSet (statusBlock s set) (s.f fHI_TN_VEC_CPLVEC set)

/-- KEY_CHANGEOVER (R349): the next key becomes current, and the next becomes empty. -/
def keyChange (s : State) (pair : Nat) : State :=
  let k := s.key pair
  match k.nxt with
  | none => s
  | some n => (s.advanceTai k.chg).setKey pair { k with cur := some n, nxt := none, prev := k.cur, prevTo := k.chg + 2 * sec }

def execPublicationRequest (s : State) : Res := done (publicationRequest s)
def execRetransmission (cb : Fin 1024) (s : State) : Res := done (retransmit s cb)
def execTransmitStart (p : Port) (s : State) : Res := done (transmitStart s p)
def execTransmitEnd (p : Port) (s : State) : Res := done (transmitEnd s p)
def execLinkUp (p : Port) (sgmiiSpeed : Nat) (s : State) : Res := done (linkUpEvent s p sgmiiSpeed)
def execLinkDown (p : Port) (s : State) : Res := done (linkDown s p)
def execEpnCtl (p : Port) (v : Word) (s : State) : Res := done (epCtl s p v)
def execSupervisionSend (pair : Fin 6) (s : State) : Res := done (supervisionSend s pair)
def execTransmitDescriptor (set : Fin 257) (data : List Byte) (s : State) : Res := done (transmitDescriptor s set data)
def execKeyChangeover (pair : Fin 2048) (s : State) : Res := done (keyChange s pair)

end Sys2Proof.Machine
end

