-- ==== Sys2Proof/Machine/Thr.lean ====
section
/-! DEFINITION. The register sets of a core, a decision section's signature, sticky arithmetic flags, and finding and
recording faults (R99, R137, R172, R177–R180, R190, R219). -/

namespace Sys2Proof.Machine
open Sys2Proof

-- Who issues (R137, R157, R457) ------------------------------------------------------------------------------------------

/-- The context whose instructions core c issues; `none` in supervisor mode. -/
def curCtx (s : State) (c : Nat) : Option Nat :=
  if (s.core c).sup then none else (s.core c).run.map (·.ctx)

/-- The register set of context k of core c, or of its supervisor mode. -/
def State.thr (s : State) (c : Nat) : Option Nat → Thr
  | none => (s.core c).thr
  | some k => (s.ctx c k).thr

def State.setThr (s : State) (c : Nat) (k : Option Nat) (t : Thr) : State :=
  match k with
  | none => s.modCore c fun x => { x with thr := t }
  | some k => s.modCtx c k fun x => { x with thr := t }

def State.modThr (s : State) (c : Nat) (k : Option Nat) (f : Thr → Thr) : State := s.setThr c k (f (s.thr c k))

/-- The sheet map and memory owner of an issuer: the context's tenant, or the supervisor, 256 (R61, R64). -/
def ownerOf (s : State) (c : Nat) : Option Nat → Nat
  | none => 256
  | some k => (s.ctx c k).tenant

/-- The open decision section of an issuer. -/
def secOf (s : State) (c : Nat) : Option Nat → Option Sec
  | none => none
  | some k => (s.ctx c k).sec

def modSec (s : State) (c k : Nat) (f : Sec → Sec) : State := s.modCtx c k fun x => { x with sec := x.sec.map f }

/-- VCOUNT, its ceiling and the group size of an issuer (R103, R117, R174). -/
def vcountOf (s : State) (c : Nat) : Option Nat → Nat
  | none => (s.core c).vcount
  | some k => (s.ctx c k).vcount
def vceilOf (s : State) (c : Nat) : Option Nat → Nat
  | none => (s.core c).vceil
  | some k => (s.ctx c k).vceil
def groupOf (s : State) (c : Nat) : Option Nat → Nat
  | none => (s.core c).g
  | some k => (s.ctx c k).g
def setVcount (s : State) (c : Nat) (k : Option Nat) (v : Nat) : State :=
  match k with
  | none => s.modCore c fun x => { x with vcount := v }
  | some k => s.modCtx c k fun x => { x with vcount := v }
def setVceil (s : State) (c : Nat) (k : Option Nat) (v : Nat) : State :=
  match k with
  | none => s.modCore c fun x => { x with vceil := v }
  | some k => s.modCtx c k fun x => { x with vceil := v }
def setGroup (s : State) (c : Nat) (k : Option Nat) (v : Nat) : State :=
  match k with
  | none => s.modCore c fun x => { x with g := v }
  | some k => s.modCtx c k fun x => { x with g := v }

/-- Constant-time and strict mode of an issuer (R173, R175); the supervisor has neither. -/
def ctOf (s : State) (c : Nat) : Option Nat → Bool
  | none => false
  | some k => (s.ctx c k).ct
def strictOf (s : State) (c : Nat) : Option Nat → Bool
  | none => false
  | some k => (s.ctx c k).strict

/-- The core clock's cycle at which the core's next instruction can issue. -/
def issueCyc (s : State) (c : Nat) : Nat := max (s.core c).cyc s.nowCyc

/-- Let the core's issue wait until cycle n. -/
def waitTo (s : State) (c n : Nat) : State := s.modCore c fun k => { k with cyc := max (issueCyc s c) n }

/-- Bring the device's time to the core's issue cycle. -/
def toIssue (s : State) (c : Nat) : State := s.advanceTo (issueCyc s c * s.cyc)

-- The signature (R219) ----------------------------------------------------------------------------------------------------------

/-- Kinds of signature item: scalar write, flag write, v register element, mask, Plate, Tray, tank, held output. -/
def sgReg : Nat := 0
def sgFlags : Nat := 1
def sgVreg : Nat := 2
def sgMask : Nat := 3
def sgPlate : Nat := 4
def sgTray : Nat := 5
def sgTank : Nat := 6
def sgOut : Nat := 7

/-- Take one item into the signature of the open section's pass. -/
def sign (s : State) (c : Nat) (k : Option Nat) (kind key v : Nat) : State :=
  match k with
  | none => s
  | some k =>
    if (s.ctx c k).sec.isSome then
      modSec s c k fun x => { x with sig := crc64 x.sig (Config.sigBytes kind key (BitVec.ofNat 64 v)) }
    else s

/-- Write a scalar register; a write to s0 is discarded. -/
def putReg (s : State) (c : Nat) (k : Option Nat) (n : Nat) (v : Word) : State :=
  if n = 0 then s
  else sign (s.modThr c k fun t => { t with r := t.r.put n v }) c k sgReg n v.toNat

def putRegs (s : State) (c : Nat) (k : Option Nat) (xs : List (Nat × Word)) : State :=
  xs.foldl (fun s (n, v) => putReg s c k n v) s

/-- The four flags. -/
structure Nzcv where
  n : Bool
  z : Bool
  c : Bool
  v : Bool
  deriving DecidableEq, Repr

def RSet.flags (r : RSet) : Nzcv := ⟨r.n, r.z, r.c, r.v⟩
def flagBits (f : Nzcv) : Nat := b2n f.n * 8 + b2n f.z * 4 + b2n f.c * 2 + b2n f.v

/-- Write the flags. -/
def putFlags (s : State) (c : Nat) (k : Option Nat) (f : Nzcv) : State :=
  sign (s.modThr c k fun t => { t with r := { t.r with n := f.n, z := f.z, c := f.c, v := f.v } }) c k sgFlags 0 (flagBits f)

-- Arithmetic exceptions (R172) -----------------------------------------------------------------------------------------------------

/-- The sticky flag of an exception for a context or the supervisor, in the bit order of EZ_XCFG. -/
def aflag : Bool → Nat → Flag
  | false, 0 => kEZ_AFLAGS_IV | false, 1 => kEZ_AFLAGS_DZ | false, 2 => kEZ_AFLAGS_OF
  | false, 3 => kEZ_AFLAGS_UF | false, 4 => kEZ_AFLAGS_IX | false, _ => kEZ_AFLAGS_DV
  | true, 0 => kEZ_SAFLAGS_IV | true, 1 => kEZ_SAFLAGS_DZ | true, 2 => kEZ_SAFLAGS_OF
  | true, 3 => kEZ_SAFLAGS_UF | true, 4 => kEZ_SAFLAGS_IX | true, _ => kEZ_SAFLAGS_DV

/-- An element or divide raises an arithmetic exception: its sticky flag is set (R172). -/
def raiseArith (s : State) (c : Nat) (k : Option Nat) (e : Nat) : State :=
  match k with
  | none => raise s (aflag true e) c
  | some k => raise s (aflag false e) c k

/-- Trap enables of an issuer (R190). -/
def trapEn (s : State) (c : Nat) : Option Nat → Nat
  | none => (s.reg rEZ_SXCFG c 0).toNat % 64
  | some k => (s.effReg rEZ_XCFG c k).toNat % 64

/-- The enabled exception that is taken among those raised: first in the order DV, IV, DZ, OF, UF, IX (R172). -/
def trapTaken (en : Nat) (raised : List Nat) : Option Nat :=
  [5, 0, 1, 2, 3, 4].find? fun e => raised.contains e && bit en e

-- Faults (R177–R180, R190) -------------------------------------------------------------------------------------------------------------

def cILLEGAL : Nat := 0x20
def cPRIV : Nat := 0x21
def cLOOPERR : Nat := 0x22
def cALIGN : Nat := 0x30
def cDUNMAP : Nat := 0x31
def cDRAMDL : Nat := 0x32
def cIFETCH : Nat := 0x33
def cIOUNMAP : Nat := 0x34
def cRANGE : Nat := 0x35
def cUNMAPPED : Nat := 0x36
def cWPROT : Nat := 0x37
def cPOISON : Nat := 0x40
def cDRAMUE : Nat := 0x41
def cTRAP : Nat := 0x50
def cINTERRUPT : Nat := 0x51

/-- The level of a cause's class (R179). -/
def levelOf (code : Nat) : Nat :=
  if code < 0x10 then 3 else if code < 0x20 then 2 else if code < 0x30 then 5 else if code < 0x40 then 4
  else if code < 0x50 then 6 else 1

/-- A precise scalar fault. -/
def scalarFault (code pc info at_ : Nat) : FaultRec :=
  { code := code, level := levelOf code, pc := w32 pc, info := w32 info, sub := 0, trap := 0, imp := false, vec := false,
    idx := 0, port := 0, chain := false, tank := 0, addr := 0, at_ := at_ }

/-- A fault is held until its boundary (R177, R184). -/
def holdFault (s : State) (c : Nat) (k : Option Nat) (f : FaultRec) : State :=
  s.modThr c k fun t => { t with held := t.held ++ [f] }

/-- Write a tenant's fault record (R99, R109). A record made in a section is never resumed: VALID stays 0 (R222). -/
def faultRecord (s : State) (t : Nat) (f : FaultRec) (neg : Bool) : State :=
  let s := s.setReg rVF_PC t 0 f.pc
  let s := s.setReg rVF_IDX t 0 (w32 (f.idx % 2 ^ 21))
  let s := s.setReg rVF_CAUSE t 0 (w32 (b2n (!neg) * 2 ^ 31 + f.port * 2 ^ 12 + b2n f.chain * 2 ^ 9 + b2n neg * 2 ^ 8 + f.code))
  s.setReg rVF_INFO t 0 (w32 (f.tank % 8 * 2 ^ 24 + f.addr % 2 ^ 24))

end Sys2Proof.Machine
end

