-- ==== Sys2Proof/Machine/Flags.lean ====
section
/-! DEFINITION. Scalar results and every flag computation (R138, R148, R164–R166). -/

namespace Sys2Proof.Machine
open Sys2Proof

/-- N and Z of a result; C and V unchanged (logic with S = 1). -/
def nzOf (f : Nzcv) (x : Word) : Nzcv := { f with n := x.msb, z := x == 0 }

/-- a + b + cin: the sum and its flags; C is the carry out of bit 31, V signed overflow. -/
def addNzcv (a b : Word) (cin : Bool) : Word × Nzcv :=
  let u := a.toNat + b.toNat + b2n cin
  let x := w32 u
  let i := a.toInt + b.toInt + b2n cin
  (x, ⟨x.msb, x == 0, decide (2 ^ 32 ≤ u), decide (i < -(2 ^ 31)) || decide (2 ^ 31 ≤ i)⟩)

/-- a − b − borrow: the difference and its flags; C says that there is no borrow. -/
def subNzcv (a b : Word) (noBorrow : Bool) : Word × Nzcv := addNzcv a (~~~b) noBorrow

/-- The four shifts by an amount: the result and the last bit shifted out, none for an amount of 0. -/
inductive Shift where
  | shl | shrl | shra | ror
  deriving DecidableEq, Repr

def shiftRes (k : Shift) (a : Word) (n : Nat) : Word × Option Bool :=
  let x := a.toNat
  if n = 0 then (a, none)
  else match k with
    | .shl => (w32 (if n < 32 then x * 2 ^ n else 0), some (n ≤ 32 && bit x (32 - n)))
    | .shrl => (w32 (x / 2 ^ n), some (bit x (n - 1)))
    | .shra => (w32 (uenc 32 (a.toInt / 2 ^ min n 32)), some (bit x (min (n - 1) 31)))
    | .ror => (w32 (x / 2 ^ n + x * 2 ^ (32 - n)), some (bit x (n - 1)))

/-- A shift amount: s[rb][7:0], and s[rb][4:0] for ROR (R148). -/
def shiftAmt (k : Shift) (b : Word) : Nat := if k = .ror then b.toNat % 32 else b.toNat % 256

/-- Flags of a shift: N, Z and C. -/
def shiftNzcv (f : Nzcv) (r : Word × Option Bool) : Nzcv := { nzOf f r.1 with c := r.2.getD f.c }

/-- The 16 conditions (R138). -/
def condTrue (f : Nzcv) (cond : Nat) : Bool :=
  match cond with
  | 0 => f.z | 1 => !f.z | 2 => f.c | 3 => !f.c | 4 => f.n | 5 => !f.n | 6 => f.v | 7 => !f.v
  | 8 => f.c && !f.z | 9 => !f.c || f.z | 10 => f.n == f.v | 11 => f.n != f.v
  | 12 => !f.z && f.n == f.v | 13 => f.z || f.n != f.v | 14 => true | _ => false

/-- Quotient, remainder and the arithmetic exception of a divide (R166). -/
def divRes (signed : Bool) (a b : Word) : Word × Word × Option Nat :=
  if b = 0 then (0xFFFFFFFF, a, some 1)
  else if signed then
    if a = 0x80000000 ∧ b = 0xFFFFFFFF then (0x80000000, 0, some 2)
    else (w32 (uenc 32 (a.toInt.tdiv b.toInt)), w32 (uenc 32 (a.toInt.tmod b.toInt)), none)
  else (w32 (a.toNat / b.toNat), w32 (a.toNat % b.toNat), none)

/-- The 64-bit product of two registers. -/
def mulRes (signed : Bool) (a b : Word) : Nat :=
  if signed then uenc 64 (a.toInt * b.toInt) else a.toNat * b.toNat

/-- Leading zeros, 0–32. -/
def clzOf (x : Word) : Nat := if x = 0 then 32 else 31 - Nat.log2 x.toNat


end Sys2Proof.Machine
end

