-- ==== Sys2Proof/Machine/VElem.lean ====
section
/-! DEFINITION. Vector element types and the arithmetic of one element (R88, R95, R122–R130, R164–R171). An element is
its stored bytes as a number; a complex element holds its real part in the low half. -/

namespace Sys2Proof.Machine
open Sys2Proof

-- Types (R88) ---------------------------------------------------------------------------------------------------------

/-- Element size in bytes. -/
def tySize (t : Nat) : Nat := [1, 2, 4, 8, 2, 4, 8, 4, 8, 8, 8].getD t 8
def tyInt (t : Nat) : Bool := t < 4
def tyFlt (t : Nat) : Bool := t == 4 || t == 5 || t == 6
def tyCi (t : Nat) : Bool := t == 7 || t == 8
def tyCx (t : Nat) : Bool := t == 7 || t == 8 || t == 9
/-- Types whose arithmetic rounds: flt and cf32. -/
def tyRm (t : Nat) : Bool := tyFlt t || t == 9
def tyFmt (t : Nat) : Fmt := if t = 4 then f16 else if t = 6 then f64 else f32
/-- Type classes of R214: integer 0, f16 1, f32 2, f64 3. -/
def tyCls (t : Nat) : Nat := if t = 4 then 1 else if t = 5 || t = 9 then 2 else if t = 6 then 3 else 0
/-- The type of one part of a complex type, or the type itself. -/
def tyPart (t : Nat) : Nat := if t = 7 then 1 else if t = 8 then 2 else if t = 9 then 5 else t
/-- Twice k_type of a packed stream. -/
def tyK2 (t : Nat) : Nat := 8 / tySize t
def rmOf (n : Nat) : Rm := match n with | 0 => .near | 1 => .zero | 2 => .up | _ => .down

/-- The result of an element: its value, the exceptions it raises, and whether it is written. -/
structure Elt where
  v  : Nat
  fl : FFlags
  wr : Bool
  deriving DecidableEq, Repr

def eltOf (r : Nat × FFlags) : Elt := ⟨r.1, r.2.eraseDups, true⟩
def eltInt (v : Nat) : Elt := ⟨v, [], true⟩

/-- Wrap modulo 2^w, or saturate (R122). -/
def intRes (w : Nat) (sat : Bool) (x : Int) : Nat :=
  let lo : Int := -(2 ^ (w - 1))
  let hi : Int := 2 ^ (w - 1) - 1
  if sat then uenc w (if x < lo then lo else if hi < x then hi else x) else uenc w x

-- Integer and floating-point elements (R122) ----------------------------------------------------------------------------

/-- Shift left by b: wrapping, or to the limits of the type (R122). -/
def shlRes (w : Nat) (sat : Bool) (a b : Nat) : Nat :=
  let x := sval w a
  if sat then
    if x = 0 then 0
    else if b < w then intRes w true (x * 2 ^ b)
    else intRes w true (if 0 < x then 2 ^ w else -(2 ^ w))
  else if w ≤ b then 0 else uenc w (x * 2 ^ b)

/-- Shift right by b, arithmetic or logical (R122). -/
def shrRes (w : Nat) (arith : Bool) (a b : Nat) : Nat :=
  if arith then uenc w (sval w a / 2 ^ min b w)
  else if w ≤ b then 0 else a % 2 ^ w / 2 ^ b

/-- An operation on integer elements of w bits. -/
def intOp (op : SOp) (w : Nat) (sat arith : Bool) (a b c : Nat) : Nat :=
  let x := sval w a
  let y := sval w b
  match op with
  | .add | .redadd | .psum => intRes w sat (x + y)
  | .sub => intRes w sat (x - y)
  | .mul => intRes w sat (x * y)
  | .fma => intRes w sat (x * y + sval w c)
  | .min | .redmin => if x ≤ y then a else b
  | .max | .redmax => if y ≤ x then a else b
  | .abs => intRes w sat (if x < 0 then -x else x)
  | .neg => intRes w sat (-x)
  | .and => Nat.land a b
  | .or => Nat.lor a b
  | .xor => Nat.xor a b
  | .shl => shlRes w sat a (b % 256)
  | .shr => shrRes w arith a (b % 256)
  | _ => a

/-- An operation on floating-point elements. -/
def fltOp (op : SOp) (f : Fmt) (rm : Rm) (a b c : Nat) : Nat × FFlags :=
  match op with
  | .add | .redadd | .psum => f.add rm a b
  | .sub => f.sub rm a b
  | .mul => f.mul rm a b
  | .fma => f.fma rm a b c
  | .min | .redmin => f.minmax false a b
  | .max | .redmax => f.minmax true a b
  | .abs => (f.abs a, [])
  | .neg => (f.neg a, [])
  | .div => f.div rm a b
  | .sqrt => f.sqrt rm a
  | _ => (a, [])

/-- One part of a complex element, or a whole element of another type. -/
def partOp (op : SOp) (t : Nat) (rm : Rm) (sat arith : Bool) (a b c : Nat) : Nat × FFlags :=
  if tyFlt t then fltOp op (tyFmt t) rm a b c else (intOp op (8 * tySize t) sat arith a b c, [])

/-- An operation on elements of any type, a complex one by its parts (R122). -/
def elemOp (op : SOp) (t : Nat) (rm : Rm) (sat arith : Bool) (a b c : Nat) : Nat × FFlags :=
  if tyCx t then
    let w := 4 * tySize t
    let p := tyPart t
    let (re, f1) := partOp op p rm sat arith (a % 2 ^ w) (b % 2 ^ w) (c % 2 ^ w)
    let (im, f2) := partOp op p rm sat arith (a / 2 ^ w) (b / 2 ^ w) (c / 2 ^ w)
    (re + im * 2 ^ w, f1 ++ f2)
  else partOp op t rm sat arith a b c

-- Packed decimal (R169–R171) ------------------------------------------------------------------------------------------------

/-- The value of n BCD digits; none where a digit is 0xA–0xF. -/
def bcdOf (v : Nat) : Nat → Option Nat
  | 0 => some 0
  | n + 1 => if 9 < v % 16 then none else (bcdOf (v / 16) n).map fun x => v % 16 + 10 * x
def toBcd (v : Nat) : Nat → Nat
  | 0 => 0
  | n + 1 => v % 10 + 16 * toBcd (v / 10) n

/-- VDADD and VDSUB of one element (R170). -/
def decOp (sub : Bool) (a b : Nat) : Elt :=
  match bcdOf a 16, bcdOf b 16 with
  | some x, some y =>
    let r := if sub then x + 10 ^ 16 - y else x + y
    let ov : Bool := if sub then x < y else 10 ^ 16 ≤ r
    ⟨toBcd (r % 10 ^ 16) 16, if ov then [flOF] else [], true⟩
  | _, _ => ⟨0, [flDV], false⟩

-- Conversion (R129, R168, R171) ------------------------------------------------------------------------------------------------

/-- The pairs VCVT converts. -/
def cvtLegal (a b : Nat) : Bool :=
  if tyInt a && tyInt b then a != b
  else if (tyInt a && tyFlt b) || (tyFlt a && tyInt b) then true
  else if tyFlt a && tyFlt b then a != b
  else (a == 7 && b == 8) || (a == 8 && b == 7) || (a == 8 && b == 9) || (a == 9 && b == 8) ||
    (a == 3 && b == 10) || (a == 10 && b == 3)

/-- Conversion of one part between integer and floating-point types. -/
def cvtPart (a b : Nat) (rm : Rm) (sat : Bool) (v : Nat) : Nat × FFlags :=
  let wa := 8 * tySize a
  let wb := 8 * tySize b
  if tyFlt a then
    if tyFlt b then (tyFmt a).conv (tyFmt b) rm v
    else let (x, f) := (tyFmt a).toInt rm wb v; (uenc wb x, f)
  else if tyFlt b then (tyFmt b).ofInt rm (sval wa v)
  else (intRes wb sat (sval wa v), [])

/-- Conversion of one element; `free` is the value of a d64 with a bad digit, which the manual does not state. -/
def cvtOp (a b : Nat) (rm : Rm) (sat : Bool) (free v : Nat) : Elt :=
  if b = 10 then
    let x := sval 64 v
    let iv := if x < 0 then [flIV] else []
    if 10 ^ 16 ≤ x.natAbs then ⟨0, flOF :: iv, false⟩ else ⟨toBcd x.natAbs 16, iv, true⟩
  else if a = 10 then
    match bcdOf v 16 with
    | some x => eltInt x
    | none => ⟨free, [flDV], true⟩
  else if tyCx a then
    let w := 4 * tySize a
    let (re, f1) := cvtPart (tyPart a) (tyPart b) rm sat (v % 2 ^ w)
    let (im, f2) := cvtPart (tyPart a) (tyPart b) rm sat (v / 2 ^ w)
    eltOf (re + im * 2 ^ (4 * tySize b), f1 ++ f2)
  else eltOf (cvtPart a b rm sat v)

-- Products (R123–R125) --------------------------------------------------------------------------------------------------------------

/-- The exact product of two elements: 0 × ∞, like a NaN operand, makes a NaN. -/
def Fmt.exactMul (f : Fmt) (p q : Nat) : FV :=
  match f.unpack p, f.unpack q with
  | .nan s m, _ => .nan s m
  | _, .nan s m => .nan s m
  | .inf s, .inf t => .inf (s != t)
  | .inf s, .fin t m _ => if m = 0 then .nan false 0 else .inf (s != t)
  | .fin s m _, .inf t => if m = 0 then .nan false 0 else .inf (s != t)
  | .fin s m e, .fin t n g => .fin (s != t) (m * n) (e + g)

/-- The NaN of a part of a complex product (R168): the NaN part of A, or else of B, quieted; a free one where both parts
of that operand are NaNs (log entry 40), and the default NaN where none is. -/
def cxNan (f : Fmt) (free : Nat) (as bs : List Nat) : Nat :=
  match as.filter f.isNan, bs.filter f.isNan with
  | [x], _ => f.quiet x
  | [], [x] => f.quiet x
  | [], [] => f.defNan
  | _, _ => f.nanBits (bit free (f.width - 1)) (f.qbit + free % f.qbit)

/-- p·q ± r·s formed exactly and rounded once, as one part of a complex product of A = (p, r) and B = (q, s) (R125). -/
def fltDiff (f : Fmt) (rm : Rm) (minus : Bool) (free p q r s : Nat) : Nat × FFlags :=
  let ops := [p, q, r, s]
  let iv := fun (p q : Nat) => (f.exactMul p q == .nan false 0) && !f.isNan p && !f.isNan q
  let fl : FFlags := if ops.any f.isSnan || iv p q || iv r s then [flIV] else []
  match f.exactMul p q, f.exactMul r s with
  | .fin a m e, .fin b n g => f.roundSum rm a m e (b != minus) n g
  | .inf a, .inf b => if a = (b != minus) then (f.infBits a, []) else (f.defNan, [flIV])
  | .inf a, .fin _ _ _ => (f.infBits a, [])
  | .fin _ _ _, .inf b => (f.infBits (b != minus), [])
  | _, _ => (cxNan f free [p, r] [q, s], fl)

/-- A·B or A·conj(B) of a complex type; ci16 gives ci32 where `wide`; `free` is a NaN that the manual does not choose. -/
def cmulOp (t : Nat) (wide : Bool) (rm : Rm) (sat conj : Bool) (free a b : Nat) : Elt :=
  let w := 4 * tySize t
  let ar := a % 2 ^ w
  let ai := a / 2 ^ w % 2 ^ w
  let br := b % 2 ^ w
  let bi := b / 2 ^ w % 2 ^ w
  if t = 9 then
    let (re, f1) := fltDiff f32 rm (!conj) (free % 2 ^ 32) ar br ai bi
    let g := free / 2 ^ 32
    let (im, f2) := if conj then fltDiff f32 rm true g ai br ar bi else fltDiff f32 rm false g ar bi ai br
    eltOf (re + im * 2 ^ w, f1 ++ f2)
  else
    let g := sval w
    let y := if conj then -(g bi) else g bi
    let o := if wide then 32 else w
    eltInt (intRes o sat (g ar * g br - g ai * y) + intRes o sat (g ar * y + g ai * g br) * 2 ^ o)

/-- Widen an f32 to f64 as VCVT does (R123). -/
def widen (a : Nat) : Nat × FFlags := f32.conv f64 .near a

/-- VMULW. -/
def mulwOp (t : Nat) (rm : Rm) (a b : Nat) : Elt :=
  if t = 5 then
    let (x, f1) := widen a
    let (y, f2) := widen b
    let (z, f3) := f64.mul rm x y
    eltOf (z, f1 ++ f2 ++ f3)
  else
    let w := 8 * tySize t
    eltInt (uenc (2 * w) (sval w a * sval w b))

/-- VFMAW: C is an f64. -/
def fmawOp (rm : Rm) (a b c : Nat) : Elt :=
  let (x, f1) := widen a
  let (y, f2) := widen b
  let (z, f3) := f64.fma rm x y c
  eltOf (z, f1 ++ f2 ++ f3)

-- Compares (R128) ----------------------------------------------------------------------------------------------------------------------

/-- Whether a COND test holds for an order; none is unordered. -/
def condHolds (cond : Nat) : Option Ordering → Bool
  | none => cond == 1 || cond == 6
  | some o => match cond with
    | 0 => o == .eq | 1 => o != .eq | 2 => o == .lt | 3 => o != .gt | 4 => o == .gt | 5 => o != .lt | _ => false

/-- A compare of one element: its truth and its exceptions. -/
def cmpOp (t cond a b : Nat) : Bool × FFlags :=
  if tyFlt t then
    let f := tyFmt t
    let nan := f.isNan a || f.isNan b
    let signal : Bool := 2 ≤ cond && cond ≤ 5
    (condHolds cond (if nan then none else some (f.cmp a b)),
      if (nan && signal) || f.isSnan a || f.isSnan b then [flIV] else [])
  else (condHolds cond (some (compare (sval (8 * tySize t) a) (sval (8 * tySize t) b))), [])

-- Reductions (R126) -----------------------------------------------------------------------------------------------------------------------

/-- The identity of a reduction over an empty stream. -/
def redIdent (op : SOp) (t : Nat) : Nat :=
  let w := 8 * tySize t
  match op with
  | .redmin => if tyFlt t then (tyFmt t).infBits false else 2 ^ (w - 1) - 1
  | .redmax => if tyFlt t then (tyFmt t).infBits true else 2 ^ (w - 1)
  | _ => 0

/-- Combine two partial results; an empty one takes no part. -/
def redPair (f : Nat → Nat → Nat × FFlags) : Option Nat → Option Nat → Option Nat × List FFlags
  | some a, some b => let (v, fl) := f a b; (some v, [fl])
  | some a, none => (some a, [])
  | none, y => (y, [])

/-- One level of the binary tree. -/
def redLevel (f : Nat → Nat → Nat × FFlags) : List (Option Nat) → List (Option Nat) × List FFlags
  | a :: b :: r => let (x, fl) := redPair f a b; let (xs, gl) := redLevel f r; (x :: xs, fl ++ gl)
  | r => (r, [])

/-- The tree over 2^n partial results. -/
def redTree (f : Nat → Nat → Nat × FFlags) : Nat → List (Option Nat) → Option Nat × List FFlags
  | 0, xs => (xs.headD none, [])
  | n + 1, xs => let (ys, fl) := redLevel f xs; let (r, gl) := redTree f n ys; (r, fl ++ gl)

/-- Elements join partial result i mod 2^n in index order. -/
def redJoin (f : Nat → Nat → Nat × FFlags) (m : Nat) : Nat → List (Option Nat) → List Nat → List (Option Nat) × List FFlags
  | _, ps, [] => (ps, [])
  | i, ps, v :: vs =>
    let (x, fl) := redPair f (ps.getD (i % m) none) (some v)
    let (qs, gl) := redJoin f m (i + 1) (ps.set (i % m) x) vs
    (qs, fl ++ gl)

/-- The partial results of a list of elements over 2^n places, and the exceptions of each combination, in order. -/
def redJoins (f : Nat → Nat → Nat × FFlags) (n : Nat) (vs : List Nat) : List (Option Nat) × List FFlags :=
  redJoin f (2 ^ n) 0 (List.replicate (2 ^ n) none) vs

/-- The reduction of a list of elements over 2^n partial results in the fixed order; the exceptions of each
combination, in order. -/
def redAll (f : Nat → Nat → Nat × FFlags) (n : Nat) (vs : List Nat) : Option Nat × List FFlags :=
  let (ps, fl) := redJoins f n vs
  let (r, gl) := redTree f n ps
  (r, fl ++ gl)

-- Lane depth (R95) -----------------------------------------------------------------------------------------------------------------------------

/-- L_fn of an element operation. -/
def depth (op : SOp) (t : Nat) : Nat :=
  match op with
  | .lds | .sts | .dot | .dadd | .dsub => 2
  | .cvt => 3
  | .add | .sub | .min | .max | .cmp | .redadd | .redmin | .redmax | .psum => if tyRm t then 3 else 1
  | .mul | .fma | .mulw | .fmaw => if tyFlt t then 4 else 1
  | .cmul => 5
  | .div | .sqrt => 14
  | _ => 1

def isRed (op : SOp) : Bool := op == .redadd || op == .redmin || op == .redmax

/-- L_fn of a stream instruction on a span of 2^wlog pipes. -/
def lfn (op : SOp) (t wlog : Nat) : Nat :=
  depth op t + if isRed op || op == .psum then 2 * (4 + wlog) else 0

end Sys2Proof.Machine
end

