-- ==== Sys2Proof/Machine/VLegal.lean ====
section
/-! DEFINITION. What makes a vector instruction legal at issue (R111–R134), and which scalar registers it reads and
writes. -/

namespace Sys2Proof.Machine
open Sys2Proof

-- Operand fields (R112) ------------------------------------------------------------------------------------------------

/-- A decoded operand field: a descriptor in registers or in a Tray block, a scalar register, a v register, a mask,
a type named in C, none, or no operand. -/
inductive OpFld where
  | dreg (k : Nat) | dblk (i : Nat) | sreg (k : Nat) | vreg (k : Nat) | mask (m : Nat) | ty (t : Nat) | none | bad
  deriving DecidableEq, Repr

def fld (x : BitVec 10) : OpFld :=
  let v := x.toNat % 256
  let k := v % 32
  match x.toNat / 256 with
  | 0 => if v < 32 && 1 ≤ k && k ≤ 28 then .dreg k else .bad
  | 1 => .dblk v
  | 2 => if v < 32 then .sreg k else .bad
  | _ =>
    if v = 255 then .none
    else if v / 32 = 0 then .vreg k
    else if v / 8 = 4 then .mask (v % 8)
    else if v / 16 = 4 then .ty (v % 16)
    else .bad

def OpFld.isDesc : OpFld → Bool | .dreg _ => true | .dblk _ => true | _ => false
def OpFld.isV : OpFld → Bool | .vreg _ => true | _ => false
def OpFld.isBlk : OpFld → Bool | .dblk _ => true | _ => false
/-- A scalar register or pair for elements of `sz` bytes. -/
def OpFld.isS (sz : Nat) : OpFld → Bool | .sreg k => sz < 8 || k % 2 == 0 | _ => false

-- Operations (R120, R121) --------------------------------------------------------------------------------------------------

/-- TY values of an operation. -/
def tyOk (op : SOp) (t : Nat) : Bool :=
  match op with
  | .mov | .ldff | .lds | .sts => t ≤ 10
  | .cvt => t ≤ 10
  | .add | .sub | .neg | .redadd => tyInt t || tyFlt t || tyCx t
  | .mul | .fma | .min | .max | .abs | .cmp | .redmin | .redmax | .psum => tyInt t || tyFlt t
  | .and | .or | .xor | .shl | .shr => tyInt t
  | .div | .sqrt => tyFlt t
  | .mulw => t == 1 || t == 2 || t == 5
  | .fmaw => t == 5
  | .dot => t == 0 || t == 1 || t == 7
  | .cmul => tyCx t
  | .dadd | .dsub => t == 10

def usesB : SOp → Bool
  | .mov | .ldff | .lds | .sts | .cvt | .abs | .neg | .sqrt | .redadd | .redmin | .redmax | .psum => false
  | _ => true
def usesC : SOp → Bool
  | .fma | .fmaw | .psum => true
  | _ => false

/-- The element type of D; VCVT's is named by its D descriptor or C. -/
def dType (op : SOp) (t : Nat) : Nat :=
  match op with
  | .mulw => if t = 1 then 2 else if t = 2 then 3 else 6
  | .fmaw => 6
  | .cmul => if t = 9 then 9 else 8
  | .cmp => 0
  | _ => t

/-- MOD bits that an operation uses, judged from OP and TY (R121); `dst` is the destination type of a VCVT that C
names. -/
def modOk (op : SOp) (t m : Nat) (dst : Option Nat) : Bool :=
  let base := if tyRm t then 12 else if tyInt t || tyCi t then 8 else 0
  match op with
  | .cmp => m < 7
  | .cvt =>
    let rm : Bool := match dst with | some d => tyRm t || tyRm d | none => t != 10
    t != 10 && Nat.land m (if rm then 2 else 14) == 0 || m == 0
  | .shr => Nat.land m (15 - (base + 1)) == 0
  | .cmul => Nat.land m (15 - (base + 2)) == 0
  | .dot => Nat.land m (15 - (base + (if t = 7 then 3 else 1))) == 0
  | _ => Nat.land m (15 - base) == 0

/-- Sources that A and B accept. -/
def srcOk (t : Nat) (f : OpFld) : Bool := f.isDesc || f.isV || f.isS (tySize t)

/-- A stream instruction that R113 lets issue. -/
def streamLegal (op : SOp) (x : StreamArgs) : Bool :=
  let t := x.ty.toNat
  let a := fld x.a
  let b := fld x.b
  let c := fld x.cc
  let d := fld x.d
  let ct := match op, d, c with | .cvt, .vreg _, .ty t => some t | _, _, _ => none
  tyOk op t && x.h != 3 && x.top == 0 && modOk op t x.md.toNat ct &&
  (match op with
    | .ldff | .lds => a.isDesc
    | .sts => a.isDesc || a.isV
    | _ => srcOk t a) &&
  (if usesB op then srcOk t b else b == .none) &&
  (match op with
    | .cvt => if d.isV then (match ct with | some u => cvtLegal t u | none => false) else c == .none
    | .fma | .psum => c == .none || c.isV || c.isS (tySize t)
    | .fmaw => c == .none || c.isV || c.isS 8
    | _ => c == .none) &&
  (match op with
    | .cmp => d.isDesc || (match d with | .mask _ => t == 2 || t == 5 | _ => false)
    | .dot => d.isV
    | .redadd | .redmin | .redmax => d.isV || d.isS (tySize t)
    | .sts => d.isDesc
    | _ => d.isDesc || d.isV)

-- Short-vector operations (R116–R118, R132, R134) --------------------------------------------------------------------------------

def hTyOk (op : HOp) (t : Nat) : Bool :=
  match op with
  | .add | .sub => tyInt t || tyFlt t || tyCx t
  | .mul | .fma | .min | .max | .redadd | .redmin | .redmax => tyInt t || tyFlt t
  | .and | .or | .xor | .shli | .shrai | .shrli => tyInt t
  | .cmpeq | .cmplt | .cmple => t == 2 || t == 3 || t == 5 || t == 6
  | .sel | .splat | .cvt | .movs => t ≤ 10
  | .redadd2 => t == 2 || t == 3
  | .cmul => t == 8 || t == 9
  | .dadd | .dsub => t == 10
  | .mand | .mor | .mxor | .mnot | .mpop | .setn | .grp => t == 0

/-- A short-vector instruction that R113 lets issue. -/
def shortLegal (op : HOp) (x : ShortArgs) : Bool :=
  let t := x.ty.toNat
  let d := x.vd.toNat
  let a := x.va.toNat
  let b := x.vb.toNat
  hTyOk op t && x.h != 3 &&
  (match op with
    | .cmpeq | .cmplt | .cmple => d < 8
    | .mand | .mor | .mxor => d < 8 && a < 8 && b < 8
    | .mnot => d < 8 && a < 8
    | .mpop => a < 8
    | .splat => tySize t < 8 || a % 2 == 0
    | .movs => tySize t < 8 || d % 2 == 0
    | .cvt => b ≤ 10 && cvtLegal t b
    | .setn => b == 0
    | .grp => b == 1
    | _ => true)

def vLegal : VOp → Bool
  | .str op x => streamLegal op x
  | .sht op x => shortLegal op x

def vHalf : VOp → Nat
  | .str _ x => x.h.toNat
  | .sht _ x => x.h.toNat
def vShad : VOp → Bool
  | .str _ x => x.sh
  | .sht _ x => x.sh

-- Scalar registers ------------------------------------------------------------------------------------------------------------------------------

def pairRegs (sz k : Nat) : List Nat := if sz < 8 then [k] else [k, k + 1]

def fldReads (sz : Nat) : OpFld → List Nat
  | .dreg k => [k, k + 1, k + 2, k + 3]
  | .sreg k => pairRegs sz k
  | _ => []

/-- Scalar registers read at issue (R114). -/
def vReads : VOp → List Nat
  | .str op x =>
    let sz := tySize x.ty.toNat
    fldReads sz (fld x.a) ++ fldReads sz (fld x.b) ++ fldReads (if op == .fmaw then 8 else sz) (fld x.cc) ++
      (match fld x.d with | .dreg k => [k, k + 1, k + 2, k + 3] | _ => [])
  | .sht .splat x => pairRegs (tySize x.ty.toNat) x.va.toNat
  | .sht .setn x => [x.va.toNat]
  | .sht _ _ => []

/-- Scalar registers that a vector instruction writes. -/
def vWrites : VOp → List Nat
  | .str _ x => match fld x.d with | .sreg k => pairRegs (tySize x.ty.toNat) k | _ => []
  | .sht .movs x => pairRegs (tySize x.ty.toNat) x.vd.toNat
  | .sht .mpop x => [x.vd.toNat]
  | .sht _ _ => []

/-- Instructions that write VCOUNT (R103). -/
def vSetsCount : VOp → Bool
  | .str .ldff _ => true
  | .sht .setn _ => true
  | _ => false

end Sys2Proof.Machine
end

