-- ==== Sys2Proof/Machine/Operands.lean ====
section
/-! DEFINITION. The operands of a starting stream instruction: descriptors, v registers, tanks and masks, the start
checks in the order of R456, and the count of R92–R95. -/

namespace Sys2Proof.Machine
open Sys2Proof

-- The span that an instruction sees (R82, R83) ---------------------------------------------------------------------------

/-- What H selects: the first pipe, log2 of the width, and H; with the first pipe and log2 of the width of the whole
span, and whether the span holds its state as the Negative pass does (R212). -/
structure Sel where
  base : Nat
  wlog : Nat
  h    : Nat
  core : Nat
  full : Nat
  neg  : Bool
  deriving DecidableEq, Repr

def Sel.w (x : Sel) : Nat := 2 ^ x.wlog

/-- log2 of the width of core c's span: the dispatched activation's, which it keeps to its end (R104). -/
def spanLog (s : State) (c : Nat) : Nat :=
  match (s.core c).run with | some r => r.wlog | none => (s.pipe c).wlog

def selOf (c wlog h : Nat) (neg : Bool) : Sel :=
  match h with
  | 0 => ⟨c, wlog, 0, c, wlog, neg⟩
  | 1 => ⟨c, wlog - 1, 1, c, wlog, neg⟩
  | _ => ⟨c + 2 ^ (wlog - 1), wlog - 1, 2, c, wlog, neg⟩

/-- The Negative pass of an issuer's section runs. -/
def negOf (s : State) (c : Nat) (k : Option Nat) : Bool :=
  match secOf s c k with | some x => x.neg | none => false

/-- What an instruction's evaluation sees. -/
structure VEnv where
  s   : State
  c   : Nat
  k   : Option Nat
  sel : Sel
  m   : Nat
  en  : Nat
  chain : Bool

def vEnv (s : State) (c : Nat) (k : Option Nat) (h : Nat) : VEnv :=
  { s := s, c := c, k := k, sel := selOf c (spanLog s c) h (negOf s c k), m := ownerOf s c k, en := trapEn s c k
    chain := false }

-- The Negative pass's transform (R212) -------------------------------------------------------------------------------------

/-- What the Negative pass inverts in a byte of an element of a type class, by the byte's place in its 8 bytes. -/
def clsByte (cls b : Nat) : Nat :=
  match cls with
  | 0 => 0xFF
  | 1 => if b % 2 = 1 then 0x80 else 0
  | 2 => if b % 4 = 3 then 0x80 else 0
  | _ => if b % 8 = 7 then 0x80 else 0

/-- The same for n bytes from place b on. -/
def clsBits (cls b : Nat) : Nat → Nat
  | 0 => 0
  | n + 1 => clsByte cls b + 256 * clsBits cls (b + 1) n

/-- A value of n bytes of a class as it is held, or the value that is held: the transform undoes itself (R213). -/
def heldAs (neg : Bool) (cls b n x : Nat) : Nat := if neg then Nat.xor x (clsBits cls b n) else x

/-- Where byte o of a span register of f bytes is held: half the span's lanes further on (R212). -/
def turned (neg : Bool) (f o : Nat) : Nat := if neg then (o + f / 2) % f else o

-- v registers, masks and tanks (R80, R96, R115, R214) -------------------------------------------------------------------------

/-- Key of byte o of the group that starts at v register k. -/
def vKey (x : Sel) (k o : Nat) : Nat :=
  let r := 64 * x.w
  let q := turned x.neg (64 * 2 ^ x.full) (64 * (x.base - x.core) + o % r)
  (x.core + q / 64) * 2048 + (k + o / r) * 64 + q % 64

/-- Element at byte o of a v register group, read in class `cls` (R214). -/
def vElem (v : VEnv) (k o n cls : Nat) : Nat :=
  let key := vKey v.sel k o
  heldAs v.sel.neg cls (key % 8) n (leVal (mread v.s.vreg key n))

/-- Mask m of a whole span of w pipes from pipe c on, one bit for each physical lane. -/
def spanMask (t : Tab Nat) (c w m : Nat) : Nat :=
  (List.range w).foldl (fun a p => a + tget 0 t ((c + p) * 8 + m) * 2 ^ (16 * p)) 0

/-- The mask bits of a span of w pipes moved on by half its lanes. -/
def turnBits (neg : Bool) (w x : Nat) : Nat :=
  if neg then x / 2 ^ (8 * w) + x % 2 ^ (8 * w) * 2 ^ (8 * w) else x

/-- Mask m of the selection, one bit for each lane; m0 is all ones. -/
def maskOf (s : State) (x : Sel) (m : Nat) : Nat :=
  if m = 0 then 2 ^ (16 * x.w) - 1
  else bits (turnBits x.neg (2 ^ x.full) (spanMask s.mask x.core (2 ^ x.full) m)) (16 * (x.base - x.core)) (16 * x.w)

/-- Put mask m of the selection. -/
def putMask (t : Tab Nat) (x : Sel) (m v : Nat) : Tab Nat :=
  let w := 2 ^ x.full
  let all := turnBits x.neg w (spanMask t x.core w m)
  let lo := 16 * (x.base - x.core)
  let new := turnBits x.neg w (all - bits all lo (16 * x.w) * 2 ^ lo + v % 2 ^ (16 * x.w) * 2 ^ lo)
  (List.range w).foldl (fun t p => tset 0 t ((x.core + p) * 8 + m) (bits new (16 * p) 16)) t

def tankKey (c t h : Nat) : Nat := c * 24 + t * 3 + h
def tankOf (s : State) (c t h : Nat) : Tank := tget Tank.init s.tanks (tankKey c t h)
def tankBytes (x : Tank) : Nat := x.elems.foldl (fun a e => a + e.2) 0

/-- Bytes of the selection's part of tank t that hold elements. -/
def tankUsed (s : State) (c t h : Nat) : Nat :=
  let b := fun h => tankBytes (tankOf s c t h)
  match h with
  | 0 => b 0 + 2 * max (b 1) (b 2)
  | _ => b h + b 0 / 2

/-- A read with another selection or width than the tank was written with (R96). -/
def tankWrong (s : State) (c t : Nat) (x : Sel) : Bool :=
  let own := tankOf s c t x.h
  let lap := if x.h = 0 then [1, 2] else [0]
  (!own.elems.isEmpty && own.wlog != x.wlog) || lap.any fun h => !(tankOf s c t h).elems.isEmpty

/-- Any tank of core c's span holds elements (R210). -/
def tanksFull (s : State) (c : Nat) : Bool :=
  s.tanks.any fun e => c * 24 ≤ e.1 && e.1 < c * 24 + 24 && !e.2.elems.isEmpty

-- Operands (R87, R112–R115) --------------------------------------------------------------------------------------------------------

inductive Opd where
  | plate (base : Nat) (stride : Int) (ty n fields : Nat)
  | tank (t ty n fields : Nat)
  | vreg (k : Nat)
  | sreg (v : Nat)
  | mask (m : Nat)
  | none
  deriving DecidableEq, Repr

/-- A fault of a vector instruction: its code, the port, the Plate-space address and the tank (R99, R109). -/
structure VFlt where
  code : Nat
  port : Nat
  addr : Nat
  tank : Nat
  deriving DecidableEq, Repr

def vfUNMAPPED : Nat := 1
def vfWPROT : Nat := 2
def vfPOISON : Nat := 3
def vfRANGE : Nat := 4
def vfALIGN : Nat := 5
def vfSTRIDE : Nat := 6
def vfTANKOVF : Nat := 7
def vfTANKUND : Nat := 8
def vfTANKW : Nat := 9
def vfSPAN : Nat := 10
def vfOVERLAP : Nat := 11

/-- Tray address of descriptor block i of an issuer's slice (R112). -/
def blkAddr (k : Option Nat) (i : Nat) : Nat := (k.getD 0) * 16384 + 16 * i

/-- The words of a Tray descriptor block as they stand. -/
def blkWords (s : State) (c : Nat) (k : Option Nat) : OpFld → Option (List Nat)
  | .dblk i =>
    let b := trayBytes s c (blkAddr k i) 16
    some ((List.range 4).map fun j => leVal ((b.drop (4 * j)).take 4))
  | _ => none

/-- The four words of a descriptor: from the registers read at issue, or from the Tray block read at start (R114). -/
def descWords (e : VEnt) (blk : Option (List Nat)) : OpFld → Option (List Nat)
  | .dreg k => some ((List.range 4).map fun i => (tget 0 e.regs (k + i)).toNat)
  | .dblk _ => blk
  | _ => none

/-- The Tray words of a descriptor block in error, by address and kind (R76). -/
def blkErrs (s : State) (c : Nat) (k : Option Nat) : OpFld → List (Nat × Nat)
  | .dblk i => [blkAddr k i, blkAddr k i + 8].filterMap fun a =>
      let e := tget 0 s.trayEcc (trayKey c a / 8)
      if e = 0 then none else some (a, e)
  | _ => []

/-- What an instruction reads when it starts, unless it has started before (R103, R114). -/
def snapEnt (s : State) (c : Nat) (k : Option Nat) (e : VEnt) : VEnt :=
  match e.snap, e.op with
  | none, .str _ x =>
    let fs := [fld x.a, fld x.b, fld x.d]
    let errs := fs.map (blkErrs s c k)
    let n : Snap := ⟨vcountOf s c k, vceilOf s c k, blkWords s c k (fld x.a), blkWords s c k (fld x.b),
      blkWords s c k (fld x.d), (errs.flatten.map Prod.fst).eraseDups, errs.findIdx? fun l => l.any fun z => z.2 != 1⟩
    { e with snap := some n }
  | _, _ => e

/-- Whether a descriptor takes its length from VCOUNT, and its length (R87, R114). -/
def descVc (ws : List Nat) : Bool := bits (ws.getD 2 0) 0 21 == 0x1FFFFF
def descN (vc : Nat) (ws : List Nat) : Nat := if descVc ws then vc else bits (ws.getD 2 0) 0 21
/-- Contents that fault RANGE whatever the operation (R87, R88). -/
def descBad (ws : List Nat) : Bool :=
  let n := bits (ws.getD 2 0) 0 21
  let f := bits (ws.getD 3 0) 0 3
  (0x100000 < n && n != 0x1FFFFF) || f == 1 || 4 < f || 10 < bits (ws.getD 1 0) 24 4

def descOpd (n : Nat) (ws : List Nat) : Opd :=
  let w0 := ws.getD 0 0
  let ty := bits (ws.getD 1 0) 24 4
  let f := bits (ws.getD 3 0) 0 3
  if bit w0 31 then .tank (bits w0 0 3) ty n f
  else .plate (bits w0 0 24) (sval 24 (bits (ws.getD 1 0) 0 24)) ty n f

/-- A scalar register or pair as an element. -/
def sregVal (e : VEnt) (sz k : Nat) : Nat :=
  let r := fun i => if i = 0 then 0 else (tget 0 e.regs i).toNat
  (r k + (if sz = 8 then r (k + 1) * 2 ^ 32 else 0)) % 2 ^ (8 * sz)

def opdOf (e : VEnt) (vc sz : Nat) (f : OpFld) (ws : Option (List Nat)) : Opd :=
  match f with
  | .sreg k => .sreg (sregVal e sz k)
  | .vreg k => .vreg k
  | .mask m => .mask m
  | _ => match ws with | some ws => descOpd (descN vc ws) ws | none => .none

/-- The address of field f of element i (R89). -/
def opdAddr (base : Nat) (stride : Int) (ty i f : Nat) : Int := base + ((i : Int) * stride + f) * tySize ty

/-- Plate-space address for the fault record, 0 for other operands (R109). -/
def infoAddr (o : Opd) (i : Nat) : Nat :=
  match o with
  | .plate b st ty _ _ => uenc 24 (opdAddr b st ty i 0)
  | _ => 0
def infoTank (o : Opd) : Nat := match o with | .tank t _ _ _ => t | _ => 0
def flt (code port : Nat) (o : Opd) (i : Nat) : VFlt := ⟨code, port, infoAddr o i, infoTank o⟩

/-- Packed: the byte stride is plus or minus the element size, or a structure's stride equals its fields (R58, R89). -/
def packed : Opd → Bool
  | .plate _ st _ _ f => if f = 0 then st == 1 || st == -1 else st == f
  | _ => true

/-- The stride classes of R59. -/
def strideOk (b sz : Int) (src : Bool) : Bool :=
  b == sz || b == -sz || (if b == 0 then src else b.natAbs < 256 || (b % 256 == 0 && b % 65536 != 0))

-- Start checks (R456) ------------------------------------------------------------------------------------------------------------------

/-- Registers of a group that n elements of sz bytes take. -/
def regSpan (w n sz : Nat) : Nat := cdiv (n * sz) (64 * w)
/-- g_f of R127: the smallest of 1, 2, 4 and 8 registers that holds n elements; none beyond. -/
def gField (w n sz : Nat) : Option Nat := [1, 2, 4, 8].find? fun g => n * sz ≤ g * 64 * w

/-- Registers that the D operand of an operation touches from vk on. -/
def dstRegs (op : SOp) (t dt w n fields : Nat) : Option Nat :=
  match op with
  | .dot => some (if t = 0 then 1 else if t = 1 then 2 else 4)
  | .redadd | .redmin | .redmax => some 1
  | .lds => (gField w n (tySize dt)).map (· * fields)
  | _ => if 8 < regSpan w n (tySize dt) then none else some (regSpan w n (tySize dt))

/-- The registers that a v register operand covers from vk on; none beyond the limits. -/
def srcRegs (op : SOp) (t w n fields : Nat) (third : Bool) : Option Nat :=
  match op with
  | .sts => (gField w n (tySize t)).map (· * fields)
  | _ =>
    if third && op == .psum then some 1
    else
      let sz := if third && op == .fmaw then 8 else tySize t
      if 8 < regSpan w n sz then none else some (regSpan w n sz)

/-- The checks of one descriptor operand, in the order of R456; `exp` is its type, `str` says that R127 wants a
structure there. -/
def descCheck (v : VEnv) (op : SOp) (port exp fields : Nat) (str src : Bool) (ws : List Nat) (o : Opd) : Option VFlt :=
  match o with
  | .plate b st ty _ f =>
    let sz := tySize ty
    let by_ : Int := st * sz
    if descBad ws || ty != exp || str != (f != 0) then some (flt vfRANGE port o 0)
    else if b % sz != 0 || (str && !packed o && (b % 8 != 0 || by_ % 8 != 0)) then some (flt vfALIGN port o 0)
    else if !strideOk by_ sz src then some (flt vfSTRIDE port o 0)
    else none
  | .tank t ty _ f =>
    if descBad ws || ty != exp || f != 0 || str || (op == .ldff && src) ||
        ((op == .lds || op == .sts) && 8 < t + fields) then
      some (flt vfRANGE port o 0)
    else if src && (List.range (if op == .sts then fields else 1)).any fun j => tankWrong v.s v.c (t + j) v.sel then
      some (flt vfTANKW port o 0)
    else none
  | _ => none

/-- Registers of an operand stay within v0–v31 and within the capacity (R115, R124, R127). -/
def extentCheck (port k : Nat) (o : Opd) (span : Option Nat) (align : Nat) : Option VFlt :=
  match span with
  | some r => if 32 < k + r || k % align != 0 then some (flt vfRANGE port o 0) else none
  | none => some (flt vfRANGE port o 0)

/-- Byte range that a Plate operand touches. -/
def opdRange (o : Opd) : Option (Int × Int) :=
  match o with
  | .plate b st ty n f =>
    if n = 0 then none
    else
      let a0 := opdAddr b st ty 0 0
      let a1 := opdAddr b st ty (n - 1) 0
      some (min a0 a1, max a0 a1 + (max f 1) * tySize ty)
  | _ => none

/-- Partial overlap of a destination with a source (R90, R135, R136). -/
def overlaps (d a : Opd) (dr ar : Option Nat) (always : Bool) : Bool :=
  match d, a with
  | .plate b st ty n _, .plate b' st' ty' n' _ =>
    match opdRange d, opdRange a with
    | some (l, h), some (l', h') => l < h' && l' < h && !(b == b' && st == st' && ty == ty' && n == n')
    | _, _ => false
  | .vreg k, .vreg k' =>
    match dr, ar with
    | some r, some r' => k < k' + r' && k' < k + r && (always || !(k == k' && r == r'))
    | _, _ => false
  | _, _ => false

/-- A stream instruction that has passed its start checks: its operands, its length and the terms of its count. -/
structure Prep where
  op  : SOp
  t   : Nat
  dt  : Nat
  md  : Nat
  n   : Nat
  nc  : Nat
  fields : Nat
  a   : Opd
  b   : Opd
  c   : Opd
  d   : Opd
  blk : Bool
  ssrc : Nat
  ddst : Nat
  deriving DecidableEq, Repr

def srcTerm : Opd → Nat
  | .plate .. => 14
  | .tank .. => 2
  | _ => 1

/-- Resolve the operands and make the start checks (R114, R456). -/
def prepare (v : VEnv) (e : VEnt) (op : SOp) (x : StreamArgs) (ct : Bool) : Prep × Option VFlt :=
  let sn := e.snap.getD Snap.init
  let vc := sn.vc
  let vceil := sn.ceil
  let t := x.ty.toNat
  let fa := fld x.a
  let fb := fld x.b
  let fc := fld x.cc
  let fd := fld x.d
  let wa := descWords e sn.a fa
  let wb := descWords e sn.b fb
  let wd_ := descWords e sn.d fd
  let sz := tySize t
  let a := opdOf e vc sz fa wa
  let b := opdOf e vc sz fb wb
  let c := opdOf e vc (if op == .fmaw then 8 else sz) fc none
  let d := opdOf e vc sz fd wd_
  let dt := match op with
    | .cvt => (match d, fc with | .plate _ _ ty _ _, _ => ty | .tank _ ty _ _, _ => ty | _, .ty u => u | _, _ => t)
    | _ => dType op t
  let fields := match op, a, d with
    | .lds, .plate _ _ _ _ f, _ => f
    | .sts, _, .plate _ _ _ _ f => f
    | _, _, _ => 1
  -- for VSTS the record count is that of its structure side, D
  let nws := if op == .sts then wd_ else (wa.orElse fun _ => wb).orElse fun _ => wd_
  let n := match nws with | some ws => descN vc ws | none => vc
  let fromVc := match nws with | some ws => descVc ws | none => true
  let nc := if ct && fromVc then vceil else n
  let w := v.sel.w
  let planar := fun (o : Opd) => match o with | .plate .. => true | _ => false
  let p : Prep :=
    { op := op, t := t, dt := dt, md := x.md.toNat, n := n, nc := nc, fields := max fields 1
      a := a, b := b, c := c, d := d, blk := fa.isBlk || fb.isBlk || fd.isBlk
      ssrc := max (srcTerm a) (max (srcTerm b) (srcTerm c))
      ddst := match d with | .plate .. => 7 | .sreg _ => 2 | _ => 1 }
  let ra := srcRegs op t w n fields false
  let rc := srcRegs op t w n fields true
  let rd := dstRegs op t dt w n fields
  let side := fun (port : Nat) (o : Opd) => planar o && ((op == SOp.lds && port == 2) || (op == SOp.sts && port == 0))
  -- the planar side of a structure transfer holds n·F elements (R127)
  let badPlanar := fun (ws : Option (List Nat)) (o : Opd) (port : Nat) =>
    match ws with
    | some ws => side port o && 2 ≤ fields && fields ≤ 4 && descN vc ws != n * fields
    | none => false
  let chk := fun (ws : Option (List Nat)) (o : Opd) (port exp : Nat) (str src : Bool) =>
    if sn.bad = some port then some (⟨vfPOISON, port, 0, 0⟩ : VFlt)
    else if badPlanar ws o port then some (flt vfRANGE port o 0)
    else match ws with | some ws => descCheck v op port exp fields str src ws o | none => none
  let ext := fun (o : Opd) (port : Nat) (r : Option Nat) =>
    match o with | .vreg k => extentCheck port k o r 1 | _ => none
  let nOk := fun (ws : Option (List Nat)) (o : Opd) (port : Nat) =>
    match ws with | some ws => side port o || descN vc ws == n | none => true
  let rmInt : Bool := op == SOp.cvt && x.md.toNat / 4 != 0 && !(tyRm t || tyRm dt)
  let fault : Option VFlt :=
    if x.h != 0 && spanLog v.s v.c = 0 then some (flt vfSPAN 2 d 0)
    else (chk wa a 0 t (op == SOp.lds) true)
      |>.orElse fun _ => ext a 0 ra
      |>.orElse fun _ => chk wb b 1 t false true
      |>.orElse fun _ => ext b 1 ra
      |>.orElse fun _ => ext c 3 rc
      |>.orElse fun _ => (if op == SOp.cvt && wd_.isSome && sn.bad != some 2 && (!cvtLegal t dt || rmInt) then some (flt vfRANGE 2 d 0) else none)
      |>.orElse fun _ => chk wd_ d 2 dt (op == SOp.sts) false
      |>.orElse fun _ => (match d with
        | .vreg k => extentCheck 2 k d rd (if op == SOp.dot then (rd.getD 1) else 1)
        | .mask _ => if 16 * w < n then some (flt vfRANGE 2 d 0) else none
        | _ => none)
      |>.orElse fun _ => (if nOk wa a 0 && nOk wb b 1 && nOk wd_ d 2 then none else some (flt vfRANGE 2 d 0))
      |>.orElse fun _ =>
        let acc : Bool := op == SOp.dot && bit x.md.toNat 0
        if overlaps d a rd ra acc || overlaps d b rd ra acc || overlaps d c rd rc false then some (flt vfOVERLAP 2 d 0)
        else none
  (p, fault)

-- Counts (R92–R95) -----------------------------------------------------------------------------------------------------------------------------

/-- Twice the k of one operand; none where it takes no part (R93, R115). -/
def opdK2 (t : Nat) (o : Opd) : Option Nat :=
  match o with
  | .plate _ _ ty _ _ => some (if packed o then tyK2 ty else 1)
  | .tank _ ty _ _ => some (tyK2 ty)
  | .vreg _ => some (tyK2 t)
  | _ => none

/-- Twice k_type of an instruction. -/
def prepK2 (p : Prep) : Nat :=
  let cs := if p.op == SOp.psum then none else opdK2 p.t p.c
  let ds := match p.d with | .vreg _ => none | d => opdK2 p.t d
  let ks := [opdK2 p.t p.a, opdK2 p.t p.b, cs, ds].filterMap id
  match ks with
  | [] => tyK2 p.t
  | k :: ks => ks.foldl min k

/-- The data term G for n elements on w pipes (R92, R93). -/
def dataTerm (p : Prep) (w n : Nat) : Nat :=
  let str := match p.op with | .lds => some p.a | .sts => some p.d | _ => none
  match str with
  | some o =>
    if packed o then cdiv (2 * n * p.fields) (16 * w * prepK2 p)
    else cdiv (n * cdiv (p.fields * tySize p.t) 8) (8 * w)
  | none => cdiv (2 * n) (16 * w * prepK2 p)

def allowance (w n : Nat) : Nat := 2 * cdiv n (256 * w)
def spanTerm (wlog : Nat) : Nat := if 3 ≤ wlog then 8 else 0
/-- S_desc + S_span. -/
def prepFixed (p : Prep) (wlog : Nat) : Nat := (if p.blk then 2 else 0) + spanTerm wlog
def prepS (p : Prep) (wlog : Nat) : Nat := p.ssrc + prepFixed p wlog + lfn p.op p.t wlog
def prepD (p : Prep) (wlog : Nat) : Nat := p.ddst + spanTerm wlog

/-- T = S_op + G + A + D_op (R92). -/
def countOf (p : Prep) (wlog n : Nat) : Nat :=
  prepS p wlog + dataTerm p (2 ^ wlog) n + allowance (2 ^ wlog) n + prepD p wlog

/-- The count of a chained pair (R98); `d` is how far the consumer's issue follows the producer's start, `x` its other
operands' S_x. -/
def pairCount (p q : Prep) (wlog d x n : Nat) : Nat :=
  max (prepS p wlog + 3) (d + x) + lfn q.op q.t wlog + max (dataTerm p (2 ^ wlog) n) (dataTerm q (2 ^ wlog) n) +
    allowance (2 ^ wlog) n + prepD q wlog

end Sys2Proof.Machine
end

