-- ==== Sys2Proof/Machine/VEval.lean ====
section
/-! DEFINITION. Evaluating vector instructions: element by element for streams, whole for short vectors. Evaluation
writes nothing; it gathers the writes that land when the count expires (R99, R135). -/

namespace Sys2Proof.Machine
open Sys2Proof

-- Reading one element -----------------------------------------------------------------------------------------------------

/-- What the elements so far have produced: writes and exceptions (latest first), Plate words found in error, free
values drawn, the values gathered for a reduction or pushed into a chained tank, and the latest result. -/
structure VAcc where
  writes : List VWrite
  flags  : List Nat
  ecc    : List (Nat × Nat)
  fresh  : Nat
  vals   : List Nat
  vals2  : List Nat
  last   : Nat
  deriving DecidableEq, Repr

def VAcc.init (fresh : Nat) : VAcc := ⟨[], [], [], fresh, [], [], 0⟩

/-- One element of an operand: its value, the Plate words found in error with the kind of error, 3 for a word whose quadrant
is lost (R392), and its access fault code. -/
structure Rd where
  v   : Nat
  ecc : List (Nat × Nat)
  err : Option Nat
  deriving DecidableEq, Repr

/-- A stream read of a Plate element (R63, R72, R74). -/
def peekPlate (s : State) (m a n : Nat) : Rd :=
  match plateResolve s m a false with
  | .error _ => ⟨0, if wordLost s m a false then [(0, 3)] else [], some vfUNMAPPED⟩
  | .ok wa =>
    if s.poison.contains wa then ⟨0, [], some vfPOISON⟩
    else match tget 0 s.plateEcc wa with
      | 0 => ⟨plateWord s wa / 2 ^ (8 * (a % 8)) % 2 ^ (8 * n), [], none⟩
      | 1 => ⟨plateWord s wa / 2 ^ (8 * (a % 8)) % 2 ^ (8 * n), [(wa, 1)], none⟩
      | z => ⟨0, [(wa, z)], some vfPOISON⟩

/-- Element i of a tank, of whose elements those before `first` are gone (R96); `chain` are the elements that a chained
producer has put there, as the tank holds them. An element of another size reads as a free value. -/
def tankElem (v : VEnv) (t i first n cls fresh : Nat) (chain : Option (List (Nat × Nat))) : Rd :=
  match (chain.getD (tankOf v.s v.c t v.sel.h).elems)[i - first]? with
  | none => ⟨0, [], some vfTANKUND⟩
  | some (x, sz) =>
    if sz = n then ⟨heldAs v.sel.neg cls 0 n x, [], none⟩
    else ⟨(Config.freeValue fresh).toNat % 2 ^ (8 * n), [], none⟩

/-- Field f of element i of a source operand whose elements have type `t`. -/
def readOpd (v : VEnv) (o : Opd) (t i f first fresh : Nat) (chain : Option (List (Nat × Nat))) : Rd :=
  let sz := tySize t
  match o with
  | .plate b st ty _ _ =>
    let a := opdAddr b st ty i f
    if a < 0 || 0xFFFFFF < a then ⟨0, [], some vfRANGE⟩ else peekPlate v.s v.m a.toNat sz
  | .tank k _ _ _ => tankElem v (k + f) i first sz (tyCls t) fresh chain
  | .vreg k => ⟨vElem v k (i * sz) sz (tyCls t), [], none⟩
  | .sreg x => ⟨x, [], none⟩
  | _ => ⟨0, [], none⟩

-- Writing one element ------------------------------------------------------------------------------------------------------

/-- The bytes that a packed destination covers, so that it writes whole words (R58, R74). -/
def destCover (o : Opd) (i f : Nat) : Int × Int :=
  match o with
  | .plate b st ty _ _ =>
    let a := opdAddr b st ty i f
    if packed o then (match opdRange o with | some r => r | none => (a, a)) else (a, a + tySize ty)
  | _ => (0, 0)

/-- The access fault of a write to field f of element i (R456); `k` elements have been pushed into its tank. -/
def writeErr (v : VEnv) (o : Opd) (t i f k : Nat) : Option Nat :=
  let sz := tySize t
  match o with
  | .plate b st ty _ _ =>
    let a := opdAddr b st ty i f
    if a < 0 || 0xFFFFFF < a then some vfRANGE
    else match plateResolve v.s v.m a.toNat true with
      | .error 2 => some vfWPROT
      | .error _ => some vfUNMAPPED
      | .ok wa =>
        let (lo, hi) := destCover o i f
        let w0 : Int := a.toNat / 8 * 8
        if (v.s.poison.contains wa || 2 ≤ tget 0 v.s.plateEcc wa) && !(lo ≤ w0 && w0 + 8 ≤ hi) then some vfPOISON
        else none
  | .tank tk _ _ _ =>
    if !v.chain && 4096 * v.sel.w < tankUsed v.s v.c (tk + f) v.sel.h + (k + 1) * sz then some vfTANKOVF else none
  | _ => none

/-- The uncorrectable error that the read of a narrow write finds in its word (R68, R74), or a lost quadrant (R392). -/
def writeUe (v : VEnv) (o : Opd) (i f : Nat) : List (Nat × Nat) :=
  match o with
  | .plate b st ty _ _ =>
    match plateResolve v.s v.m (opdAddr b st ty i f).toNat true with
    | .ok wa => let z := tget 0 v.s.plateEcc wa; if 2 ≤ z then [(wa, z)] else []
    | .error _ => if wordLost v.s v.m (opdAddr b st ty i f).toNat true then [(0, 3)] else []
  | _ => []

/-- The write of field f of element i. -/
def writeOpd (v : VEnv) (o : Opd) (t i f x : Nat) : List VWrite :=
  let sz := tySize t
  match o with
  | .plate b st ty _ _ => [.plate (opdAddr b st ty i f).toNat (leBytes sz x)]
  | .tank k _ _ _ => [.tpush (k + f) v.sel.h x sz (tyCls t)]
  | .vreg k => [.vreg k (i * sz) (leBytes sz x) (tyCls t)]
  | _ => []

/-- A planar side keeps field f at element f·n + i; a v register side in the group at vk + f·g_f (R127). -/
def otherIdx (p : Prep) (o : Opd) (w i f : Nat) : Opd × Nat × Nat :=
  match o with
  | .plate .. => (o, f * p.n + i, 0)
  | .vreg k => (.vreg (k + f * ((gField w p.n (tySize p.t)).getD 1)), i, 0)
  | _ => (o, i, f)

-- One element of a stream instruction -----------------------------------------------------------------------------------------

def stPort (o : Opd) (port i code : Nat) : VFlt := ⟨code, port, infoAddr o i, infoTank o⟩

/-- The value of one element (R120–R130). -/
def elemVal (p : Prep) (fresh a b c : Nat) : Elt :=
  let rm := rmOf (p.md / 4)
  let sat := bit p.md 3
  match p.op with
  | .cvt => cvtOp p.t p.dt rm (bit p.md 0) (Config.freeValue fresh).toNat a
  | .dadd => decOp false a b
  | .dsub => decOp true a b
  | .cmul => cmulOp p.t (p.t == 7) rm sat (bit p.md 1) (Config.freeValue fresh).toNat a b
  | .mulw => mulwOp p.t rm a b
  | .fmaw => fmawOp rm a b c
  | .cmp => let (x, fl) := cmpOp p.t (p.md % 8) a b; ⟨if x then 0xFF else 0, fl.eraseDups, true⟩
  | op => eltOf (elemOp op p.t rm sat (bit p.md 0) a b c)

/-- The order of the access faults of one operand (R456). -/
def accessRank (code : Nat) : Nat :=
  ([vfRANGE, vfUNMAPPED, vfWPROT, vfPOISON, vfTANKUND, vfTANKOVF].findIdx? (· == code)).getD 6

/-- The access fault of a record among those of its fields (R456). -/
def firstAccess (codes : List Nat) : Option Nat :=
  codes.foldl (fun b e => match b with | some y => if accessRank e < accessRank y then some e else b | none => some e) none

/-- Structure transfers: all fields are read, then all are checked for writing (R127, R456). -/
def structElem (v : VEnv) (p : Prep) (i first : Nat) (acc : VAcc) : VAcc × Option VFlt :=
  let fs := List.range p.fields
  let src := fun f => if p.op == .lds then (p.a, i, f) else otherIdx p p.a v.sel.w i f
  let dst := fun f => if p.op == .lds then otherIdx p p.d v.sel.w i f else (p.d, i, f)
  let rs := fs.map fun f => let (o, j, g) := src f; readOpd v o p.t j g first acc.fresh none
  let acc := { acc with ecc := (rs.flatMap fun r => r.ecc).reverse ++ acc.ecc, fresh := acc.fresh + 1 }
  match firstAccess (rs.filterMap fun r => r.err) with
  | some e => (acc, some (stPort p.a 0 i e))
  | none =>
    match firstAccess (fs.filterMap fun f => let (o, j, g) := dst f; writeErr v o p.t j g (i - first)) with
    | some e =>
      let found := if e = vfPOISON ∨ e = vfUNMAPPED then fs.flatMap fun f => let (o, j, g) := dst f; writeUe v o j g else []
      ({ acc with ecc := found.reverse ++ acc.ecc }, some (stPort p.d 2 i e))
    | none =>
      let ws := (fs.zip rs).flatMap fun (f, r) => let (o, j, g) := dst f; writeOpd v o p.t j g r.v
      ({ acc with writes := ws.reverse ++ acc.writes }, none)

/-- Whether an operation gathers its elements and writes at its end. -/
def gathers (op : SOp) : Bool := isRed op || op == .dot

/-- One element of any other operation. `chainA` and `chainB` stand for a chained tank read on that port. -/
def plainElem (v : VEnv) (p : Prep) (i first : Nat) (chainA chainB : Option (List (Nat × Nat))) (acc : VAcc) :
    VAcc × Option VFlt :=
  let ct := if p.op == .fmaw then 6 else p.t
  let ra := readOpd v p.a p.t i 0 first acc.fresh chainA
  let rb := readOpd v p.b p.t i 0 first (acc.fresh + 1) chainB
  let rc : Rd := if p.op == .psum then ⟨acc.last, [], none⟩ else readOpd v p.c ct i 0 first acc.fresh none
  let acc := { acc with ecc := rb.ecc.reverse ++ ra.ecc.reverse ++ acc.ecc }
  match ra.err, rb.err with
  | some e, _ => (acc, some (stPort p.a 0 i e))
  | none, some e => (acc, some (stPort p.b 1 i e))
  | none, none =>
    let mask := match p.d with | .mask _ => true | _ => false
    match if mask || gathers p.op then none else writeErr v p.d p.dt i 0 acc.vals.length with
    | some e =>
      let found := if e = vfPOISON ∨ e = vfUNMAPPED then writeUe v p.d i 0 else []
      ({ acc with ecc := found.reverse ++ acc.ecc }, some (stPort p.d 2 i e))
    | none =>
      if gathers p.op then ({ acc with vals := ra.v :: acc.vals, vals2 := rb.v :: acc.vals2, fresh := acc.fresh + 2 }, none)
      else
        let r := if p.op == .psum then elemVal p acc.fresh rc.v ra.v 0 else elemVal p acc.fresh ra.v rb.v rc.v
        let acc := { acc with flags := r.fl.reverse ++ acc.flags, fresh := acc.fresh + 2 }
        match trapTaken v.en r.fl with
        | some e => (acc, some (stPort p.d 2 i (0x10 + e)))
        | none =>
          let ws := if r.wr && !mask then writeOpd v p.d p.dt i 0 r.v else []
          ({ acc with writes := ws.reverse ++ acc.writes, vals := r.v :: acc.vals, last := r.v }, none)

def stepElem (v : VEnv) (p : Prep) (i first : Nat) (ca cb : Option (List (Nat × Nat))) (acc : VAcc) : VAcc × Option VFlt :=
  if p.op == .lds || p.op == .sts then structElem v p i first acc else plainElem v p i first ca cb acc

/-- Elements i, i + 1, … for `fuel` elements; the first fault stops them. -/
def elemLoop (v : VEnv) (p : Prep) (first : Nat) (ca cb : Option (List (Nat × Nat))) :
    Nat → Nat → VAcc → VAcc × Option (Nat × VFlt)
  | 0, _, acc => (acc, none)
  | fuel + 1, i, acc =>
    match stepElem v p i first ca cb acc with
    | (acc, some f) => (acc, some (i, f))
    | (acc, none) => elemLoop v p first ca cb fuel (i + 1) acc

-- Ends of streams ----------------------------------------------------------------------------------------------------------------

/-- Zeros after element n − 1 in the last register touched (R115). -/
def padRegs (v : VEnv) (p : Prep) : List VWrite :=
  match p.d with
  | .vreg k =>
    let r := 64 * v.sel.w
    let pad := fun (k n : Nat) =>
      if n % r = 0 then [] else (List.range (r - n % r)).map fun j => VWrite.vreg k (n + j) [0] (tyCls p.dt)
    if p.op == .lds then
      let g := (gField v.sel.w p.n (tySize p.t)).getD 1
      (List.range p.fields).flatMap fun f => pad (k + f * g) (p.n * tySize p.t)
    else if gathers p.op then [] else pad k (p.n * tySize p.dt)
  | _ => []

/-- A scalar register or pair receives an element; a narrow integer is sign-extended, and the bits above an f16 are
not given (log entry 41). -/
def sregWrites (k t x fresh : Nat) : List VWrite :=
  if tySize t = 8 then [.sreg k (w32 x), .sreg (k + 1) (w32 (x / 2 ^ 32))]
  else if tyInt t then [.sreg k (w32 (uenc 32 (sval (8 * tySize t) x)))]
  else if t = 4 then [.sreg k (w32 (x % 2 ^ 16 + (Config.freeValue fresh).toNat % 2 ^ 16 * 2 ^ 16))]
  else [.sreg k (w32 x)]

/-- How many elements a reduction has taken when combination j traps: the joins come as the elements do, the tree after
them. -/
def redTook (lanes n j : Nat) : Nat := min n (lanes + j + 1)

/-- The end of a reduction (R126). `stop` is the access fault that ended the elements: of the combinations only the
joins before it were made, and an enabled exception of one of them comes first (R456). -/
def finishRed (v : VEnv) (p : Prep) (acc : VAcc) (stop : Option VFlt) : VAcc × Option VFlt :=
  let rm := rmOf (p.md / 4)
  let f := fun a b => let (x, fl) := elemOp p.op p.t rm (bit p.md 3) false a b 0; (x, fl.eraseDups)
  let (ps, joins) := redJoins f (4 + v.sel.wlog) acc.vals.reverse
  let (r, tree) := if stop.isSome then (none, []) else redTree f (4 + v.sel.wlog) ps
  let fls := joins ++ tree
  let x := r.getD (redIdent p.op p.t)
  match fls.findIdx? (fun fl => (trapTaken v.en fl).isSome), stop with
  | some j, _ =>
    ({ acc with flags := ((fls.take (j + 1)).flatten).reverse ++ acc.flags },
      some ⟨0x10 + (trapTaken v.en (fls.getD j [])).getD 0, 2, 0, 0⟩)
  | none, some e => ({ acc with flags := fls.flatten.reverse ++ acc.flags }, some e)
  | none, none =>
    let ws := match p.d with
      | .vreg k => [VWrite.vreg k 0 (leBytes (tySize p.t) x) (tyCls p.t)]
      | _ => []
    ({ acc with flags := fls.flatten.reverse ++ acc.flags, writes := ws.reverse ++ acc.writes, last := x }, none)

/-- How many of `n` elements a reduction that stops has taken: up to the first combination that traps. -/
def redStop (v : VEnv) (p : Prep) (vals : List Nat) (n : Nat) : Nat :=
  let f := fun a b => let (x, fl) := elemOp p.op p.t (rmOf (p.md / 4)) (bit p.md 3) false a b 0; (x, fl.eraseDups)
  match (redJoins f (4 + v.sel.wlog) vals).2.findIdx? fun fl => (trapTaken v.en fl).isSome with
  | some j => redTook (16 * v.sel.w) n j
  | none => n

/-- Signed products of one lane step of VDOT, real then imaginary. -/
def dotProd (p : Prep) (a b : Nat) : Int × Int :=
  if p.t = 7 then
    let ar := sval 16 a
    let ai := sval 16 (a / 2 ^ 16)
    let br := sval 16 b
    let bi := if bit p.md 1 then -(sval 16 (b / 2 ^ 16)) else sval 16 (b / 2 ^ 16)
    (ar * br - ai * bi, ar * bi + ai * br)
  else
    let w := 8 * tySize p.t
    (sval w a * sval w b, 0)

/-- Add the lane steps of elements i, i + 1, … to the accumulators (R124); `m` elements make a lane step. -/
def dotLoop (p : Prep) (lanes m w : Nat) (accs : List (Nat × Nat)) : Nat → List (Nat × Nat) → Int × Int → List (Nat × Nat)
  | _, [], _ => accs
  | i, (a, b) :: xs, (sr, si) =>
    let (pr, pi) := dotProd p a b
    let sum := (sr + pr, si + pi)
    if (i + 1) % m = 0 || xs.isEmpty then
      let l := i / m % lanes
      let (x, y) := accs.getD l (0, 0)
      let z := (intRes w (bit p.md 3) (sval w x + sum.1), intRes w (bit p.md 3) (sval w y + sum.2))
      dotLoop p lanes m w (accs.set l z) (i + 1) xs (0, 0)
    else dotLoop p lanes m w accs (i + 1) xs sum

/-- The end of VDOT: the accumulators of the elements taken (R124). -/
def finishDot (v : VEnv) (p : Prep) (first : Nat) (acc : VAcc) : VAcc :=
  match p.d with
  | .vreg k =>
    let lanes := 16 * v.sel.w
    let m := if p.t = 0 then 4 else if p.t = 1 then 2 else 1
    let w := if p.t = 0 then 32 else 64
    let sz := if p.t = 0 then 4 else if p.t = 1 then 8 else 16
    let keep := bit p.md 0 || first != 0
    let accs := (List.range lanes).map fun l =>
      if keep then (vElem v k (l * sz) (w / 8) 0, if sz = 16 then vElem v k (l * sz + 8) 8 0 else 0) else (0, 0)
    let accs := dotLoop p lanes m w accs first (acc.vals.reverse.zip acc.vals2.reverse) (0, 0)
    let ws := (List.range lanes).flatMap fun l =>
      let (x, y) := accs.getD l (0, 0)
      VWrite.vreg k (l * sz) (leBytes (w / 8) x) 0 ::
        (if sz = 16 then [VWrite.vreg k (l * sz + 8) (leBytes 8 y) 0] else [])
    { acc with writes := ws.reverse ++ acc.writes }
  | _ => acc

/-- Mask bits of the elements taken from `first` on; those before it stand, and above n they are cleared (R100, R128). -/
def maskEnd (v : VEnv) (p : Prep) (first : Nat) (acc : VAcc) (whole : Bool) : VAcc :=
  match p.d with
  | .mask m =>
    let bs := acc.vals.reverse
    let old := maskOf v.s v.sel m
    let x := (bs.zipIdx).foldl (fun a (b, i) => a + b2n (b != 0) * 2 ^ (first + i)) (old % 2 ^ first)
    let top := first + bs.length
    let x := if whole then x else x + old / 2 ^ top * 2 ^ top
    { acc with writes := .mask m x :: acc.writes }
  | _ => acc

/-- The distinct tanks that an instruction reads. -/
def tanksRead (p : Prep) : List Nat :=
  let t := fun (o : Opd) => match o with
    | .tank k _ _ _ => if p.op == SOp.sts then (List.range p.fields).map (· + k) else [k]
    | _ => []
  (t p.a ++ t p.b).eraseDups

/-- What an evaluation yields: writes in order, exceptions in order, errors found, the fault, the elements delivered
the count, and how far its sources' elements were taken. -/
structure VRes where
  writes : List VWrite
  flags  : List Nat
  ecc    : List (Nat × Nat)
  fresh  : Nat
  fault  : Option (Nat × VFlt)
  last   : Nat
  count  : Nat
  pushed : List Nat
  took   : Nat
  deriving DecidableEq, Repr

/-- The carry of VPREFIX: its start value C, or element `first` − 1 of its destination (R100, R126). -/
def prefixCarry (v : VEnv) (p : Prep) (first : Nat) (carry : Option Nat) : Nat :=
  let sz := tySize p.t
  if first = 0 then
    match p.c with
    | .sreg x => x
    | .vreg k => vElem v k 0 sz (tyCls p.t)
    | _ => 0
  else match p.d with
    | .plate .. | .vreg _ => (readOpd v p.d p.t (first - 1) 0 0 0 none).v
    | _ => carry.getD 0

/-- Evaluate a stream instruction whose start checks are done. -/
def evalStream (v : VEnv) (e : VEnt) (p : Prep) (start : Option VFlt) (ct : Bool) (ca cb : Option (List (Nat × Nat))) :
    VRes :=
  let wl := v.sel.wlog
  let first := e.first
  let acc := { VAcc.init v.s.fresh with last := if p.op == .psum then prefixCarry v p first e.carry else 0 }
  let (acc, f) := match start with
    | some f => (acc, some (0, f))
    | none => elemLoop v p first ca cb (p.n - first) first acc
  -- VLDFF traps only if element 0 faults (R102)
  let soft : Bool := match f with | some (i, _) => p.op == .ldff && i != 0 | none => false
  let stopped := match f with | some (i, _) => i + 1 | none => p.n
  let (acc, f) :=
    if isRed p.op && start.isNone then
      let (acc, x) := finishRed v p acc (f.map Prod.snd)
      (acc, x.map fun x => (0, x))
    else if f.isSome then (if p.op == .dot && start.isNone then finishDot v p first acc else acc, f)
    else if p.op == .dot then (finishDot v p first acc, none)
    else ({ acc with writes := (padRegs v p).reverse ++ acc.writes }, none)
  let acc := if start.isNone then maskEnd v p first acc f.isNone else acc
  let f := match f with | some (i, x) => some ((if isRed p.op then 0 else i), x) | none => none
  let stop := match f with | some (i, _) => i | none => p.n
  let acc := if p.op == .ldff then
      { acc with writes := .vceil p.n :: .vcount stop :: acc.writes }
    else acc
  let pops := if f.isNone then (tanksRead p).map fun t => VWrite.tpop t v.sel.h (p.n - first) else []
  let sreg := match p.op, f, fld (match e.op with | .str _ x => x.d | .sht _ _ => 0) with
    | .redadd, none, .sreg k | .redmin, none, .sreg k | .redmax, none, .sreg k => sregWrites k p.t acc.last acc.fresh
    | _, _, _ => []
  let nCount := match f with
    | some (i, _) => if p.op == .ldff && ct then p.nc else i
    | none => p.nc
  { writes := acc.writes.reverse ++ pops ++ sreg, flags := acc.flags.reverse, ecc := acc.ecc.reverse,
    fresh := acc.fresh + 1, fault := if soft then none else f, last := acc.last,
    count := countOf p wl (nCount - first), pushed := acc.vals.reverse
    took := if isRed p.op && f.isSome then first + redStop v p acc.vals.reverse (stopped - first) else stopped }

-- Short vectors (R116–R118, R132–R134) ---------------------------------------------------------------------------------------------

def hStream : HOp → SOp
  | .add => .add | .sub => .sub | .mul => .mul | .fma => .fma | .min => .min | .max => .max | .and => .and
  | .or => .or | .xor => .xor | .redadd => .redadd | .redmin => .redmin | .redmax => .redmax | .redadd2 => .redadd
  | .cmul => .cmul | .dadd => .dadd | .dsub => .dsub | .cvt => .cvt | .shli => .shl | .shrai => .shr | .shrli => .shr
  | .cmpeq => .cmp | .cmplt => .cmp | .cmple => .cmp | _ => .mov

/-- The count of R132 and R133. -/
def shortCount (op : HOp) (t g wlog : Nat) : Nat :=
  let l := depth (hStream op) t
  match op with
  | .movs | .mpop => 3
  | .mand | .mor | .mxor | .mnot | .setn | .grp => 2
  | .cmpeq | .cmplt | .cmple => l + 1
  | .redadd | .redmin | .redmax | .redadd2 => l + 2 * (4 + wlog) + g
  | _ => l + g

/-- Fields that name register groups. -/
def groupFields (op : HOp) (x : ShortArgs) : List Nat :=
  let d := x.vd.toNat
  let a := x.va.toNat
  let b := x.vb.toNat
  match op with
  | .add | .sub | .mul | .fma | .min | .max | .and | .or | .xor | .sel | .cmul | .dadd | .dsub => [d, a, b]
  | .shli | .shrai | .shrli | .cvt | .redadd | .redmin | .redmax | .redadd2 => [d, a]
  | .splat => [d]
  | _ => []

/-- Value of element i of a short-vector operation on `t`. -/
def shortElem (v : VEnv) (op : HOp) (x : ShortArgs) (t i fresh : Nat) : Elt :=
  let sz := tySize t
  let rd := fun (k : BitVec 5) => vElem v k.toNat (i * sz) sz (tyCls t)
  let a := rd x.va
  let imm := x.vb.toNat
  match op with
  | .shli => eltInt (shlRes (8 * sz) false a imm)
  | .shrai => eltInt (shrRes (8 * sz) true a imm)
  | .shrli => eltInt (shrRes (8 * sz) false a imm)
  | .cvt => cvtOp t x.vb.toNat .near false (Config.freeValue fresh).toNat a
  | .cmul => cmulOp t false .near false false (Config.freeValue fresh).toNat a (rd x.vb)
  | .dadd => decOp false a (rd x.vb)
  | .dsub => decOp true a (rd x.vb)
  | .cmpeq => let (b, fl) := cmpOp t 0 a (rd x.vb); ⟨b2n b, fl.eraseDups, true⟩
  | .cmplt => let (b, fl) := cmpOp t 2 a (rd x.vb); ⟨b2n b, fl.eraseDups, true⟩
  | .cmple => let (b, fl) := cmpOp t 3 a (rd x.vb); ⟨b2n b, fl.eraseDups, true⟩
  | .fma => eltOf (elemOp .fma t .near false false a (rd x.vb) (rd x.vd))
  | op => eltOf (elemOp (hStream op) t .near false false a (rd x.vb) 0)

/-- The governing bit of the lane that holds an element's lowest byte (R118). -/
def governed (v : VEnv) (m i sz : Nat) : Bool := bit (maskOf v.s v.sel m) (i * sz % (64 * v.sel.w) / 4)

/-- Element-wise short operations: elements that their mask bit leaves out are not written and raise nothing. -/
def shortMap (v : VEnv) (op : HOp) (x : ShortArgs) (g : Nat) : List (Nat × Elt) :=
  let t := x.ty.toNat
  let dt := if op == .cvt then x.vb.toNat else t
  let bytes := g * 64 * v.sel.w
  let n := min (bytes / tySize t) (bytes / tySize dt)
  ((List.range n).filter fun i => governed v x.m.toNat i (tySize dt)).map fun i =>
    (i, shortElem v op x t i (v.s.fresh + i))

/-- All elements of a group. -/
def groupElems (v : VEnv) (k g t : Nat) : List Nat :=
  (List.range (g * 64 * v.sel.w / tySize t)).map fun i => vElem v k (i * tySize t) (tySize t) (tyCls t)

def oddOf : List Nat → List Nat
  | _ :: b :: r => b :: oddOf r
  | _ => []
def evenOf : List Nat → List Nat
  | a :: _ :: r => a :: evenOf r
  | [a] => [a]
  | [] => []

/-- The writes, in order, and the exceptions of each element or combination of a short-vector instruction. -/
def shortBody (v : VEnv) (e : VEnt) (op : HOp) (x : ShortArgs) (g : Nat) : List VWrite × List FFlags :=
  let t := x.ty.toNat
  let sz := tySize t
  let d := x.vd.toNat
  let a := x.va.toNat
  let b := x.vb.toNat
  let n := g * 64 * v.sel.w / sz
  let mk := maskOf v.s v.sel
  let all := 2 ^ (16 * v.sel.w) - 1
  let red := fun (xs : List Nat) =>
    let (r, fl) := redAll (fun a b => let (y, f) := elemOp (hStream op) t .near false false a b 0; (y, f.eraseDups))
      (4 + v.sel.wlog) xs
    (r.getD 0, fl)
  match op with
  | .sel =>
    ((List.range (g * 16 * v.sel.w)).map fun l =>
      VWrite.vreg d (4 * l) (leBytes 4 (vElem v (if bit (mk x.m.toNat) (l % (16 * v.sel.w)) then a else b) (4 * l) 4
        (tyCls t))) (tyCls t), [])
  | .splat =>
    (((List.range n).filter fun i => governed v x.m.toNat i sz).map fun i =>
      VWrite.vreg d (i * sz) (leBytes sz (sregVal e sz a)) (tyCls t), [])
  | .cmpeq | .cmplt | .cmple =>
    let m := 64 * v.sel.w / sz
    let old := mk d
    let rs := ((List.range m).filter fun i => governed v x.m.toNat i sz).map fun i => (i, shortElem v op x t i 0)
    let val := (List.range m).foldl (fun acc i =>
      acc + 2 ^ i * (match rs.find? fun r => r.1 == i with | some r => r.2.v | none => b2n (bit old i))) 0
    ([.mask d val], rs.map fun r => r.2.fl)
  | .redadd | .redmin | .redmax =>
    let (r, fl) := red (groupElems v a g t)
    (if governed v x.m.toNat 0 sz then [.vreg d 0 (leBytes sz r) (tyCls t)] else [], fl)
  | .redadd2 =>
    let xs := groupElems v a g t
    let (r0, f0) := red (evenOf xs)
    let (r1, f1) := red (oddOf xs)
    ((if governed v x.m.toNat 0 sz then [.vreg d 0 (leBytes sz r0) 0] else []) ++
      (if governed v x.m.toNat 1 sz then [.vreg d sz (leBytes sz r1) 0] else []), f0 ++ f1)
  | .movs =>
    let y := if b < 64 * v.sel.w / sz then vElem v a (b * sz) sz (tyCls t) else (Config.freeValue v.s.fresh).toNat % 2 ^ (8 * sz)
    (sregWrites d t y (v.s.fresh + 1), [])
  | .mand => ([.mask d (Nat.land (mk a) (mk b))], [])
  | .mor => ([.mask d (Nat.lor (mk a) (mk b))], [])
  | .mxor => ([.mask d (Nat.xor (mk a) (mk b))], [])
  | .mnot => ([.mask d (Nat.xor (mk a) all)], [])
  | .mpop => ([.sreg d (w32 (((List.range (16 * v.sel.w)).filter fun i => bit (mk a) i).length))], [])
  | .setn => let y := sregVal e 4 a; ([.vcount y, .vceil y], [])
  | .grp => ([.group (2 ^ (a % 4))], [])
  | _ =>
    let dt := if op == .cvt then b else t
    let rs := shortMap v op x g
    (rs.filterMap fun (i, r) => if r.wr then some (.vreg d (i * tySize dt) (leBytes (tySize dt) r.v) (tyCls dt)) else none,
      rs.map fun r => r.2.fl)

/-- Evaluate a short-vector instruction; one that faults writes nothing (R117, R135). -/
def evalShort (v : VEnv) (e : VEnt) (op : HOp) (x : ShortArgs) (g : Nat) : VRes :=
  let cnt := shortCount op x.ty.toNat g v.sel.wlog
  let bad : Option Nat :=
    if x.h != 0 && spanLog v.s v.c = 0 then some vfSPAN
    else if (groupFields op x).any fun k => k % g != 0 then some vfRANGE
    else if op == .setn && 0x100000 < sregVal e 4 x.va.toNat then some vfRANGE
    else none
  let stop := fun (code : Nat) (fl : List Nat) =>
    VRes.mk [] fl [] v.s.fresh (some (0, ⟨code, 2, 0, 0⟩)) 0 cnt [] 0
  match bad with
  | some c => stop c []
  | none =>
    let (ws, fls) := shortBody v e op x g
    let fl := fls.flatten
    match fls.find? fun f => (trapTaken v.en f).isSome with
    | some f => stop (0x10 + (trapTaken v.en f).getD 0) fl
    | none =>
      VRes.mk ws fl [] (v.s.fresh + 64 * 8 * v.sel.w) none 0 cnt [] 0

end Sys2Proof.Machine
end

