-- ==== Sys2Proof/Machine/VEng.lean ====
section
/-! DEFINITION. A span's engine: starts, chained pairs, count expiries, verdicts (R84, R96–R100, R155), and the
retirement of a core's scalar long operations in the order of their results (R151). -/

namespace Sys2Proof.Machine
open Sys2Proof

/-- Whose vector instructions core c's span runs: the dispatched context's, or the supervisor's. -/
def vOwner (s : State) (c : Nat) : Option Nat := (s.core c).run.map (·.ctx)

/-- Two H selections share a pipe. -/
def halvesMeet (a b : Nat) : Bool := a == 0 || b == 0 || a == b

/-- When the pipes of a selection were last freed. -/
def freedAt (k : CoreSt) (h : Nat) : Nat :=
  match h with | 0 => max k.vfin.1 k.vfin.2 | 1 => k.vfin.1 | _ => k.vfin.2
def setFreed (k : CoreSt) (h n : Nat) : CoreSt :=
  { k with vfin := (if h = 2 then k.vfin.1 else max k.vfin.1 n, if h = 1 then k.vfin.2 else max k.vfin.2 n) }

/-- A stream instruction that takes its length from VCOUNT (R103, R114). -/
def readsCount (s : State) (c : Nat) (e : VEnt) : Bool :=
  match e.op with
  | .str _ x =>
    let blk := fun (f : BitVec 10) (old : Snap → Option (List Nat)) =>
      match e.snap with | some n => old n | none => blkWords s c (vOwner s c) (fld f)
    let ws := [descWords e (blk x.a (·.a)) (fld x.a), descWords e (blk x.b (·.b)) (fld x.b),
      descWords e (blk x.d (·.d)) (fld x.d)].filterMap id
    ws.isEmpty || ws.any descVc
  | .sht _ _ => false

-- Evaluation of what starts ------------------------------------------------------------------------------------------------

/-- The fault that a started instruction will deliver (R99, R177). -/
def vFault (s : State) (c : Nat) (pc : Word) (idx : Nat) (f : VFlt) (chain : Bool) (issue : Nat) : FaultRec :=
  { code := f.code, level := levelOf f.code, pc := pc, info := w32 f.addr, sub := 0, trap := 0,
    imp := !strictOf s c (vOwner s c), vec := true, idx := idx, port := f.port, chain := chain, tank := f.tank,
    addr := f.addr, at_ := issue }

/-- Start one instruction, whose start-time reads are made, at cycle t. -/
def startOne (s : State) (c t : Nat) (e : VEnt) : VJob × Nat :=
  let k := vOwner s c
  let h := vHalf e.op
  let v := vEnv s c k h
  let r := match e.op with
    | .str op x =>
      let (p, f) := prepare v e op x (ctOf s c k)
      evalStream v e p f (ctOf s c k) none none
    | .sht op x => evalShort v e op x (groupOf s c k)
  let fin := t + r.count
  (⟨[e], h, t, fin, false, r.writes, r.flags, r.fault.map fun (i, f) => vFault s c e.pc i f false e.issue, r.ecc,
    [some r.last], e.pre, e.shad⟩, r.fresh)

/-- A plain tank operand. -/
def tankNo : Opd → Option Nat
  | .tank t _ _ 0 => some t
  | _ => none

/-- The terms of S_x(C): the consumer's other operands (R98). -/
def otherTerm (q : Prep) (x : StreamArgs) (wl : Nat) (ca cb : Bool) : Nat :=
  let o := fun (skip : Bool) (o : Opd) (f : BitVec 10) =>
    if skip || o == .none then none else some (srcTerm o + (if (fld f).isBlk then 2 else 0))
  match [o ca q.a x.a, o cb q.b x.b, o false q.c x.cc].filterMap id with
  | [] => 0
  | y :: ys => ys.foldl max y + spanTerm wl

/-- The writes of a VLDFF that ends with its pair at element i: what it delivered goes to VCOUNT, its length to the ceiling
(R102, R174; log entry 109). -/
def pairCount1 (p : Prep) (i : Nat) (ws : List VWrite) : List VWrite :=
  ws.map fun w => match w with | .vcount _ => .vcount i | .vceil _ => .vceil p.n | w => w

/-- What a chained pair that stops at element i carries over: the producer's and the consumer's element i − 1 (R100). -/
def pairCarry (e : VEnt) (rp rq : VRes) (i : Nat) : List (Option Nat) :=
  [if e.first < i then rp.pushed[i - 1 - e.first]? else e.carry, some rq.last]

/-- Start a chained pair at cycle t, where the two instructions form one (R97, R98). A start check of either that fails
is the pair's fault at element 0. -/
def startPair (s : State) (c t : Nat) (e f : VEnt) : Option (VJob × Nat) :=
  match e.op, f.op with
  | .str op x, .str oq y =>
    let k := vOwner s c
    let v := { vEnv s c k x.h.toNat with chain := true }
    let ct := ctOf s c k
    let (p, fp) := prepare v e op x ct
    let (q, fq) := prepare v f oq y ct
    match tankNo p.d with
    | none => none
    | some tk =>
      let ca : Bool := tankNo q.a == some tk
      let cb : Bool := tankNo q.b == some tk
      if e.cand != some f.id || e.first != f.first || x.h != y.h || !(ca || cb) || p.n != q.n || op == .lds || oq == .sts ||
          tankUsed s c tk x.h.toNat != 0 || (vSetsCount e.op && readsCount s c f) || e.shad then none
      else
        let cnt := fun (n : Nat) => pairCount p q v.sel.wlog (f.issue - t) (otherTerm q y v.sel.wlog ca cb) n
        let stopped := fun (i : Nat) => if op == .ldff && ct then p.nc else i
        match fp.orElse fun _ => fq with
        | some z =>
          let ws := if op == .ldff then [VWrite.vceil p.n, .vcount 0] else []
          some (⟨[e, f], x.h.toNat, t, t + cnt (stopped 0), true, ws ++ [.tclear tk x.h.toNat], [], some (vFault s c e.pc 0 z true e.issue),
            [], [e.carry, f.carry], e.pre || f.pre, e.shad⟩, s.fresh)
        | none =>
          let rp := evalStream v e p none ct none none
          let held := rp.pushed.map fun x => (heldAs v.sel.neg (tyCls p.dt) 0 (tySize p.dt) x, tySize p.dt)
          let g := fun (b : Bool) => if b then some held else none
          let v2 := { v with chain := false }
          let rq := evalStream v2 f q none ct (g ca) (g cb)
          let fault := match rq.fault, rp.fault with
            | some (i, z), some (_, y) => some (i, if z.code == vfTANKUND && z.tank == tk then y else z)
            | z, _ => z
          -- the producer's elements past the consumer's stop raise nothing, and a pair that faults takes nothing
          let re := match fault with
            | some _ => evalStream v e { p with n := min p.n rq.took } none ct none none
            | none => rp
          let i := match fault with | some (i, _) => i | none => p.n
          let ws := if fault.isSome then
              pairCount1 p i (re.writes.filter fun w => match w with | .tpop .. => false | _ => true)
            else re.writes
          let n := if fault.isSome then stopped i else max p.nc q.nc
          some (⟨[e, f], x.h.toNat, t, t + cnt (n - e.first), true, ws ++ rq.writes ++ [.tclear tk x.h.toNat],
            re.flags ++ rq.flags, fault.map fun (i, z) => vFault s c e.pc i z true e.issue, re.ecc ++ rq.ecc,
            pairCarry e rp rq i, e.pre || f.pre, e.shad⟩, max rp.fresh rq.fresh)
  | _, _ => none

/-- The candidate consumer of a starting producer that waits in the queue: the next instruction on its pipes (R97). A
short-vector instruction there keeps the two apart (log entry 109). -/
def candidate (h : Nat) (q : List VEnt) : Option (VEnt × List VEnt) :=
  match takeOut (fun e => halvesMeet h (vHalf e.op)) q with
  | some (e, r) => match e.op with | .str _ _ => some (e, r) | .sht _ _ => none
  | none => none

/-- Remove from its source tanks the elements that a restarted reader has taken already and no earlier restart has
removed (R96). -/
def dropTaken (s : State) (c : Nat) (e : VEnt) : State × VEnt :=
  if e.first ≤ e.taken then (s, e)
  else match e.op with
    | .str op x =>
      let (p, _) := prepare (vEnv s c (vOwner s c) x.h.toNat) e op x (ctOf s c (vOwner s c))
      ((tanksRead p).foldl (fun s t =>
        let key := tankKey c t x.h.toNat
        { s with tanks := tmod Tank.init s.tanks key fun y => { y with elems := y.elems.drop (e.first - e.taken) } }) s,
        { e with taken := e.first })
    | .sht _ _ => (s, e)

/-- Start the head of the queue at cycle t (R84, R97). -/
def startHead (s : State) (c t : Nat) : State :=
  match (s.core c).vq with
  | [] => s
  | e :: q =>
    let (s1, e) := dropTaken s c (snapEnt s c (vOwner s c) e)
    let pair := (candidate (vHalf e.op) q).bind fun (f, r) =>
      let (s2, f) := dropTaken s1 c (snapEnt s c (vOwner s c) f)
      (startPair s2 c t e f).map fun j => (j, r, s2)
    let ((j, fresh), q, s) := pair.getD (startOne s1 c t e, q, s1)
    { s.modCore c fun k => { k with vq := q, jobs := k.jobs ++ [j], vlast := max k.vlast t } with fresh := fresh }

/-- A stream that issues becomes the candidate of every producer on its pipes that has none yet (R97). -/
def markCand (e : VEnt) (p : VEnt) : VEnt :=
  if p.cand.isNone && halvesMeet (vHalf p.op) (vHalf e.op) then { p with cand := some e.id } else p

/-- A stream that issues at most 2 cycles after a running producer started joins it as a pair (R97). -/
def joinPair (s : State) (c : Nat) (e : VEnt) : Option State :=
  let k := s.core c
  let h := vHalf e.op
  if k.vq.any fun f => halvesMeet h (vHalf f.op) then none
  else match takeOut (fun j => halvesMeet h j.h) k.jobs with
    | some (j, js) =>
      match j.ents with
      | [p] =>
        if !j.chain && e.issue ≤ j.start + 2 then
          (startPair s c j.start p (snapEnt s c (vOwner s c) e)).map fun (j', fresh) =>
            { s.setCore c { k with jobs := js ++ [j'] } with fresh := fresh }
        else none
      | _ => none
    | none => none

/-- A producer that runs keeps no candidate that did not join it (R97). -/
def noCand (j : VJob) : VJob :=
  { j with ents := j.ents.map fun p => if p.cand.isSome then { p with cand := some 0 } else p }

-- Count expiry (R92, R99) -------------------------------------------------------------------------------------------------------

/-- Write collected bytes to a Plate space by words; a whole word clears poison (R58, R68, R74). -/
def landPlate (s : State) (m : Nat) (bs : Tab Byte) : State :=
  let ws := (bs.map fun e => e.1 / 8).eraseDups
  ws.foldl (fun s w =>
    let own := (List.range 8).filterMap fun i => (tfind bs (8 * w + i)).map fun b => (i, b)
    if own.length = 8 then (plateWrite s m (8 * w) 8 (leVal (own.map Prod.snd)) 0).2
    else own.foldl (fun s (i, b) => (plateWrite s m (8 * w + i) 1 b.toNat 0).2) s) s

/-- One held write lands; Plate bytes are collected for `landPlate`. -/
def landOne (c : Nat) (k : Option Nat) (x : Sel) (acc : State × Tab Byte) (w : VWrite) : State × Tab Byte :=
  let (s, pl) := acc
  match w with
  | .plate a bs =>
    (sign s c k sgPlate a (leVal bs), (bs.zipIdx).foldl (fun t (b, i) => tput t (a + i) b) pl)
  | .vreg r o bs cls =>
    let key := vKey x r o
    let n := bs.length
    let s := { s with
      vreg := mwrite s.vreg key (leBytes n (heldAs x.neg cls (key % 8) n (leVal bs)))
      vcls := (List.range n).foldl (fun t i => tset 0 t (key + i) cls) s.vcls }
    (sign s c k sgVreg (r * 65536 + o) (leVal bs), pl)
  | .mask m v =>
    if m = 0 then (s, pl)
    else
      let s := { s with mask := putMask s.mask x m v }
      (sign s c k sgMask m v, pl)
  | .tpush t h v sz cls =>
    let s := { s with tanks := tmod Tank.init s.tanks (tankKey c t h) fun y =>
      { elems := y.elems ++ [(heldAs x.neg cls 0 sz v, sz)], wlog := x.wlog } }
    (sign s c k sgTank t v, pl)
  | .tpop t h n =>
    ({ s with tanks := tmod Tank.init s.tanks (tankKey c t h) fun y =>
        let r := y.elems.drop n
        if r.isEmpty then Tank.init else { y with elems := r } }, pl)
  | .tclear t h => ({ s with tanks := tdel s.tanks (tankKey c t h) }, pl)
  | .sreg r v => (putReg s c k r v, pl)
  | .vcount v => (setVcount s c k v, pl)
  | .vceil v => (setVceil s c k v, pl)
  | .group g => (setGroup s c k g, pl)

/-- Errors that a stream's reads found are counted, and corrected or poisoned where no write has come between (R72,
R74). -/
def landEcc (s : State) (ws : List (Nat × Nat)) : State :=
  ws.eraseDups.foldl (fun s w =>
    if w.2 = 1 then plateCe s w.1 else if w.2 = 3 then raise s kMX_STAT_DECERR else plateUe s w.1 0) s

/-- Errors that the reads of an instruction's descriptor blocks found (R76). -/
def landBlk (s : State) (c : Nat) (e : VEnt) : State :=
  (match e.snap with | some n => n.errs | none => []).foldl (fun s a => (trayCheck s c a).2) s

/-- The instructions of a faulted job from their restart point (R100). A block that could not be read is read again. -/
def restartEnts (j : VJob) (idx : Nat) : List VEnt :=
  j.ents.zipIdx.map fun (e, i) =>
    { e with first := idx, pre := false, shad := false, carry := (j.carry.getD i none)
             snap := e.snap.bind fun n => if n.bad.isSome then none else some { n with errs := [] } }

/-- Instructions go back into a queue before those that issued after them (R84, R189). -/
def putBack (es : List VEnt) (q : List VEnt) : List VEnt :=
  let after := fun (e : VEnt) => es.any fun x => x.id ≤ e.id
  q.takeWhile (fun e => !after e) ++ es ++ q.dropWhile fun e => !after e

/-- The fault record of a context, with the instructions that RESUME restarts; none is made for RESUME in a section (R99,
R100, R222). -/
def vecRecord (s : State) (c q : Nat) (f : FaultRec) (re : List VEnt) : State :=
  if (s.ctx c q).sec.isSome then s
  else
    let t := (s.ctx c q).tenant
    { faultRecord s t f false with vfStr := tput s.vfStr t re }

/-- The count of a started instruction expires: its pipes are free, its writes land, its exceptions set their flags
and its fault is found (R92, R99, R172). -/
def expireJob (s : State) (c : Nat) (j : VJob) (rest : List VJob) : State :=
  let k := vOwner s c
  let x := selOf c (spanLog s c) j.h (negOf s c k)
  let s := s.modCore c fun y => setFreed { y with jobs := rest } j.h j.fin
  let s := if j.flags.isEmpty && j.ecc.isEmpty && s.plateEcc.isEmpty then s else s.advanceTo (j.fin * s.cyc)
  let s := j.ents.foldl (fun s e => landBlk s c e) (landEcc s j.ecc)
  let (s, pl) := j.writes.foldl (landOne c k x) (s, [])
  let s := if pl.isEmpty then s else landPlate (sampleDue s j.fin) (ownerOf s c k) pl
  let s := j.flags.foldl (fun s e => raiseArith s c k e) s
  let s := if j.ents.any fun e => vSetsCount e.op then
      s.modCore c fun y => { y with vq := y.vq.map fun e => if readsCount s c e then { e with issue := max e.issue j.fin } else e }
    else s
  match j.fault with
  | none => s
  | some f =>
    let re := restartEnts j f.idx
    -- a vector fault of a span that another one has frozen restarts with its queue (R189)
    if (s.core c).vflt && (s.core c).vheld.isEmpty then s.modCore c fun y => { y with vq := putBack re y.vq }
    else
      let s := holdFault s c k f
      match k with
      | none => s
      | some q =>
        let s := if (s.core c).vheld.any fun x => x.at_ ≤ f.at_ then s else vecRecord s c q f re
        s.modCore c fun y => { y with frozen := true, vflt := true, vheld := y.vheld ++ [⟨f.at_, re⟩] }

-- Verdicts (R155) --------------------------------------------------------------------------------------------------------------------

/-- The verdict squashes what stands in a taken branch's shadow and confirms the rest; a pair that loses its consumer
dissolves (R97). -/
def applyVerdict (s : State) (c : Nat) (b : Branch) : State :=
  let k := s.core c
  let k := if b.taken then
      k.jobs.foldl (fun k j =>
        if j.shad then setFreed k j.h b.due
        else if j.chain && j.ents.any fun e => e.shad then
          match j.ents with
          | e :: _ => { k with jobs := k.jobs ++ [(startOne s c j.start e).1] }
          | [] => k
        else { k with jobs := k.jobs ++ [j] }) { k with jobs := [], vq := k.vq.filter fun e => !e.shad }
    else k
  s.setCore c { k with
    br := none
    vq := k.vq.map fun e => { e with pre := false, shad := false }
    jobs := k.jobs.map fun j => { j with pre := false, shad := false } }

-- The engine's events in time order ------------------------------------------------------------------------------------------------------

/-- What happens next at a core: an expiry, a verdict, a start, a load's sampling, a retirement, or the V of a PWR. -/
inductive CEv where
  | expire (j : VJob) (rest : List VJob)
  | verdict (b : Branch)
  | start
  | sample (k : Option Nat) (o : LongOp) (rest : List LongOp)
  | retire (k : Option Nat) (o : LongOp) (rest : List LongOp)
  | flagV (k : Option Nat) (v : Bool)

/-- The cycle at which the head of the queue starts, while no running instruction holds its pipes or the VCOUNT it
reads: in issue order, and not before the span thawed (R84, R184). -/
def headStart (s : State) (c : Nat) : Option Nat :=
  let k := s.core c
  if k.frozen then none
  else match k.vq with
    | [] => none
    | e :: _ =>
      let h := vHalf e.op
      if k.jobs.any (fun j => halvesMeet h j.h) ||
          (k.jobs.any (fun j => j.ents.any fun e => vSetsCount e.op) && (readsCount s c e || vSetsCount e.op)) then none
      else some (max k.vlast (max e.issue (freedAt k h)))

/-- The earlier of two events; the first on a tie. -/
def sooner (a b : Option (Nat × CEv)) : Option (Nat × CEv) :=
  match a, b with
  | none, b => b
  | a, none => a
  | some x, some y => if y.1 < x.1 then some y else some x

/-- Each element of a list with the others. -/
def picks {α : Type} : List α → List (α × List α)
  | [] => []
  | x :: xs => (x, xs) :: (picks xs).map fun (y, ys) => (y, x :: ys)

/-- The next event of one register set's long operations. -/
def thrEvent (s : State) (c : Nat) (k : Option Nat) : Option (Nat × CEv) :=
  let t := s.thr c k
  let r := (picks t.pend).foldl (fun b (o, rest) => sooner b (match o.samp with
    | some x => some (x.cyc, .sample k o rest)
    | none => some (o.ready, .retire k o rest))) none
  sooner r (match t.pwr with | some (some (v, m)) => some (cdiv m s.cyc, .flagV k v) | _ => none)

/-- The next event of core c and its cycle; in stop bath pipes and cores are frozen (R26). -/
def nextEvent (s : State) (c : Nat) : Option (Nat × CEv) :=
  if s.stopped then none else
  let k := s.core c
  let j := (picks k.jobs).foldl (fun b (x, rest) => sooner b (some (x.fin, .expire x rest))) none
  let v := k.br.map fun b => (b.due, CEv.verdict b)
  let st := (headStart s c).map fun t => (t, CEv.start)
  let own := match vOwner s c with | some q => thrEvent s c (some q) | none => none
  sooner (sooner (sooner v j) st) (sooner own (thrEvent s c none))

/-- A long operation retires: its exception sets its flag, and its result is written unless it faults (R151, R178). -/
def retireOp (s : State) (c : Nat) (k : Option Nat) (o : LongOp) (rest : List LongOp) : State :=
  let s := s.modThr c k fun t => { t with pend := rest }
  let s := match o.arith with | some e => raiseArith (s.advanceTo (o.ready * s.cyc)) c k e | none => s
  match o.fault with
  | some f => holdFault s c k f
  | none => putRegs s c k o.res

/-- A pending load samples its word (R142). -/
def sampleLoad (s : State) (c : Nat) (k : Option Nat) (o : LongOp) (rest : List LongOp) : State :=
  let (o, s) := sampleOp s o
  s.modThr c k fun t => { t with pend := o :: rest }

/-- The V of a PWR is written (R145). -/
def writeV (s : State) (c : Nat) (k : Option Nat) (v : Bool) : State :=
  let s := s.modThr c k fun t => { t with pwr := none }
  putFlags s c k { (s.thr c k).r.flags with v := v }

def runEvent (s : State) (c t : Nat) : CEv → State
  | .expire j rest => expireJob s c j rest
  | .verdict b => applyVerdict s c b
  | .start => startHead s c t
  | .sample k o rest => sampleLoad s c k o rest
  | .retire k o rest => retireOp s c k o rest
  | .flagV k v => writeV s c k v

/-- Events that core c can still have. -/
def eventFuel (s : State) (c : Nat) : Nat :=
  let k := s.core c
  2 * k.vq.length + k.jobs.length + 2 * (s.thr c (vOwner s c)).pend.length + 2 * k.thr.pend.length + 4

/-- Run the events due by cycle n, in time order. -/
def runTo (s : State) (c n : Nat) : Nat → State
  | 0 => s
  | fuel + 1 =>
    match nextEvent s c with
    | some (t, e) => if t ≤ n then runTo (runEvent s c t e) c n fuel else s
    | none => s

/-- Everything due by the core's next issue has happened. -/
def catchUp (s : State) (c : Nat) : State := runTo s c (issueCyc s c) (eventFuel s c)

/-- A launched PWR that is not judged yet reaches the sheet with every earlier Easel write (R145, R290). -/
def judgePwr (s : State) (c : Nat) (k : Option Nat) : Nat → State
  | 0 => s
  | fuel + 1 => if (s.thr c k).pwr == some none then judgePwr (sheetCycle s [.ez]) c k fuel else s

/-- Wait while `busy` holds: each event of the core passes in turn, and issue waits for it (R84, R142, R151). -/
def waitFor (s : State) (c : Nat) (busy : State → Bool) : Nat → State
  | 0 => s
  | fuel + 1 =>
    if busy s then
      match nextEvent s c with
      | some (t, e) => waitFor (waitTo (runEvent s c t e) c t) c busy fuel
      | none => s
    else s

/-- Vector work is queued or running at core c. -/
def vBusy (c : Nat) (s : State) : Bool := !(s.core c).vq.isEmpty || !(s.core c).jobs.isEmpty
/-- Vector work of an issuer is queued or running at core c. -/
def vBusyOf (c : Nat) (k : Option Nat) (s : State) : Bool := vOwner s c == k && vBusy c s
/-- A long operation of the issuer, or vector work, is pending (R176). -/
def anyBusy (c : Nat) (k : Option Nat) (s : State) : Bool :=
  ((s.core c).frozen == false && vBusy c s) || (s.thr c k).pend.any (fun o => o.kind != .store) || (s.thr c k).pwr.isSome

def waitVec (s : State) (c : Nat) : State := waitFor s c (vBusy c) (eventFuel s c)
/-- Wait until everything pending has retired, as SYNC, END, NEG.BEGIN and CHECK do. -/
def waitAll (s : State) (c : Nat) (k : Option Nat) : State :=
  let s := judgePwr s c k (s.ptq.length + 1)
  waitFor s c (anyBusy c k) (eventFuel s c)

/-- A scalar register is the destination of pending work (R151). -/
def regBusy (c : Nat) (k : Option Nat) (rs : List Nat) (s : State) : Bool :=
  let hit := fun n => n != 0 && rs.contains n
  (s.thr c k).pend.any (fun o => o.res.any fun r => hit r.1) ||
  (vOwner s c == k && ((s.core c).vq.any (fun e => (vWrites e.op).any hit) ||
    (s.core c).jobs.any fun j => j.ents.any fun e => (vWrites e.op).any hit))

def waitRegs (s : State) (c : Nat) (k : Option Nat) (rs : List Nat) : State :=
  waitFor s c (regBusy c k rs) (eventFuel s c)

/-- Wait for the V of an outstanding PWR (R145). -/
def waitFlags (s : State) (c : Nat) (k : Option Nat) : State :=
  let s := judgePwr s c k (s.ptq.length + 1)
  waitFor s c (fun s => (s.thr c k).pwr.isSome) (eventFuel s c)

end Sys2Proof.Machine
end

