-- ==== Sys2Proof/Machine/Exc.lean ====
section
/-! DEFINITION. Taking exceptions (R177–R189), decision-section restarts and mismatches (R220–R222), and the end of an
activation (R158). -/

namespace Sys2Proof.Machine
open Sys2Proof

-- Section state (R209) --------------------------------------------------------------------------------------------------

/-- The entries of a table from lo on, n keys. -/
def tslice {α : Type} (t : Tab α) (lo n : Nat) : Tab α := t.filter fun e => lo ≤ e.1 && e.1 < lo + n
/-- Replace those entries. -/
def tpatch {α : Type} (t : Tab α) (lo n : Nat) (new : Tab α) : Tab α :=
  (t.filter fun e => e.1 < lo) ++ new ++ t.filter fun e => lo + n ≤ e.1

/-- Save the entry state of a section (R209). -/
def takeShadow (s : State) (c k : Nat) : Shadow :=
  let w := 2 ^ spanLog s c
  let x := s.ctx c k
  { r := x.thr.r.plain, vcount := x.vcount, vceil := x.vceil, g := x.g
    v := tslice s.vreg (c * 2048) (w * 2048)
    vcls := tslice s.vcls (c * 2048) (w * 2048)
    m := tslice s.mask (c * 8) (w * 8) }

/-- Empty every tank of core c's span. -/
def emptyTanks (s : State) (c : Nat) : State := { s with tanks := tclear s.tanks (c * 24) 24 }

/-- Restore the entry state, untransformed (R222). -/
def restoreShadow (s : State) (c k : Nat) (h : Shadow) : State :=
  let w := 2 ^ spanLog s c
  let s := s.modCtx c k fun x =>
    { x with thr := { x.thr with r := h.r }, vcount := h.vcount, vceil := h.vceil, g := h.g }
  emptyTanks { s with
    vreg := tpatch s.vreg (c * 2048) (w * 2048) h.v
    vcls := tpatch s.vcls (c * 2048) (w * 2048) h.vcls
    mask := tpatch s.mask (c * 8) (w * 8) h.m } c

/-- The place in a span of w pipes that key offset i of its v registers takes its byte from under the transform. -/
def turnFrom (w i : Nat) : Nat :=
  let q := turned true (64 * w) (i / 2048 * 64 + i % 64)
  q / 64 * 2048 + i % 2048 / 64 * 64 + q % 64

/-- Apply the transform of R212 to the v registers of the span at pipe c, or undo it: the lanes move on by half the span,
and each byte inverts what the class it was written in gives it. -/
def turnVec (c w : Nat) (v : Tab Byte) (cls : Tab Nat) : Tab Byte × Tab Nat :=
  let b := c * 2048
  let cl := fun i => tget 0 cls (b + turnFrom w i)
  let at_ := fun i => (leVal (mread v (b + turnFrom w i) 1)).xor (clsByte (cl i) (i % 8))
  (((List.range (w * 2048)).filter fun i => at_ i != 0).map fun i => (b + i, BitVec.ofNat 8 (at_ i)),
    ((List.range (w * 2048)).filter fun i => cl i != 0).map fun i => (b + i, cl i))

/-- The same for masks m1–m7, which only move. -/
def turnMasks (c w : Nat) (m : Tab Nat) : Tab Nat :=
  let at_ := fun i => bits (turnBits true w (spanMask m c w (i % 8))) (16 * (i / 8)) 16
  ((List.range (w * 8)).filter fun i => at_ i != 0).map fun i => (c * 8 + i, at_ i)

/-- Apply the transform of R212 to the state of context k and of its span, or undo it (R211). -/
def turnState (s : State) (c k : Nat) : State :=
  let w := 2 ^ spanLog s c
  let s := s.modCtx c k fun x => { x with thr := { x.thr with r := x.thr.r.flip } }
  let (v, cl) := turnVec c w s.vreg s.vcls
  { s with
    vreg := tpatch s.vreg (c * 2048) (w * 2048) v
    vcls := tpatch s.vcls (c * 2048) (w * 2048) cl
    mask := tpatch s.mask (c * 8) (w * 8) (turnMasks c w s.mask) }

/-- Set the PC of an issuer. -/
def setPc (s : State) (c : Nat) (k : Option Nat) (pc : Nat) : State :=
  s.modThr c k fun t => { t with r := { t.r with pc := w32 pc } }
def pcOf (s : State) (c : Nat) (k : Option Nat) : Nat := (s.thr c k).r.pc.toNat

/-- A section passes its NEG.BEGIN: a pass starts with an empty signature and no outputs (R211, R219, R222). -/
def freshPass (x : Sec) : Sec :=
  { x with neg := false, sig := 0, sigMain := 0, held := [], heldMain := [], inlog := [], inpos := 0, retired := 0
           llog := [] }

-- The end of an activation (R158) ------------------------------------------------------------------------------------------

/-- Once everything has retired, the activation of core c completes at the core's instant; with outputs that wait for
their fixed release, the core waits with it (R22, R47; log entry 42). -/
def endActivation (s : State) (c k : Nat) : State :=
  let s := toIssue (waitAll s c (some k)) c
  let s := s.modCtx c k fun x =>
    { x with thr := { x.thr with r := { x.thr.r with l0 := Loop.init, l1 := Loop.init, l2 := Loop.init } } }
  match (s.core c).run with
  | some r =>
    if !(s.ctx c k).waitRel.isEmpty && !r.act.lent then
      s.modCore c fun x => { x with run := some { r with ended := true } }
    else complete s c
  | none => s

/-- A section mismatches (R221): its record, the fallback datasets, and the end of its activation. -/
def mismatch (s : State) (c k cause : Nat) : State :=
  match (s.ctx c k).sec, (s.core c).run with
  | some x, some r =>
    let s := toIssue s c
    let t := (s.ctx c k).tenant
    let sigM := if x.neg then x.sigMain else x.sig
    let w := [t + cause * 2 ^ 8 + x.restarts * 2 ^ 16, x.pcBegin.toNat, sigM.toNat % 2 ^ 32,
      if x.neg then x.sig.toNat % 2 ^ 32 else 0].map w32
    let s := s.setReg rNEG_LAST0 0 0 (w.getD 0 0)
    let s := s.setReg rNEG_LAST1 0 0 (w.getD 1 0)
    let s := s.setReg rNEG_LAST2 0 0 (w.getD 2 0)
    let s := s.setReg rNEG_LAST3 0 0 (w.getD 3 0)
    let s := raise (s.bump fNEG_TN_CNT_MISMATCH t) kNEG_STAT_MISMATCH
    let s := if s.fb fNEG_CTL_EVT then
        postRec s ⟨256, w ++ [w32 (taiNs s.tai), w32 (taiSec s.tai), 0x2000, 0], true, false⟩
      else s
    let s := fallbackPubs s t
    let s := s.modCore c fun y => { y with run := some { r with mism := true } }
    -- what the span still runs sees the held forms to its end (R213)
    let s := waitAll s c (some k)
    endActivation (s.modCtx c k fun y => { y with sec := none, thr := { y.thr with r := y.thr.r.plain } }) c k
  | _, _ => s

/-- A fault inside a decision section (R101, R222): recorded, then a restart or the section's end. -/
def sectionFault (s : State) (c k : Nat) (f : FaultRec) : State :=
  match (s.ctx c k).sec with
  | none => s
  | some x =>
    let t := (s.ctx c k).tenant
    let s := faultRecord (toIssue s c) t f true
    let s := s.modCtx c k fun y => { y with thr := { y.thr with held := [], dslot := [], pend := [], pwr := none } }
    let s := s.modCore c fun y => { y with vq := [], jobs := [], frozen := false, vflt := false, vheld := [], br := none }
    if x.restarts < bits (s.effReg rNEG_TN_CFG t 0).toNat 12 2 then
      let s := raise (s.bump fNEG_TN_CNT_RESTART t) kNEG_STAT_RESTART
      let s := restoreShadow s c k x.shadow
      let s := s.modCtx c k fun y => { y with sec := some { freshPass x with restarts := x.restarts + 1 } }
      let n := issueCyc s c + 12
      let s := s.modCore c fun y => { setFreed y 0 n with cyc := n }
      setPc s c (some k) (x.pcBegin.toNat + 4)
    else mismatch s c k 6

-- Entry (R180–R185) ------------------------------------------------------------------------------------------------------------

/-- The XCAUSE word of an exception (R190). -/
def causeWord (f : FaultRec) (ctx : Nat) (sup q : Bool) (level : Nat) : Word :=
  w32 (f.trap % 256 * 2 ^ 24 + f.sub * 2 ^ 20 + b2n q * 2 ^ 19 + ctx * 2 ^ 16 + b2n sup * 2 ^ 15 +
    b2n f.imp * 2 ^ 14 + f.level * 2 ^ 11 + level * 2 ^ 8 + f.code)

/-- The mask level of an issuer (R180). -/
def mlOf (s : State) (c : Nat) : Option Nat → Nat
  | none => (s.core c).ml
  | some k => (s.ctx c k).ml

/-- Where a handler of level L starts (R184). -/
def handlerPc (s : State) (c l : Nat) : Nat := s.f fEZ_XBASE_BASE c * 2 ^ 11 + 0x40 * l

/-- Enter supervisor mode at level L with the given save bank: 14 cycles to the first handler instruction (R184). -/
def enter (s : State) (c : Nat) (k : Option Nat) (l : Nat) (b : Bank) : State :=
  let n := issueCyc s c + 14
  let s := s.modCore c fun y =>
    { y with banks := tput y.banks l b, ml := l, sup := true, waiting := false,
             frozen := y.frozen || k.isSome, cyc := n }
  setPc s c none (handlerPc s c l)

/-- The context number that an exception of an issuer carries. -/
def ctxNo (s : State) (c : Nat) : Option Nat → Nat
  | some k => k
  | none => match (s.core c).run with | some r => r.ctx | none => 0

/-- Take a synchronous fault at the current boundary (R178–R182); `xpc` is the return address. -/
def takeFault (s : State) (c : Nat) (k : Option Nat) (f : FaultRec) (xpc : Nat) : State :=
  let s := if f.code = cILLEGAL then raise (toIssue s c) kEZ_STAT_ILLEGAL c
    else if f.code = cPRIV then raise (toIssue s c) kEZ_STAT_PRIV c
    else if f.code = cLOOPERR then raise (toIssue s c) kEZ_STAT_LOOPERR c else s
  match k, secOf s c k with
  | some q, some _ => sectionFault s c q f
  | _, _ =>
    let l := max f.level (mlOf s c k + 1)
    let n := ctxNo s c k
    let sup := k.isNone
    if 7 < l then
      match k with
      | some q =>
        transitionGo ((quarantine (toIssue s c) c q f.code f.level).setReg rEZ_CAUSE c 0 (causeWord f n false true 7))
      | none =>
        let s := s.setReg rEZ_CAUSE c 0 (causeWord f n true true 7)
        stopTrigger (s.modCore c fun y => { y with stopped := true }) 3
    else
      let w := causeWord f n sup false l
      enter (s.setReg rEZ_CAUSE c 0 w) c k l ⟨w, w32 xpc, f.pc, f.info, 0, mlOf s c k, n, sup⟩

/-- The held fault that is due first: the earlier-issued instruction's, on a tie the lower level's (R189). -/
def firstHeld : List FaultRec → Option (FaultRec × List FaultRec)
  | [] => none
  | f :: fs =>
    match firstHeld fs with
    | none => some (f, [])
    | some (g, rest) =>
      if g.at_ < f.at_ || (g.at_ = f.at_ && g.level < f.level) then some (g, f :: rest) else some (f, fs)

/-- The vector fault that is delivered is the one on record (R99, R189). -/
def dueRecord (s : State) (c : Nat) (k : Option Nat) (f : FaultRec) : State :=
  match k, (s.core c).vheld.find? fun x => x.at_ == f.at_ with
  | some q, some x =>
    if f.vec then
      vecRecord (s.modCore c fun y => { y with vheld := y.vheld.filter fun z => z.at_ != f.at_ }) c q f x.ents
    else s
  | _, _ => s

/-- Deliver a held fault at an issue boundary that is no delay slot (R177, R184). -/
def deliverHeld (s : State) (c : Nat) (k : Option Nat) : State :=
  let t := s.thr c k
  if !t.dslot.isEmpty then s
  else match firstHeld t.held with
    | none => s
    | some (f, rest) =>
      -- a precise divide fault returns to the divide (R178)
      let pc := if f.imp || f.vec then pcOf s c k else f.pc.toNat
      takeFault (dueRecord (s.modThr c k fun t => { t with held := rest }) c k f) c k f pc

/-- Inside an activation that runs: its context issues, and it has not ended. -/
def tenantLive (s : State) (c : Nat) : Bool :=
  match (s.core c).run with | some r => !r.ended | none => false

/-- The core's domain is on, the device runs, and its pipe is usable (R382, R392, R408). -/
def coreUp (s : State) (c : Nat) : Bool :=
  s.f fPM_DOM_STATE (c / 4) == 0 && s.f fPM_STATE_STATE == 0 && s.f fVP_STAT_STATE c != 3 &&
  !bit (s.f fSCH_CAP_FAULTED) (c / 4)

/-- The Loupe holds core c's issue; the Negative pass ignores it (R225). -/
def loupeHolds (s : State) (c : Nat) : Bool := (s.core c).loupe.halt && !negOf s c (curCtx s c)

/-- Core c can issue its next instruction: it is out of reset, not stopped, not in WAIT, not halted (R163, R225), and a
tenant's activation is dispatched where tenant mode runs. -/
def canIssue (s : State) (c : Nat) : Bool :=
  let k := s.core c
  !k.stopped && !k.held && !k.waiting && coreUp s c && !s.stopped &&
  (k.sup || tenantLive s c) &&
  !((s.fb fEZ_CTL_HALT c || loupeHolds s c) && (s.thr c (curCtx s c)).dslot.isEmpty)

/-- An interrupt is held inside a section and masked above supervisor ML 0 (R183, R187). -/
def mayInterrupt (s : State) (c : Nat) : Bool :=
  match curCtx s c with
  | some k => (s.ctx c k).sec.isNone
  | none => (s.core c).ml = 0

/-- An online logic test of core c's pipe runs; the core takes no interrupt entry (R404). -/
def pipeTested (s : State) (c : Nat) : Bool :=
  match s.bist.online with | some (.pipe, u, _) => u == c | _ => false

/-- EXCEPTION_ENTRY (R184): a fault that is held at core c is taken. -/
def execExceptionEntry (c : Core) (s : State) : Host.Outcome State Fault Refusal :=
  let s := catchUp s c
  done (if canIssue s c then deliverHeld s c (curCtx s c) else s)

/-- INTERRUPT_ENTRY (R183, R197): the core takes its interrupt request, which ends a WAIT (R149). -/
def execInterruptEntry (c : Core) (s : State) : Host.Outcome State Fault Refusal :=
  let s := idleRelease (catchUp s c) c
  let y := s.core c
  let k := curCtx s c
  if !lineHigh s c || y.stopped || y.held || !coreUp s c || s.stopped || pipeTested s c then done s
  else
    let s := if y.waiting then s.modCore c fun y => { y with waiting := false } else s
    if canIssue s c && mayInterrupt s c && (s.thr c k).dslot.isEmpty then
      let f := { scalarFault cINTERRUPT 0 0 0 with level := 1 }
      let n := ctxNo s c k
      let w := causeWord f n k.isNone false 1
      let s := s.modCore c fun y => { y with ic := { y.ic with latch := true } }
      done (enter (s.setReg rEZ_CAUSE c 0 w) c k 1 ⟨w, w32 (pcOf s c k), 0, 0, 0, mlOf s c k, n, k.isNone⟩)
    else done s

/-- RESTART (R222): a fault found inside an open section restarts it. -/
def execRestart (c : Core) (s : State) : Host.Outcome State Fault Refusal :=
  let s := catchUp s c
  match curCtx s c with
  | some k => done (if canIssue s c && (s.ctx c k).sec.isSome then deliverHeld s c (some k) else s)
  | none => done s

/-- The cycle in which the window of a Negative pass ends (R220). -/
def windowEnd (s : State) (c q : Nat) (x : Sec) : Nat :=
  x.start + bits (s.effReg rNEG_TN_CFG (s.ctx c q).tenant 0).toNat 0 10

/-- NEG_WINDOW_EXPIRY (R220): the Negative pass has not reached CHECK within WIN cycles. -/
def execNegWindowExpiry (c : Core) (s : State) : Host.Outcome State Fault Refusal :=
  match curCtx s c with
  | some k =>
    match (s.ctx c k).sec with
    | some x =>
      if x.neg && tenantLive s c && !s.stopped then
        let due := windowEnd s c k x
        done (mismatch (waitTo (runTo s c due (eventFuel s c)) c due) c k 3)
      else done s
    | none => done s
  | none => done s

/-- LONG_OPERATION_RETIRE (R151): the pending long operation with the earliest result retires. -/
def execLongOperationRetire (c : Core) (s : State) : Host.Outcome State Fault Refusal :=
  let k := curCtx s c
  match (s.thr c k).pend with
  | [] => done s
  | o :: os =>
    if s.stopped then done s else
    let due := os.foldl (fun n o => min n o.ready) o.ready
    done (waitTo (runTo s c due (eventFuel s c)) c due)

/-- VECTOR_START (R84): the head of the queue starts once its pipes are free. -/
def execVectorStart (c : Core) (s : State) : Host.Outcome State Fault Refusal :=
  let n := (s.core c).vq.length
  done (waitFor s c (fun s => (s.core c).vq.length == n && n != 0) (eventFuel s c))

/-- COUNT_EXPIRY (R92): the count of the instruction that runs on the named half expires. -/
def execCountExpiry (c : Core) (half : Half) (s : State) : Host.Outcome State Fault Refusal :=
  let h := match half with | .whole => 0 | .lower => 1 | .upper => 2
  match (s.core c).jobs.find? fun j => j.h == h with
  | some j => done (if s.stopped then s else waitTo (runTo s c j.fin (eventFuel s c)) c j.fin)
  | none => done s

/-- VERDICT (R155): the outstanding branch verdict reaches the span. -/
def execVerdict (c : Core) (s : State) : Host.Outcome State Fault Refusal :=
  match (s.core c).br with
  | some b => done (if s.stopped then s else waitTo (runTo s c b.due (eventFuel s c)) c b.due)
  | none => done s

end Sys2Proof.Machine
end

