-- ==== Sys2Proof/Machine/Issue.lean ====
section
/-! DEFINITION. Issuing one instruction of an Easel core: fetch and encoding checks, waits, the delay slot, the loop end
test and precise faults (R137–R156, R177), and the issue of vector instructions (R84, R110, R155). -/

namespace Sys2Proof.Machine
open Sys2Proof

/-- What an instruction touches: scalar registers read and written, the flags; whether it may not stand at LE (R154),
its encoding is illegal, only supervisor mode or only tenant mode has it, it waits for everything pending (R176),
its length in bytes, and the register and offset that name the port of an OUT, which is a PWR at port 0x0108 and then
waits for the flags (R145). -/
structure Use where
  reads  : List Nat := []
  writes : List Nat := []
  flags  : Bool := false
  ends   : Bool := false
  ill    : Bool := false
  supOnly : Bool := false
  tenOnly : Bool := false
  all    : Bool := false
  size   : Nat := 4
  outAt  : Option (Nat × BitVec 16) := none
  deriving DecidableEq, Repr

/-- How an instruction acts once it issues: it completes in a number of cycles, it faults precisely and does nothing,
it faults precisely after an access that has left its mark, it stalls on an access whose power domain wakes first (R389) and
issues again, it has ended issue itself, or it cannot issue yet and waits while something is busy. -/
inductive Out where
  | wait (busy : State → Bool)
  | ok (s : State) (cycles : Nat)
  | flt (f : FaultRec)
  | err (mark : State → State) (f : FaultRec)
  | stall (start : State → State)
  | stop (s : State)

-- Fetch (R139, R140) -----------------------------------------------------------------------------------------------------

/-- Where instruction RAM starts in core c's instruction space. -/
def ramBase (s : State) (c : Nat) : Nat := if (s.core c).remap then 0 else 0x10000

def fetchOk (s : State) (c : Nat) (k : Option Nat) (a : Nat) : Bool :=
  let b := ramBase s c
  let inRam : Bool := b ≤ a && a < b + 0x10000
  match k with
  | some q => inRam && s.e fEZ_IWIN_BASE c q ≤ (a - b) / 1024 && (a - b) / 1024 ≤ s.e fEZ_IWIN_LIMIT c q
  | none => inRam || (let r := if (s.core c).remap then 0x10000 else 0; r ≤ a && a < r + 0x4000)

/-- The word at an instruction address, for XINFO (R191; log entry 43). -/
def fetchWord (s : State) (c a : Nat) : Word :=
  let b := ramBase s c
  if b ≤ a && a < b + 0x10000 then w32 (imemWord s c ((a - b) / 4)) else Config.bootRom (a % 0x10000 / 4)

/-- The instruction that the words at an instruction address spell (R110, R147). -/
def wordAt (s : State) (c : Core) (a : Nat) (sh : Bool := false) : Option Instr :=
  easelWord c (fetchWord s c a) (fetchWord s c (a + 4)) sh

/-- The word at an instruction address spells no instruction (R113, R147). -/
def fetchBad (s : State) (c a : Nat) : Bool :=
  (easelWord 0 (fetchWord s c a) (fetchWord s c (a + 4))).isNone

/-- Core c fetches command i: the words at its program counter spell it, or the fetch itself faults and which instruction it
was meant to be does not matter (R113, R140). -/
def fetched (s : State) (c : Core) (i : Instr) : Bool :=
  let s := catchUp s c
  let k := curCtx s c
  let pc := pcOf s c k
  wordAt s c pc == some (wordForm i) || !fetchOk s c k pc || fetchBad s c pc ||
    ((wf (fetchWord s c pc) 26 6).toNat == 0x37 && !fetchOk s c k (pc + 4))

/-- What an Easel instruction does: its word alone picks it, so a command that the core does not fetch changes nothing (R110,
R146–R149; log entry 8). -/
def runs (s : State) (c : Core) (i : Instr) (t : State) : Host.Outcome State Fault Refusal :=
  done (if fetched s c i then t else s)

/-- A vector command in the shadow of a taken branch stands behind that branch (R155). -/
def fetchedV (s : State) (c : Core) (i : Instr) (sh : Bool) : Bool :=
  if sh then
    match (s.core c).br with
    | some b => wordAt s c b.fall true == some i
    | none => false
  else fetched s c i

/-- What a vector instruction does: its word alone picks it, as `runs` says. -/
def runsV (s : State) (c : Core) (i : Instr) (sh : Bool) (t : State) : Host.Outcome State Fault Refusal :=
  done (if fetchedV s c i sh then t else s)

-- Hardware loops (R152, R153) ------------------------------------------------------------------------------------------------

def RSet.loop (r : RSet) : Nat → Loop
  | 0 => r.l0 | 1 => r.l1 | _ => r.l2
def RSet.setLoop (r : RSet) (l : Nat) (x : Loop) : RSet :=
  match l with
  | 0 => { r with l0 := x } | 1 => { r with l1 := x } | _ => { r with l2 := x }
/-- LOOPACT. -/
def RSet.loopact (r : RSet) : Nat := b2n r.l0.act + 2 * b2n r.l1.act + 4 * b2n r.l2.act

/-- The end test of the levels in the list, innermost first, for the instruction whose last word is at `a`: the loop
registers and, where a body repeats, its LB. -/
def endTest (r : RSet) (a : Nat) : List Nat → RSet × Option Nat
  | [] => (r, none)
  | l :: ls =>
    let x := r.loop l
    if x.act && x.le.toNat == a then
      if 1 < x.lc.toNat then (r.setLoop l { x with lc := x.lc - 1 }, some x.lb.toNat)
      else endTest (r.setLoop l { x with act := false }) a ls
    else endTest r a ls

/-- The PC and loop registers after an instruction of `size` bytes at `pc` that does not branch. -/
def nextPc (r : RSet) (pc size : Nat) : RSet :=
  let (r, b) := endTest r (pc + size - 4) [2, 1, 0]
  { r with pc := w32 (b.getD (pc + size)) }

/-- A taken branch or jump out of a level's body frees that level and every level inside it (R153). -/
def freeLevels (r : RSet) (tgt : Nat) : RSet :=
  let out := fun (x : Loop) => x.act && !(x.lb.toNat ≤ tgt && tgt ≤ x.le.toNat)
  if out r.l0 then { r with l0 := { r.l0 with act := false }, l1 := { r.l1 with act := false }, l2 := { r.l2 with act := false } }
  else if out r.l1 then { r with l1 := { r.l1 with act := false }, l2 := { r.l2 with act := false } }
  else if out r.l2 then { r with l2 := { r.l2 with act := false } }
  else r

/-- Take a branch or jump: levels that it leaves are freed, and a written REMAP takes effect (R139, R153). -/
def jumpTo (s : State) (c : Nat) (k : Option Nat) (tgt : Nat) : State :=
  let s := s.modThr c k fun t => { t with r := { freeLevels t.r (tgt % 2 ^ 32) with pc := w32 tgt } }
  s.modCore c fun y => { y with remap := s.fb fEZ_CTL_REMAP c }

-- Faults found before the instruction acts (R113, R140, R149, R154) -------------------------------------------------------------

def issueFault (s : State) (c : Nat) (k : Option Nat) (u : Use) (pc : Nat) : Option FaultRec :=
  let t := issueCyc s c
  let w := (fetchWord s c pc).toNat
  let atEnd := [0, 1, 2].any fun l =>
    let x := (s.thr c k).r.loop l
    x.act && x.le.toNat == pc + u.size - 4
  if !(fetchOk s c k pc && fetchOk s c k (pc + u.size - 4)) then some (scalarFault cIFETCH pc pc t)
  else if fetchBad s c pc then some (scalarFault cILLEGAL pc w t)
  else if u.supOnly && k.isSome then some (scalarFault cPRIV pc w t)
  else if u.ill || (u.tenOnly && k.isNone) then some (scalarFault cILLEGAL pc w t)
  else if u.ends && atEnd then some { scalarFault cLOOPERR pc w t with sub := 3 }
  else none

/-- The results of Tray loads whose delay slot has passed are written, unless the delay-slot instruction wrote the
register itself (R151). -/
def landSlot (s : State) (c : Nat) (k : Option Nat) (rs : List (Nat × Word)) (over_ : List Nat) : State :=
  putRegs s c k (rs.filter fun r => !over_.contains r.1)

def takeSlot (s : State) (c : Nat) (k : Option Nat) : List (Nat × Word) × State :=
  ((s.thr c k).dslot, s.modThr c k fun t => { t with dslot := [] })

/-- A held fault is due at this boundary. -/
def heldDue (s : State) (c : Nat) (k : Option Nat) : Bool :=
  !(s.thr c k).held.isEmpty && (s.thr c k).dslot.isEmpty

/-- The Negative pass has run out of its window (R220). -/
def windowOver (s : State) (c : Nat) : Option Nat → Bool
  | none => false
  | some q =>
    match (s.ctx c q).sec with
    | some x => x.neg && windowEnd s c q x < issueCyc s c
    | none => false

/-- The section mismatches with cause TIME in the cycle its window ends (R220). -/
def windowMiss (s : State) (c q : Nat) : State :=
  match (s.ctx c q).sec with
  | some x => mismatch (s.modCore c fun y => { y with cyc := windowEnd s c q x }) c q 3
  | none => s

/-- One more instruction of the open section's pass retires (R225). -/
def countRetired (s : State) (c : Nat) : Option Nat → State
  | none => s
  | some q =>
    match (s.ctx c q).sec with
    | some _ => modSec s c q fun x => { x with retired := x.retired + 1 }
    | none => s

/-- Apply a logged write of the Loupe to context q of core c (R225). -/
def loupeWrite (s : State) (c q : Nat) : LWrite → State
  | .reg n v => putReg s c (some q) n v
  | .mask m v =>
    if m = 0 then s
    else { s with mask := putMask s.mask (selOf c (spanLog s c) 0 (negOf s c (some q))) m v }
  | .vreg r o n cls v =>
    (landOne c (some q) (selOf c (spanLog s c) 0 (negOf s c (some q))) (s, []) (.vreg r o (leBytes n v) cls)).1
  | .vcount v => setVcount s c (some q) v
  | .group v => setGroup s c (some q) v

/-- The Loupe's writes at this count of the main pass, which the Negative pass applies now, and the later ones (R225). -/
def loupeNow (s : State) (c : Nat) (k : Option Nat) : List (Nat × LWrite) × List (Nat × LWrite) :=
  match secOf s c k with
  | some x => if x.neg then x.llog.partition fun e => e.1 ≤ x.retired else ([], x.llog)
  | none => ([], [])

/-- The Negative pass applies the writes that the Loupe made at this count of the main pass (R225). -/
def loupeReplay (s : State) (c : Nat) (k : Option Nat) : State :=
  match k, loupeNow s c k with
  | some q, (w :: ws, later) =>
    (w :: ws).foldl (fun s e => loupeWrite s c q e.2) (modSec s c q fun y => { y with llog := later })
  | _, _ => s

/-- Core c meets a breakpoint of the Loupe (R225). -/
def atBreak (s : State) (c : Nat) (k : Option Nat) : Bool :=
  let y := s.core c
  !y.loupe.go && !negOf s c k && y.loupe.bps.any fun a => a.toNat == pcOf s c k

/-- Issue goes on past a breakpoint once. -/
def pastBreak (s : State) (c : Nat) : State :=
  if (s.core c).loupe.go then s.modCore c fun y => { y with loupe := { y.loupe with go := false } } else s

/-- The port that an IN or OUT names (R143). -/
def portOf (r : RSet) (ra : Nat) (imm : BitVec 16) : Nat := ((r.get ra).toNat + imm.toNat) % 2 ^ 16

/-- The waits of an instruction before it issues: registers, the flags, or everything pending (R151, R176). -/
def issueWaits (s : State) (c : Nat) (k : Option Nat) (u : Use) : State :=
  if u.all then waitAll s c k
  else
    let s := waitRegs s c k (u.reads ++ u.writes)
    let pwr := match u.outAt with | some (ra, imm) => portOf (s.thr c k).r ra imm == 0x108 | none => false
    if u.flags || pwr then waitFlags s c k else s

/-- Take a precise fault of the instruction at pc (R178): a delay slot's load lands first. -/
def preciseFault (s : State) (c : Nat) (k : Option Nat) (f : FaultRec) (pc : Nat) : State :=
  let (ds, s) := takeSlot s c k
  takeFault (landSlot s c k ds []) c k f (if f.code = cTRAP then pc + 4 else pc)

/-- The instruction at pc issues, after what it waits for; a fault found meanwhile is taken instead (R177). -/
def issueGo (c : Nat) (k : Option Nat) (u : Use) (pc : Nat) (act : State → Option Nat → Nat → Out) : Nat → State → State
  | 0, s => s
  | fuel + 1, s =>
    if heldDue s c k then deliverHeld s c k
    else
      let t0 := issueCyc s c
      let (ds, s1) := takeSlot s c k
      let s1 := if u.all then landSlot s1 c k ds [] else s1
      let s2 := countRetired (s1.modThr c k fun t => { t with r := nextPc t.r pc u.size }) c k
      match act s2 k pc with
      | .wait b => issueGo c k u pc act fuel (waitFor s c b (eventFuel s c))
      | .flt f => preciseFault s c k f pc
      | .err e f => preciseFault (e s) c k f pc
      | .stall w => w s
      | .stop s => if u.all then s else landSlot s c k ds u.writes
      | .ok s n =>
        let s := if u.all then s else landSlot s c k ds u.writes
        s.modCore c fun y => { y with cyc := t0 + n }

/-- Issue one instruction at core c. -/
def issueI (s : State) (c : Nat) (u : Use) (act : State → Option Nat → Nat → Out) : State :=
  let s := catchUp s c
  let k := curCtx s c
  let pc := pcOf s c k
  if !canIssue s c then s
  else if heldDue s c k then deliverHeld s c k
  else if windowOver s c k then windowMiss s c (k.getD 0)
  else if atBreak s c k then s.modCore c fun y => { y with loupe := { y.loupe with halt := true } }
  else
    let s := loupeReplay (pastBreak s c) c k
    match issueFault s c k u pc with
    | some f => preciseFault s c k f pc
    | none => issueGo c k u pc act 4 (issueWaits s c k u)

/-- Add a long operation to the issuer. -/
def addLong (s : State) (c : Nat) (k : Option Nat) (o : LongOp) : State :=
  s.modThr c k fun x => { x with pend := x.pend ++ [o] }

/-- An instruction that writes one register and no other state, in one cycle. -/
def issueReg (s : State) (c : Nat) (u : Use) (rd : Nat) (f : RSet → Word) : State :=
  issueI s c u fun s k _ => .ok (putReg s c k rd (f (s.thr c k).r)) 1

-- Vector issue (R84, R110, R114, R155) ----------------------------------------------------------------------------------------------

/-- Put an instruction into the span's queue, or make it the consumer of a running producer (R84, R97). A stream is then
the candidate of the producers before it on its pipes. -/
def enqueueV (s : State) (c : Nat) (e : VEnt) : State :=
  match e.op with
  | .sht _ _ => s.modCore c fun y => { y with vq := y.vq ++ [e] }
  | .str _ _ =>
    let s := s.modCore c fun y =>
      { y with vq := y.vq.map (markCand e), jobs := y.jobs.map fun j => { j with ents := j.ents.map (markCand e) } }
    match joinPair s c e with
    | some s => s
    | none => s.modCore c fun y => { y with vq := y.vq ++ [e], jobs := y.jobs.map noCand }

/-- Core c controls the span it issues to: its pipe is the lowest (R85). -/
def spanOwner (s : State) (c : Nat) : Bool := (s.core c).run.isSome || (s.pipe c).base == c

/-- A vector instruction that core c may not issue: supervisor mode has the span only while no activation is dispatched
(R188), and only the lowest pipe's core issues to a span (R85). -/
def noSpan (s : State) (c : Nat) : Bool := ((s.core c).sup && (s.core c).run.isSome) || !spanOwner s c

/-- A vector instruction as it issues at cycle t. -/
def newEnt (s : State) (c : Nat) (k : Option Nat) (op : VOp) (pc : Word) (t : Nat) (pre shad : Bool) : VEnt :=
  ⟨op, pc, (s.thr c k).r.plain.s, t, pre, shad, 0, none, 0, none, t + 1, none⟩

/-- The one instruction in a taken branch's shadow reaches the span at c + 1, where the core could issue it there; the core
goes on at the target (R155). -/
def issueShadow (s : State) (c : Nat) (op : VOp) : State :=
  match (s.core c).br with
  | some b =>
    if b.taken && !b.met then
      let s := runTo s c (b.due - 2) (eventFuel s c)
      let k := curCtx s c
      let y := s.core c
      let s := s.modCore c fun y => { y with br := some { b with met := true } }
      if canIssue s c && y.vq.length < 2 && vLegal op && !noSpan s c && !regBusy c k (vReads op ++ vWrites op) s then
        enqueueV s c (newEnt s c k op (w32 b.fall) (b.due - 2) true true)
      else s
    else s
  | none => s

/-- Issue a vector instruction. -/
def issueV (s : State) (c : Nat) (op : VOp) : State :=
  if vShad op then issueShadow s c op
  else
    let size := match op with | .str _ _ => 8 | .sht _ _ => 4
    issueI s c { reads := vReads op, writes := vWrites op, ill := !vLegal op || noSpan s c, size := size } fun s k pc =>
      let t0 := issueCyc s c
      if 2 ≤ (s.core c).vq.length then .wait fun s => 2 ≤ (s.core c).vq.length
      else
        let s := enqueueV s c (newEnt s c k op (w32 pc) t0 (s.core c).br.isSome false)
        if strictOf s c k then
          let s := waitVec s c
          .ok s (issueCyc s c - t0)
        else .ok s 1

end Sys2Proof.Machine
end

