-- ==== Sys2Proof/Machine/Alu.lean ====
section
/-! DEFINITION. The ALU functions and the immediate instructions (R147, R148). -/

namespace Sys2Proof.Machine
open Sys2Proof

/-- A result with flags that S = 1 writes. -/
def alu (s : State) (c : Nat) (rd : Nat) (rs : List Nat) (sb cin : Bool) (f : RSet → Word × Nzcv) : State :=
  issueI s c { reads := rs, writes := [rd], flags := sb || cin } fun s k _ =>
    let (x, fl) := f (s.thr c k).r
    let s := putReg s c k rd x
    .ok (if sb then putFlags s c k fl else s) 1

/-- A result of a function that never writes flags; S = 1 is illegal (R148). -/
def aluPlain (s : State) (c rd : Nat) (rs : List Nat) (sb : Bool) (f : RSet → Word) : State :=
  issueReg s c { reads := rs, writes := [rd], ill := sb } rd f

/-- Flags alone, always written; rd must be 0 (R148). -/
def aluFlags (s : State) (c rd : Nat) (rs : List Nat) (f : RSet → Nzcv) : State :=
  issueI s c { reads := rs, flags := true, ill := rd != 0 } fun s k _ => .ok (putFlags s c k (f (s.thr c k).r)) 1

/-- A logic operation. -/
def aluLogic (s : State) (c rd ra rb : Nat) (sb : Bool) (f : Word → Word → Word) : State :=
  alu s c rd [ra, rb] sb false fun r => let x := f (r.get ra) (r.get rb); (x, nzOf r.flags x)

/-- A shift by a register or by an immediate. -/
def aluShift (s : State) (c rd ra : Nat) (rs : List Nat) (sb : Bool) (k : Shift) (n : RSet → Nat) : State :=
  alu s c rd (ra :: rs) sb false fun r => let x := shiftRes k (r.get ra) (n r); (x.1, shiftNzcv r.flags x)

/-- A 64-bit product into an even/odd pair in 2 cycles (R137, R165). -/
def aluMull (s : State) (c rd ra rb : Nat) (sb signed : Bool) : State :=
  issueI s c { reads := [ra, rb], writes := [rd, rd + 1], ill := sb || rd % 2 == 1 } fun s k _ =>
    let p := mulRes signed ((s.thr c k).r.get ra) ((s.thr c k).r.get rb)
    .ok (putRegs s c k [(rd, w32 p), (rd + 1, w32 (p / 2 ^ 32))]) 2

/-- A divide is pending at core c: of its context, or of supervisor mode (R150). -/
def divBusy (c : Nat) (s : State) : Bool :=
  ((s.thr c none).pend ++ (s.thr c (vOwner s c)).pend).any fun o => o.kind == .divide

/-- The divider has run: its exception has set its flag, and its result goes nowhere. -/
def divRun (c : Nat) (k : Option Nat) (o : LongOp) (s : State) : State :=
  waitFor (s.modThr c k fun x => { x with pend := x.pend ++ [{ o with res := [], fault := none }] }) c (divBusy c)
    (eventFuel s c + 2)

/-- A divide that faults in strict mode faults precisely, as if it had not issued (R175, R177); a fault that an earlier
instruction raised meanwhile is taken instead (R189). -/
def divFault (c : Nat) (k : Option Nat) (o : LongOp) (f : FaultRec) (s : State) : Out :=
  match firstHeld ((divRun c k o s).thr c k).held with
  | some (g, rest) =>
    .err (fun s => dueRecord ((divRun c k o s).modThr c k fun t => { t with held := rest }) c k g) g
  | none => .err (divRun c k o) f

/-- A divide or remainder: one at a time, its result at c + 18 (R150, R166, R175). -/
def aluDiv (s : State) (c rd ra rb : Nat) (sb signed rem : Bool) : State :=
  issueI s c { reads := [ra, rb], writes := [rd], ill := sb } fun s k pc =>
    if divBusy c s then .wait (divBusy c)
    else
      let t := issueCyc s c
      let (q, r, e) := divRes signed ((s.thr c k).r.get ra) ((s.thr c k).r.get rb)
      let strict := strictOf s c k
      let f := e.bind fun e =>
        if bit (trapEn s c k) e then some { scalarFault (0x10 + e) pc 0 t with imp := !strict } else none
      let o : LongOp := ⟨.divide, [(rd, if rem then r else q)], t + 18, w32 pc, e, f, none⟩
      match strict, f with
      | true, some f => divFault c k o f s
      | true, none => let s := waitFor (addLong s c k o) c (divBusy c) (eventFuel s c + 2); .ok s (issueCyc s c - t)
      | false, _ => .ok (addLong s c k o) 1

-- Register operations (R148) -----------------------------------------------------------------------------------------------

def execAdd (c : Core) (rd ra rb : Reg5) (sb : Bool) (s : State) : Res :=
  runs s c (.add c rd ra rb sb) (alu s c rd [ra, rb] sb false fun r => addNzcv (r.get ra) (r.get rb) false)
def execSub (c : Core) (rd ra rb : Reg5) (sb : Bool) (s : State) : Res :=
  runs s c (.sub c rd ra rb sb) (alu s c rd [ra, rb] sb false fun r => subNzcv (r.get ra) (r.get rb) true)
def execAdc (c : Core) (rd ra rb : Reg5) (sb : Bool) (s : State) : Res :=
  runs s c (.adc c rd ra rb sb) (alu s c rd [ra, rb] sb true fun r => addNzcv (r.get ra) (r.get rb) r.c)
def execSbc (c : Core) (rd ra rb : Reg5) (sb : Bool) (s : State) : Res :=
  runs s c (.sbc c rd ra rb sb) (alu s c rd [ra, rb] sb true fun r => subNzcv (r.get ra) (r.get rb) r.c)
def execAndR (c : Core) (rd ra rb : Reg5) (sb : Bool) (s : State) : Res := runs s c (.andR c rd ra rb sb) (aluLogic s c rd ra rb sb (· &&& ·))
def execOrR (c : Core) (rd ra rb : Reg5) (sb : Bool) (s : State) : Res := runs s c (.orR c rd ra rb sb) (aluLogic s c rd ra rb sb (· ||| ·))
def execXorR (c : Core) (rd ra rb : Reg5) (sb : Bool) (s : State) : Res := runs s c (.xorR c rd ra rb sb) (aluLogic s c rd ra rb sb (· ^^^ ·))
def execAndn (c : Core) (rd ra rb : Reg5) (sb : Bool) (s : State) : Res :=
  runs s c (.andn c rd ra rb sb) (aluLogic s c rd ra rb sb fun a b => a &&& ~~~b)
def execShl (c : Core) (rd ra rb : Reg5) (sb : Bool) (s : State) : Res :=
  runs s c (.shl c rd ra rb sb) (aluShift s c rd ra [rb] sb .shl fun r => shiftAmt .shl (r.get rb))
def execShrl (c : Core) (rd ra rb : Reg5) (sb : Bool) (s : State) : Res :=
  runs s c (.shrl c rd ra rb sb) (aluShift s c rd ra [rb] sb .shrl fun r => shiftAmt .shrl (r.get rb))
def execShra (c : Core) (rd ra rb : Reg5) (sb : Bool) (s : State) : Res :=
  runs s c (.shra c rd ra rb sb) (aluShift s c rd ra [rb] sb .shra fun r => shiftAmt .shra (r.get rb))
def execRor (c : Core) (rd ra rb : Reg5) (sb : Bool) (s : State) : Res :=
  runs s c (.ror c rd ra rb sb) (aluShift s c rd ra [rb] sb .ror fun r => shiftAmt .ror (r.get rb))
def execShli (c : Core) (rd ra : Reg5) (sh : BitVec 5) (sb : Bool) (s : State) : Res :=
  runs s c (.shli c rd ra sh sb) (aluShift s c rd ra [] sb .shl fun _ => sh.toNat)
def execShrli (c : Core) (rd ra : Reg5) (sh : BitVec 5) (sb : Bool) (s : State) : Res :=
  runs s c (.shrli c rd ra sh sb) (aluShift s c rd ra [] sb .shrl fun _ => sh.toNat)
def execShrai (c : Core) (rd ra : Reg5) (sh : BitVec 5) (sb : Bool) (s : State) : Res :=
  runs s c (.shrai c rd ra sh sb) (aluShift s c rd ra [] sb .shra fun _ => sh.toNat)
def execRori (c : Core) (rd ra : Reg5) (sh : BitVec 5) (sb : Bool) (s : State) : Res :=
  runs s c (.rori c rd ra sh sb) (aluShift s c rd ra [] sb .ror fun _ => sh.toNat)
def execMul (c : Core) (rd ra rb : Reg5) (sb : Bool) (s : State) : Res :=
  runs s c (.mul c rd ra rb sb) (aluLogic s c rd ra rb sb fun a b => w32 (a.toNat * b.toNat))
def execMulh (c : Core) (rd ra rb : Reg5) (sb : Bool) (s : State) : Res :=
  runs s c (.mulh c rd ra rb sb) (aluPlain s c rd [ra, rb] sb fun r => w32 (mulRes true (r.get ra) (r.get rb) / 2 ^ 32))
def execMulhu (c : Core) (rd ra rb : Reg5) (sb : Bool) (s : State) : Res :=
  runs s c (.mulhu c rd ra rb sb) (aluPlain s c rd [ra, rb] sb fun r => w32 (mulRes false (r.get ra) (r.get rb) / 2 ^ 32))
def execMull (c : Core) (rd ra rb : Reg5) (sb : Bool) (s : State) : Res := runs s c (.mull c rd ra rb sb) (aluMull s c rd ra rb sb true)
def execMullu (c : Core) (rd ra rb : Reg5) (sb : Bool) (s : State) : Res := runs s c (.mullu c rd ra rb sb) (aluMull s c rd ra rb sb false)
def execDiv (c : Core) (rd ra rb : Reg5) (sb : Bool) (s : State) : Res := runs s c (.div c rd ra rb sb) (aluDiv s c rd ra rb sb true false)
def execDivu (c : Core) (rd ra rb : Reg5) (sb : Bool) (s : State) : Res := runs s c (.divu c rd ra rb sb) (aluDiv s c rd ra rb sb false false)
def execRem (c : Core) (rd ra rb : Reg5) (sb : Bool) (s : State) : Res := runs s c (.rem c rd ra rb sb) (aluDiv s c rd ra rb sb true true)
def execRemu (c : Core) (rd ra rb : Reg5) (sb : Bool) (s : State) : Res := runs s c (.remu c rd ra rb sb) (aluDiv s c rd ra rb sb false true)
def execCmp (c : Core) (rd ra rb : Reg5) (sb : Bool) (s : State) : Res :=
  runs s c (.cmp c rd ra rb sb) (aluFlags s c rd [ra, rb] fun r => (subNzcv (r.get ra) (r.get rb) true).2)
def execTst (c : Core) (rd ra rb : Reg5) (sb : Bool) (s : State) : Res :=
  runs s c (.tst c rd ra rb sb) (aluFlags s c rd [ra, rb] fun r => nzOf r.flags (r.get ra &&& r.get rb))
def execMinS (c : Core) (rd ra rb : Reg5) (sb : Bool) (s : State) : Res :=
  runs s c (.minS c rd ra rb sb) (aluPlain s c rd [ra, rb] sb fun r => if (r.get ra).toInt ≤ (r.get rb).toInt then r.get ra else r.get rb)
def execMaxS (c : Core) (rd ra rb : Reg5) (sb : Bool) (s : State) : Res :=
  runs s c (.maxS c rd ra rb sb) (aluPlain s c rd [ra, rb] sb fun r => if (r.get ra).toInt ≤ (r.get rb).toInt then r.get rb else r.get ra)
def execMinu (c : Core) (rd ra rb : Reg5) (sb : Bool) (s : State) : Res :=
  runs s c (.minu c rd ra rb sb) (aluPlain s c rd [ra, rb] sb fun r => if (r.get ra).toNat ≤ (r.get rb).toNat then r.get ra else r.get rb)
def execMaxu (c : Core) (rd ra rb : Reg5) (sb : Bool) (s : State) : Res :=
  runs s c (.maxu c rd ra rb sb) (aluPlain s c rd [ra, rb] sb fun r => if (r.get ra).toNat ≤ (r.get rb).toNat then r.get rb else r.get ra)
def execClz (c : Core) (rd ra : Reg5) (sb : Bool) (s : State) : Res :=
  runs s c (.clz c rd ra sb) (aluPlain s c rd [ra] sb fun r => w32 (clzOf (r.get ra)))
def execCsel (c : Core) (cond : BitVec 4) (rd ra rb : Reg5) (sb : Bool) (s : State) : Res :=
  runs s c (.csel c cond rd ra rb sb) (issueReg s c { reads := [ra, rb], writes := [rd], flags := true, ill := sb } rd fun r =>
    if condTrue r.flags cond.toNat then r.get ra else r.get rb)
def execSextb (c : Core) (rd ra : Reg5) (sb : Bool) (s : State) : Res :=
  runs s c (.sextb c rd ra sb) (aluPlain s c rd [ra] sb fun r => sextW 8 (r.get ra).toNat)
def execSexth (c : Core) (rd ra : Reg5) (sb : Bool) (s : State) : Res :=
  runs s c (.sexth c rd ra sb) (aluPlain s c rd [ra] sb fun r => sextW 16 (r.get ra).toNat)

-- Immediates (R147) ------------------------------------------------------------------------------------------------------------

def simm (imm : BitVec 16) : Word := imm.signExtend 32
def zimm (imm : BitVec 16) : Word := imm.zeroExtend 32

def execAddi (c : Core) (rd ra : Reg5) (imm : BitVec 16) (s : State) : Res :=
  runs s c (.addi c rd ra imm) (issueReg s c { reads := [ra], writes := [rd] } rd fun r => r.get ra + simm imm)
def execAddis (c : Core) (rd ra : Reg5) (imm : BitVec 16) (s : State) : Res :=
  runs s c (.addis c rd ra imm) (alu s c rd [ra] true false fun r => addNzcv (r.get ra) (simm imm) false)
def execAndi (c : Core) (rd ra : Reg5) (imm : BitVec 16) (s : State) : Res :=
  runs s c (.andi c rd ra imm) (issueReg s c { reads := [ra], writes := [rd] } rd fun r => r.get ra &&& zimm imm)
def execOri (c : Core) (rd ra : Reg5) (imm : BitVec 16) (s : State) : Res :=
  runs s c (.ori c rd ra imm) (issueReg s c { reads := [ra], writes := [rd] } rd fun r => r.get ra ||| zimm imm)
def execXori (c : Core) (rd ra : Reg5) (imm : BitVec 16) (s : State) : Res :=
  runs s c (.xori c rd ra imm) (issueReg s c { reads := [ra], writes := [rd] } rd fun r => r.get ra ^^^ zimm imm)
def execLui (c : Core) (rd : Reg5) (imm : BitVec 16) (s : State) : Res :=
  runs s c (.lui c rd imm) (issueReg s c { writes := [rd] } rd fun _ => zimm imm <<< 16)
def execCmpi (c : Core) (ra : Reg5) (imm : BitVec 16) (s : State) : Res :=
  runs s c (.cmpi c ra imm) (aluFlags s c 0 [ra] fun r => (subNzcv (r.get ra) (simm imm) true).2)

end Sys2Proof.Machine
end

