-- ==== Sys2Proof/Machine/FELoad.lean ====
section
/-! DEFINITION. Loading Frame Engine images, and starting the lanes (R278–R280). -/

namespace Sys2Proof.Machine
open Sys2Proof

/-- The staged image: the staging window's bytes, cut to the length that its header gives (R278). -/
def stagedLen (s : State) : Nat :=
  let w2 := (s.reg rFE_STAGE 2 0).toNat
  160 + 8 * bits w2 16 8 + 4 * (w2 % 65536)
def stagedImage (s : State) : List Byte :=
  ((List.range (cdiv (min (stagedLen s) 65536) 4)).flatMap fun i => leBytes 4 (s.reg rFE_STAGE i 0).toNat).take
    (stagedLen s)

/-- The active customer key slot (R348): the lowest programmed one that is not revoked. -/
def custSlot (s : State) : Option Nat := (List.range 4).find? fun i => bit s.ks.cprog i && !bit s.ks.crev i
/-- A customer key hash, as fused at manufacture or by KEY_LOAD. -/
def custHashOf (s : State) (i : Nat) : BitVec 256 := (tfind s.ks.chash i).getD (Config.custHash i)

def pubkeyOk (s : State) (customer : Bool) (key : List Byte) : Bool :=
  if customer then (match custSlot s with | some i => Config.sha256 key == custHashOf s i | none => false)
  else Config.sha256 key == Config.novrerosHash

/-- EtherTypes that only vendor entries name (R272). -/
def vendorTypes : List Nat := [0x88BA, 0x88B8, 0x88B5, 0x88F7, 0x88FB]

/-- Some EtherType is named twice. -/
def twice : List Nat → Bool
  | [] => false
  | x :: xs => xs.contains x || twice xs

/-- REASON for which an image is refused (R279), 0 where it passes. Reason 7 stands for every lifecycle state in which R353
takes no image of the region. -/
def imageReason (s : State) (img : List Byte) : Nat :=
  let region := imgVal img 5 1
  let cust := region == 1
  let nw := imgVal img 8 2
  let ents := feEntries img
  let types := (ents.filter fun e => e.kind == 0).map fun e => e.etype
  let n := img.length
  if imgVal img 0 4 != 0x55434546 || imgVal img 4 1 != 1 || 1 < region || nw = 0 || (if cust then 2048 else 14336) < nw ||
      64 < imgVal img 10 1 then 1
  else if ents.any fun e => customerWord e.entry != cust then 2
  else if !pubkeyOk s cust (imgBytes img (n - 128) 64) then 3
  else if !Config.ecdsaVerify (imgBytes img (n - 128) 64) (Config.sha256 (img.take (n - 64))) (img.drop (n - 64)) then 4
  else if !cust && s.fb fFE_CTL_RUN then 5
  else if cust && (ents.any fun e => (e.kind == 0 && vendorTypes.contains e.etype) || e.kind == 3) || twice types then 6
  else if !(s.lc == 3 || s.lc == 4 || (s.lc == 1 && !cust)) then 7
  else 0

/-- The bytes of an image's words, padded with 0 to `words` words. -/
def imageWords (img : List Byte) (words : Nat) : List Byte :=
  let b := imgBytes img (32 + 8 * imgVal img 10 1) (4 * imgVal img 8 2)
  b ++ List.replicate (4 * words - b.length) 0

/-- A refused image (R279). -/
def loadRefuse (s : State) (reason : Nat) : State := raise (s.setF fFE_LOAD_REASON reason) kFE_USTAT_LOADREF

/-- A write of FE_LOAD (R279): GO starts verification. -/
def feLoadGo (s : State) (v : Word) : State :=
  if !bit v.toNat 31 then s
  else if s.f fFE_LOAD_STATE != 0 then loadRefuse s 8
  else { s.setF fFE_LOAD_STATE 1 with verify := some s.now }

/-- VERIFICATION_END (R279, R280): a vendor image waits for the boundary; a customer image goes to the shadow bank and
waits there. -/
def verificationEnd (s : State) : State :=
  match s.verify with
  | none => s
  | some _ =>
    let s := { s.setF fFE_LOAD_STATE 0 with verify := none }
    let img := stagedImage s
    let r := imageReason s img
    if r != 0 then loadRefuse s r
    else
      let cust := imgVal img 5 1
      let s := { s with newImg := s.newImg.filter (fun x => x.1 != cust) ++ [(cust, img)] }
      let s := if cust = 1 then { s.setF fFE_LOAD_STATE 2 with shadow := mwrite s.shadow 0 (imageWords img 2048) } else s
      raise s kFE_USTAT_LOADOK

/-- The banks of the customer region exchange places: a routine that runs finishes from the old one (R280), whose errors
stand above the store's. -/
def swapBanks (s : State) (img : List Byte) : State :=
  let old (t : FeThr) : FeThr := { t with old := t.run }
  let errs := (s.storeEcc.filter fun e => customerWord e.1).map fun e => (e.1 + 0x4000, e.2)
  { s with store := mwrite s.store (4 * 0x3800) (mread s.shadow 0 8192)
           shadow := mwrite s.shadow 0 (mread s.store (4 * 0x3800) 8192)
           storeEcc := (s.storeEcc.filter fun e => e.1 < 0x3800) ++ errs
           lanes := s.lanes.map fun e => (e.1, { e.2 with ing := old e.2.ing, eg := old e.2.eg })
           ks := { s.ks with customer := img, custOld := s.ks.customer } }

/-- At a plan boundary a verified image takes its place (R280): the customer banks exchange places; a vendor image goes
into the vendor region once RUN has become 1, and at once where none is in effect, since RUN cannot be set without one. -/
def swapImages (s : State) : State :=
  s.newImg.foldl (fun s (c, img) =>
    if c = 1 then ((swapBanks s img).setF fFE_UCODE_VER_CVER (imgVal img 6 2)).setF fFE_LOAD_STATE 0
    else if s.f fFE_UCODE_VER_VVER != 0 && !s.fb fFE_CTL_RUN then { s with newImg := s.newImg ++ [(c, img)] }
    else
      let s := { s with store := mwrite s.store 0 (imageWords img 0x3800), storeEcc := tclear s.storeEcc 0 0x3800
                        ks := { s.ks with vendor := img } }
      s.setF fFE_UCODE_VER_VVER (imgVal img 6 2)) { s with newImg := [] }

/-- A write of FE_CTL (R280): RUN is not set while no vendor image is in effect, or after a critical failure (R402). -/
def feCtl (s : State) (v : Word) : State :=
  if s.fb fFE_CTL_LOCK then s
  else
    -- a write of RUN = 1 is ignored after a critical failure (R402) and without vendor microcode
    let run := if bit v.toNat 0 && (s.bist.crit || s.f fFE_UCODE_VER_VVER = 0) then s.fb fFE_CTL_RUN else bit v.toNat 0
    (s.setF fFE_CTL_RUN (b2n run)).setF fFE_CTL_LOCK (b2n (bit v.toNat 31))

def execFeLoadGo (v : Word) (s : State) : Res := done (feLoadGo s v)
def execVerificationEnd (s : State) : Res := done (verificationEnd s)
def execFeCtlRun (v : Word) (s : State) : Res := done (feCtl s v)

end Sys2Proof.Machine
end

