-- ==== Sys2Proof/Machine/Tick.lean ====
section
/-! DEFINITION. What a step does when no command waits: one fabric cycle of time passes. -/

namespace Sys2Proof.Machine
open Sys2Proof

/-- One fabric cycle (R2, R27) in which no command arrives: the timebases advance (log entry 1). -/
def idleTick (s : State) : State := settle (s.advance s.cyc)

/-- The block's queue without its first command. -/
def popPending (s : State) (cs : List Instr) : State := { s with pending := cs }

/-- Put a command at the front of the queue. -/
def pushFront (s : State) (i : Instr) : State := { s with pending := i :: s.pending }

end Sys2Proof.Machine
end

