-- ==== Sys2Proof/Machine/Keys.lean ====
section
/-! DEFINITION. The Vault, wipes, tamper, lifecycle requests and key loads (R345–R357). -/

namespace Sys2Proof.Machine
open Sys2Proof

-- The Vault (R351, R352) --------------------------------------------------------------------------------------------------

/-- What the host and the supervisor may do with a Vault byte (R351): the log is read only, the customer area is open. -/
def vaultReadable (a : Nat) : Bool := (0x20000 ≤ a && a < 0x30000) || (0x38000 ≤ a && a < 0x3F800)
def vaultWritable (a : Nat) : Bool := 0x38000 ≤ a && a < 0x3F800

/-- An access to KS_VDATA (R351): the Vault word at KS_VADDR moves, and the address advances. The register shows the
low word; what a write puts into the high word is not given. -/
def vaultAccess (s : State) (wr : Bool) (v : Word) : State :=
  let n := s.f fKS_VADDR_WORD
  let a := 8 * n
  let s := s.setF fKS_VADDR_WORD (n + 1)
  if s.ks.wipe.isSome then { s with resp := .err }
  else if wr then
    if vaultWritable a then
      let (x, s) := s.draw
      { s with vault := mwrite s.vault a (leBytes 4 v.toNat ++ leBytes 4 x.toNat), resp := .data [] }
    else { s with resp := .err }
  else if vaultReadable a then { s with resp := .data (mread s.vault a 4) }
  else { s with resp := .err }

/-- WIPE (R352, R345, R354): at the end of the wipe the Vault holds zeros, a new GEN and the state bit, and a transition
that asked for the wipe is complete. A seal that waited for the wipe starts now (R412). -/
def wipeEnd (s : State) : State :=
  match s.ks.wipe with
  | none => s
  | some (due, target) =>
    let s := s.advanceTo due
    let (g, s) := s.draw
    let fuse := match target with | some 4 => 3 | some t => t | none => s.ks.fuse
    let maint := match target with | some t => t == 4 | none => s.ks.maint
    let s := { s with
      vault := [], keys := []
      ks := { s.ks with
        gen := g.toNat, cnt := [], adv := [], seed := [], wipe := none, fuse := fuse, maint := maint
        slep := (List.range 256).map fun i => (i, (tget 0 s.ks.slep i + 1) % 2 ^ 32) }
      sl := { s.sl with logN := 0, logNx := 0, sealAt := s.sl.sealAt.map fun _ => s.now + 82000 * nsU } }
    if target.isSome then raise s kLC_STAT_DONE else s

-- Tamper (R357) -----------------------------------------------------------------------------------------------------------

/-- A tamper source that has stood at a level for some µs is enabled, asserted and debounced (R357, R364): [3:0] mesh, supply,
clock and temperature, [7:4] the balls with their polarity. In Off the mesh and the balls run from VBAT. -/
def tamperOn (s : State) (x : TamperIn) : Bool :=
  let n := x.src.val
  s.f fLC_TAMPCFG_DEB ≤ x.us && (pmState s != 4 || n = 0 || 4 ≤ n) &&
  (if n < 4 then x.level && bit (s.f fLC_TAMPCFG_INTEN) n
   else x.level == bit (s.f fLC_TAMPCFG_POL) (n - 4) && bit (s.f fLC_TAMPCFG_PINEN) (n - 4))

/-- The flag, the source and the notice of a tamper. -/
def tamperMark (s : State) (src : Nat) : State :=
  notice (raise (s.setF fLC_TAMPSRC_SRC (2 ^ src)) kLC_STAT_TAMPER) 41 4 (2 ^ src) 0

/-- TAMPER (R357): a wipe starts and every tenant context is quarantined in the same cycle. A transition whose wipe is
running keeps its target. In Off the flag waits for the next power-up. -/
def tamper (s : State) (x : TamperIn) : State :=
  if !tamperOn s x then s
  else
    let target := s.ks.wipe.bind Prod.snd
    if pmState s = 4 then startWipe { s with ks := { s.ks with offTamp := some x.src.val } } target
    else startWipe (quarantineAll (tamperMark s x.src)) target

-- Lifecycle (R354, R355) --------------------------------------------------------------------------------------------------

/-- The allowed transitions, and whether the Novreros key authorises them rather than the customer key (R354). -/
def transitionBy (from_ to_ : Nat) : Option Bool :=
  if (from_ = 0 && to_ = 1) || (from_ = 1 && to_ = 2) then some true
  else if (from_ = 2 && to_ = 3) || (from_ = 3 && to_ = 4) || (from_ = 4 && to_ = 3) then some false
  else if (from_ = 2 || from_ = 3 || from_ = 4) && to_ = 5 then some false
  else none

/-- LC_AUTH as bytes: PUBKEY, then SIG. -/
def authBytes (s : State) : List Byte := (List.range 32).flatMap fun i => leBytes 4 (s.reg rLC_AUTH i 0).toNat

/-- RESULT of a request, a refusal unless it is 1. -/
def lcResult (s : State) (r : Nat) : State :=
  let s := s.setF fLC_REQ_RESULT r
  if r = 1 then s else raise s kLC_STAT_REFUSED

/-- A write of LC_REQ (R355, R363): GO takes the request with the challenge and LC_AUTH as they stand, and replaces the
challenge. -/
def lcReq (s : State) (v : Word) : State :=
  let s := s.setF fLC_REQ_TARGET (v.toNat % 8)
  if !bit v.toNat 31 then s
  else
    let old := s.ks.chal
    let (c, s) := s.draw
    let s := { s with ks := { s.ks with chal := c } }
    if s.ks.pend.isSome || s.ks.trans.isSome then lcResult s 6
    else { s with ks := { s.ks with req := some (v.toNat % 8, old, authBytes s) } }

/-- The check of a request (R355): RESULT. -/
def lcJudge (s : State) (target : Nat) (chal : DWord) (auth : List Byte) : Nat :=
  match transitionBy s.lc target with
  | none => 2
  | some vendor =>
    let key := auth.take 64
    if !vendor && (custSlot s).isNone then 5
    else if !pubkeyOk s (!vendor) key then 3
    else if !Config.ecdsaVerify key
        (Config.sha256 (leBytes 8 chal.toNat ++ leBytes 8 Config.devId.toNat ++ [BitVec.ofNat 8 target])) (auth.drop 64) then 4
    else 1

/-- REQUEST_VERDICT (R355): an accepted transition waits for the boundary (R356). -/
def requestVerdict (s : State) : State :=
  match s.ks.req with
  | none => s
  | some (t, chal, auth) =>
    let s := { s with ks := { s.ks with req := none } }
    let r := lcJudge s t chal auth
    let s := lcResult s r
    if r = 1 then { s with ks := { s.ks with pend := some t } } else s

-- Epochs and digests (R345, R358) -----------------------------------------------------------------------------------------

/-- A change of something that a proof covers: its digests are unfinished (R358). -/
def digestBusy (s : State) : State := s.setF fKS_PSTAT_BUSY 1

/-- The new seeds of owner o are installed: every slice epoch of o advances (R345, R77). -/
def installEpoch (s : State) (o : Nat) : State :=
  let (c, k) := s.holder o
  let sheets := (List.range 384).filter fun i => s.f fSHM_OWNER_OWNER i == o
  { s with ks := { s.ks with
      adv := s.ks.adv.filter (· != o)
      seed := sheets.foldl (fun t i => tdel t i) s.ks.seed
      slep := if o < 256 then tput s.ks.slep (8 * c + k) ((tget 0 s.ks.slep (8 * c + k) + 1) % 2 ^ 32) else s.ks.slep } }

/-- EPOCH_ADVANCE (R345): once the owner's work has drained, within 96 fabric cycles. -/
def epochAdvance (s : State) (o : Nat) : State :=
  if s.ks.adv.contains o && !ownerRuns s o then installEpoch (s.advance (96 * s.cyc)) o else s

/-- A write of TN_CTL (R345): ADV waits for the boundary. -/
def tnCtl (s : State) (o : Nat) (v : Word) : State :=
  if bit v.toNat 31 then s.setF fTN_CTL_ADV 1 o else s

def execTnCtlAdv (o : Fin 257) (v : Word) (s : State) : Res := done (tnCtl s o v)
def execEpochAdvance (o : Fin 257) (s : State) : Res := done (epochAdvance s o)
def execKsVdata (wr : Bool) (v : Word) (s : State) : Res := done (vaultAccess s wr v)
def execLcReqGo (v : Word) (s : State) : Res := done (lcReq s v)
def execRequestVerdict (s : State) : Res := done (requestVerdict s)
/-- WIPE (R352); a transition whose activations have completed starts its wipe first (R356). -/
def execWipe (s : State) : Res := done (wipeEnd (transitionGo s))
def execTamper (x : TamperIn) (s : State) : Res := done (tamper s x)
/-- PROOF_DIGEST_DONE (R358). -/
def execProofDigestDone (s : State) : Res := done (s.setF fKS_PSTAT_BUSY 0)

end Sys2Proof.Machine
end

