-- ==== Sys2Proof/Machine/Sys.lean ====
section
/-! DEFINITION. TRAP and the SYS functions (R149, R158, R160, R186), and the Negative pass (R209–R223). -/

namespace Sys2Proof.Machine
open Sys2Proof

def illegal (s : State) (c pc : Nat) : FaultRec :=
  scalarFault cILLEGAL pc (fetchWord s c pc).toNat (issueCyc s c)

/-- A context issues inside an open section. -/
def inSection (s : State) (c : Nat) (k : Option Nat) : Bool := (secOf s c k).isSome

-- TRAP, NOP, SYNC, END, WAIT -----------------------------------------------------------------------------------------------

/-- TRAP n enters supervisor mode with number n; rd and ra must be 0 (R147, R160, R162). -/
def trapI (s : State) (c rd ra n : Nat) : State :=
  issueI s c { ill := rd != 0 || ra != 0, tenOnly := true, ends := true } fun s k pc =>
    if inSection s c k then .flt (illegal s c pc)
    else .flt { scalarFault cTRAP pc 0 (issueCyc s c) with trap := n % 256 }

/-- SYNC: 1 cycle after everything pending has retired (R176). -/
def sync (s : State) (c : Nat) : State := issueI s c { all := true } fun s _ _ => .ok s 1

/-- END: the activation completes (R158, R210). -/
def endI (s : State) (c : Nat) : State :=
  issueI s c { all := true, ends := true, tenOnly := true } fun s k pc =>
    match k with
    | some q => if inSection s c k then .flt (illegal s c pc) else .stop (endActivation s c q)
    | none => .flt (illegal s c pc)

/-- A core enters WAIT: an idle core releases every source's unreleased sets (R149, R202). -/
def waitI (s : State) (c : Nat) : State :=
  issueI s c { supOnly := true, ends := true } fun s _ _ =>
    let s := toIssue s c
    let s := s.modCore c fun y => { y with waiting := true }
    let s := idleRelease s c
    .ok (if lineHigh s c then s.modCore c fun y => { y with waiting := false } else s) 1

-- RFE and RESUME (R100, R186) ------------------------------------------------------------------------------------------------

/-- Supervisor mode goes on at its resume point at cycle n (R457); a core that is idle from then on releases its sources
there (R202, `idleRelease`). -/
def toResume (s : State) (c n : Nat) : State :=
  setPc (s.modCore c fun y => { y with ml := 0, waiting := y.rwait, cyc := n }) c none (s.core c).rpc.toNat

/-- A return to the tenant: the interrupted mode, its PC and its ML come back, and its span thaws. With its activation
gone meanwhile, supervisor mode goes on at its resume point (R457; log entry 44). -/
def returnTenant (s : State) (c : Nat) (b : Bank) : State :=
  let n := issueCyc s c + 8
  match (s.core c).run with
  | some r =>
    if r.ctx = b.ctx then
      let vf := (s.ctx c b.ctx).thr.held.any fun f => f.vec
      let s := s.modCore c fun y => { y with sup := false, ml := 0, frozen := vf, vflt := vf, vlast := max y.vlast n, cyc := n }
      let s := s.modCtx c b.ctx fun x => { x with ml := b.rml }
      setPc s c (some b.ctx) b.pc.toNat
    else toResume s c (n + 24)
  | none => toResume s c (n + 24)

/-- XMODE.DISP acts on a tenant return: end the activation, or quarantine the context (R186). -/
def dispose (s : State) (c : Nat) (b : Bank) : State :=
  match curCtx s c with
  | none => s
  | some k =>
    if b.disp = 1 then endActivation s c k
    else if b.disp = 2 then
      transitionGo ((quarantine (toIssue s c) c k 0 0).setReg rEZ_CAUSE c 0 (b.cause ||| w32 (2 ^ 19 + 7 * 2 ^ 8)))
    else s

/-- The context of a bank has an unresumed fault on record (R109). -/
def vfValid (s : State) (c : Nat) (b : Bank) : Bool := s.fb fVF_CAUSE_VALID (s.ctx c b.ctx).tenant

/-- RESUME puts the faulting instruction back at the head of the queue (R100). -/
def resumeVec (s : State) (c : Nat) (b : Bank) : State :=
  let t := (s.ctx c b.ctx).tenant
  let s := s.setF fVF_CAUSE_VALID 0 t
  let es := tget [] s.vfStr t
  let s := s.modCore c fun y => { y with vq := putBack (es.map fun e => { e with issue := y.cyc }) y.vq }
  { s with vfStr := tdel s.vfStr t }

/-- RFE, or RESUME where `res` (R186). -/
def rfe (s : State) (c : Nat) (res : Bool) : State :=
  issueI s c { supOnly := true, ends := true } fun s _ pc =>
    let y := s.core c
    let b := tget Bank.init y.banks y.ml
    if y.ml = 0 || (b.rsup && (b.disp != 0 || res)) || b.disp = 3 || (res && !vfValid s c b) then .flt (illegal s c pc)
    else if b.rsup then .ok (setPc (s.modCore c fun y => { y with ml := b.rml }) c none b.pc.toNat) 8
    else
      let s := returnTenant s c b
      .stop (dispose (if res then resumeVec s c b else s) c b)

-- The Negative pass (R209–R219) ---------------------------------------------------------------------------------------------------

/-- NEG.BEGIN opens a decision section (R209, R210). -/
def negBegin (s : State) (c : Nat) : State :=
  issueI s c { all := true, ends := true, tenOnly := true } fun s k pc =>
    match k with
    | none => .flt (illegal s c pc)
    | some q =>
      if inSection s c k || tanksFull s c then .flt (illegal s c pc)
      else
        let x : Sec := { neg := false, pcBegin := w32 pc, shadow := takeShadow s c q, sig := 0, sigMain := 0,
                         held := [], heldMain := [], inlog := [], inpos := 0, restarts := 0, start := issueCyc s c,
                         retired := 0, llog := [] }
        .ok (s.modCtx c q fun y => { y with sec := some x }) 4

/-- A matching section's outputs leave together: at once, or at deadline − E for a fixed-release tenant; a lent
activation's wait for its LENDOUT (R47, R218, R427). -/
def releaseSection (s : State) (c k : Nat) (a : Act) (os : List DecOut) : State :=
  if a.lent || (bit (s.dl a.tenant).cfg.toNat 2 && s.now < fixedAt s a) then
    s.modCtx c k fun y => { y with waitRel := y.waitRel ++ os }
  else releaseAll s c k a os

/-- The Negative pass's CHECK decides at the end of its 8 cycles: the section's outputs leave and its state stands
untransformed, or it mismatches with cause OUT or SIG (R211, R219, R223). -/
def negCheck (s : State) (c q : Nat) (x : Sec) (a : Act) : State :=
  let s := toIssue (waitTo s c (issueCyc s c + 8)) c
  if x.held != x.heldMain then mismatch s c q 2
  else if x.sig != x.sigMain then mismatch s c q 1
  else
    let s := (turnState s c q).modCtx c q fun y => { y with sec := none, negres := x.restarts }
    releaseSection s c q a x.held

/-- CHECK ends a pass (R211, R219). -/
def checkI (s : State) (c : Nat) : State :=
  issueI s c { all := true, ends := true, tenOnly := true } fun s k pc =>
    match k, secOf s c k, (s.core c).run with
    | some q, some x, some r =>
      if (s.thr c k).r.loopact != x.shadow.r.loopact then .flt (illegal s c pc)
      else if !x.neg then
        let t := issueCyc s c
        let s := turnState (restoreShadow s c q x.shadow) c q
        let s := s.modCtx c q fun y => { y with sec := some { x with
          neg := true, sigMain := x.sig, sig := 0, heldMain := x.held, held := [], inpos := 0, start := t + 12
          retired := 0 } }
        .ok (setPc s c k (x.pcBegin.toNat + 4)) 12
      else if windowEnd s c q x < issueCyc s c then .stop (windowMiss s c q)
      else .stop (negCheck s c q x r.act)
    | _, _, _ => .flt (illegal s c pc)

def execTrap (c : Core) (rd ra : Reg5) (imm : BitVec 16) (s : State) : Res := runs s c (.trap c rd ra imm) (trapI s c rd ra imm.toNat)
def execNop (c : Core) (s : State) : Res := runs s c (.nop c) (issueI s c {} fun s _ _ => .ok s 1)
def execSync (c : Core) (s : State) : Res := runs s c (.sync c) (sync s c)
def execEndA (c : Core) (s : State) : Res := runs s c (.endA c) (endI s c)
def execWait (c : Core) (s : State) : Res := runs s c (.wait c) (waitI s c)
def execRfe (c : Core) (s : State) : Res := runs s c (.rfe c) (rfe s c false)
def execResume (c : Core) (s : State) : Res := runs s c (.resume c) (rfe s c true)
def execNegBegin (c : Core) (s : State) : Res := runs s c (.negBegin c) (negBegin s c)
def execCheckN (c : Core) (s : State) : Res := runs s c (.checkN c) (checkI s c)

end Sys2Proof.Machine
end

