-- ==== Sys2Proof/Machine/Plan.lean ====
section
/-! DEFINITION. The activation scheduler: posting, dispatch, slots, spans, misses, fixed release, migration and the
loss of clusters (R34–R49, R85, R104–R107). -/

namespace Sys2Proof.Machine
open Sys2Proof

-- The plan in effect (R34, R35) ---------------------------------------------------------------------------------------------

/-- The primary or fallback plan in effect. -/
def curPlan (s : State) : Option Plan := s.plan.img.bind fun im => im.plans.find? fun p => p.number == s.plan.fb

/-- Slots of a plan in the order of their offsets. -/
def slotsOf (p : Plan) : List PlanSlot := p.slots.mergeSort fun a b => a.offset ≤ b.offset

/-- The current slot: none before the first of the period, and none in the gap after a period whose station time was
stepped (R37). -/
def curSlot (s : State) : Option PlanSlot :=
  if s.plan.inslot && (match s.plan.endM with | some e => s.now < e | none => true) then (curPlan s).bind fun p => (slotsOf p)[s.plan.slot]? else none

/-- Rank of a tenant in the current slot (R35); a tenant without one waits (R39). -/
def rankOf (s : State) (t : Nat) : Option Nat :=
  (curSlot s).bind fun x => (x.ranks.find? fun e => e.1.val == t).map Prod.snd

/-- Dispatch is enabled: SCH_CTL.EN, a plan in effect, a lifecycle state that dispatches, and no critical failure
(R41, R353, R402). -/
def dispatchOn (s : State) : Bool :=
  s.fb fSCH_CTL_EN && s.plan.img.isSome && (s.lc == 1 || s.lc == 3 || s.lc == 4) && !s.bist.crit && !s.stopped

/-- Idle ends (R383): the restart of the cluster clocks adds nothing to a dispatch. -/
def idleExit (s : State) : State :=
  if pmState s = 1 then { s.setF fPM_STATE_STATE 0 with pm := { s.pm with idleAt := s.now } } else s

-- Posting (R40, R41, R48) ---------------------------------------------------------------------------------------------------

/-- Queue depth of a core; SCH_QDEPTH.MAX follows it. -/
def pushAct (s : State) (c : Nat) (a : Act) : State :=
  let s := s.modCore c fun k => { k with queue := k.queue ++ [a] }
  let n := (s.core c).queue.length
  if s.f fSCH_QDEPTH_MAX c < n then s.setF fSCH_QDEPTH_MAX n c else s

/-- A core on a lost cluster (R104). -/
def coreLost (s : State) (c : Nat) : Bool := bit (s.f fSCH_CAP_FAULTED) (c / 4)

/-- The plan lends the tenant's activations to the partner (R427). -/
def lendOut (s : State) (t : Nat) : Bool :=
  s.f fSCH_CAP_LENT != 0 && s.fb fUB_LINK_UP && (match curPlan s with | some p => p.lend.any fun x => x.val == t | none => false)

/-- An activation of a lendable tenant goes to the partner as a LEND frame with ACT0–ACT3 (R427). -/
def sendLend (s : State) (a : Act) : State :=
  ubSend { s with ub := { s.ub with lent := s.ub.lent ++ [a] } } 3 9
    ((List.range 4).flatMap fun i => beBytes 4 (actWord a i).toNat)

/-- An activation reaches the scheduler; a standby device takes none of a checkpointed tenant (R423). -/
def postAct (s : State) (a : Act) : State :=
  let (c, k) := s.place a.tenant
  let q := (s.core c).queue
  if standby s && ckten s a.tenant then endHolds s
  else if !(s.fb fSCH_CTL_EN && s.plan.img.isSome) then endHolds (s.bump fSCH_OFFCNT_CNT)
  else
  let s := idleExit s
  if (s.ctx c k).quar then endHolds (quarRecord s a)
  else if lendOut s a.tenant && !a.lent then sendLend s a
  else if coreLost s c then endHolds (miss s a 6 0xFFFFFFFF)
  else if 64 ≤ q.length || 8 ≤ (q.filter fun b => b.tenant == a.tenant).length then endHolds (miss s a 3 0xFFFFFFFF)
  else pushAct s c a

/-- ACTIVATION_POST (R40): the oldest activation on its way reaches the scheduler, which stop bath has stopped (R410). -/
def activationPost (s : State) : State :=
  match s.postq with
  | [] => s
  | a :: as => if s.stopped then s else postAct { s with postq := as } a

-- Dispatch (R39, R158, R159) ------------------------------------------------------------------------------------------------

/-- Whether activation a precedes b in the scheduler's order (R39). -/
def actBefore (a b : Nat × Act) : Bool :=
  b.1 < a.1 || (a.1 == b.1 && (a.2.trig < b.2.trig || (a.2.trig == b.2.trig && a.2.tenant < b.2.tenant)))

/-- An activation of the tenant may be dispatched on core c: it lives there, no migration or epoch advance of it is
under way, and it has a rank. -/
def mayRun (s : State) (c : Nat) (a : Act) : Option (Nat × Act) :=
  if (s.place a.tenant).1 = c && !(s.plan.mig.any fun m => m.1 == a.tenant) && !s.ks.adv.contains a.tenant then
    (rankOf s a.tenant).map fun r => (r, a)
  else none

/-- The activation that core c dispatches next. -/
def nextAct (s : State) (c : Nat) : Option Act :=
  (((s.core c).queue.filterMap (mayRun s c)).foldl (fun b x =>
    match b with
    | some y => if actBefore x y then some x else b
    | none => some x) none).map Prod.snd

/-- The host has marked the activation's source as background (R142). -/
def background (s : State) (a : Act) : Bool := s.hi.bg.contains (a.kind, a.idx)

/-- A context as a dispatch leaves it (R158). -/
def startCtx (s : State) (c k : Nat) (a : Act) : State :=
  let entry := w32 (ramBase s c + 4 * s.e fEZ_ENTRY_WORD c k)
  s.modCtx c k fun x =>
    { x with
        thr := { x.thr with
          r := { x.thr.r with n := false, z := false, c := false, v := false, pc := entry, l0 := Loop.init, l1 := Loop.init,
                              l2 := Loop.init }
          dslot := [], pend := [], latch := List.replicate 8 0, pwr := none, held := [] }
        vcount := 0, vceil := 0, g := 1, dl := !background s a, sec := none, negres := 0, waitRel := [] }

/-- Core c is free for an activation: no other runs, no handler is active, supervisor mode stands in no delay slot, and its pipe
controls a formed span. -/
def coreFree (s : State) (c : Nat) : Bool :=
  let k := s.core c
  k.run.isNone && k.sup && k.ml == 0 && k.thr.dslot.isEmpty && !k.stopped && !k.held && coreUp s c && (s.pipe c).base == c && (s.pipe c).wait.isNone

/-- DISPATCH (R39, R51): 64 cycles of selection, crossing, record load and context switch, after the core has drained. -/
def dispatch (s : State) (c : Nat) : State :=
  if !dispatchOn s || s.ks.trans.isSome then s
  else match nextAct s c with
    | none => s
    | some a =>
      if domStalls s (c / 4) then demandWake s (c / 4) (!background s a)
      else if !coreFree s c then s else
      let k := (s.place a.tenant).2
      let wl := (s.pipe c).wlog
      let s := idleRelease s c
      let fresh := (s.core c).cyc == (s.core c).freed + 24
      let s := if fresh then s.modCore c fun y => { y with cyc := y.freed } else s
      let s := waitAll s c none
      let t0 := issueCyc s c
      let s := clearSpan s c wl
      let s := startCtx s c k a
      let s := (List.range (2 ^ wl)).foldl (fun s p => s.setPipe (c + p) { s.pipe (c + p) with ten := a.tenant }) s
      s.modCore c fun y =>
        { y with
            queue := match takeOut (fun b => b.id == a.id) y.queue with | some (_, q) => q | none => y.queue
            run := some ⟨a, k, wl, false, false⟩
            rpc := y.thr.r.pc, rwait := y.waiting, sup := false, waiting := false, cyc := t0 + 64
            vq := [], jobs := [], frozen := false, br := none }

-- Slots and spans (R35, R85) ------------------------------------------------------------------------------------------------

/-- The layout of pipe p in a slot: its span's first pipe and log2 width; a pipe in no span stands alone. -/
def layoutOf (x : PlanSlot) (p : Nat) : Nat × Nat :=
  match x.spans.find? fun e => e.1.val ≤ p && p < e.1.val + 2 ^ e.2 with
  | some e => (e.1.val, e.2)
  | none => (p, 0)

/-- The pipes' new layout waits to form where it differs. -/
def layOut (s : State) (x : PlanSlot) : State :=
  (List.range 32).foldl (fun s p =>
    let (b, w) := layoutOf x p
    let y := s.pipe p
    if y.base = b && y.wlog = w then s.setPipe p { y with wait := none, late := false }
    else s.setPipe p { y with wait := some (b, w), late := false }) s

/-- The plan slot's own activations (R19). -/
def slotPosts (s : State) (n : Nat) (x : PlanSlot) : State :=
  x.posts.foldl (fun s t => post s t 4 n s.tai s.now (planSlotBudget s n)) s

/-- Index of the next slot of the period. -/
def nextSlot (s : State) : Nat := if s.plan.inslot then s.plan.slot + 1 else 0

/-- A pipe whose span an activation occupies. -/
def pipeRuns (s : State) (p : Nat) : Bool :=
  s.cores.any fun (c, k) => match k.run with | some r => c ≤ p && p < c + 2 ^ r.wlog | none => false

/-- A span whose members still run an activation at the slot start waits for it (R85). -/
def spanWaits (s : State) : State :=
  (List.range 32).foldl (fun s p =>
    match (s.pipe p).wait with
    | some (b, w) =>
      if b = p && !(s.pipe p).late && ((List.range (2 ^ w)).any fun i => pipeRuns s (b + i)) then
        raise (s.setPipe p { s.pipe p with late := true }) kSCH_STAT_SPANWAIT
      else s
    | none => s) s

/-- Where the current slot ends on the monotonic timebase: at the next slot's start, or with the period (R35, R37). -/
def slotEnd (s : State) : Nat :=
  let p := s.plan
  let e := p.endM.getD (p.beganM + p.period * nsU)
  match (curPlan s).bind fun q => (slotsOf q)[nextSlot s]? with
  | some x => min e (p.beganM + x.offset * nsU)
  | none => e

/-- Cycles of an online slice (R404); a PLATE slice is the step of R403 that its bank index has reached. -/
def onlineCyc (s : State) (kind : SliceKind) (u : Nat) : Nat :=
  match kind with
  | .pipe => 25600 | .neg => 4612 | .tray => 28672
  | .plate => let n := tget 0 s.bist.step u; if n = 0 ∨ n = 5 then 24576 else 30720

/-- A slice that has not ended when its gap ends is aborted and counted (R405). -/
def gapOver (s : State) : State :=
  match s.bist.online with
  | some (kind, u, start) =>
    if s.bist.gapTo ≤ s.now && s.bist.gapTo < start + onlineCyc s kind u * s.cyc then
      { s with bist := { s.bist with online := none } }.bump fBI_ONABORT_CNT_CNT
    else s
  | none => s

/-- SLOT_START (R35): the next slot of the period starts, at its offset on the monotonic timebase. -/
def slotStart (s : State) : State :=
  match (curPlan s).bind fun p => (slotsOf p)[nextSlot s]? with
  | none => s
  | some x =>
    let due := s.plan.beganM + x.offset * nsU
    if s.plan.beganM + s.plan.period * nsU ≤ max due s.now || s.stopped || !fabricOn s then s
    else
      let n := nextSlot s
      let s := gapOver (s.advanceTo due)
      let s := { s with plan := { s.plan with slot := n, inslot := true } }
      slotPosts (spanWaits (layOut s x)) n x

/-- SPAN_FORMATION (R85): the span that starts at pipe p forms in 16 fabric cycles, once no member runs an activation. -/
def spanForm (s : State) (p : Nat) : State :=
  match (s.pipe p).wait with
  | none => s
  | some (b, w) =>
    let ps := (List.range (2 ^ w)).map (b + ·)
    if s.stopped || ps.any (pipeRuns s) then s
    else
      let s := s.advance (16 * s.cyc)
      ps.foldl (fun s q => s.setPipe q { s.pipe q with base := b, wlog := w, wait := none, late := false }) s

-- Misses and fixed release (R45–R48) ----------------------------------------------------------------------------------------

/-- Tenant t's activations that the monitor watches, with whether each is dispatched: those that have not completed; one
that has ended and waits for its fixed release completes with it (R45, R47). -/
def watched (s : State) (t : Nat) : List (Act × Bool) :=
  let c := (s.place t).1
  let run := match runOf s t with
    | some (_, r) => if !r.act.missed && !r.act.lent && !r.ended then [(r.act, true)] else []
    | none => []
  let out := (s.ub.lent.filter fun a => a.tenant == t && !a.missed).map fun a => (a, true)
  let q := ((s.core c).queue.filter fun a => a.tenant == t && !a.missed && !a.lent).map fun a => (a, false)
  run ++ out ++ q

/-- The watched activation with the earliest deadline. -/
def firstDue : List (Act × Bool) → Option (Act × Bool)
  | [] => none
  | x :: xs =>
    match firstDue xs with
    | some y => if y.1.deadline < x.1.deadline then some y else some x
    | none => some x

/-- Mark an activation's miss as recorded, wherever it stands. -/
def markMissed (s : State) (a : Act) : State :=
  let f (b : Act) : Act := if b.id == a.id then { b with missed := true } else b
  { s with
      ub := { s.ub with lent := s.ub.lent.map f }
      cores := s.cores.map fun (c, k) =>
        (c, { k with queue := k.queue.map f, run := k.run.map fun r => { r with act := f r.act } }) }

/-- DEADLINE_MISS (R45): the monotonic time reaches deadline − E of tenant t's first watched activation: EXPIRED once it
is dispatched, else STALE; under COUNT it goes on, and otherwise it is aborted or leaves the queue (R46, R48). -/
def deadlineMiss (s : State) (t : Nat) : State :=
  if !s.fb fDLM_CTL_EN || s.stopped then s
  else match firstDue (watched s t) with
    | none => s
    | some (a, disp) =>
      let s := s.advanceTo (fixedAt s a)
      let pol := bits (s.dl t).cfg.toNat 0 2
      if pol = 0 then miss (markMissed s a) a (if disp then 2 else 4) 0xFFFFFFFF
      else
        let s := miss s a (if disp then 2 else 4) 0xFFFFFFFF
        let s := { s with ub := { s.ub with lent := s.ub.lent.filter fun b => b.id != a.id } }
        let s := s.modCore (s.place t).1 fun k => { k with queue := k.queue.filter fun b => b.id != a.id }
        endHolds s

/-- FIXED_RELEASE (R47): at deadline − E the held outputs of tenant t's activation leave together; an activation that has
ended already completes in that instant. -/
def fixedRelease (s : State) (t : Nat) : State :=
  match runOf s t with
  | some (c, r) =>
    if (s.ctx c r.ctx).waitRel.isEmpty || r.act.lent || s.stopped then s
    else
      let s := s.advanceTo (fixedAt s r.act)
      if r.ended then complete s c
      else releaseAll (s.modCtx c r.ctx fun x => { x with waitRel := [] }) c r.ctx r.act (s.ctx c r.ctx).waitRel
  | none => s

-- Migration and loss (R105, R106) -------------------------------------------------------------------------------------------

/-- A context's state is written into the last 256 bytes of its slice (R159). -/
def saveCtx (s : State) (c k : Nat) : State :=
  trayFresh (putTrayBytes { s with fresh := s.fresh + 1 } c (16384 * k + 0x3F00)
    (leBytes 256 (Config.savedCtx s.fresh).toNat)) c (16384 * k + 0x3F00) 256

/-- The words of slice k of core c that a copy finds uncorrectable, by their place in it; single-bit errors are corrected and
counted (R76). -/
def trayErrs (s : State) (c k : Nat) : List Nat × State :=
  let lo := trayKey c (16384 * k) / 8
  let found := (s.trayEcc.filter fun e => lo ≤ e.1 && e.1 < lo + 2048).map fun e => e.1 - lo
  found.foldl (fun (bad, s) i => let (ok, s) := trayCheck s c (16384 * k + 8 * i); (if ok then bad else bad ++ [i], s)) ([], s)

/-- MIGRATION (R106, R77): tenant t's context state and Tray slice are copied unfogged to the new context; both slice
epochs advance, and the context that t leaves holds its home tenant again. A word that the copy cannot correct stays bad. -/
def migrate (s : State) (t : Nat) : State :=
  match takeOut (fun m => m.1 == t) s.plan.mig with
  | none => s
  | some ((_, src, dst), rest) =>
    let (c, k) := (src / 8, src % 8)
    let (d, j) := (dst / 8, dst % 8)
    if s.stopped || (match (s.core c).run with | some r => r.ctx == k | none => false) then s
    else
      let s := saveCtx (s.advance (2072 * s.cyc)) c k
      let (bad, s) := trayErrs s c k
      let data := trayBytes s c (16384 * k) 16384
      let x := s.ctx c k
      let old := tget 0 s.ks.slep src
      let new := tget 0 s.ks.slep dst
      let s := { s with ks := { s.ks with slep := tput (tput s.ks.slep src ((old + 1) % 2 ^ 32)) dst ((new + 1) % 2 ^ 32) } }
      let s := s.setCtx c k { Ctx.init c k with quar := false }
      let s := s.setCtx d j { x with tenant := t }
      let s := trayFresh (putTrayBytes s d (16384 * j) data) d (16384 * j) 16384
      let s := { s with trayEcc := bad.foldl (fun t i => tput t (trayKey d (16384 * j) / 8 + i) 2) s.trayEcc }
      let s := { s with plan := { s.plan with mig := rest } }
      let s := ((s.setF fSCH_MIG_TO dst).setF fSCH_MIG_FROM c).setF fSCH_MIG_TENANT t
      raise s kSCH_STAT_MIGRATE

/-- Cluster cl is lost (R104, R105): it is FAULTED, its pipes are unusable, an activation on one of them is aborted and
recorded CAP under every policy, and a migration onto it is abandoned (R108). -/
def clusterLoss (s : State) (cl : Nat) : State :=
  let s := s.setF fSCH_CAP_FAULTED (s.f fSCH_CAP_FAULTED ||| 2 ^ cl)
  let s := (List.range 4).foldl (fun s i => s.setF fVP_STAT_STATE 3 (4 * cl + i)) s
  let s := { s with plan := { s.plan with mig := s.plan.mig.filter fun m => m.2.2 / 32 != cl } }
  (List.range 32).foldl (fun s c =>
    match (s.core c).run with
    | some r =>
      if c < 4 * cl + 4 && 4 * cl < c + 2 ^ r.wlog then
        let pc := runPc s r.act
        miss (abortRun s r.act) r.act 6 0xFFFFFFFF pc
      else s
    | none => s) s

def execActivationPost (s : State) : Res := done (activationPost s)
def execDispatch (c : Core) (s : State) : Res := done (dispatch s c)
def execSlotStart (s : State) : Res := done (slotStart s)
def execSpanFormation (p : Pipe) (s : State) : Res := done (spanForm s p)
def execDeadlineMiss (t : Tenant) (s : State) : Res := done (deadlineMiss s t)
def execFixedRelease (t : Tenant) (s : State) : Res := done (fixedRelease s t)
def execMigration (t : Tenant) (s : State) : Res := done (migrate s t)

end Sys2Proof.Machine
end

