-- ==== Sys2Proof/Machine/Irq.lean ====
section
/-! DEFINITION. Interrupt delivery outside the cores, and the core registers with rows of their own (R139, R162, R195–R203,
R104). -/

namespace Sys2Proof.Machine
open Sys2Proof

/-- REQUEST_LINE (R196, R197): the released source's fixed time is over. A line that is high ends Idle, from which an entry
starts 8 cycles later (R383), and it ends a WAIT whose entry R183 forbids (R149). -/
def requestLine (s : State) (c src : Nat) : State :=
  let s := idleRelease s c
  let x := (s.core c).src src
  if !srcPending s c src then s
  else
    let s := s.advanceTo x.line
    if !lineHigh s c then s
    else
      let s := if pmState s = 1 then
          (idleExit s).modCore c fun k => { k with cyc := max k.cyc s.nowCyc + 8 }
        else s
      if (s.core c).waiting && !mayInterrupt s c then s.modCore c fun k => { k with waiting := false } else s

/-- MODERATION_RELEASE (R201): MTIME units after the first unreleased set. -/
def moderationRelease (s : State) (c src : Nat) : State :=
  let s := idleRelease s c
  let x := (s.core c).src src
  if x.cnt = 0 then s
  else releaseSrc (s.advanceTo (x.first + s.f fIC_SRC_MTIME c src * 256 * s.cyc)) c src

/-- A write of IC_SWI (R195): each bit written as 1 sets its software source. -/
def swiWrite (s : State) (c : Nat) (v : Word) : State :=
  let w := v.toNat / 2 % 2 ^ 15 * 2
  let s := s.setReg rIC_SWI c 0 (s.reg rIC_SWI c 0 ||| w32 w)
  (List.range 16).foldl (fun s n => if bit w n then countSet s c n else s) s

/-- A source of one core is withdrawn (R195). -/
def withdrawAt (s : State) (c n : Nat) : State :=
  s.modCore c fun k => match tfind k.ic.srcs n with
    | some x => k.setSrc n (x.withdrawn s.nowCyc (s.f fIC_SRC_PRIO c n))
    | none => k

/-- A write of IC_SRC (R195, R201): PRIO 0 or EN 0 withdraws the source, and a count that has reached the new MCNT, or an
MTIME of 0, releases it. -/
def srcWrite (s : State) (c n : Nat) (v : Word) : State :=
  let w := v &&& 0x8FFFFF0F#32
  if bit w.toNat 31 && bits w.toNat 0 4 != 0 then
    let s := s.setReg rIC_SRC c n w
    let x := (s.core c).src n
    if x.cnt != 0 && (max (s.f fIC_SRC_MCNT c n) 1 ≤ x.cnt || s.f fIC_SRC_MTIME c n == 0) then releaseSrc s c n else s
  else (withdrawAt s c n).setReg rIC_SRC c n w

/-- MSIX_RELEASE (R203): the vector's moderation time expires, or it turns quiet. -/
def msixRelease (s : State) (v : Nat) : State :=
  if (s.vec v).cnt = 0 then s else sendMsix (s.advanceTo (vecDue s v)) v

/-- MSIX_UNMASK (R203): the mask bit is cleared, and one message stands for the releases made meanwhile. -/
def msixUnmask (s : State) (v : Nat) : State :=
  let w := s.reg rMSIX_TABLE (4 * v + 3) 0
  let s := s.setReg rMSIX_TABLE (4 * v + 3) 0 (w &&& 0xFFFFFFFE#32)
  let p := s.reg rMSIX_PBA (v / 32) 0
  if bit p.toNat (v % 32) then postMsix (s.setReg rMSIX_PBA (v / 32) 0 (w32 (p.toNat - 2 ^ (v % 32)))) v else s

/-- A write of EZ_CTL (R163): HALT; REMAP while LOCK is 0, which acts at the next taken branch (R139). -/
def ezCtl (s : State) (c : Nat) (v : Word) : State :=
  let s := s.setF fEZ_CTL_HALT (b2n (bit v.toNat 1)) c
  if s.fb fEZ_CTL_LOCK c then s
  else (s.setF fEZ_CTL_REMAP (b2n (bit v.toNat 0)) c).setF fEZ_CTL_LOCK (b2n (bit v.toNat 31)) c

/-- A write of EZ_IDATA (R162): the word lands and the address advances, or a busy window refuses it. -/
def ezIdata (s : State) (c : Nat) (v : Word) : State :=
  let w := s.f fEZ_IADDR_WORD c
  if imemBusy s c w then raise s kEZ_STAT_IWREF c
  else digestBusy ((putImem s c w v.toNat).setF fEZ_IADDR_WORD (w + 1) c)

/-- Deferred registers that no proof section holds (R358): KS_EXP and UB_LEND. -/
def noDigest (k : Nat) : Bool := (0xA03000 ≤ k && k < 0xA04000) || k == 0xE00018

/-- A write of a register that takes effect at the next plan boundary (R36): it reads back at once, and its digests
are unfinished (R358). -/
def deferWrite (s : State) (r : Reg) (i j : Nat) (v : Word) : State :=
  let k := r.key i j
  let s := { s.setReg r i j v with newRegs := (s.newRegs.filter (· != k)) ++ [k] }
  if noDigest k then s else digestBusy s

/-- A write of EZ_XCFG (R181, R190): the trap enables, and QREL, which reads 1 until the boundary. -/
def ezXcfg (s : State) (c k : Nat) (v : Word) : State :=
  let old := s.reg rEZ_XCFG c k
  deferWrite s rEZ_XCFG c k ((v &&& 0x8000003F#32) ||| (old &&& 0x80000000#32))

/-- A write of SCH_CAP (R104, R109): RETURN acts in MAINTENANCE only. -/
def schCap (s : State) (v : Word) : State :=
  if s.maint then s.setF fSCH_CAP_RETURN (s.f fSCH_CAP_RETURN ||| bits v.toNat 16 8) else s

def execRequestLine (c : Core) (src : Fin 1024) (s : State) : Res := done (requestLine s c src)
def execModerationRelease (c : Core) (src : Fin 1024) (s : State) : Res := done (moderationRelease s c src)
def execIcSwi (c : Core) (v : Word) (s : State) : Res := done (swiWrite s c v)
def execIcSrc (c : Core) (src : Fin 1020) (v : Word) (s : State) : Res := done (srcWrite s c src v)
def execMsixRelease (vec : Fin 256) (s : State) : Res := done (msixRelease s vec)
def execMsixUnmask (vec : Fin 256) (s : State) : Res := done (msixUnmask s vec)
def execEzCtl (c : Core) (v : Word) (s : State) : Res := done (ezCtl s c v)
def execEzIdata (c : Core) (v : Word) (s : State) : Res := done (ezIdata s c v)
def execEzXcfgQrel (c : Core) (k : Fin 8) (v : Word) (s : State) : Res := done (ezXcfg s c k v)
def execSchCapReturn (v : Word) (s : State) : Res := done (schCap s v)

end Sys2Proof.Machine
end

