-- ==== Sys2Proof/Machine/Plate.lean ====
section
/-! DEFINITION. Sheets and their owners, the scrubbers, the Plate debug window, and the DRAM controller (R62–R75,
R370–R379, R452). -/

namespace Sys2Proof.Machine
open Sys2Proof

-- Ownership (R64–R66) -------------------------------------------------------------------------------------------------------

/-- Some map entry, in effect or waiting, names the sheet with V = 1 (R65). -/
def sheetMapped (s : State) (sheet : Nat) : Bool :=
  let names (t : Tab Word) : Bool := t.any fun (k, v) =>
    rSHM_MAP.base ≤ k && k < rSHM_MAP.base + 257 * 256 && bit v.toNat 31 && bits v.toNat 0 9 == sheet
  names (s.regs.filter fun (k, _) => s.newRegs.contains k) || names s.eff

/-- The reason for which a write of SHM_OWNER is refused, 0 where it starts a handover (R65, R78, SHM_LASTREF). -/
def ownerReason (s : State) (sheet o : Nat) : Nat :=
  if s.f fSHM_OWNER_STATE sheet != 0 then 2
  else if 0x100 < o && o < 0x1FF then 3
  else if (s.reg rSHM_EPOCH sheet 0).toNat = 0xFFFFFFFF then 4
  else if sheetMapped s sheet then 1
  else 0

/-- A write of SHM_OWNER (R65, R66): the handover waits in the value in effect, or is refused. -/
def shmOwner (s : State) (sheet : Nat) (v : Word) : State :=
  let o := v.toNat % 512
  let r := ownerReason s sheet o
  if r != 0 then
    raise ((s.setF fSHM_LASTREF_REASON r).setF fSHM_LASTREF_SHEET sheet) kSHM_STAT_REFUSED
  else (s.setF fSHM_OWNER_STATE 1 sheet).setEff rSHM_OWNER sheet 0 (w32 o)

/-- HANDOVER_COMPLETE (R66): owner, epoch and seed change at one instant, within 96 fabric cycles. With an epoch advance
of the new owner under way, the seed uses the new CNT (R363). -/
def handoverComplete (s : State) (sheet : Nat) : State :=
  if s.f fSHM_OWNER_STATE sheet = 0 then s
  else
    let s := s.advance (96 * s.cyc)
    let s := sampleDue s s.nowCyc
    let o := s.e fSHM_OWNER_OWNER sheet
    let ep := (s.reg rSHM_EPOCH sheet 0).toNat + 1
    let s := s.setReg rSHM_OWNER sheet 0 (w32 o)
    let s := s.setReg rSHM_EPOCH sheet 0 (w32 ep)
    let t :=
      if s.ks.adv.contains o then tput s.ks.seed sheet (seedFrom s (keyAt s o (cntOf s o)) sheet ep)
      else tdel s.ks.seed sheet
    raise { s with ks := { s.ks with seed := t } } kSHM_STAT_DONE

-- Scrubbers (R73, R74) ------------------------------------------------------------------------------------------------------

/-- The physical word address in row r of active bank b: the inverse of R57's hash. -/
def bankWord (b r : Nat) : Nat := 32768 * (r / 32) + 1024 * (r % 32) + Nat.xor b (r % 32 * 33)

/-- SCRUB (R73): a bank's scrubber reads one row and corrects or poisons its word; a word already poisoned is counted
as a set of UE only (R74; log entry 63). Banks 1024–1055 are the groups' spares, which hold no word of their own. -/
def scrub (s : State) (bank row : Nat) : State :=
  if !s.fb fPLT_CTL_SCRUB || 1024 ≤ bank || !domOn s (8 + bank / 256) || 2 ≤ pmState s then s
  else
    let wa := bankWord bank row
    if s.poison.contains wa then raise s kPLT_STAT_UE else (plateCheck s wa 3).2

-- BAR2 (R452) -----------------------------------------------------------------------------------------------------------------

/-- A host access to the Plate debug window. -/
def bar2 (s : State) (wr : Bool) (addr size : Nat) (data : DWord) : State :=
  let sheet := addr / 0x40000
  if !s.maint || !(size = 4 || size = 8) || addr % size != 0 then { s with resp := .ur }
  else if 384 ≤ sheet || s.f fSHM_OWNER_OWNER sheet = 0x1FF || sheetHeld s sheet then { s with resp := .ca }
  else
    let wa := 32768 * sheet + addr % 0x40000 / 8
    if quadFailed s wa then raise { s with resp := .ca } kMX_STAT_DECERR
    else if wr then
      let (_, s) := plateWritePhys (sampleDue s s.nowCyc) wa (addr % 8) size data.toNat 2
      { s with resp := .data [] }
    else
      match plateReadPhys s wa (addr % 8) size 2 with
      | (.ok v, s) => { s with resp := .data (leBytes size v) }
      | (.error _, s) => { s with resp := .poisoned }

-- The Loupe (R225, R370, R371, R406) -------------------------------------------------------------------------------------------

/-- The Loupe's own access is offered in BLANK, TEST and MAINTENANCE (R406). -/
def loupeOpen (s : State) : Bool := s.lc == 0 || s.lc == 1 || s.lc == 4

/-- A write of the Loupe to context k of core c (R225): in the main pass of a section it is logged with the count of
retired instructions, and a 65th is refused. -/
def loupeContext (s : State) (c k : Nat) (w : LWrite) : State :=
  match (s.ctx c k).sec with
  | some x =>
    if x.neg then loupeWrite s c k w
    else if 64 ≤ x.llog.length then { s with resp := .err }
    else loupeWrite (modSec s c k fun y => { y with llog := y.llog ++ [(y.retired, w)] }) c k w
  | none => loupeWrite s c k w

/-- The Loupe at core c. Masks and v registers belong to the span, which only the dispatched context has; an element of a v
register is written in the class of the type that the request names (R214; log entry 128). -/
def loupeCore (s : State) (c : Nat) (op : LoupeCoreOp) : State :=
  let set (f : LoupeSt → LoupeSt) : State := s.modCore c fun y => { y with loupe := f y.loupe }
  match op with
  | .halt => set fun l => { l with halt := true }
  | .go => set fun l => { l with halt := false, go := true }
  | .setBreak pc => set fun l => { l with bps := l.bps.filter (· != pc) ++ [pc] }
  | .clearBreak pc => set fun l => { l with bps := l.bps.filter (· != pc) }
  | .reg k n v => loupeContext s c k (.reg n v)
  | .mask k m v => if vOwner s c == some k.val then loupeContext s c k (.mask m v.toNat) else s
  | .vreg k r ty e v =>
    let n := tySize ty.toNat
    if vOwner s c == some k.val && n * (e + 1) ≤ 64 * 2 ^ spanLog s c then
      loupeContext s c k (.vreg r.toNat (n * e) n (tyCls ty.toNat) v.toNat)
    else s
  | .vcount k v => loupeContext s c k (.vcount v)
  | .group k g => loupeContext s c k (.group (2 ^ g.val))
  | .tray w v => trayFresh (putTrayBytes s c (8 * w) (leBytes 8 v.toNat)) c (8 * w) 8

/-- The Loupe meets a domain that is not ON (R389, R392): it is answered with an error, or once its request is made again. -/
def loupeWaits (s : State) (d : Nat) : State :=
  let stalls := domStalls s d
  let s := demandWake s d false
  { s with resp := if stalls then .stalled else .err }

/-- LOUPE_REQUEST: the Loupe preempts a Plate bank, or acts at a core, and sets MX_STAT.LOUPE (R371, R406). In any other
lifecycle state the request is ignored and sets BI_STAT.GATED (R406). A sheet in its handover refuses the write (R66); a
word of an unowned sheet is fogged like any other's, with a seed for owner 0x1FF, which the manual leaves open (log entry
127). -/
def loupe (s : State) (op : LoupeOp) : State :=
  if !loupeOpen s then raise s kBI_STAT_GATED
  else if !domOn s 19 then loupeWaits s 19
  else match op with
  | .bank _ => raise s kMX_STAT_LOUPE
  | .plate sheet w v =>
    let s := raise s kMX_STAT_LOUPE
    let wa := 32768 * sheet.val + w.val
    let q := 8 + bankOf (wa % 32768) / 256
    if !domOn s q then loupeWaits s q
    else if sheetHeld s sheet then { s with resp := .err }
    else { (plateWritePhys (sampleDue s s.nowCyc) wa 0 8 v.toNat 5).2 with resp := .data [] }
  | .core c op => loupeCore { raise (catchUp s c) kMX_STAT_LOUPE with resp := .data [] } c op

-- DRAM (R370, R378, R379) -----------------------------------------------------------------------------------------------------

/-- A write of DDR_CTL (R379): INIT starts initialisation and training, and is ignored with a failed PLL (R401). -/
def ddrCtl (s : State) (v : Word) : State :=
  let s := if s.fb fDDR_CTL_LOCK then s
    else (s.setF fDDR_CTL_SCRUBEN (b2n (bit v.toNat 1))).setF fDDR_CTL_LOCK (b2n (bit v.toNat 31))
  if bit v.toNat 0 && !s.bist.dram then (s.setF fDDR_STATE_STATE 1).setF fDDR_CTL_INIT 1 else s

/-- TRAINING_END (R379): INIT falls, and the first pass of patrol scrub begins. -/
def trainingEnd (s : State) (ok : Bool) : State :=
  if s.f fDDR_STATE_STATE != 1 then s
  else
    let s := s.setF fDDR_CTL_INIT 0
    if ok then
      { (s.setF fDDR_STATE_STATE 2).setF fDDR_STATE_SIZE (dramGiB (s.reg rDDR_CFG 0 0)) with patrol := 0, patrolAt := s.now }
    else raise (s.setF fDDR_STATE_STATE 3) kDDR_STAT_TRAINFAIL

/-- A pass of patrol scrub over every unit, in timebase units (R378, R381: 1–255 h). -/
def patrolU (s : State) : Nat := max 1 (s.f fDDR_SCRUB_HOURS) * 3600 * sec * nsU

/-- PATROL_SCRUB (R378): the next unit is read when its turn in the pass of HOURS hours comes; a corrected one is written back
and an uncorrectable one counted. -/
def patrolScrub (s : State) : State :=
  if !dramReady s || !s.fb fDDR_CTL_SCRUBEN || !domOn s 16 || 2 ≤ pmState s then s
  else
    let u := s.patrol
    let n := s.f fDDR_STATE_SIZE * 2 ^ 24
    let s := (dramCheck (domUsed (s.advanceTo (s.patrolAt + u * patrolU s / n)) 16) u).2
    if u + 1 < n then { s with patrol := u + 1 } else { s with patrol := 0, patrolAt := s.patrolAt + patrolU s }

/-- TEMPHI (R375): the case passes 85 °C, or falls back below it. -/
def tempHi (s : State) (hot : Bool) : State :=
  let up := hot && !s.ddrHot
  raiseIf up { s with ddrHot := hot } kDDR_STAT_TEMPHI

/-- tREFI in timebase units: 7.8 µs for DDR4 and 3.9 µs for DDR5, halved above 85 °C (R375; the two values are
PRESUMED from the JEDEC standards). -/
def refreshU (s : State) : Nat :=
  (if s.fb fDDR_CFG_TYPE then 3900 else 7800) * nsU / (if s.ddrHot then 2 else 1)

/-- REFRESH (R370, R375): the next refresh falls due and takes the arbiter; the transfer it preempts keeps its grant. -/
def refresh (s : State) : State :=
  if dramReady s && domOn s 16 && pmState s < 2 then s.advanceTo ((s.now / refreshU s + 1) * refreshU s) else s

def execShmOwner (sheet : Fin 384) (v : Word) (s : State) : Res := done (shmOwner s sheet v)
def execHandoverComplete (sheet : Fin 384) (s : State) : Res := done (handoverComplete s sheet)
def execScrub (bank : Fin 1056) (row : Fin 12288) (s : State) : Res := done (scrub s bank row)
def execBar2Access (wr : Bool) (addr size : Nat) (data : DWord) (s : State) : Res := done (bar2 s wr addr size data)
def execLoupeRequest (op : LoupeOp) (s : State) : Res := done (loupe s op)
def execRefresh (s : State) : Res := done (refresh s)
def execPatrolScrub (s : State) : Res := done (patrolScrub s)
def execDdrCtlInit (v : Word) (s : State) : Res := done (ddrCtl s v)
def execTrainingEnd (ok : Bool) (s : State) : Res := done (trainingEnd s ok)
def execTemphi (hot : Bool) (s : State) : Res := done (tempHi s hot)

end Sys2Proof.Machine
end

