-- ==== Sys2Proof/Machine/Power.lean ====
section
/-! DEFINITION. Resets, device states, power domains and the backup cell (R316, R382–R398, R400, R408, R437, R438). -/

namespace Sys2Proof.Machine
open Sys2Proof

-- Resets (R385, R398, R437) -------------------------------------------------------------------------------------------------

/-- Registers of the VBAT island (PM, BT), of Safelight with BI_BUDGET, of the lifecycle, and of the sheet maps, by
storage key. -/
def keyPm (k : Nat) : Bool := 0xC00000 ≤ k && k < 0xC20000
def keySl (k : Nat) : Bool := (0xF00000 ≤ k && k < 0xF01000) || (0xD00040 ≤ k && k < 0xD00080)
def keyLc (k : Nat) : Bool := 0xA04000 ≤ k && k < 0xA04200
def keyShm (k : Nat) : Bool := 0x102000 ≤ k && k < 0x114300

/-- A station time as the RTC holds it, at 1/32,768 s (R316). -/
def rtcTime (t : Nat) : Nat := t * 32768 / sec * sec / 32768

/-- The start of the next default period: a whole millisecond (R38). -/
def nextMs (t : Nat) : Nat := (t / 1000000 + 1) * 1000000

/-- Everything but the registers that `keep` names, the Vault with what it holds, and what lies outside the device
returns to its reset value; station time loads from the RTC, and the monotonic timebase is aligned to it (R43); nonce
and challenge are new. -/
def baseReset (s : State) (keep : Nat → Bool) : State :=
  let (n, s) := s.draw
  let (c, s) := s.draw
  let t := rtcTime s.tai
  let m := t * nsU
  { State.reset with
      clk := { Clock.init with mono := m, tai := t, slow := s.clk.slow }
      regs := s.regs.filter fun e => keep e.1
      fresh := s.fresh
      dram := s.dram, dramEcc := s.dramEcc, vault := s.vault, slimg := s.slimg, host := s.host
      plan := { PlanSt.init with next := nextMs t, began := t, beganM := m }
      hi := { HostSt.init with perst := s.hi.perst }
      ks := { KsSt.init with
        gen := s.ks.gen, cnt := s.ks.cnt, nonce := n.toNat, fuse := s.ks.fuse, maint := s.ks.maint, cprog := s.ks.cprog
        crev := s.ks.crev, chash := s.ks.chash, chal := c, wipe := s.ks.wipe.map fun w => (w.1 + m - s.now, w.2), offTamp := s.ks.offTamp }
      keys := s.keys
      pm := { PmSt.init with idleAt := m }
      mxRead := (List.range 5).map fun t => (t, m)
      bist := { BistSt.init with start := m, replace := s.bist.replace }
      sl := { SlSt.init with logN := s.sl.logN, logNx := s.sl.logNx }
      ddrHot := s.ddrHot
      pending := s.pending }

/-- What kept registers show after a reset: locks are clear (R398, R415, R363), the device is in Run, no request is
pending, a sealed log is held (R412), and FAULTED domains stay off with their clusters lost (R392). -/
def keptFix (s : State) : State :=
  let s := (((s.setF fPM_CTL_LOCK 0).setF fSL_CTL_LOCK 0).setF fSL_WDOG_EN 0).setF fLC_TAMPCFG_LOCK 0
  let s := s.setF fSL_STATE_STOPBATH 0
  let s := if s.f fSL_STATE_LOG = 1 then s.setF fSL_STATE_LOG 2 else s
  let s := (s.setF fPM_STATE_STATE 0).setF fPM_REQ_PEND 0
  let s := (List.range 20).foldl (fun s d => if domFaulted s d then s else s.setF fPM_DOM_STATE 0 d) s
  (List.range 8).foldl (fun s d => if domFaulted s d then clusterLoss s d else s) s

/-- The straps are sampled (R438). -/
def sampleStraps (s : State) (straps : Nat) : State :=
  let slow := Config.gradeAL || bit straps 2
  let s := { s with clk := { s.clk with slow := slow } }
  let s := (s.setF fGL_STRAP_GRADE (b2n Config.gradeAL)).setF fGL_STRAP_CLK (b2n slow)
  (s.setF fGL_STRAP_DERATE (b2n (bit straps 2))).setF fGL_STRAP_PCIEGEN (straps % 4)

/-- RESET_N (R437): as a power-up, but the Safelight, PM and BT registers, BI_BUDGET and the Vault keep their values. -/
def resetPin (s : State) (straps : Nat) : State :=
  if pmState s = 4 then s
  else sampleStraps (keptFix (baseReset s fun k => keyPm k || keySl k)) straps

/-- POWER_ON_RESET (R437): reset is released 1 ms after the rails are good. The VBAT island's registers stand unless VBAT
was lost, and after Off the Safelight and LC registers too (R385, R398); an enabled charger starts with the supply (R394);
without VBAT the Vault is lost and wiped
(R352, R396). -/
def powerOn (s : State) (straps : Nat) (vbatOk : Bool) : State :=
  let off := pmState s = 4
  let s := s.advance (1000000 * nsU)
  let s := baseReset s fun k => vbatOk && (keyPm k || (off && (keySl k || keyLc k)))
  let s := sampleStraps (keptFix s) straps
  let s := if s.fb fBT_CFG_EN && s.f fBT_STATE_CHG = 0 then s.setF fBT_STATE_CHG 1 else s
  if vbatOk then
    match s.ks.offTamp with
    | some src => tamperMark { s with ks := { s.ks with offTamp := none } } src
    | none => s
  else
    let s := { s with vault := [], keys := [], sl := { s.sl with logN := 0, logNx := 0 }
                      ks := { s.ks with cnt := [], maint := false, offTamp := none } }
    raise (startWipe s none) kLC_STAT_VAULTLOST

/-- A context's state as a wake from Deep sleep restores it from its slice (R157, R385): its registers, VCOUNT, g, the mask
level, and CT, STRICT and DL. -/
def restoredCtx (k : Nat) (x : Ctx) : Ctx :=
  { Ctx.init (k / 8) (k % 8) with
      tenant := x.tenant, thr := { Thr.init with r := x.thr.r }
      vcount := x.vcount, vceil := x.vceil, g := x.g, ml := x.ml, ct := x.ct, strict := x.strict, dl := x.dl }

/-- The fault records, which a wake from Deep sleep restores with the contexts (R157). -/
def keyVf (k : Nat) : Bool := 0x201000 ≤ k && k < 0x202000

/-- A core as it leaves reset (R139). -/
def coreStarts (s : State) : CoreSt := { CoreSt.init with held := false, cyc := s.nowCyc, waiting := false }

/-- The reset that ends Deep sleep (R385, R387). -/
def deepWake (s : State) : State :=
  let ret := s.fb fPM_PLATE_RET_RET
  let old := s
  let s := baseReset s fun k => keyPm k || keySl k || keyLc k || keyVf k || (ret && keyShm k)
  let s := if ret then
      { s with plate := old.plate, plateEcc := old.plateEcc, poison := old.poison
               eff := old.eff.filter fun e => keyShm e.1
               ks := { s.ks with nonce := old.ks.nonce, seed := old.ks.seed } }
    else s
  let s := { s with
    tray := old.tray, trayEcc := old.trayEcc
    ctxs := old.ctxs.map fun e => (e.1, restoredCtx e.1 e.2)
    plan := { s.plan with homes := old.plan.homes }
    ks := { s.ks with slep := old.ks.slep }
    bist := { s.bist with running := false, crit := old.bist.crit, time := old.bist.time, sensors := old.bist.sensors, pcie := old.bist.pcie,
                          dram := old.bist.dram, unus := old.bist.unus } }
  let s := (keptFix s).setReg rGL_STRAP 0 0 (old.reg rGL_STRAP 0 0)
  -- what has failed stays failed (R401), though the registers that showed it are reset
  let s := (List.range 8).foldl (fun s cl => if bit (unitBad old fBI_UNUSABLE_CL) cl then clusterLoss s cl else s) s
  let s := if old.bist.dram then s.setF fDDR_STATE_STATE 3 else s
  { s with cores := (List.range 32).map fun c => (c, coreStarts s) }

-- Replacement (R408) --------------------------------------------------------------------------------------------------------

/-- REPLACE is set, and a device notice posted. -/
def setReplace (s : State) : State := notice { s with bist := { s.bist with replace := true } } 46 0 128 0

-- Device states (R382–R387) -----------------------------------------------------------------------------------------------

/-- Every core that could issue is in WAIT (R384). -/
def allWaiting (s : State) : Bool :=
  (List.range 32).all fun c =>
    let k := s.core c
    k.waiting || k.stopped || k.held || s.fb fEZ_CTL_HALT c || s.f fVP_STAT_STATE c == 3 || s.f fPM_DOM_STATE (c / 4) == 4

/-- A write of PM_REQ (R384). -/
def pmReq (s : State) (v : Word) : State :=
  let t := v.toNat % 8
  let s := s.setF fPM_REQ_TARGET t
  if !bit v.toNat 31 then s
  else if s.fb fSCH_CTL_EN || s.stopped || !(t == 2 || t == 3 || t == 4) || s.pm.entry.isSome then
    raise s kPM_STAT_REQREF
  else { s.setF fPM_REQ_PEND 1 with pm := { s.pm with entry := some (t, 0) } }

/-- Entry times (R384). -/
def entryNs (t : Nat) : Nat := if t = 2 then 2000 else if t = 3 then 400000 else 420000

/-- SLEEP_ENTRY (R384): the last core still issuing has entered WAIT; the request is taken. -/
def sleepEntry (s : State) : State :=
  match s.pm.entry with
  | some (t, 0) =>
    if allWaiting s then { s with pm := { s.pm with entry := some (t, s.now + entryNs t * nsU) } } else s
  | _ => s

/-- ENTRY_COMPLETE (R384, R435): contexts are saved before Deep sleep and Off, their domains go off and the links with them,
and Off pulls PWREN low. -/
def entryComplete (s : State) : State :=
  match s.pm.entry with
  | some (t, due) =>
    if due = 0 then s
    else
      let s := s.advanceTo due
      let s := { (s.setF fPM_STATE_STATE t).setF fPM_REQ_PEND 0 with pm := { s.pm with entry := none } }
      -- in Sleep the port groups stop, and with them PTP (R316)
      if t = 2 then reselect (setQual { s with tu := { s.tu with ptpGm := none, ptpSync := none, ptpErb := [], ptpAnn := [] } } 0 false)
      else
        let s := (List.range 256).foldl (fun s i => saveCtx s (i / 8) (i % 8)) s
        let s := (List.range 20).foldl (fun s d => if domFaulted s d then s else s.setF fPM_DOM_STATE 3 d) s
        let s := (List.range 12).foldl (fun s p => if linkUp s p then s.setF fEP_LINK_UP 0 p else s) s
        { s with pm := { s.pm with pwren := t != 4 }, clk := { s.clk with corr := 0 } }
  | none => s

/-- Every WAIT ends (R385, R386). -/
def endWaits (s : State) : State :=
  { s with cores := s.cores.map fun (c, k) => (c, { k with waiting := false, cyc := max k.cyc s.nowCyc }) }

/-- A request is dropped by a wake that wins (R386, R397). -/
def sleepAbort (s : State) (taken : Bool) : State :=
  let s := { s.setF fPM_REQ_PEND 0 with pm := { s.pm with entry := none } }
  let s := if taken then endWaits s else s
  raise s kPM_STAT_SLEEP_ABORT

/-- The next instant at which station time's seconds [31:0] reach PM_ALARM (R385). -/
def alarmAt (s : State) : Nat :=
  let a := s.f fPM_ALARM_S
  let n := taiSec s.tai
  let t := n / 2 ^ 32 * 2 ^ 32 + a
  (if t < n then t + 2 ^ 32 else t) * sec

/-- The device is awake again: the flag, the source, and boundaries from the next aligned instant on. -/
def woken (s : State) (src : Nat) : State :=
  let s := { s with plan := { s.plan with next := max s.plan.next ((s.tai / s.plan.period + 1) * s.plan.period) } }
  raise (s.setF fPM_WAKESRC_SRC (2 ^ src)) kPM_STAT_WAKE

/-- WAKE (R385, R386, R435): sources 0 WAKE_N, 1 alarm, 2 PCIe, 3 IRQ. -/
def wake (s : State) (src : Nat) : State :=
  if !bit (s.f fPM_WAKECFG_EN) src || (src == 1 && s.f fPM_ALARM_S == 0) || s.stopped then s
  else match s.pm.entry with
    | some (_, due) =>
      if src = 1 && due ≠ 0 && due < s.now + (alarmAt s - s.tai) * nsU then s
      else sleepAbort (if src = 1 then s.advanceTai (alarmAt s) else s) (due != 0)
    | none =>
      let at1 := fun (s : State) => if src = 1 then s.advanceTai (alarmAt s) else s
      if pmState s = 2 then woken (endWaits (((at1 s).advance (50000 * nsU)).setF fPM_STATE_STATE 0)) src
      else if pmState s = 3 && src < 2 then
        let s := at1 s
        woken (deepWake (s.advance ((if s.fb fPM_PLATE_RET_RET then 190000 else 150000) * nsU))) src
      else if pmState s = 4 && src = 0 && !s.pm.pwren then
        flagOn { (s.advance (10000 * nsU)).setF fPM_WAKESRC_SRC 1 with pm := { s.pm with pwren := true } } kPM_STAT_WAKE
      else s

/-- IDLE_ENTRY (R383): every core idle and no activation queued for PM_IDLE.TIMER fabric cycles. -/
def idleEntry (s : State) : State :=
  let cs := (List.range 32).filter fun c => coreUp s c
  if !s.fb fPM_CTL_IDLEEN || pmState s != 0 || s.stopped || !s.postq.isEmpty ||
      cs.any (fun c => !(s.core c).idle || !(s.core c).queue.isEmpty) then s
  else
    let since := cs.foldl (fun m c => max m ((s.core c).cyc * s.cyc)) s.pm.idleAt
    (s.advanceTo (since + s.f fPM_IDLE_TIMER * s.cyc)).setF fPM_STATE_STATE 1

-- Domains (R388–R392) -----------------------------------------------------------------------------------------------------------

/-- Every sheet is unowned (R388). -/
def noSheets (s : State) : Bool := (List.range 384).all fun i => s.f fSHM_OWNER_OWNER i == 0x1FF && s.f fSHM_OWNER_STATE i == 0

/-- A context with DL = 0 is dispatched with a DRAM window (R390). -/
def dramWork (s : State) : Bool :=
  s.cores.any fun (c, k) => match k.run with
    | some r => !(s.ctx c r.ctx).dl && s.e fTN_DRAM_V r.act.tenant == 1
    | none => false

/-- Domain d + 1 is pinned (R390). -/
def pinned (s : State) (d : Nat) : Bool :=
  (match curPlan s with | some p => bit p.pins.toNat d | none => false) ||
  (8 ≤ d && d < 12 && !noSheets s) || (d == 16 && dramWork s)

/-- What R388 asks before domain d + 1 may gate itself. -/
def gateable (s : State) (d : Nat) : Bool :=
  if d < 8 then
    (List.range 4).all fun i =>
      let k := s.core (4 * d + i)
      k.idle && k.queue.isEmpty
  else if d < 12 then noSheets s
  else if d = 14 then (List.range 6).all fun i => !portEn s (6 + i)
  else if d = 15 then !s.fb fUB_CTL_EN
  else d == 16 || d == 17 || d == 19

/-- What a domain without power does not keep (R388): a cluster's vector registers, masks and tanks, a quadrant's words, and
of any other the registers and the work of its blocks (R11). The seeds are held in the quadrants, keys in the Vault, and the DRAM
devices keep their contents and their training in self-refresh. -/
def gateLoss (s : State) (d : Nat) : State :=
  let s := if d < 12 ∨ d = 16 then s else dropRegs s d
  if d < 8 then (List.range 4).foldl (fun s i => clearSpan s (4 * d + i) 0) s
  else if 8 ≤ d ∧ d < 12 then
    let mine (w : Nat) : Bool := bankOf (w % 32768) / 256 == d - 8
    { s with plate := s.plate.filter fun e => !mine (e.1 / 8)
             plateEcc := s.plateEcc.filter fun e => !mine e.1
             poison := s.poison.filter fun w => !mine w }
  else if d = 12 then
    { s with points := [], ptcfg := [], ptq := [], evq := [], pubq := [], latchH := none, latchS := none
             plan := PlanSt.init, postq := [], dlm := [], hi := { HostSt.init with perst := s.hi.perst } }
  else if d = 13 then
    -- with the control store and its images (R265)
    { s with store := [], storeEcc := [], shadow := [], newImg := [], verify := none, lanes := []
             ports := s.ports.filter fun e => 6 ≤ e.1, pairs := s.pairs.filter fun e => 3 ≤ e.1
             ks := { s.ks with vendor := [], customer := [], custOld := [] } }
  else if d = 14 then
    { s with lanes := s.lanes.filter fun e => e.1 < 6, ports := s.ports.filter fun e => e.1 < 6
             pairs := s.pairs.filter fun e => e.1 < 3 }
  else if d = 15 then { s with ub := UbSt.init }
  else if d = 17 then { s with ks := { s.ks with proof := [], heard := [], root := 0, bcnSeq := 0 } }
  else if d = 18 then { s with tu := TuSt.init }
  else if d = 19 then { s with cores := s.cores.map fun (c, k) => (c, { k with loupe := LoupeSt.init }) }
  else s

/-- The last access to a domain or work of its own (R389); a cluster's cores work until they are idle. -/
def lastUsed (s : State) (d : Nat) : Nat :=
  let t := tget 0 s.pm.usedAt d
  if d < 8 then (List.range 4).foldl (fun m i => max m ((s.core (4 * d + i)).cyc * s.cyc)) t else t

/-- DOMAIN_GATE (R389): TIMER µs without an access. -/
def domainGate (s : State) (d : Nat) : State :=
  if s.f fPM_DOM_STATE d != 0 || !s.fb fPM_DOM_AUTO d || pinned s d || !gateable s d || 2 ≤ pmState s then s
  else
    let s := s.advanceTo (lastUsed s d + s.f fPM_DOM_TIMER d * 1000 * nsU)
    gateLoss (s.setF fPM_DOM_STATE 1 d) d

/-- A plan boundary that pins a gated domain wakes it (R397). -/
def wakePinned (s : State) : State :=
  (List.range 20).foldl (fun s d => if s.f fPM_DOM_STATE d == 1 && pinned s d then startRamp s d else s) s

/-- RAMP_STEP (R391): the next of the 8 header-switch steps closes, 2 µs after the last. -/
def rampStep (s : State) (d : Nat) : State :=
  let n := tget 0 s.pm.ramp d
  if s.f fPM_DOM_STATE d = 2 ∧ n < 8 then
    let s := s.advanceTo (tget 0 s.pm.usedAt d + 2000 * n * nsU)
    { s with pm := { s.pm with ramp := tput s.pm.ramp d (n + 1) } }
  else s

/-- DOMAIN_ON (R388). -/
def domainOn (s : State) (d : Nat) : State :=
  if s.f fPM_DOM_STATE d = 2 ∧ tget 0 s.pm.ramp d = 8 then
    let s := s.advanceTo (tget 0 s.pm.usedAt d + wakeNs d * nsU)
    { s.setF fPM_DOM_STATE 0 d with pm := { s.pm with usedAt := tput s.pm.usedAt d s.now } }
  else s

/-- SWITCH_OPEN (R391, R392): a ramp that is slow or draws too much, or a rail that drops while the domain is ON. The accesses
that stall end with an error. -/
def switchOpen (s : State) (d : Nat) (why : FCause) : State :=
  let st := s.f fPM_DOM_STATE d
  let code := match why with | .slow => 1 | .inrush => 2 | .railDrop => 3
  if !(if code = 3 then st = 0 else st = 2) || 3 ≤ pmState s then s
  else
    let s := if code = 1 then s.advanceTo (tget 0 s.pm.usedAt d + 32000 * nsU) else s
    let s := (s.setF fPM_DOM_STATE 4 d).setF fPM_DOM_FCAUSE code d
    let s := raise s kPM_STAT_SSFAULT
    let s := raiseIf (st == 2) s kMX_STAT_DECERR
    let s := if s.pm.stall.any fun x => x.dom == d then
        { s with resp := .err, pm := { s.pm with stall := s.pm.stall.filter fun x => x.dom != d } }
      else s
    setReplace (gateLoss (if d < 8 then clusterLoss s d else s) d)

/-- A write of PM_DOM (R392): CLRFLT acts in MAINTENANCE, and the domain ramps at its next access. -/
def pmDom (s : State) (d : Nat) (v : Word) : State :=
  let s := (s.setF fPM_DOM_AUTO (b2n (bit v.toNat 30)) d).setF fPM_DOM_TIMER (v.toNat % 65536) d
  if bit v.toNat 31 && s.maint && domFaulted s d then s.setF fPM_DOM_STATE 1 d else s

-- The backup cell (R393–R396) --------------------------------------------------------------------------------------------------------

/-- The Safelight supply is good. -/
def slSupply (s : State) : Bool := pmState s != 4

/-- VCV in mV. -/
def vcvMv (s : State) : Nat := 2800 + 50 * s.f fBT_CFG_VCV

def setChg (s : State) (n mv : Nat) : State := (s.setF fBT_STATE_CHG n).setF fBT_STATE_VBAT mv

/-- VBAT_TAKEOVER (R393): the main supply is gone; the VBAT island keeps the Vault, the RTC and the mesh. -/
def vbatTakeover (s : State) (mv : Nat) : State :=
  if !slSupply s then s
  else
    let s := baseReset s keyPm
    let s := { setChg (s.setF fPM_STATE_STATE 4) 0 mv with bist := { s.bist with start := s.now } }
    (List.range 20).foldl (fun s d => if domFaulted s d then s else s.setF fPM_DOM_STATE 3 d)
      (s.setF fPM_REQ_PEND 0)

/-- A write of BT_CFG (R394, R398, R401): EN with a code outside its range, or with a failed charger, is ignored. -/
def btCfg (s : State) (v : Word) : State :=
  let w := v.toNat
  let ok := bits w 8 4 ≤ 12 && 1 ≤ w % 32 && w % 32 ≤ 20 && unitBad s fBI_UNUSABLE_CHG = 0
  let en := bit w 31 && ok
  let s := s.setReg rBT_CFG 0 0 ((v &&& 0x00003F1F#32) ||| (if en then 0x80000000#32 else 0))
  if en then (if s.f fBT_STATE_CHG = 0 then s.setF fBT_STATE_CHG 1 else s) else s.setF fBT_STATE_CHG 0

/-- CONSTANT_VOLTAGE (R394). -/
def constVoltage (s : State) : State := if s.f fBT_STATE_CHG = 1 ∧ slSupply s then setChg s 2 (vcvMv s) else s
/-- CHARGE_DONE (R394). -/
def chargeDone (s : State) : State :=
  if s.f fBT_STATE_CHG = 2 ∧ slSupply s then raise (s.setF fBT_STATE_CHG 3) kBT_STAT_DONE else s
/-- RECHARGE (R394): VBAT is 100 mV below VCV. -/
def recharge (s : State) (mv : Nat) : State :=
  if s.f fBT_STATE_CHG = 3 ∧ mv + 100 ≤ vcvMv s ∧ slSupply s then setChg s 1 mv else s
/-- VBAT_SAMPLE (R394): a stopped charger's sample. -/
def vbatSample (s : State) (mv : Nat) : State :=
  let c := s.f fBT_STATE_CHG
  if (c = 0 ∨ c = 3 ∨ c = 4) ∧ slSupply s then raiseIf (mv < 2000) (s.setF fBT_STATE_VBAT mv) kBT_STAT_LOW else s
/-- CELL_REMOVED (R395). -/
def cellRemoved (s : State) (mv : Nat) : State :=
  let c := s.f fBT_STATE_CHG
  if (c = 1 ∨ c = 2) ∧ slSupply s then raise ((setChg s 4 mv).setF fBT_STATE_PRESENT 0) kBT_STAT_ABSENT else s
/-- PROBE (R395): a rise of less than 20 mV counts as a cell. -/
def probe (s : State) (rise : Nat) : State :=
  if s.f fBT_STATE_CHG = 4 ∧ rise < 20 ∧ slSupply s then
    raise ((s.setF fBT_STATE_PRESENT 1).setF fBT_STATE_CHG 1) kBT_STAT_PRESENT
  else s

def execPowerOnReset (straps : BitVec 3) (vbatOk : Bool) (s : State) : Res := done (powerOn s straps.toNat vbatOk)
def execResetN (straps : BitVec 3) (s : State) : Res := done (resetPin s straps.toNat)
def execPmReqGo (v : Word) (s : State) : Res := done (pmReq s v)
def execSleepEntry (s : State) : Res := done (sleepEntry s)
def execEntryComplete (s : State) : Res := done (entryComplete s)
def execWake (src : Fin 4) (s : State) : Res := done (wake s src)
def execIdleEntry (s : State) : Res := done (idleEntry s)
def execDomainGate (d : Fin 20) (s : State) : Res := done (domainGate s d)
def execDemandWake (d : Fin 20) (dl : Bool) (s : State) : Res := done (demandWake s d dl)
def execRampStep (d : Fin 20) (s : State) : Res := done (rampStep s d)
def execSwitchOpen (d : Fin 20) (why : FCause) (s : State) : Res := done (switchOpen s d why)
def execPmDomClrflt (d : Fin 20) (v : Word) (s : State) : Res := done (pmDom s d v)
def execVbatTakeover (mv : Nat) (s : State) : Res := done (vbatTakeover s mv)
def execConstantVoltage (s : State) : Res := done (constVoltage s)
def execChargeDone (s : State) : Res := done (chargeDone s)
def execRecharge (mv : Nat) (s : State) : Res := done (recharge s mv)
def execVbatSample (mv : Nat) (s : State) : Res := done (vbatSample s mv)
def execCellRemoved (mv : Nat) (s : State) : Res := done (cellRemoved s mv)
def execProbe (riseMv : Nat) (s : State) : Res := done (probe s riseMv)

end Sys2Proof.Machine
end

