-- ==== Sys2Proof/Machine/Bist.lean ====
section
/-! DEFINITION. Start-up and online self-test, direct tests, health and temperature (R224, R399–R408, R447). -/

namespace Sys2Proof.Machine
open Sys2Proof

-- Marking failed units (R401, R402) ------------------------------------------------------------------------------------------

/-- A critical failure (R402). -/
def critical (s : State) : State :=
  setReplace { s with bist := { s.bist with crit := true } }

/-- Cluster cl is marked (R401). -/
def markCluster (s : State) (cl : Nat) : State :=
  if bit (unitBad s fBI_UNUSABLE_CL) cl && coreLost s (4 * cl) then s
  else setReplace (clusterLoss (markBad s fBI_UNUSABLE_CL (unitBad s fBI_UNUSABLE_CL ||| 2 ^ cl)) cl)

def markPort (s : State) (p : Nat) : State :=
  setReplace (markBad (linkDown s p) fBI_UNUSABLE_PORTS (unitBad s fBI_UNUSABLE_PORTS ||| 2 ^ p))

def markUb (s : State) : State := setReplace (markBad s fBI_UNUSABLE_UB 1)

/-- The DRAM PLL failed: the channel reads FAILED. -/
def markDram (s : State) : State :=
  setReplace { s.setF fDDR_STATE_STATE 3 with bist := { s.bist with dram := true } }

/-- Bank i of group g failed: the spare takes its index while it is free (R75), else the failure is critical. Item 32 is
the spare itself. -/
def markBank (s : State) (g i : Nat) : State :=
  if i = 32 then setReplace (s.setF fPLT_BG_STAT_SPARE_FAIL 1 g)
  else if s.fb fPLT_BG_STAT_SPARE_USED g || s.fb fPLT_BG_STAT_SPARE_FAIL g then critical s
  else raise ((s.setF fPLT_BG_STAT_SPARE_USED 1 g).setF fPLT_BG_STAT_SPARE_FOR i g) kPLT_STAT_SPARE

/-- Widest PCIe link without the failed lanes: 8, 4, 2 or 1 from either end, since lanes may be reversed (R319). -/
def pcieWidth (bad : List Nat) : Nat :=
  let fits (w : Nat) : Bool := bad.all (fun j => w ≤ j) || bad.all (fun j => j < 8 - w)
  if bad.isEmpty then 8 else if fits 4 then 4 else if fits 2 then 2 else if fits 1 then 1 else 0

/-- Mark one failed unit of a start-up slice, by the numbering of the slice (log entry 30). -/
def markUnit (i : Nat) (s : State) (u : Nat) : State :=
  match i with
  | 0 =>
    if u = 2 then (List.range 6).foldl (fun s p => markPort s p) s
    else if u = 3 then (List.range 6).foldl (fun s p => markPort s (6 + p)) s
    else if u = 6 then markDram s
    else if u = 7 then markUb s
    else if u = 4 then critical { s with bist := { s.bist with time := true } }
    else if u = 5 then critical { s with bist := { s.bist with pcie := 0 } }
    else critical s
  | 1 =>
    if u < 8 then setReplace { s with bist := { s.bist with sensors := s.bist.sensors ||| 2 ^ u } } else critical s
  | 2 => if u < 32 then markCluster s (u / 4) else s
  | 3 => if u < 1056 then markBank s (u / 33) (u % 33) else s
  | 4 => if u < 32 then markCluster s (u / 4) else s
  | 5 => critical s
  | 6 => critical s
  | 7 => if u < 32 then markCluster s (u / 4) else s
  | 8 => if u < 12 then markPort s u else if u < 16 then markUb s else if u < 24 then setReplace s else s
  | 9 => setReplace ((markBad s fBI_UNUSABLE_IRIGAM 1).setF fTU_SRCCFG_RANK3 0)
  | _ => setReplace ((markBad s fBI_UNUSABLE_CHG 1).setF fBT_CFG_EN 0)

/-- Mark every failed unit of slice i; a group's spare is judged before its banks. -/
def markAll (s : State) (i : Nat) (us : List Nat) : State :=
  let us := if i = 3 then us.filter (fun u => u % 33 == 32) ++ us.filter (fun u => u % 33 != 32) else us
  let s := us.foldl (markUnit i) s
  if i = 8 then { s with bist := { s.bist with
    pcie := min s.bist.pcie (pcieWidth ((us.filter fun u => 16 ≤ u && u < 24).map (· - 16))) } }
  else if i = 7 then
    let ok := (List.range 32).foldl (fun m p => if us.contains p then m else m + 2 ^ p) 0
    raiseIf (us.any (· < 32)) (s.setF fNEG_BIST_PASS ok) kNEG_STAT_BISTFAIL
  else s

-- Start-up BIST (R399, R400, R439) ----------------------------------------------------------------------------------------------

/-- Duration of start-up slice i in timebase units (R399). -/
def sliceU (s : State) (i : Nat) : Nat :=
  match i with
  | 0 => 80000 * nsU | 1 => 40000 * nsU | 2 => 2560000 * s.cyc | 3 => 122880 * s.cyc | 4 => 163840 * s.cyc
  | 5 => 163840 * s.cyc | 6 => 163840 * nsU | 7 => 4612 * s.cyc | 8 => 1000000 * nsU | 9 => 10000000 * nsU
  | _ => 2000000 * nsU

/-- Budget of slice i in timebase units (R400). -/
def budgetU (s : State) (i : Nat) : Nat := s.f fBI_BUDGET_US i * 1000 * nsU

/-- BIST ends: the cores leave reset and start in the boot ROM (R439); REPLACE goes if nothing has failed (R408). -/
def bistEnd (s : State) : State :=
  let clean := s.f fBI_RESULT_PASS == 0x7FF && !(List.range 20).any (domFaulted s)
  let s := { s with bist := { s.bist with running := false, replace := s.bist.replace && !clean } }
  let s := { s with cores := (List.range 32).map fun c => (c, { s.core c with held := false, waiting := false, cyc := s.nowCyc }) }
  raise s kBI_STAT_DONE

/-- The next slice starts, or BIST ends. -/
def sliceNext (s : State) : State :=
  if s.bist.slice < 10 then { s with bist := { s.bist with slice := s.bist.slice + 1, start := s.now } } else bistEnd s

/-- BIST_SLICE_END (R399, R401). -/
def sliceEnd (s : State) (us : List Nat) : State :=
  let i := s.bist.slice
  if !s.bist.running || s.stopped || budgetU s i < sliceU s i || pmState s = 4 then s
  else
    let s := s.advanceTo (s.bist.start + sliceU s i)
    let s := if us.isEmpty then s.setF fBI_RESULT_PASS (s.f fBI_RESULT_PASS ||| 2 ^ i) else raise s kBI_STAT_FAIL
    sliceNext (markAll s i us)

/-- SLICE_OVERRUN (R400): the slice is aborted at its budget; every unit it had not passed counts as failed. -/
def sliceOver (s : State) (us : List Nat) : State :=
  let i := s.bist.slice
  if !s.bist.running || s.stopped || pmState s = 4 then s
  else
    let s := s.advanceTo (s.bist.start + budgetU s i)
    let s := raise (s.setF fBI_RESULT_ABORT (s.f fBI_RESULT_ABORT ||| 2 ^ i)) kBI_STAT_OVR
    sliceNext (markAll (raiseIf (!us.isEmpty) s kBI_STAT_FAIL) i us)

-- Online BIST (R403–R405) ------------------------------------------------------------------------------------------------------------

/-- A test gap of the plan in effect is the current slot (R404). -/
def inGap (s : State) : Bool :=
  (curSlot s).isSome && (match curPlan s with | some p => p.gaps.contains s.plan.slot | none => false)

/-- A bank group whose spare is free runs PLATE slices (R75, R403). -/
def groupFree (s : State) (g : Nat) : Bool := !s.fb fPLT_BG_STAT_SPARE_USED g && !s.fb fPLT_BG_STAT_SPARE_FAIL g

/-- The unit may be tested now (R404): an idle usable pipe, a slice whose context is neither queued nor running, or a
bank index. -/
def unitFree (s : State) (kind : SliceKind) (u : Nat) : Bool :=
  match kind with
  | .pipe => u < 32 && !pipeRuns s u && s.f fVP_STAT_STATE u != 3
  | .neg => u < 32 && !pipeRuns s u && s.f fVP_STAT_STATE u != 3
  | .tray => u < 256 && !ctxBusy s (u / 8) (u % 8)
  | .plate => u < 32 && (List.range 32).any (groupFree s)

/-- ONLINE_SLICE (R404). -/
def onlineSlice (s : State) (kind : SliceKind) (u : Nat) : State :=
  if (s.lc == 3 || s.lc == 4) && s.fb fBI_CTL_ONLINE && inGap s && s.bist.online.isNone && unitFree s kind u &&
      !s.stopped && !s.bist.running && domOn s 19 && fabricOn s then
    { domUsed s 19 with bist := { s.bist with online := some (kind, u, s.now), gapTo := slotEnd s } }
  else s

/-- The unit whose end a command names belongs to the running slice; a PLATE slice's banks are 33·g + index, its spares
33·g + 32. -/
def onlineUnit (kind : SliceKind) (u unit : Nat) : Bool :=
  match kind with
  | .plate => unit % 33 == u || unit % 33 == 32
  | _ => unit == u

/-- A failure that a PLATE slice finds in one group (R403): of bank u in a test segment, or of the spare in a copy. The slice
goes on for the other groups. -/
def plateFail (s : State) (u unit : Nat) (res : SliceRes) : State :=
  let n := tget 0 s.bist.step u
  let g := unit / 33
  let copy := n == 0 || n == 5
  if !groupFree s g || copy != (res == .spareFail) || copy != (unit % 33 == 32) then s
  else markBank (raise s kBI_STAT_ONFAIL) g (unit % 33)

/-- A failed NEG slice (R224): the pipe's bit of NEG_BIST goes, and BISTFAIL is set. -/
def negFail (s : State) (p : Nat) : State :=
  raise (s.setF fNEG_BIST_PASS (s.f fNEG_BIST_PASS &&& (2 ^ 32 - 1 - 2 ^ p))) kNEG_STAT_BISTFAIL

/-- A completed online slice's effect; one of a pipe leaves it cleared (R404). -/
def onlineDone (s : State) (kind : SliceKind) (u : Nat) (bad : Bool) : State :=
  match kind with
  | .tray => if bad then markCluster (raise s kBI_STAT_ONFAIL) (u / 32) else s
  | .plate =>
    let n := tget 0 s.bist.step u
    { s with bist := { s.bist with step := tput s.bist.step u (if n = 5 then 0 else n + 1) } }
  | _ =>
    let s := clearSpan s u 0
    let s := if bad && kind == .neg then negFail s u else s
    if bad then markCluster (raise s kBI_STAT_ONFAIL) (u / 4) else s

/-- ONLINE_SLICE_END (R405): the slice ends inside its gap, or the gap's end aborts it: an aborted copy leaves the bank in
service, and an aborted segment is repeated. -/
def onlineEnd (s : State) (unit : Nat) (res : SliceRes) : State :=
  match s.bist.online with
  | none => s
  | some (kind, u, start) =>
    let due := start + onlineCyc s kind u * s.cyc
    if !onlineUnit kind u unit then s
    else if s.bist.gapTo < due then gapOver (s.advanceTo s.bist.gapTo)
    else if res == .gapEnded then s
    else
      let s := s.advanceTo due
      if kind == .plate && res != .pass then plateFail s u unit res
      else onlineDone ({ s with bist := { s.bist with online := none } }.bump fBI_ONCNT_CNT) kind u (res != .pass)

-- Direct tests (R406) ---------------------------------------------------------------------------------------------------------------------

/-- The unit of a direct test is in service in MAINTENANCE, or does not exist. -/
def directRefused (s : State) (op u : Nat) : Bool :=
  if op = 2 then s.maint && !noSheets s
  else if op = 4 then 12 ≤ u || (s.maint && portEn s u)
  else 8 ≤ u || (s.maint && !bit (s.f fSCH_CAP_FAULTED) u)

/-- What a direct test destroys: a marched group's words, and the pipe state of a cluster under LBIST. -/
def directLoss (s : State) (op u : Nat) : State :=
  if op = 2 then
    let mine (w : Nat) : Bool := bankOf (w % 32768) / 32 == u
    { s with plate := s.plate.filter fun e => !mine (e.1 / 8)
             plateEcc := s.plateEcc.filter fun e => !mine e.1
             poison := s.poison.filter fun w => !mine w }
  else if op = 3 then (List.range 4).foldl (fun s i => clearSpan s (4 * u + i) 0) s
  else s

/-- A write of BI_DIRECT (R406); `pass` is how a test that runs ends, where that is known. -/
def biDirect (s : State) (v : Word) (pass : Option Bool) : State :=
  if !(s.lc == 0 || s.lc == 1 || s.lc == 4) then raise s kBI_STAT_GATED
  else
    let op := bits v.toNat 8 4
    let u := v.toNat % 32
    let s := (s.setF fBI_DIRECT_OP op).setF fBI_DIRECT_UNIT u
    if !bit v.toNat 31 || op = 0 || 4 < op then s
    else if directRefused s op u then s.setF fBI_DIRECT_RES 2
    else
      (directLoss s op u).setF fBI_DIRECT_RES (match pass with | some true => 1 | some false => 3 | none => 0)

/-- A direct test's row: the write whose OP is the row's; it meets the test engines' domain as any access does (R389, R392). -/
def directRow (s : State) (op : Nat) (v : Word) (pass : Bool) : State :=
  if !domOn s 19 then demandWake s 19 false else biDirect s ((v &&& 0x8000001F#32) ||| w32 (op * 256)) (some pass)

-- Health and temperature (R407, R447) ---------------------------------------------------------------------------------------------------------

/-- GL_HEALTH.CODE (R407). -/
def healthCode (s : State) : Nat :=
  b2n (s.f fSCH_CAP_FAULTED != 0) +
  2 * b2n (unitBad s fBI_UNUSABLE_PORTS != 0 || s.bist.pcie != 8 || unitBad s fBI_UNUSABLE_UB != 0) +
  4 * b2n ((List.range 32).any fun g => s.fb fPLT_BG_STAT_SPARE_USED g || s.fb fPLT_BG_STAT_SPARE_FAIL g) +
  8 * b2n (s.bist.sensors != 0 || unitBad s fBI_UNUSABLE_IRIGAM != 0 || unitBad s fBI_UNUSABLE_CHG != 0) +
  16 * b2n (s.f fDDR_STATE_STATE == 3) + 32 * b2n s.stopped + 64 * b2n s.bist.crit + 128 * b2n s.bist.replace

/-- The hottest sensor that BIST has not excluded, the lowest index on a tie. -/
def hottest (s : State) (ts : List Int) : Option (Int × Nat) :=
  ts.zipIdx.foldl (fun b (t, i) =>
    if 8 ≤ i || bit s.bist.sensors i then b
    else match b with
      | some (m, _) => if m < t then some (t, i) else b
      | none => some (t, i)) none

/-- GL_TEMP_UPDATE (R447). -/
def tempUpdate (s : State) (ts : List Int) : State :=
  match hottest s ts with
  | some (t, i) => (s.setF fGL_TEMP_SENSOR i).setF fGL_TEMP_MAX (uenc 8 t)
  | none => s

def execBistSliceEnd (fails : BistFails) (s : State) : Res := done (sliceEnd s fails.units)
def execSliceOverrun (fails : BistFails) (s : State) : Res := done (sliceOver s fails.units)
def execOnlineSlice (kind : SliceKind) (unit : Fin 1056) (s : State) : Res := done (onlineSlice s kind unit)
def execOnlineSliceEnd (unit : Fin 1056) (res : SliceRes) (s : State) : Res := done (onlineEnd s unit res)
def execBiDirectScanDump (v : Word) (pass : Bool) (s : State) : Res := done (directRow s 1 v pass)
def execBiDirectMarch (v : Word) (pass : Bool) (s : State) : Res := done (directRow s 2 v pass)
def execBiDirectLbist (v : Word) (pass : Bool) (s : State) : Res := done (directRow s 3 v pass)
def execBiDirectLoopback (v : Word) (pass : Bool) (s : State) : Res := done (directRow s 4 v pass)
def execGlTempUpdate (temps : List Int) (s : State) : Res := done (tempUpdate s temps)

end Sys2Proof.Machine
end

