-- ==== Sys2Proof/Machine/Safe.lean ====
section
/-! DEFINITION. Safelight: the watchdog, stop bath, safe-state frames, the log and its seal (R409–R415). -/

namespace Sys2Proof.Machine
open Sys2Proof

-- Triggers (R409) -----------------------------------------------------------------------------------------------------------------

/-- The watchdog's trigger, with its flag; it arises in Safelight itself. -/
def watchdogTrigger (s : State) (at_ : Nat) : State :=
  stopTrigger (raise { s with sl := { s.sl with kick := none } } kSL_STAT_WDOG) 0 at_

/-- When an access made now reaches Safelight (R29, R451). -/
def slArrive (s : State) : Nat := crossed s.now slU 3

/-- The instant at which the watchdog expires. -/
def watchdogDue (s : State) (t : Nat) : Nat := t + s.f fSL_WDOG_TIMEOUT * 1000000 * nsU

/-- WATCHDOG_EXPIRY (R409). -/
def watchdogExpiry (s : State) : State :=
  match s.sl.kick with
  | some (t, _) =>
    if s.fb fSL_WDOG_EN && !s.stopped then
      let s := s.advanceTo (watchdogDue s t)
      watchdogTrigger s s.now
    else s
  | none => s

/-- SL_WDKICK.KICK (R409), as it reaches Safelight: a kick earlier than MIN after the previous one triggers, and one in the cycle
of the expiry or later does not hold that off (R414). -/
def watchdogKick (s : State) (v : Word) : State :=
  let m := slArrive s
  match s.sl.kick with
  | some (t, real) =>
    if !bit v.toNat 0 || !s.fb fSL_WDOG_EN || s.stopped then s
    else if watchdogDue s t ≤ m then watchdogTrigger s (max s.now (watchdogDue s t))
    else if real && m < t + s.f fSL_WDOG_MIN * 1000000 * nsU then watchdogTrigger s m
    else { s with sl := { s.sl with kick := some (m, true) } }
  | none => s

/-- A write of SL_WDOG (R415): its EN locks it, and setting EN starts the watchdog. -/
def slWdog (s : State) (v : Word) : State :=
  if s.fb fSL_WDOG_EN then s
  else
    let s := s.setReg rSL_WDOG 0 0 (v &&& 0x83FF03FF#32)
    if bit v.toNat 31 then { s with sl := { s.sl with kick := some (slArrive s, false) } } else s

-- Stop bath (R410) -------------------------------------------------------------------------------------------------------------------

/-- Valid safe-state slots are built in slot order, one at a time (R411). -/
def safePlan (s : State) : Tab Nat :=
  ((List.range 8).foldl (fun (a : Nat × Tab Nat) i =>
    if s.fb fSL_SAFE0_V i then
      let t := a.1 + (if s.fb fSL_SAFE0_TAG i then 6500 else 1000) * nsU
      (t, tput a.2 i t)
    else a) (s.now, [])).2

/-- The freeze (R410): frames that have not started and all ingress are discarded, and what was being built goes with the
lanes. No slice of a start-up test ends any more (R414). -/
def freeze (s : State) : State :=
  { s with
      ports := s.ports.map fun e => (e.1, { e.2 with egq := [], ing := [] })
      lanes := s.lanes.map fun e => (e.1, { e.2 with build := [], eg := FeThr.init, ing := { e.2.ing with run := false } })
      pubq := []
      pipes := s.pipes.map fun e => (e.1, { e.2 with wait := none })
      plan := { s.plan with mig := [] }
      bist := { s.bist with online := none }
      pm := { s.pm with entry := none } }

/-- The cores run on until the freeze reaches them, 4 cycles after the trigger's arrival (R29). -/
def lastCycles (s : State) : State :=
  (List.range 32).foldl (fun s c => runTo s c (s.nowCyc + 4) (eventFuel s c)) s

/-- The freeze has reached every island 4 ns after a trigger's arrival: 4 cycles of the port groups, the slower (R29). -/
def freezeTime : Nat := 4 * nsU

/-- STOP_BATH (R410): the first trigger arrives at Safelight, and SL_CAUSE takes every one that arrives before the freeze
completes (R409). D14 and D19 are held on, also out of Deep sleep (R397). -/
def stopBath (s : State) : State :=
  match s.sl.trig with
  | [] => s
  | x :: xs =>
  if s.stopped then { s with sl := { s.sl with trig := [] } }
  else if pmState s = 4 then s
  else
    let s := lastCycles (s.advanceTo (xs.foldl (fun m b => min m b.2) x.2))
    -- out of Deep sleep D14 and D19 ramp first, in 8 steps of 2 µs
    let s := if pmState s = 3 then s.advance (16000 * nsU) else s
    let cause := (s.sl.trig.filter fun b => b.2 ≤ s.now + freezeTime).foldl (fun m b => m ||| 2 ^ b.1) 0
    let s := (s.setF fSL_STATE_STOPBATH 1).setF fSL_CAUSE_CAUSE cause
    let s := freeze (s.setF fPM_REQ_PEND 0)
    let s := [13, 18].foldl (fun s d => if domFaulted s d then s else s.setF fPM_DOM_STATE 0 d) s
    let clear := match s.ks.wipe with | some (t, _) => max s.now t | none => s.now
    let s := { s with sl := { s.sl with
      trig := [], kick := none, stopAt := s.tai, build := safePlan s, st := [], sq := [], iv := [], due := []
      sealAt := if s.f fSL_STATE_LOG = 0 then some (clear + 82000 * nsU) else none } }
    (raise s kSL_STAT_STOPBATH).advance freezeTime

-- Safe-state frames (R411) ---------------------------------------------------------------------------------------------------------

/-- Overwrite bytes of a list from an offset on. -/
def patch (bs : List Byte) (o : Nat) (new : List Byte) : List Byte :=
  bs.take o ++ new.take (bs.length - o) ++ bs.drop (o + new.length)

/-- The image of slot i with its fields written: numbers of 4 bytes in network order (log entry 31). -/
def safeBytes (s : State) (i st sq talMs : Nat) : List Byte :=
  let bs := mread s.slimg (256 * i) (min 256 (s.f fSL_SAFE0_LEN i))
  let bs := patch bs (s.f fSL_SAFE2_OFS_ST i) (beBytes 4 st)
  let bs := patch bs (s.f fSL_SAFE2_OFS_SQ i) (beBytes 4 sq)
  patch bs (s.f fSL_SAFE2_OFS_TAL i) (beBytes 4 talMs)

/-- The HMAC key of slot i's tag: AES-GMAC is not available to safe-state frames. -/
def safeKey (s : State) (i : Nat) : Option (Nat × List Byte) :=
  (currentKey s (s.f fSL_SAFE3_KEY i)).filter fun k => k.1 == 0

/-- Crossing time from Safelight to a port's queue (R411). -/
def slCross : Nat := 4 * nsU

/-- A safe-state frame waits for its port to come up where stop bath found the device in start-up BIST or in Deep sleep
(R397, R414). -/
def safeWaits (s : State) : Bool := s.bist.running || pmState s == 3

/-- Queue slot i's frame in class 3 on its ports, where it enters after the crossing; a pair adds its trailer or tag, and
a port without a link sends nothing. -/
def safeSend (s : State) (i : Nat) (bs : List Byte) : State :=
  let on (p : Nat) : Bool := bit (s.f fSL_SAFE0_PORTS i) p
  let tagged := s.fb fSL_SAFE0_TAG i
  let pr := s.pair 0
  let paired := pairRed s 0 != 0 && (on 0 || on 1)
  let s := if paired then s.setPair 0 { pr with seq := (pr.seq + 1) % 65536 } else s
  let f := mkFrame (BitVec.ofNat 48 (netField bs 0 6)) (BitVec.ofNat 48 (netField bs 6 6)) [] (netField bs 12 2) .raw
    (bs.length + (if tagged then 20 else 0) + (if paired then 6 else 0) + 4) bs
  let f := { f with red := if paired then some (BitVec.ofNat 16 pr.seq) else none }
  let key := if tagged then safeKey s i else none
  let f := { f with tag := key.map fun k => ⟨w32 (s.f fSL_SAFE3_KEY i), (hmac k.2 bs).take 16⟩ }
  [0, 1].foldl (fun s p =>
    if !on p then s
    else if tagged && key.isNone then s.bump fEP_TXLOST_CNT_CNT p
    else if (linkUp s p || safeWaits s) && classDepth s p 3 < 32 then
      s.modPort p fun x => { x with egq := x.egq ++ [⟨f, 3, none, none, none, none, s.now + slCross⟩] }
    else s) s

/-- Build and queue slot i's frame, and set its next transmission on the ladder of R250. -/
def safeBuild (s : State) (i st sq iv : Nat) : State :=
  let tal := cdiv (talFactor (s.f fSL_SAFE0_TALF i) * iv) 1000
  let s := safeSend s i (safeBytes s i st sq tal)
  { s with sl := { s.sl with st := tput s.sl.st i st, sq := tput s.sl.sq i sq, iv := tput s.sl.iv i iv
                             due := tput s.sl.due i (s.now + iv * 1000 * nsU) } }

/-- SAFE_STATE_BUILD (R411): a slot's first frame is built. -/
def safeFirst (s : State) (i : Nat) : State :=
  match tfind s.sl.build i with
  | some t =>
    if !s.stopped then s
    else
      let s := s.advanceTo t
      let s := { s with sl := { s.sl with build := tdel s.sl.build i } }
      safeBuild s i (wrap1 (s.reg rSL_SAFEST i 0).toNat) 0 (s.f fSL_SAFE1_T1 i)
  | none => s

/-- SAFE_STATE_RETRANSMISSION (R411). -/
def safeAgain (s : State) (i : Nat) : State :=
  match tfind s.sl.due i with
  | some t =>
    if !s.stopped then s
    else
      let s := s.advanceTo t
      safeBuild s i (tget 0 s.sl.st i) (wrap1 (tget 0 s.sl.sq i)) (min (2 * tget 0 s.sl.iv i) (s.f fSL_SAFE1_T0 i * 1000))
  | none => s

-- The log (R412) ------------------------------------------------------------------------------------------------------------------------

/-- SEAL (R412): the seal block is written. While a wipe runs, sealing waits for it. -/
def sealLog (s : State) : State :=
  match s.sl.sealAt with
  | none => s
  | some t =>
    if s.ks.wipe.isSome then s
    else
      let s := s.advanceTo t
      let oldest := (s.sl.logNx + 2046 - s.sl.logN) % 2046
      let blk := leBytes 4 0x4C414553 ++ leBytes 2 s.sl.logN ++ leBytes 2 oldest ++ leBytes 1 (s.f fSL_CAUSE_CAUSE) ++
        leBytes 1 (healthCode s) ++ leBytes 6 (taiSec s.sl.stopAt) ++ leBytes 4 (taiNs s.sl.stopAt) ++ List.replicate 40 0
      let s := { s with vault := mwrite s.vault 0x2FFC0 blk }
      let crc := crc32 (mread s.vault 0x20000 0xFFFC)
      let s := { s with vault := mwrite s.vault 0x2FFFC (leBytes 4 crc), sl := { s.sl with sealAt := none } }
      raise (s.setF fSL_STATE_LOG 1) kSL_STAT_SEALED

/-- A write of SL_CTL (R412, R415): LOGREARM clears MAGIC and restarts logging. -/
def slCtl (s : State) (v : Word) : State :=
  let w := v.toNat
  let s := if s.fb fSL_CTL_LOCK then s
    else (s.setF fSL_CTL_LOGEN (b2n (bit w 0))).setF fSL_CTL_LOCK (b2n (bit w 31))
  if bit w 1 && s.f fSL_STATE_LOG != 0 then
    { s.setF fSL_STATE_LOG 0 with vault := mwrite s.vault 0x2FFC0 [0, 0, 0, 0], sl := { s.sl with logN := 0, logNx := 0 } }
  else s

/-- A write of SL_IMGDATA (R415): the image word lands and the address advances. -/
def slImgData (s : State) (v : Word) : State :=
  let n := s.f fSL_IMGADDR_WORD
  { s.setF fSL_IMGADDR_WORD (n + 1) with slimg := mwrite s.slimg (4 * n) (leBytes 4 v.toNat) }

/-- A write of SL_STOP (R409). -/
def slStop (s : State) (v : Word) : State := if bit v.toNat 0 then stopTrigger s 2 else s

def execWatchdogExpiry (s : State) : Res := done (watchdogExpiry s)
def execSlWdkickKick (v : Word) (s : State) : Res := done (watchdogKick s v)
/-- STOP_N held low for 1 µs (R409). -/
def execStopN (s : State) : Res := done (stopTrigger s 1 s.now)
def execSlStopGo (v : Word) (s : State) : Res := done (slStop s v)
def execStopBath (s : State) : Res := done (stopBath s)
def execSafeStateBuild (slot : Fin 8) (s : State) : Res := done (safeFirst s slot)
def execSafeStateRetransmission (slot : Fin 8) (s : State) : Res := done (safeAgain s slot)
def execSeal (s : State) : Res := done (sealLog s)
def execSlCtlLogrearm (v : Word) (s : State) : Res := done (slCtl s v)
def execSlImgdata (v : Word) (s : State) : Res := done (slImgData s v)

end Sys2Proof.Machine
end

