-- ==== Sys2Proof/Machine/Host.lean ====
section
/-! DEFINITION. The host engine: polling, reads of host memory, and the PCIe link (R319–R330, R337–R342, R437, R439). -/

namespace Sys2Proof.Machine
open Sys2Proof

/-- `n` words of bytes, least significant byte first. -/
def wordsOf (bs : List Byte) (n : Nat) : List Word := (List.range n).map fun i => w32 (imgVal bs (4 * i) 4)

-- The endpoint (R319) --------------------------------------------------------------------------------------------------------

/-- What the endpoint's configuration space gives (R319): identity, sizes and vectors; BAR sizes in bytes. -/
structure PcieCfg where
  vendor    : Nat
  device    : Nat
  revision  : Nat
  classCode : Nat
  subVendor : Nat
  subsystem : Nat
  maxPay    : Nat
  maxRead   : Nat
  bar0      : Nat
  bar2      : Nat
  vectors   : Nat
  aer       : Bool
  flr       : Bool
  deriving DecidableEq, Repr

/-- The configuration space of the device: the revision is its stepping, and the subsystem its fused grade (R319). -/
def pcieCfg (s : State) : PcieCfg :=
  { vendor := 0x1F1B, device := 0x2560, revision := s.f fGL_DEV_ID_STEP, classCode := 0x118000, subVendor := 0x1F1B
    subsystem := if Config.gradeAL then 2 else 1, maxPay := 512, maxRead := 512, bar0 := 64 * 2 ^ 20, bar2 := 128 * 2 ^ 20
    vectors := 256, aer := true, flr := true }

-- Halting (R320, R340) --------------------------------------------------------------------------------------------------------

/-- The set that a read of host memory serves. -/
def readSet : HReadKind → Option Nat
  | .summary => none
  | .doorbell t => some t | .restart t => some t | .cmd t _ => some t | .tx t _ => some t | .cmdData t _ => some t | .rxd t _ _ _ _ => some t

/-- Received frames that wait for the descriptor of a buffer. -/
def rxdReads (rs : List HRead) : Nat := (rs.filter fun r => match r.kind with | .rxd _ _ _ _ _ => true | _ => false).length

/-- Received frames of a halted set are dropped and counted (R340). -/
def rxLost (s : State) (n : Nat) : State := if n = 0 then s else s.bump fHI_HFDROP_CNT_CNT 0 0 n

/-- A set halts, and what was read for it is dropped. -/
def stopSet (s : State) (set ring kind addr : Nat) : State :=
  let (gone, kept) := s.hi.reads.partition fun r => readSet r.kind == some set
  haltSet (rxLost { s with hi := { s.hi with reads := kept } } (rxdReads gone)) set ring kind addr

def cmdOp (c : HCmd) : Nat := wd c.w 0 % 256
def cmdArg (c : HCmd) : Nat := wd c.w 5
/-- Inline word i of a command. -/
def inl (c : HCmd) (i : Nat) : Nat := wd c.w (6 + i)

/-- Configuration that waits for the plan boundary on behalf of a command that is abandoned (R320). -/
def waitsFor (ws : List HWait) (x : PtCfg) : Bool :=
  ws.any fun w => cmdOp w.cmd == 9 && cmdArg w.cmd % 2 ^ 17 == x.pt && x.w5 == some (w32 (inl w.cmd 0)) &&
    x.w6 == some (w32 (inl w.cmd 1)) && x.w7 == some (w32 (inl w.cmd 2))

/-- Commands in execution are abandoned (R320): what they have not landed yet does not land. -/
def dropCommands (s : State) : State :=
  { s with
    ptq := s.ptq.filter fun w => match w.back with | .host _ => false | _ => true
    ptcfg := s.ptcfg.filter fun x => !waitsFor s.hi.waits x
    plan := if s.hi.waits.any fun w => cmdOp w.cmd == 0x20 then { s.plan with waiting := none } else s.plan
    hi := { s.hi with reads := [], waits := [], bgPend := [] } }

/-- An FLR or the loss of the link halts every set (R320). -/
def haltAll (s : State) : State :=
  let s := dropCommands (rxLost s (rxdReads s.hi.reads))
  (List.range 257).foldl (fun s t =>
    let h := s.hset t
    let s := s.setHset t { h with halt := true, cmds := [], cpls := [], txq := [] }
    if s.fb fHI_TN_CTL_EN t then statusBlock s t else s) s

-- Polling (R327, R328) -----------------------------------------------------------------------------------------------------------

/-- Ask for `n` bytes of host memory. -/
def hostAsk (s : State) (k : HReadKind) (a n : Nat) : State :=
  { s with hi := { s.hi with reads := s.hi.reads ++ [⟨k, a % 2 ^ 64, n, s.now⟩] } }

def askDoorbell (s : State) (set : Nat) (kind : Nat → HReadKind := .doorbell) : State :=
  hostAsk s (kind set) (reg64 s rHI_DBBASE_LO rHI_DBBASE_HI 0 0 + 16 * set) 16

/-- A ring of the set appears full to the device, or no receive buffer is posted (R327). -/
def looksFull (s : State) (set : Nat) : Bool :=
  let h := s.hset set
  setLive s set && (ringFull s set 1 h.cplPI h.cplCI || ringFull s set 2 h.evtPI h.evtCI ||
    (ringLog s set 4 != 0 && h.rxPI == h.rxDI))

/-- A read of a poll is under way; the doorbell read of a RESTART is none. -/
def polling (s : State) : Bool :=
  s.hi.reads.any fun r => match r.kind with | .summary => true | .doorbell _ => true | .cmd _ _ => true | .tx _ _ => true | _ => false

/-- POLL.PERIOD in ns, held to its range (R342). -/
def pollNs (s : State) : Nat := max 250 (min 1000000 (s.f fHI_POLL_PERIOD))

/-- When a poll ends, which rings appear full is noted for step 3 of the next (R327). -/
def endPoll (s t : State) : State :=
  if polling s && !polling t then
    (List.range 257).foldl (fun t n =>
      if (t.hset n).full = looksFull t n then t else t.setHset n { t.hset n with full := looksFull t n }) t
  else t

/-- POLL (R327): the summary is read, PERIOD after the last poll. -/
def poll (s : State) : State :=
  if !s.fb fHI_CTL_EN || !s.fb fHI_LINK_UP || polling s || 2 ≤ pmState s then s
  else
    let s := s.advanceTo (s.hi.polls + pollNs s * nsU)
    let s := { s with hi := { s.hi with polls := s.now } }
    hostAsk s .summary (reg64 s rHI_SUMBASE_LO rHI_SUMBASE_HI 0 0) 64

/-- The sets whose flags a summary shows (R326). -/
def flagged (bs : List Byte) : List Nat :=
  ((List.range 256).filter fun t => bit (imgVal bs (t / 8) 1) (t % 8)) ++ (if bit (imgVal bs 32 1) 0 then [256] else [])

/-- A FetchAdd on a word of host memory (R328). -/
def hostAdd (s : State) (a v : Nat) : State := hostWrite s a (leBytes 4 ((leVal (mread s.host a 4) + v) % 2 ^ 32))

/-- Clear the flags that a summary showed (R328): by FetchAdd of minus each word, or by writing 0 to each byte. The bytes
that the read returned stand in host memory until then. -/
def clearFlags (s : State) (bs : List Byte) : State :=
  let a := reg64 s rHI_SUMBASE_LO rHI_SUMBASE_HI 0 0
  let s := hostWrite s a (bs.take 36)
  if s.fb fHI_CTL_CLRMODE then
    (List.range 33).foldl (fun s i => if imgVal bs i 1 = 0 then s else hostWrite s (a + i) [0]) s
  else
    (List.range 9).foldl (fun s i => if imgVal bs (4 * i) 4 = 0 then s else hostAdd s (a + 4 * i) (2 ^ 32 - imgVal bs (4 * i) 4)) s

/-- The sets whose doorbells are read after a summary (R327, R328). -/
def doorbellSets (s : State) (bs : List Byte) : List Nat :=
  let fl := flagged bs
  let seen (t : Nat) : Bool :=
    if s.fb fHI_CTL_CLRMODE then fl.any fun u => u / 8 == t / 8 else fl.contains t
  (List.range 257).filter fun t => setLive s t && (seen t || (s.hset t).full)

-- Doorbells and descriptors (R323, R324, R327) -----------------------------------------------------------------------------------

/-- Indices of a ring to fetch, cut into reads of at most 8 entries that do not cross the ring's end. -/
def fetchRuns (n at_ left : Nat) : Nat → List (Nat × Nat)
  | 0 => []
  | fuel + 1 =>
    if left = 0 then []
    else
      let k := min (min left 8) (n - at_ % n)
      (at_, k) :: fetchRuns n (at_ + k) (left - k) fuel

/-- Fetch a ring's descriptors from index `at_` up to `to_`. -/
def fetchRing (s : State) (set ring size at_ to_ : Nat) (kind : Nat → HReadKind) : State :=
  (fetchRuns (ringN s set ring) at_ (ringDepth to_ at_) 65536).foldl (fun s r =>
    hostAsk s (kind r.2) (ringAddr s set ring size r.1) (size * r.2)) s

/-- Transmit descriptors that are fetched or on their way. -/
def txHeld (s : State) (set : Nat) : Nat :=
  (s.hset set).txq.length + s.hi.reads.foldl (fun n r => match r.kind with | .tx t k => if t = set then n + k else n | _ => n) 0

/-- The first ring whose new index gives a depth of N or more (R323, R340). -/
def badIndex (s : State) (set cmdPI cplCI evtCI txPI rxPI : Nat) : Option Nat :=
  let h := s.hset set
  if ringN s set 0 ≤ ringDepth cmdPI h.cmdCI then some 0
  else if ringN s set 1 ≤ ringDepth h.cplPI cplCI then some 1
  else if ringN s set 2 ≤ ringDepth h.evtPI evtCI then some 2
  else if ringLog s set 3 != 0 && ringN s set 3 ≤ ringDepth txPI h.txCI then some 3
  else if ringLog s set 4 != 0 && ringN s set 4 ≤ ringDepth rxPI h.rxDI then some 4
  else none

/-- A doorbell arrives: a halted set restarts from its indices (R340); a running one takes them and fetches (R327). -/
def takeDoorbell (s : State) (set : Nat) (bs : List Byte) : State :=
  let h := s.hset set
  let cmdPI := imgVal bs 0 2
  let cplCI := imgVal bs 2 2
  let evtCI := imgVal bs 4 2
  let txPI := imgVal bs 6 2
  let rxPI := imgVal bs 8 2
  if h.halt then
    statusBlock (s.setHset set { h with
      cmdPI := cmdPI, cmdCI := cmdPI, cmdFI := cmdPI, cplPI := cplCI, cplCI := cplCI, evtPI := evtCI, evtCI := evtCI
      txPI := txPI, txCI := txPI, rxPI := rxPI, rxDI := rxPI, halt := false, cmds := [], cpls := [], txq := [] }) set
  else match badIndex s set cmdPI cplCI evtCI txPI rxPI with
    | some ring => stopSet s set ring 4 ((reg64 s rHI_DBBASE_LO rHI_DBBASE_HI 0 0 + 16 * set) % 2 ^ 64)
    | none =>
      let tx0 := (h.txCI + txHeld s set) % 65536
      let s := s.setHset set { h with cmdPI := cmdPI, cmdFI := cmdPI, cplCI := cplCI, evtCI := evtCI, txPI := txPI, rxPI := rxPI }
      let s := fetchRing s set 0 64 h.cmdFI cmdPI fun n => .cmd set n
      if ringLog s set 3 = 0 then s else fetchRing s set 3 16 tx0 txPI fun n => .tx set n

/-- Fetched commands join the set's list, with their ring indices. -/
def takeCmds (s : State) (set n : Nat) (bs : List Byte) : State :=
  let h := s.hset set
  let more := s.hi.reads.foldl (fun m r => match r.kind with | .cmd t k => if t = set then m + k else m | _ => m) 0
  let first := (h.cmdFI + 2 * 65536 - more - n) % 65536
  s.setHset set { h with cmds := h.cmds ++ (List.range n).map fun i =>
    ⟨wordsOf (imgBytes bs (64 * i) 64) 16, (first + i) % 65536, none, false, 0⟩ }

/-- A received frame goes into its buffer, its descriptor is filled, and the set learns of it (R338). -/
def fillRx (s : State) (set : Nat) (frame : List Byte) (tagged : Bool) (port stamp : Nat) (bs : List Byte) : State :=
  let h := s.hset set
  let s := hostWrite s (imgVal bs 0 8) frame
  let s := hostWrite s (ringAddr s set 4 16 h.rxDI + 8)
    (leBytes 4 (frame.length % 2048 + port * 2 ^ 12 + b2n tagged * 2 ^ 16) ++ leBytes 4 (taiNs stamp))
  let s := s.setHset set { s.hset set with rxDI := (h.rxDI + 1) % 65536 }
  vecSet (statusBlock s set) (s.f fHI_TN_VEC_RXVEC set)

/-- HI_ERRINFO.RING of a read. -/
def readRing : HReadKind → Nat
  | .cmd _ _ => 0 | .tx _ _ => 3 | .rxd _ _ _ _ _ => 4 | _ => 5

/-- A command's HADDR data arrives. -/
def takeData (s : State) (set : Nat) (r : HostResp) : State :=
  let h := s.hset set
  s.setHset set { h with cmds := match h.cmds with
    | c :: cs => { c with data := some r } :: cs
    | [] => [] }

/-- A read of host memory ends with data. -/
def readData (s : State) (k : HReadKind) (bs : List Byte) : State :=
  match k with
  | .summary => (doorbellSets s bs).foldl (fun s t => askDoorbell s t) (clearFlags s bs)
  | .doorbell t | .restart t => takeDoorbell s t bs
  | .cmd t n => takeCmds s t n bs
  | .tx t n =>
    let h := s.hset t
    s.setHset t { h with txq := h.txq ++ (List.range n).map fun i => wordsOf (imgBytes bs (16 * i) 16) 4 }
  | .cmdData t _ => takeData s t (.data bs)
  | .rxd t f tagged p st => fillRx s t f tagged p st bs

/-- A read of host memory fails (R340): a summary read is retried at the next poll, a command's HADDR read fails that
command, and any other halts its set. -/
def readFailed (s : State) (r : HRead) (kind : Nat) : State :=
  match r.kind with
  | .summary => failMark s r.addr
  | .cmdData t _ => takeData (failMark s r.addr) t .ur
  | k => match readSet k with
    | some t => stopSet (rxLost s (rxdReads [r])) t (readRing k) kind r.addr
    | none => s

/-- HOST_READ_COMPLETION (R327): the oldest outstanding read ends. -/
def readCompletion (s : State) (x : HostResp) : State :=
  match s.hi.reads with
  | [] => s
  | r :: rs =>
    let t := { s with hi := { s.hi with reads := rs } }
    endPoll s (match x with
      | .data bs => readData t r.kind bs
      | .poisoned => readFailed t r 3
      | _ => readFailed t r 1)

/-- HOST_READ_TIMEOUT (R340). -/
def readTimeout (s : State) : State :=
  match s.hi.reads with
  | [] => s
  | r :: rs =>
    let t := s.advanceTo (r.sent + s.f fHI_RDTMO_TMO * 1000 * nsU)
    endPoll s (readFailed { t with hi := { t.hi with reads := rs } } r 2)

/-- COMPLETION_WRITE (R335). -/
def execCompletionWrite (set : Fin 257) (s : State) : Res := done (writeCpl s set)

-- Set control and the link (R320, R340, R342, R437, R439) ----------------------------------------------------------------------------

/-- Sizes allow EN = 1 (R342): log2 4–15, and 0 for TX and RX only. -/
def sizesOk (s : State) (set : Nat) : Bool :=
  (List.range 5).all fun r =>
    let n := ringLog s set r
    (4 ≤ n && n ≤ 15) || (n == 0 && 3 ≤ r)

/-- A write of HI_TN_CTL (R340, R342): RESTART reads a halted set's doorbell, and is ignored on another. -/
def hiTnCtl (s : State) (set : Nat) (v : Word) : State :=
  let en := bit v.toNat 0
  let s := if en && !s.fb fHI_TN_CTL_EN set && !sizesOk s set then raise s kHI_STAT_CFGREF
    else s.setF fHI_TN_CTL_EN (b2n en) set
  if bit v.toNat 31 && (s.hset set).halt && s.fb fHI_TN_CTL_EN set && s.fb fHI_LINK_UP then askDoorbell s set .restart else s

/-- HI registers return to their reset values; the link's state stays (R320). -/
def hiReset (s : State) : State :=
  let link := s.reg rHI_LINK 0 0
  { s with regs := s.regs.filter fun e => !(0x900000 ≤ e.1 && e.1 < 0x940000) }.setReg rHI_LINK 0 0 link

/-- FLR (R320). -/
def flr (s : State) : State := hiReset (haltAll s)

/-- PCIE_LINK_LOSS (R320). -/
def linkLoss (s : State) : State :=
  if !s.fb fHI_LINK_UP then s
  else
    let s := s.setReg rHI_LINK 0 0 0
    raise (haltAll s) kHI_STAT_LINKDN

/-- PERST_N (R437): while low, the PCIe link and the host interface are in reset, with the effects of R320. -/
def perst (s : State) (level : Bool) : State :=
  let s := { s with hi := { s.hi with perst := level } }
  if level then s
  else
    let up := s.fb fHI_LINK_UP
    let s := flr (s.setReg rHI_LINK 0 0 0)
    raiseIf up s kHI_STAT_LINKDN

/-- PCIE_LINK_UP (R438, R439): training completes after slice 0 and the release of PERST_N, within the lanes and the
rate that the device allows. -/
def pcieUp (s : State) (width gen : Nat) : State :=
  let ok := (width == 1 || width == 2 || width == 4 || width == 8) && width ≤ s.bist.pcie && 1 ≤ gen &&
    gen ≤ 4 - s.f fGL_STRAP_PCIEGEN
  if s.hi.perst && ok && !(s.bist.running && s.bist.slice == 0) && pmState s < 3 then
    ((s.setF fHI_LINK_UP 1).setF fHI_LINK_WIDTH width).setF fHI_LINK_GEN gen
  else s

def execPoll (s : State) : Res := done (poll s)
def execHostReadCompletion (r : HostResp) (s : State) : Res := done (readCompletion s r)
def execHostReadTimeout (s : State) : Res := done (readTimeout s)
def execHiTnCtlRestart (set : Fin 257) (s : State) : Res := done (hiTnCtl s set (s.reg rHI_TN_CTL set 0 ||| 0x80000000#32))
def execFlr (s : State) : Res := done (flr s)
def execPcieLinkLoss (s : State) : Res := done (linkLoss s)
def execPerstN (level : Bool) (s : State) : Res := done (perst s level)
def execPcieLinkUp (width gen : Nat) (s : State) : Res := done (pcieUp s width gen)

end Sys2Proof.Machine
end

