-- ==== Sys2Proof/Machine/HostCmd.lean ====
section
/-! DEFINITION. The commands of the rings (R330–R335, R348, R349, R362). -/

namespace Sys2Proof.Machine
open Sys2Proof

-- Taking a command (R330, R331, R335) -------------------------------------------------------------------------------------------

def cmdLen (c : HCmd) : Nat := wd c.w 4
def cmdAddr (c : HCmd) : Nat := wd c.w 2 + 2 ^ 32 * wd c.w 3
/-- TARGET, which only set 256 chooses. -/
def cmdTarget (set : Nat) (c : HCmd) : Nat := if set = 256 then wd c.w 1 % 512 else set

/-- The set's next command, where it may start: not while the completion ring is full, after POINT_WRs have reached the
sheet, and with FENCE after every earlier completion. -/
def startable (s : State) (set : Nat) : Option HCmd :=
  let h := s.hset set
  match h.cmds with
  | [] => none
  | c :: _ =>
    let ws := s.hi.waits.filter fun w => w.set == set
    let full := ringFull s set 1 h.cplPI h.cplCI
    let fence := bit (wd c.w 0) 8 && (!ws.isEmpty || !h.cpls.isEmpty)
    if setLive s set && !full && !fence && ws.all (·.plan) then some c else none

/-- The set's next command could be served at once: it waits neither for host memory nor for its target's epoch (R345). -/
def servable (s : State) (set : Nat) : Bool :=
  match startable s set with
  | some c => !(c.asked && c.data.isNone) &&
      !(1 ≤ cmdOp c && cmdOp c ≤ 6 && s.ks.adv.contains (cmdTarget set c))
  | none => false

/-- The engine serves the sets in turn, one command per set (R331): none that stands before this one can be served. -/
def myTurn (s : State) (set : Nat) : Bool :=
  let far (t : Nat) : Nat := (t + 256 - s.hi.turn) % 257
  s.hi.sets.all fun e => far set ≤ far e.1 || !servable s e.1

/-- The set's next command, where `mine` takes it, it may start, and it is the set's turn. -/
def headCmd (s : State) (set : Nat) (mine : HCmd → Bool) : Option HCmd :=
  (startable s set).filter fun c => mine c && myTurn s set

/-- Take the command off the list; CMD_CI advances, and the set has had its turn. -/
def popCmd (s : State) (set : Nat) : State :=
  let h := s.hset set
  { s with hi := { s.hi with turn := set } }.setHset set { h with cmds := h.cmds.tail, cmdCI := (h.cmdCI + 1) % 65536 }

/-- The command ends with a status (R333). -/
def finishCmd (s : State) (set : Nat) (c : HCmd) (status d0 d1 : Nat) : State :=
  let s := complCmd (popCmd s set) set c status d0 d1
  if status = 0 && bit (wd c.w 0) 9 then statusBlock s set else s

/-- The command has acted; its completion waits for the boundary, or for the sheet (R334). -/
def waitCmd (s : State) (set : Nat) (c : HCmd) (inst : Option RecInst) (plan : Bool) : State :=
  let s := popCmd s set
  { s with hi := { s.hi with waits := s.hi.waits ++ [⟨set, c, inst, true, plan⟩] } }

/-- The head command has copied `n` bytes so far. -/
def headPut (s : State) (set n : Nat) : State :=
  let h := s.hset set
  s.setHset set { h with cmds := match h.cmds with | x :: xs => { x with put := n } :: xs | [] => [] }

/-- The power domain that a command's work needs, where it can be gated (R388): the cluster of a Tray or instruction RAM, the DRAM
controller, or the key service. -/
def opDomain (s : State) (set : Nat) (c : HCmd) : Option Nat :=
  match cmdOp c with
  | 3 | 4 => some ((s.place (cmdTarget set c)).1 / 4)
  | 0x18 => some (bits (cmdArg c) 16 5 / 4)
  | 5 | 6 => some 16
  | 0x20 | 0x21 => some 17
  | _ => none
def opStalls (s : State) (set : Nat) (c : HCmd) : Bool := (opDomain s set c).any (domStalls s)
def opLost (s : State) (set : Nat) (c : HCmd) : Bool := (opDomain s set c).any (domFaulted s)

/-- Run the head command: it waits while its domain wakes (R389) and is UNMAPPED where that is FAULTED (R392; log entry 132).
Then a status that is known before anything is read, or the action on its HADDR data. -/
def hostOp (s : State) (set : Nat) (mine : HCmd → Bool) (early : State → HCmd → Option Nat) (need : HCmd → Nat)
    (act : State → HCmd → List Byte → State) : State :=
  match headCmd s set mine with
  | none => s
  | some c =>
    match early s c with
    | some st => finishCmd s set c st 0 0
    | none =>
      if opStalls s set c then demandWake s ((opDomain s set c).getD 0) false
      else if opLost s set c then finishCmd (demandWake s ((opDomain s set c).getD 0) false) set c 4 0 0
      else
      let s := match opDomain s set c with | some d => domUsed s d | none => s
      if need c = 0 then act s c []
      else match c.data with
        | some (.data bs) => if bs.length = need c then act s c bs else finishCmd s set c 9 0 0
        | some _ => finishCmd s set c 9 0 0
        | none =>
          if c.asked then s
          else
            let h := s.hset set
            let s := s.setHset set { h with cmds := match h.cmds with | x :: xs => { x with asked := true } :: xs | [] => [] }
            hostAsk s (.cmdData set c.idx) (cmdAddr c) (need c)

def opIs (n : Nat) (c : HCmd) : Bool := cmdOp c == n

-- Memories (R332, R345) ---------------------------------------------------------------------------------------------------------

/-- An operation on a target's Plate, Tray or DRAM waits while the target's epoch advances (R345). -/
def memOp (s : State) (set op : Nat) (early : State → HCmd → Option Nat) (need : HCmd → Nat)
    (act : State → HCmd → List Byte → State) : State :=
  hostOp s set (fun c => opIs op c && !s.ks.adv.contains (cmdTarget set c)) early need act

/-- Operands of PLATE_RD and PLATE_WR. -/
def plateBad (set : Nat) (_ : State) (c : HCmd) : Option Nat :=
  if 256 < cmdTarget set c || 65536 < cmdLen c || cmdLen c % 8 != 0 || cmdArg c % 8 != 0 || cmdAddr c % 8 != 0 ||
      2 ^ 24 < cmdArg c + cmdLen c then some 2
  else none

/-- Status of a Plate fault: UNMAPPED, WPROT or POISON. -/
def plateStatus (e : Nat) : Nat := e + 3

/-- Read words of a Plate space until one faults. -/
def plateOut (t : Nat) : Nat → Nat → State → List Byte → State × List Byte × Option Nat
  | 0, _, s, acc => (s, acc, none)
  | n + 1, a, s, acc =>
    match plateRead s t a 8 2 with
    | (.ok v, s) => plateOut t n (a + 8) s (acc ++ leBytes 8 v)
    | (.error e, s) => (s, acc, some e)

/-- Write words to a Plate space until one faults: the bytes written. -/
def plateIn (t : Nat) (bs : List Byte) : Nat → Nat → Nat → State → State × Nat × Option Nat
  | 0, _, k, s => (s, k, none)
  | n + 1, a, k, s =>
    match plateWrite (sampleDue s s.nowCyc) t a 8 (imgVal bs k 8) 2 with
    | (.ok _, s) => plateIn t bs n (a + 8) (k + 8) s
    | (.error e, s) => (s, k, some e)

def plateRd (s : State) (set : Nat) : State :=
  memOp s set 1 (plateBad set) (fun _ => 0) fun s c _ =>
    let (s, bs, e) := plateOut (cmdTarget set c) (cmdLen c / 8) (cmdArg c) s []
    let s := hostWrite s (cmdAddr c) bs
    match e with
    | none => finishCmd s set c 0 bs.length 0
    | some e => finishCmd s set c (plateStatus e) bs.length (cmdArg c + bs.length)

/-- How many of a copy's remaining words land now: all of them, but where a plan boundary is due the copy crosses it, and only a
number that the manual leaves open lands before (R341; log entry 134). -/
def copyNow (s : State) (n : Nat) : Nat × State :=
  if s.tai < s.plan.next || s.stopped then (n, s) else let (x, s) := s.draw; (x.toNat % (n + 1), s)

def plateWr (s : State) (set : Nat) : State :=
  memOp s set 2 (plateBad set) cmdLen fun s c bs =>
    let left := (cmdLen c - c.put) / 8
    let (k, s) := copyNow s left
    let (s, n, e) := plateIn (cmdTarget set c) bs k (cmdArg c + c.put) c.put s
    match e with
    | some e => finishCmd s set c (plateStatus e) n (cmdArg c + n)
    | none => if k < left then headPut s set n else finishCmd s set c 0 n 0

/-- Operands of TRAY_RD and TRAY_WR; a queued or running context is BUSY. -/
def trayBad (set : Nat) (s : State) (c : HCmd) : Option Nat :=
  let t := cmdTarget set c
  let (co, k) := s.place t
  if 255 < t || cmdArg c % 8 != 0 || cmdLen c % 8 != 0 || cmdAddr c % 8 != 0 || 0x3F00 < cmdArg c + cmdLen c then some 2
  else if ctxBusy s co k then some 7
  else none

/-- Read words of a slice until one is in error. -/
def trayOut (c : Nat) : Nat → Nat → State → List Byte → State × List Byte × Bool
  | 0, _, s, acc => (s, acc, true)
  | n + 1, a, s, acc =>
    let (ok, s) := trayCheck s c a
    if ok then trayOut c n (a + 8) s (acc ++ trayBytes s c a 8) else (s, acc, false)

def trayRd (s : State) (set : Nat) : State :=
  memOp s set 3 (trayBad set) (fun _ => 0) fun s c _ =>
    let (co, k) := s.place (cmdTarget set c)
    let (s, bs, ok) := trayOut co (cmdLen c / 8) (16384 * k + cmdArg c) (idleExit s) []
    let s := hostWrite s (cmdAddr c) bs
    if ok then finishCmd s set c 0 bs.length 0 else finishCmd s set c 6 bs.length (cmdArg c + bs.length)

def trayWr (s : State) (set : Nat) : State :=
  memOp s set 4 (trayBad set) cmdLen fun s c bs =>
    let (co, k) := s.place (cmdTarget set c)
    let a := 16384 * k + cmdArg c
    finishCmd (trayFresh (putTrayBytes (idleExit s) co a bs) co a (cmdLen c)) set c 0 (cmdLen c) 0

def dramBad (set : Nat) (_ : State) (c : HCmd) : Option Nat :=
  if 256 < cmdTarget set c || 65536 < cmdLen c || cmdAddr c % 8 != 0 then some 2 else none

/-- Bytes of a DRAM access that lie in one unit. -/
def dramRun (p n : Nat) : Nat := min n (64 - p % 64)

/-- Read a DRAM window until the window ends (4) or a unit is in error (6). -/
def dramOut (t : Nat) : Nat → Nat → Nat → State → List Byte → State × List Byte × Nat
  | 0, _, _, s, acc => (s, acc, 0)
  | fuel + 1, off, n, s, acc =>
    if n = 0 then (s, acc, 0)
    else match dramAddr s t off with
      | none => (s, acc, 4)
      | some p =>
        let k := dramRun p n
        match dramRead s t p k with
        | (some v, s) => dramOut t fuel (off + k) (n - k) s (acc ++ leBytes k v)
        | (none, s) => (s, acc, 6)

/-- Write a DRAM window: a whole unit replaces what stood there; a narrower write meets an error as a read does. -/
def dramIn (t : Nat) (bs : List Byte) : Nat → Nat → Nat → State → State × Nat × Nat
  | 0, _, i, s => (s, i, 0)
  | fuel + 1, off, i, s =>
    if bs.length ≤ i then (s, i, 0)
    else match dramAddr s t off with
      | none => (s, i, 4)
      | some p =>
        let k := dramRun p (bs.length - i)
        let (ok, s) := if k = 64 then (true, s) else dramCheck s (p / 64)
        if ok then dramIn t bs fuel (off + k) (i + k) (dramWrite s t p k (imgVal bs i k)) else (s, i, 6)

def dramRd (s : State) (set : Nat) : State :=
  memOp s set 5 (dramBad set) (fun _ => 0) fun s c _ =>
    let (s, bs, e) := dramOut (cmdTarget set c) 1026 (cmdArg c) (cmdLen c) s []
    let s := hostWrite s (cmdAddr c) bs
    finishCmd s set c e bs.length (if e = 0 then 0 else cmdArg c + bs.length)

def dramWr (s : State) (set : Nat) : State :=
  memOp s set 6 (dramBad set) cmdLen fun s c bs =>
    let (s, n, e) := dramIn (cmdTarget set c) bs 1026 (cmdArg c) 0 s
    finishCmd s set c e n (if e = 0 then 0 else cmdArg c + n)

-- Points and activations (R287, R288, R332) ---------------------------------------------------------------------------------------

def pointWr (s : State) (set : Nat) : State :=
  hostOp s set (opIs 8) (fun _ c => if bits (inl c 1) 13 3 != 0 || sec ≤ inl c 4 then some 2 else none) (fun _ => 0) fun s c _ =>
    let w := inl c 0
    let ts := (inl c 5 + inl c 6 % 65536 * 2 ^ 32) * sec + inl c 4
    let v := BitVec.ofNat 64 (inl c 2 + 2 ^ 32 * inl c 3)
    let wr : PtWrite := ⟨.host, w % 2 ^ 17, if bit w 31 then none else some v, if bit w 30 then none else some (inl c 1 % 2 ^ 13),
      if ts = 0 then none else some ts, if set = 256 then none else some set, none, .host set, 0, none, 0, none⟩
    waitCmd { s with ptq := s.ptq ++ [wr] } set c none false

/-- A command that only set 256 has. -/
def supOnly (set : Nat) : Option Nat := if set = 256 then none else some 3

def pointCfg (s : State) (set : Nat) : State :=
  hostOp s set (opIs 9) (fun _ _ => supOnly set) (fun _ => 0) fun s c _ =>
    waitCmd (digestBusy (holdPtCfg s (cmdArg c % 2 ^ 17) (some (w32 (inl c 0))) (some (w32 (inl c 1))) (some (w32 (inl c 2)))))
      set c none true

/-- How many sources a kind of R49 has: SV streams, Burst SV blocks, watched points, plan slots; none for another kind. -/
def srcCount : Nat → Nat
  | 1 => 512 | 2 => 256 | 3 => 131072 | 4 => 256 | _ => 0

def actCfg (s : State) (set : Nat) : State :=
  hostOp s set (opIs 10) (fun _ c => (supOnly set).orElse fun _ =>
    if srcCount (bits (cmdArg c) 28 4) ≤ cmdArg c % 2 ^ 17 then some 2 else none) (fun _ => 0) fun s c _ =>
    let m := (bits (cmdArg c) 28 4, cmdArg c % 2 ^ 17, bit (inl c 0) 0)
    waitCmd (digestBusy { s with hi := { s.hi with bgPend := s.hi.bgPend ++ [m] } }) set c none true

-- Records (R243–R255, R332, R334) ------------------------------------------------------------------------------------------------------

/-- Number of records of a kind, and the bytes that a command brings for one. -/
def recCount : Nat → Nat
  | 1 => 512 | 2 => 4096 | 3 => 1024 | _ => 256
def recBytes : Nat → Nat
  | 1 => 48 | 2 => 40 | 3 => 224 | _ => 32
def recWords : Nat → Nat
  | 1 => 12 | 2 => 10 | _ => 8

/-- The valid record at an index names the tenant. -/
def recMine (s : State) (set kind i : Nat) : Bool :=
  let w := wd (s.recw kind i) 0
  bit w 31 && bits w 16 8 == set

def recInstall (s : State) (set kind : Nat) : State :=
  hostOp s set (opIs (15 + kind))
    (fun s c =>
      if recCount kind ≤ cmdArg c || cmdAddr c % 8 != 0 then some 2
      else if set != 256 && !recMine s set kind (cmdArg c) then some 3
      else none)
    (fun _ => recBytes kind) fun s c bs =>
      let ws := wordsOf bs (recWords kind)
      if set != 256 && bits (wd ws 0) 16 8 != set then finishCmd s set c 3 0 0
      else waitCmd (digestBusy s) set c (some ⟨kind, cmdArg c, ws, bs.drop (4 * recWords kind)⟩) true

def recStat (s : State) (set : Nat) : State :=
  hostOp s set (opIs 0x14)
    (fun s c =>
      let kind := bits (cmdArg c) 28 4
      let i := cmdArg c % 65536
      if kind = 0 || 4 < kind || recCount kind ≤ i || cmdAddr c % 8 != 0 then some 2
      else if set != 256 && !recMine s set kind i then some 3
      else none)
    (fun _ => 0) fun s c _ =>
      let kind := bits (cmdArg c) 28 4
      let i := cmdArg c % 65536
      let x := s.rst kind i
      let s := hostWrite s (cmdAddr c) (x.cnt.flatMap (leBytes 4))
      let s := if bit (wd c.w 0) 10 then s.setRst kind i { x with cnt := List.replicate 8 0 } else s
      finishCmd s set c 0 32 0

-- Instruction RAM (R162, R332) ---------------------------------------------------------------------------------------------------------

/-- Word w of core co lies in tenant t's own window. -/
def ownWindow (s : State) (t co w : Nat) : Bool :=
  let (c, k) := s.place t
  c == co && s.e fEZ_IWIN_BASE c k ≤ w / 256 && w / 256 ≤ s.e fEZ_IWIN_LIMIT c k

def imemWords (c : HCmd) : List Nat := (List.range (cmdLen c / 4)).map (bits (cmdArg c) 2 14 + ·)

def imemWr (s : State) (set : Nat) : State :=
  hostOp s set (opIs 0x18)
    (fun s c =>
      let co := bits (cmdArg c) 16 5
      if cmdLen c % 4 != 0 || 65536 < 4 * bits (cmdArg c) 2 14 + cmdLen c || cmdAddr c % 8 != 0 then some 2
      else if set != 256 && !(imemWords c).all (ownWindow s set co) then some 3
      else if (imemWords c).any (imemBusy s co) then some 7
      else none)
    cmdLen fun s c bs =>
      let co := bits (cmdArg c) 16 5
      let w0 := bits (cmdArg c) 2 14
      let s := (List.range (cmdLen c / 4)).foldl (fun s i => putImem s co (w0 + i) (imgVal bs (4 * i) 4)) (idleExit s)
      finishCmd (digestBusy s) set c 0 (cmdLen c) 0

-- Plans (R362) ---------------------------------------------------------------------------------------------------------------------------

/-- The sections of an image's body from offset `o` on: kind, index and length of each; none where they do not fill it
exactly (R362). -/
def planSections (bs : List Byte) (last : Nat) : Nat → Nat → Option (List (Nat × Nat))
  | 0, o => if o = last then some [] else none
  | n + 1, o =>
    let e := o + 8 + imgVal bs (o + 4) 4
    if last < e then none else (planSections bs last n e).map fun r => (imgVal bs o 2, imgVal bs (o + 2) 2) :: r

/-- The format of an image (R362): MAGIC, FMT, NSEC, PLAN_ID, the zeros, BLEN, and the sections with their kinds. -/
def planForm (bs : List Byte) : Option (List (Nat × Nat)) :=
  let b := imgVal bs 8 4
  if imgVal bs 0 4 != 0x4E414C50 || imgVal bs 4 1 != 1 || imgVal bs 5 1 = 0 || imgVal bs 6 2 = 0 ||
      (imgBytes bs 12 20).any (· != 0) || bs.length != 32 + b + 128 then none
  else (planSections bs (32 + b) (imgVal bs 5 1) 32).filter fun ss => ss.all fun e => 1 ≤ e.1 && e.1 ≤ 4

/-- One plan's sections fit the device: period (R34), slots (R35) and spans (R85). -/
def planFits (p : Plan) : Bool :=
  100000 ≤ p.period && p.period ≤ 100000000 && p.period % 1000 == 0 && sec % p.period == 0 && p.slots.length ≤ 256 &&
  p.slots.all fun x => x.offset < p.period &&
    x.spans.all (fun e => e.2 ≤ 5 && e.1.val % 2 ^ e.2 == 0 && e.1.val + 2 ^ e.2 ≤ 32) &&
    !twice (x.spans.flatMap fun e => (List.range (2 ^ e.2)).map (e.1.val + ·))

/-- The image's sections agree with one another and with the device: one primary plan, for no lost cluster, and no two plans
for one set or number; no tenant, point or slot twice; the windows of decision sections in range (R216). What the sections
hold comes decoded, and is what their kinds and indices say (log entry 14). -/
def planAgrees (ss : List (Nat × Nat)) (im : PlanImage) : Bool :=
  im.plans.all planFits && im.plans.any (fun p => p.number == 0 && p.lost == 0) &&
  !twice (im.plans.map (·.number)) && !twice (im.plans.map fun p => p.lost.toNat) &&
  (ss.filter fun e => e.1 == 1).length == 1 &&
  ((ss.filter fun e => e.1 == 2).map Prod.snd) == ((im.plans.map (·.number)).filter (· != 0)) &&
  (ss.any (fun e => e.1 == 3) || (im.dsec.isEmpty && im.handlers.isEmpty)) &&
  (ss.any (fun e => e.1 == 4) || (im.points.isEmpty && im.slots.isEmpty)) &&
  !twice (im.dsec.map fun e => e.1.val) && im.dsec.all (fun e => e.2 < 1024) && !twice (im.handlers.map fun e => e.1.val) &&
  !twice (im.points.map Prod.fst) && im.points.all (fun e => e.1 < 131072) && !twice (im.slots.map Prod.fst) &&
  im.slots.all fun e => e.1 < 256

/-- The reason for which an image is refused, 0 where it passes; in TEST the vendor signs (R353). -/
def planReason (s : State) (bs : List Byte) (im : PlanImage) : Nat :=
  let n := bs.length
  match planForm bs with
  | none => 1
  | some ss =>
    if !(s.lc == 1 || s.lc == 3 || s.lc == 4) then 5
    else if !pubkeyOk s (s.lc != 1) (imgBytes bs (n - 128) 64) then 2
    else if !Config.ecdsaVerify (imgBytes bs (n - 128) 64) (Config.sha256 (bs.take (n - 64))) (bs.drop (n - 64)) then 3
    else if !planAgrees ss im then 4
    else if s.plan.waiting.isSome then 6
    else 0

/-- PLAN_LOAD (R362): the image's bytes are judged; what their sections hold is the operand's. -/
def planLoad (s : State) (set : Nat) (im : PlanImage) : State :=
  hostOp s set (opIs 0x20)
    (fun _ c => (supOnly set).orElse fun _ => if cmdAddr c % 8 != 0 then some 2 else none) cmdLen
    fun s c bs =>
      let r := planReason s bs im
      if r != 0 then
        finishCmd (raise ((s.setF fKS_LASTREF_REASON r).setF fKS_LASTREF_PLAN_ID (imgVal bs 6 2)) kKS_STAT_PLANREF) set c 8 0 0
      else waitCmd (digestBusy { s with plan := { s.plan with
        waiting := some { im with planId := BitVec.ofNat 16 (imgVal bs 6 2), bytes := bs } } }) set c none true

-- Keys (R348, R349) -----------------------------------------------------------------------------------------------------------------------

/-- KEY_LOAD of kind k. -/
def keyOp (k : Nat) (c : HCmd) : Bool := opIs 0x21 c && bits (cmdArg c) 28 4 == k

/-- A blob's fields hold the values of R349. -/
def blobOk (bs : List Byte) : Bool :=
  let alg := imgVal bs 1 1
  imgVal bs 0 1 ≤ 1 && alg ≤ 1 && imgVal bs 2 1 == (if alg = 0 then 32 else 16) && imgVal bs 3 1 == 0 &&
    (imgVal bs 4 2 ≤ 0x100 || imgVal bs 4 2 == 0x1FF) && imgVal bs 12 4 < sec && imgVal bs 16 16 == 0

/-- Load one key of a pair. -/
def putKey (s : State) (pair : Nat) (bs : List Byte) : State :=
  let k := s.key pair
  let key := some (imgVal bs 1 1, imgBytes bs 32 (imgVal bs 2 1))
  let o := imgVal bs 4 2
  if imgVal bs 0 1 = 0 then s.setKey pair { k with owner := o, cur := key }
  else s.setKey pair { k with owner := o, nxt := key, chg := imgVal bs 6 6 * sec + imgVal bs 12 4 }

/-- Rights, state and length of a KEY_LOAD. -/
def keyBad (set n : Nat) (lcs : List Nat) (s : State) (c : HCmd) : Option Nat :=
  (supOnly set).orElse fun _ =>
    if !lcs.contains s.lc || s.ks.wipe.isSome then some 0xA
    else if n != 0 && (cmdLen c != n || cmdAddr c % 8 != 0) then some 2
    else none

/-- KEY_LOAD kind 1; a kind outside 1–3 is BADOP. -/
def keyLoad (s : State) (set : Nat) : State :=
  let other (c : HCmd) : Bool := opIs 0x21 c && !(keyOp 1 c || keyOp 2 c || keyOp 3 c)
  match headCmd s set other with
  | some c => finishCmd s set c (if set = 256 then 2 else 3) 0 0
  | none =>
    hostOp s set (keyOp 1) (keyBad set 64 [3, 4]) (fun _ => 64) fun s c bs =>
      if blobOk bs then finishCmd (putKey s (cmdArg c % 2048) bs) set c 0 64 0 else finishCmd s set c 2 0 0

/-- KEY_LOAD kind 2: a hash is fused into the next free slot. -/
def keyFuse (s : State) (set : Nat) : State :=
  hostOp s set (keyOp 2) (keyBad set 32 [2, 4]) (fun _ => 32) fun s c bs =>
    match (List.range 4).find? fun i => !bit s.ks.cprog i with
    | none => finishCmd s set c 8 0 0
    | some i =>
      finishCmd { s with ks := { s.ks with cprog := s.ks.cprog + 2 ^ i
                                           chash := tput s.ks.chash i (BitVec.ofNat 256 (beVal bs)) } } set c 0 32 0

/-- KEY_LOAD kind 3: a customer key slot is revoked, but not the last unrevoked one. -/
def keyRevoke (s : State) (set : Nat) : State :=
  hostOp s set (keyOp 3) (keyBad set 0 [4]) (fun _ => 0) fun s c _ =>
    let i := cmdArg c % 4
    if !((List.range 4).any fun j => j != i && bit s.ks.cprog j && !bit s.ks.crev j) then finishCmd s set c 8 0 0
    else finishCmd { s with ks := { s.ks with crev := s.ks.crev ||| 2 ^ i } } set c 0 0 0

/-- CMD_NOP; other OP values complete with BADOP. -/
def cmdNop (s : State) (set : Nat) : State :=
  let known : List Nat := [0, 1, 2, 3, 4, 5, 6, 8, 9, 10, 0x10, 0x11, 0x12, 0x13, 0x14, 0x18, 0x20, 0x21]
  match headCmd s set fun c => opIs 0 c || !known.contains (cmdOp c) with
  | some c => finishCmd s set c (if cmdOp c = 0 then 0 else 2) 0 0
  | none => s

def execCmdNop (set : Fin 257) (s : State) : Res := done (cmdNop s set)
def execPlateRd (set : Fin 257) (s : State) : Res := done (plateRd s set)
def execPlateWr (set : Fin 257) (s : State) : Res := done (plateWr s set)
def execTrayRd (set : Fin 257) (s : State) : Res := done (trayRd s set)
def execTrayWr (set : Fin 257) (s : State) : Res := done (trayWr s set)
def execDramRd (set : Fin 257) (s : State) : Res := done (dramRd s set)
def execDramWr (set : Fin 257) (s : State) : Res := done (dramWr s set)
def execPointWr (set : Fin 257) (s : State) : Res := done (pointWr s set)
def execPointCfg (set : Fin 257) (s : State) : Res := done (pointCfg s set)
def execActCfg (set : Fin 257) (s : State) : Res := done (actCfg s set)
def execSvSub (set : Fin 257) (s : State) : Res := done (recInstall s set 1)
def execGooseSub (set : Fin 257) (s : State) : Res := done (recInstall s set 2)
def execGoosePub (set : Fin 257) (s : State) : Res := done (recInstall s set 3)
def execBsvSub (set : Fin 257) (s : State) : Res := done (recInstall s set 4)
def execRecStat (set : Fin 257) (s : State) : Res := done (recStat s set)
def execImemWr (set : Fin 257) (s : State) : Res := done (imemWr s set)
def execPlanLoad (set : Fin 257) (img : PlanImage) (s : State) : Res := done (planLoad s set img)
def execKeyLoadKey (set : Fin 257) (s : State) : Res := done (keyLoad s set)
def execKeyLoadFuse (set : Fin 257) (s : State) : Res := done (keyFuse s set)
def execKeyLoadRevoke (set : Fin 257) (s : State) : Res := done (keyRevoke s set)

end Sys2Proof.Machine
end

