-- ==== Sys2Proof/Machine/Proof.lean ====
section
/-! DEFINITION. The proof of each owner, the proof root, and the proof beacon (R358–R360). -/

namespace Sys2Proof.Machine
open Sys2Proof

-- Proofs (R358) -----------------------------------------------------------------------------------------------------------

/-- The digest of a section: 32 zero bytes where it has no content. -/
def sectionDigest (bs : List Byte) : List Byte :=
  if bs.isEmpty then List.replicate 32 0 else digestBytes (Config.sha256 bs)

def wordsLe (ws : List Nat) : List Byte := ws.flatMap (leBytes 4)

/-- Section 1: the words of o's instruction window. -/
def proofWindow (s : State) (o : Nat) : List Byte :=
  let (c, k) := s.place o
  let b := s.e fEZ_IWIN_BASE c k
  mread s.imem (c * 65536 + 1024 * b) (1024 * (s.e fEZ_IWIN_LIMIT c k + 1 - b))

/-- Section 2: the registers of o's context. -/
def proofCtx (s : State) (o : Nat) : List Byte :=
  let (c, k) := s.place o
  wordsLe [(s.effReg rEZ_ENTRY c k).toNat, (s.effReg rEZ_IWIN c k).toNat, (s.effReg rEZ_CTXCFG c k).toNat,
    (s.effReg rEZ_XCFG c k).toNat % 64, (s.effReg rDLM_TN_CFG o 0).toNat, (s.effReg rNEG_TN_CFG o 0).toNat]

/-- Section 3: the map and the DRAM window of o. -/
def proofMap (s : State) (o : Nat) : List Byte :=
  wordsLe (((List.range 64).map fun i => (s.effReg rSHM_MAP o i).toNat) ++ [(s.effReg rTN_DRAM o 0).toNat])

/-- The valid records whose TENANT is o, by kind and then index. -/
def ownRecs (s : State) (o : Nat) : List (Nat × List Word) :=
  s.recs.filter fun (_, ws) => bit (wd ws 0) 31 && bits (wd ws 0) 16 8 == o

/-- Section 4: those records, a publication with its template. -/
def proofRecs (s : State) (o : Nat) : List Byte :=
  (ownRecs s o).flatMap fun (k, ws) =>
    wordsLe (ws.map (·.toNat)) ++ (if k / 65536 == 3 then (tfind s.tmpls (k % 65536)).getD [] else [])

/-- Datasets that a record names (R247, R249). -/
def recDatasets (kind : Nat) (ws : List Word) : List Nat :=
  if kind = 2 then [bits (wd ws 7) 0 13]
  else if kind = 3 then [bits (wd ws 4) 0 13, bits (wd ws 4) 16 13]
  else []

/-- Section 5: the directory entries and members of the datasets that those records name. -/
def proofSets (s : State) (o : Nat) : List Byte :=
  let ds := ((ownRecs s o).flatMap fun (k, ws) => recDatasets (k / 65536) ws).eraseDups.mergeSort (fun a b => a ≤ b)
  ds.flatMap fun d => wordsLe ((s.effReg rCS_DSDIR d 0).toNat :: dsMembers s d)

/-- Section 6 + b: words 5, 6 and 7 of o's points of block b, CHG taken as 0. -/
def proofPoints (s : State) (o b : Nat) : List Byte :=
  (s.points.filter fun (i, p) => i / 1024 == b && p.owner == o).flatMap fun (_, p) =>
    wordsLe [p.dead.toNat, p.ty * 2 ^ 16 + p.owner, p.flags]

/-- Owner o has the activation source `idx` of a kind (R19, R49): the record's tenant, the point's owner, or a tenant that the
plan slot posts. -/
def sourceOf (s : State) (o kind idx : Nat) : Bool :=
  match kind with
  | 1 => bits (wd (s.recw 1 idx) 0) 16 8 == o
  | 2 => bits (wd (s.recw 4 idx) 0) 16 8 == o
  | 3 => (s.pt idx).owner == o
  | 4 => match (curPlan s).bind fun p => (slotsOf p)[idx]? with
    | some x => x.posts.any fun t => t.val == o
    | none => false
  | _ => false

/-- Section 134: the background marks of o's sources. -/
def proofMarks (s : State) (o : Nat) : List Byte :=
  (s.hi.bg.filter fun (k, i) => sourceOf s o k i).flatMap fun (k, i) => leBytes 4 (k * 2 ^ 28 + i)

/-- The proof of owner o. -/
def proofOf (s : State) (o : Nat) : BitVec 256 :=
  let t := o < 256
  Config.sha256 (
    sectionDigest (if t then proofWindow s o else []) ++ sectionDigest (if t then proofCtx s o else []) ++
    sectionDigest (proofMap s o) ++ sectionDigest (proofRecs s o) ++ sectionDigest (proofSets s o) ++
    (List.range 128).flatMap (fun b => sectionDigest (proofPoints s o b)) ++ sectionDigest (proofMarks s o))

-- The root (R359) -----------------------------------------------------------------------------------------------------------

/-- Whether the device configuration D_257 takes a register's fields in: not TN, KS, LC or HI, and no section 1 to 3. -/
def cfgReg (r : Reg) : Bool :=
  !(0x900000 ≤ r.base && r.base < 0xB00000) &&
  !([rEZ_ENTRY, rEZ_IWIN, rEZ_CTXCFG, rEZ_XCFG, rDLM_TN_CFG, rNEG_TN_CFG, rSHM_MAP].any fun x => x.base == r.base)

/-- The datasets that section 5 of some owner holds: those that valid records name. -/
def namedSets (s : State) : List Nat :=
  ((s.recs.filter fun (_, ws) => bit (wd ws 0) 31).flatMap fun (k, ws) => recDatasets (k / 65536) ws).eraseDups

/-- Element i of a register lies in section 5 (R358): a directory entry of a named dataset, or a member of one. -/
def inNamedSet (s : State) (ds : List Nat) (r : Reg) (i : Nat) : Bool :=
  if r.base = rCS_DSDIR.base then ds.contains i
  else if r.base = rCS_DSMEM.base then ds.any fun d =>
    let e := (s.effReg rCS_DSDIR d 0).toNat
    bit e 31 && bits e 0 16 ≤ i && i < bits e 0 16 + bits e 16 7
  else false

/-- The RW and RWL fields of a register. -/
def cfgMask (r : Reg) : Nat :=
  r.flds.foldl (fun a f => if f.acc == .rw || f.acc == .rwl then a + (2 ^ (f.hi - f.lo + 1) - 1) * 2 ^ f.lo else a) 0

/-- Every RW and RWL field of D_257, in offset order. -/
def cfgBytes (s : State) : List Byte :=
  let ds := namedSets s
  let es := (allRegs.filter fun r => cfgReg r && cfgMask r != 0).flatMap fun r =>
    ((List.range r.n).filter fun i => !inNamedSet s ds r i).flatMap fun i => (List.range r.m).map fun j =>
      (r.base + i * r.st + j * r.st2, Nat.land (s.reg r i j).toNat (cfgMask r))
  (es.mergeSort fun a b => a.1 ≤ b.1).flatMap fun e => leBytes 4 e.2

/-- D_i of R359. -/
def leafData (s : State) (proofs : Nat → BitVec 256) (i : Nat) : List Byte :=
  if i < 257 then digestBytes (proofs i)
  else if i = 257 then digestBytes (Config.sha256 (cfgBytes s))
  else if i = 258 then sectionDigest s.ks.vendor
  else if i = 259 then sectionDigest s.ks.customer
  else if i = 260 then
    if s.ks.planImg.isEmpty then List.replicate 32 0
    else digestBytes (Config.sha256 (s.ks.planImg ++ [BitVec.ofNat 8 s.plan.fb]))
  else List.replicate 32 0

/-- Node i of the level that has 2^h leaves below it. -/
def merkle (leaf : Nat → List Byte) : Nat → Nat → BitVec 256
  | 0, i => Config.sha256 (0 :: leBytes 2 i ++ leaf i)
  | h + 1, i => Config.sha256 (1 :: digestBytes (merkle leaf h (2 * i)) ++ digestBytes (merkle leaf h (2 * i + 1)))

/-- The proof root, a Merkle tree of 512 leaves. -/
def proofRoot (s : State) (proofs : Nat → BitVec 256) : BitVec 256 := merkle (leafData s proofs) 9 0

/-- Proof head: bytes 0–7 of the root (R359). -/
def proofPrefix (s : State) : List Byte := (digestBytes s.ks.root).take 8

/-- The proofs and the root at a boundary: a change of the root sets PCHG. While digests are unfinished nothing that they
touch counts as installed, and the proofs stand (R358). -/
def proveAll (s : State) : State :=
  if s.fb fKS_PSTAT_BUSY then s
  else
  let ps : Tab (BitVec 256) := (List.range 257).map fun o => (o, proofOf s o)
  let root := proofRoot s (fun o => (tfind ps o).getD 0)
  let old := s.ks.root
  let s := { s with ks := { s.ks with proof := ps, root := root } }
  if root = old then s else raise s kKS_STAT_PCHG

-- The beacon (R360) -----------------------------------------------------------------------------------------------------------

/-- Offsets 0–37 of a beacon. -/
def beaconBody (s : State) : List Byte :=
  let hd := [2, 1, BitVec.ofNat 8 (4 * b2n (s.fb fKS_BCN_TAG)), BitVec.ofNat 8 (healthCode s)]
  hd ++ beBytes 8 devIdNat ++ proofPrefix s ++
    beBytes 2 (match s.plan.img with | some im => im.planId.toNat | none => 0) ++ beBytes 1 s.plan.fb ++ beBytes 1 s.lc ++
    beBytes 4 s.ks.bcnSeq ++ beBytes 6 (taiSec s.tai) ++ beBytes 4 0

/-- The beacon of port p; none where its tag has no HMAC key. -/
def beaconOf (s : State) (p : Nat) : Option Frame :=
  let body := beaconBody s
  let pair := s.f fKS_BCN_KEY
  let hdr := beBytes 6 0x034E56000002 ++ beBytes 6 (portMac s p).toNat ++ [0x88, 0xB5]
  let frame (bs : List Byte) : Frame :=
    mkFrame 0x034E56000002#48 (portMac s p) [] 0x88B5 .raw (14 + bs.length + 4) (hdr ++ bs)
  if s.fb fKS_BCN_TAG then
    match currentKey s pair with
    | some (0, key) => some (frame (body ++ beBytes 4 pair ++ (hmac key body).take 16))
    | _ => none
  else some (frame body)

/-- BEACON_SEND (R360): at the TAI second each port of KS_BCN.PORTS sends one beacon in class 1; one whose tag finds no
key is not sent and counts in EPn_TXLOST_CNT. -/
def beaconSend (s : State) : State :=
  if !s.fb fKS_BCN_EN || s.stopped || 2 ≤ pmState s then s
  else
    let s := nextSecond s
    let s' := (List.range 12).foldl (fun x p =>
      if !bit (s.f fKS_BCN_PORTS) p then x
      else match beaconOf s p with
        | some f => handLane x p ⟨f, 1, none, none, none, none, 0⟩
        | none => x.bump fEP_TXLOST_CNT_CNT p) s
    { s' with ks := { s'.ks with bcnSeq := (s.ks.bcnSeq + 1) % 2 ^ 32 } }

def execBeaconSend (s : State) : Res := done (beaconSend s)

end Sys2Proof.Machine
end

