-- ==== Sys2Proof/Machine/Boundary.lean ====
section
/-! DEFINITION. The plan boundary: what takes effect at it, and in which order (R34–R38, R44, R62, R104–R107, R243–R255,
R280, R288, R301, R334, R345, R347, R350, R356, R358, R362). -/

namespace Sys2Proof.Machine
open Sys2Proof

-- Capacity (R104–R107) ------------------------------------------------------------------------------------------------------

/-- Repaired clusters return (R104): they are no longer lost, and their pipes are usable. -/
def returnClusters (s : State) : State :=
  let r := s.f fSCH_CAP_RETURN
  let s := (s.setF fSCH_CAP_FAULTED (Nat.land (s.f fSCH_CAP_FAULTED) (255 - r))).setF fSCH_CAP_RETURN 0
  (List.range 32).foldl (fun s p => if bit r (p / 4) then s.setF fVP_STAT_STATE 0 p else s) s

/-- The home, core·8 + context, that a plan gives a tenant (R10, R106): a fallback plan moves a tenant whose home core is
lost, and no other (R13). -/
def homeIn (p : Plan) (t : Nat) : Nat :=
  if bit p.lost.toNat (t / 32) then
    match p.moves.find? fun m => m.1.val == t with
    | some m => m.2.val
    | none => t
  else t

/-- The context that holds tenant t's state now. -/
def holderOf (s : State) (t : Nat) : Nat :=
  ((List.range 256).find? fun i => i != t && (s.ctx (i / 8) (i % 8)).tenant == t).getD t

/-- Tenants whose home changes: homes and the migrations that this asks for (R106). -/
def moveHomes (s : State) (p : Plan) : State :=
  (List.range 256).foldl (fun s t =>
    let (c, k) := s.place t
    let d := homeIn p t
    if 8 * c + k = d then s
    else
      let src := holderOf s t
      { s with plan := { s.plan with
        homes := if d = t then tdel s.plan.homes t else tput s.plan.homes t d
        mig := s.plan.mig.filter (fun m => m.1 != t) ++ (if src = d then [] else [(t, src, d)]) } }) s

/-- Queued activations follow their tenants to other cores in trigger order; one that finds no room is recorded QFULL
(R104, R40). -/
def moveQueues (s : State) : State :=
  let away (c : Nat) (a : Act) : Bool := (s.place a.tenant).1 != c
  let go := (s.cores.flatMap fun (c, k) => k.queue.filter (away c)).mergeSort fun a b => a.trig ≤ b.trig
  let s := { s with cores := s.cores.map fun (c, k) => (c, { k with queue := k.queue.filter fun a => !away c a }) }
  go.foldl (fun s a =>
    let c := (s.place a.tenant).1
    if 64 ≤ (s.core c).queue.length then endHolds (miss s a 3 0xFFFFFFFF) else pushAct s c a) s

/-- Activations queued on a lost core that no plan moves are recorded CAP (R107). -/
def capQueues (s : State) : State :=
  let go := s.cores.flatMap fun (c, k) => if coreLost s c then k.queue else []
  let s := { s with cores := s.cores.map fun (c, k) => (c, if coreLost s c then { k with queue := [] } else k) }
  endHolds (go.foldl (fun s a => miss s a 6 0xFFFFFFFF) s)

/-- A plan of the image in effect is chosen. -/
def takePlan (s : State) (p : Plan) : State :=
  moveQueues (moveHomes { s with plan := { s.plan with fb := p.number, period := p.period } } p)

/-- The plan of an image for a set of lost clusters. -/
def planFor (im : PlanImage) (lost : BitVec 8) : Option Plan := im.plans.find? fun p => p.lost == lost

/-- The clusters that are lost now. -/
def lostNow (s : State) : BitVec 8 := BitVec.ofNat 8 (s.f fSCH_CAP_FAULTED)

/-- The plan of an image for the clusters that are lost; a fallback plan only while FBAUTO is 1 (R104). -/
def pickPlan (s : State) (im : PlanImage) : Option Plan :=
  if lostNow s != 0 && !s.fb fSCH_CTL_FBAUTO then none else planFor im (lostNow s)

/-- The boundary that is due is aligned to a plan's period (R34, R38). -/
def alignedTo (s : State) (p : Plan) : Bool := s.plan.next % sec % p.period == 0

/-- The plan of the image in effect for the lost clusters waits for an aligned boundary (R38). -/
def planLater (s : State) : Bool :=
  match s.plan.img with
  | some im => (match pickPlan s im with | some p => !alignedTo s p | none => false)
  | none => false

/-- The capacity change of R104, and the choice of plan where an image is installed: the fallback plan for the lost
clusters, at the first boundary that is aligned to its period; without one, or while FBAUTO is 0, the plan stays (a new
image's primary plan starts), NOFB is set, and what waits on a lost core is recorded CAP (R107). -/
def capacity (s : State) (fresh : Bool) : State :=
  let lost := lostNow s
  let lent := if s.fb fUB_LINK_UP then s.ub.offered else 0
  let lentChg := lent != s.f fSCH_CAP_LENT
  let lostChg := lost != s.plan.lost && !planLater s
  let s := s.setF fSCH_CAP_LENT lent
  let s := if lostChg then { s with plan := { s.plan with lost := lost } } else s
  let s := match s.plan.img with
    | none => s
    | some im =>
      if !(fresh || lostChg) then s
      else match pickPlan s im with
        | some p => takePlan s p
        | none =>
          let s := if fresh then (match planFor im 0 with | some p => takePlan s p | none => s) else s
          capQueues (raise s kSCH_STAT_NOFB)
  raiseIf (lentChg || lostChg) s kSCH_STAT_CAPCHG

-- Plans (R38, R362) ---------------------------------------------------------------------------------------------------------------

/-- Period of the plan with which an image takes effect: the one for the lost clusters, else its primary plan. -/
def imagePeriod (s : State) (im : PlanImage) : Nat :=
  match (pickPlan s im).orElse fun _ => planFor im 0 with | some p => p.period | none => sec

/-- Decision-section windows of an image go into NEG_TN_CFG.WIN (R216, R362). -/
def planWindows (s : State) (im : PlanImage) : State :=
  im.dsec.foldl (fun s (t, w) =>
    let s := s.setF fNEG_TN_CFG_WIN w t
    s.setEff rNEG_TN_CFG t.val 0 (fNEG_TN_CFG_WIN.ins (s.effReg rNEG_TN_CFG t.val 0) w)) s

/-- The waiting plan takes effect at a boundary that is aligned to its period, once its digests are done. -/
def installPlan (s : State) : Option State :=
  match s.plan.waiting with
  | some im =>
    if s.plan.next % sec % imagePeriod s im = 0 ∧ s.f fKS_PSTAT_BUSY = 0 then
      some (planWindows { s with plan := { s.plan with img := some im, waiting := none }
                                 ks := { s.ks with planImg := im.bytes } } im)
    else none
  | none => none

-- Registers that wait (R36, R62, R347) ----------------------------------------------------------------------------------------------

/-- A map entry loads (R62): as V = 0 where the map's owner does not own the sheet. -/
def loadMap (s : State) (k : Nat) (v : Word) : State :=
  let o := (k - rSHM_MAP.base) / 256
  let sheet := bits v.toNat 0 9
  if bit v.toNat 31 && (384 ≤ sheet || s.f fSHM_OWNER_OWNER sheet != o) then
    raise { s with eff := tput s.eff k (v &&& 0x7FFFFFFF#32) } kSHM_STAT_MAPDROP
  else { s with eff := tput s.eff k v }

/-- Whether owner o's window, as unit base and size, meets another valid window. -/
def windowMeets (s : State) (o b n : Nat) : Bool :=
  (List.range 257).any fun x => x != o && s.e fTN_DRAM_V x == 1 && b < s.e fTN_DRAM_BASE x + s.e fTN_DRAM_SIZE x &&
    s.e fTN_DRAM_BASE x < b + n

/-- A DRAM window loads (R347, R379): as V = 0 where it overlaps another or passes the installed DRAM, and while the
channel is not READY. -/
def loadWindow (s : State) (k : Nat) (v : Word) : State :=
  let o := (k - rTN_DRAM.base) / 16
  let b := bits v.toNat 0 12
  let n := bits v.toNat 16 8
  if bit v.toNat 31 && (s.f fDDR_STATE_STATE != 2 || dramGiB (s.reg rDDR_CFG 0 0) * 64 < b + n || windowMeets s o b n) then
    raise { s with eff := tput s.eff k (v &&& 0x7FFFFFFF#32) } kKS_STAT_WINREF
  else { s with eff := tput s.eff k v }

def isMapKey (k : Nat) : Bool := rSHM_MAP.base ≤ k && k < rSHM_MAP.base + 257 * 256
def isWindowKey (k : Nat) : Bool := rTN_DRAM.base ≤ k && k < rTN_DRAM.base + 257 * 16 && k % 16 == 8
def isDatasetKey (k : Nat) : Bool := rCS_DSDIR.base ≤ k && k < rCS_DSMEM.base + 65536 * 4

/-- Word 4 of an expected peer, which holds V and MISS. -/
def isExpKey (k : Nat) : Bool := rKS_EXP0.base ≤ k && k < rKS_EXP0.base + 64 * 32 && k % 32 == 16
/-- The silence of an expected peer counts from the instant at which its entry takes effect (R361; log entry 133). -/
def entryLoaded (s : State) (e : Nat) : State := { s with ks := { s.ks with heard := tput s.ks.heard e s.now } }

/-- One written register takes effect. -/
def loadKey (s : State) (k : Nat) : State :=
  match tfind s.regs k with
  | none => s
  | some v =>
    if isMapKey k then loadMap s k v
    else if isWindowKey k then loadWindow s k v
    else if isExpKey k then entryLoaded { s with eff := tput s.eff k v } ((k - rKS_EXP0.base) / 32)
    else { s with eff := tput s.eff k v }

/-- CT and STRICT of every context follow EZ_CTXCFG in effect. -/
def loadCtxCfg (s : State) : State :=
  { s with ctxs := (List.range 256).foldl (fun t i =>
      let x := s.ctx (i / 8) (i % 8)
      let y := { x with ct := s.e fEZ_CTXCFG_CT (i / 8) (i % 8) == 1, strict := s.e fEZ_CTXCFG_STRICT (i / 8) (i % 8) == 1 }
      if y = x then t else tput t i y) s.ctxs }

/-- The written registers take effect; old values of windows that move give way first. -/
def effRegs (s : State) (ks : List Nat) : State :=
  let s := { s with eff := ks.foldl (fun t k => if isWindowKey k then tdel t k else t) s.eff
                    newRegs := s.newRegs.filter fun k => !ks.contains k }
  loadCtxCfg ((ks.mergeSort fun a b => a ≤ b).foldl loadKey s)

/-- QREL lifts quarantine and sets the context's ML to 0 (R181). -/
def liftQuarantine (s : State) : State :=
  let s := (List.range 256).foldl (fun s i =>
    let (c, k) := (i / 8, i % 8)
    if s.fb fEZ_XCFG_QREL c k then
      (s.setF fEZ_XCFG_QREL 0 c k).modCtx c k fun x => { x with quar := false, ml := 0 }
    else s) s
  withdraw s 19

-- Records (R243–R255, R301, R350) ---------------------------------------------------------------------------------------------------

/-- Every byte of [a, a + n) lies in a mapped part of t's Plate space. -/
def mappedRange (s : State) (t a n : Nat) : Bool :=
  n = 0 || (a + n ≤ 2 ^ 24 && (List.range ((a + n - 1) / 2 ^ 18 - a / 2 ^ 18 + 1)).all fun i =>
    bit (s.effReg rSHM_MAP t (a / 2 ^ 18 + i)).toNat 31)

/-- The key pair that a record names is the tenant's own, or open to all (R350); an empty pair has no owner. -/
def recKeyOk (s : State) (t pair : Nat) : Bool :=
  let k := s.key pair
  (k.cur.isNone && k.nxt.isNone) || k.owner == t || k.owner == 0x100

/-- A member is allowed (R300, R301): T and Q not both, a listable type, and a point that the tenant owns or, where it is
published, may read. -/
def memberOk (s : State) (t : Nat) (pub : Bool) (e : Nat) : Bool :=
  let p := s.pt (bits e 0 17)
  !(bit e 17 && bit e 18) && 1 ≤ p.ty && p.ty ≤ 9 && (p.owner == t || (pub && bit p.flags 3))

/-- The checks of a dataset that a record uses (R301). -/
def datasetOk (s : State) (t : Nat) (pub : Bool) (d : Nat) : Bool :=
  let e := (s.effReg rCS_DSDIR d 0).toNat
  bit e 31 && 1 ≤ bits e 16 7 && bits e 16 7 ≤ 64 && bits e 0 16 + bits e 16 7 ≤ 65536 &&
    (dsMembers s d).all (memberOk s t pub)

/-- The datasets of a record pass. -/
def recSetsOk (s : State) (kind : Nat) (ws : List Word) : Bool :=
  (recDatasets kind ws).all (datasetOk s (bits (wd ws 0) 16 8) (kind == 3))

/-- Bytes of an SV ring (R244). -/
def svRingBytes (ws : List Word) : Nat :=
  let nsel := ((List.range 24).filter fun c => bit (wd ws 6) c).length
  let per := match bits (wd ws 4) 24 3 with | 0 => 4 | 1 => 8 | 2 => 2 | 3 => 4 | _ => 2
  per * nsel * bits (wd ws 5) 0 16

/-- Fields of a record outside their range, or a ring outside the mapped space, refuse it (R243–R255). -/
def recFieldsOk (s : State) (kind : Nat) (ws : List Word) : Bool :=
  let t := bits (wd ws 0) 16 8
  if kind = 1 then
    let n := bits (wd ws 3) 24 5
    1 ≤ n && n ≤ 24 && bits (wd ws 4) 24 3 ≤ 4 && bits (wd ws 5) 0 16 != 0 &&
    [4000, 4800, 12800, 14400].contains (bits (wd ws 5) 16 16) && recKeyOk s t (bits (wd ws 7) 21 11) &&
    mappedRange s t (bits (wd ws 4) 0 24) (svRingBytes ws)
  else if kind = 2 then recKeyOk s t (bits (wd ws 7) 21 11)
  else if kind = 3 then
    let t0 := bits (wd ws 5) 16 16
    1 ≤ t0 && t0 ≤ 60000 && 100 ≤ bits (wd ws 5) 0 16 && recKeyOk s t (bits (wd ws 6) 21 11) &&
    (List.range 6).all fun q =>
      pairRed s q = 0 || bit (wd ws 2) (16 + 2 * q) == bit (wd ws 2) (16 + 2 * q + 1)
  else
    bits (wd ws 4) 0 16 != 0 && recKeyOk s t (bits (wd ws 4) 21 11) && mappedRange s t (bits (wd ws 3) 0 24) (2 * bits (wd ws 4) 0 16)

/-- A record takes effect, or is refused (R301, R350): the answer tells which. A record that is not valid always loads.
Its running state starts anew; the counters, stNum and sqNum go on. -/
def installRec (s : State) (r : RecInst) : State × Bool :=
  let v := bit (wd r.words 0) 31
  let sets := !v || recSetsOk s r.kind r.words
  if sets && (!v || recFieldsOk s r.kind r.words) then
    let s := { s with recs := tput s.recs (recKey r.kind r.idx) r.words }
    let s := s.setRst r.kind r.idx { s.rst r.kind r.idx with seen := false, tal := none, last := 0, lastSq := 0 }
    let s := if r.kind = 3 then
        { s.setPub r.idx { s.pub r.idx with last := none, due := none, fb := false } with tmpls := tput s.tmpls r.idx r.tmpl }
      else s
    (s, true)
  else (raiseIf (!sets) s kCS_STAT_DSREF, false)

/-- Some key of dataset d is among those that took effect. -/
def datasetNew (s : State) (ks : List Nat) (d : Nat) : Bool :=
  let e := (s.effReg rCS_DSDIR d 0).toNat
  ks.any fun k => k == rCS_DSDIR.key d 0 ||
    (rCS_DSMEM.key (bits e 0 16) 0 ≤ k && k < rCS_DSMEM.key (bits e 0 16 + bits e 16 7) 0)

/-- Records in effect whose datasets have changed are checked again; one that fails is refused (R301). -/
def recheck (s : State) (ks : List Nat) : State :=
  let ds := ks.filter isDatasetKey
  if ds.isEmpty then s
  else s.recs.foldl (fun s (key, ws) =>
    let kind := key / 65536
    if bit (wd ws 0) 31 && (recDatasets kind ws).any (datasetNew s ds) && !recSetsOk s kind ws then
      raise { s with recs := tput s.recs key (ws.set 0 (w32 (wd ws 0 % 2 ^ 31))) } kCS_STAT_DSREF
    else s) s

/-- Background marks take effect (R142, R332). -/
def loadMarks (s : State) : State :=
  let bg := s.hi.bgPend.foldl (fun (l : List (Nat × Nat)) m =>
    let rest := l.filter fun x => x != (m.1, m.2.1)
    if m.2.2 then rest ++ [(m.1, m.2.1)] else rest) s.hi.bg
  { s with hi := { s.hi with bg := bg, bgPend := [] } }

/-- PLAN_ID of the plan in effect, 0 for none (R38). -/
def planId (s : State) : Nat := match s.plan.img with | some im => im.planId.toNat | none => 0

/-- A command that waited is complete (R334): DATA0 holds PLAN_ID. -/
def waitDone (s : State) (w : HWait) (ok : Bool) : State := complCmd s w.set w.cmd (if ok then 0 else 8) (planId s) 0

/-- The waiting commands: a PLAN_LOAD ends with its plan, the others once no digest is unfinished; records install now. -/
def endWaits2 (s : State) (plan busy : Bool) : State :=
  s.hi.waits.foldl (fun s w =>
    if !w.plan then { s with hi := { s.hi with waits := s.hi.waits ++ [w] } }
    else if opIs 0x20 w.cmd then
      if plan then waitDone s w true else { s with hi := { s.hi with waits := s.hi.waits ++ [w] } }
    else if busy then { s with hi := { s.hi with waits := s.hi.waits ++ [w] } }
    else match w.inst with
      | some r => let (s, ok) := installRec s r; waitDone s w ok
      | none => waitDone s w true) { s with hi := { s.hi with waits := [] } }

-- Owners and transitions (R345, R356) -------------------------------------------------------------------------------------------------

/-- Requested epoch advances count from this boundary (R345); one of an owner whose last is not installed waits on. -/
def startAdvances (s : State) : State :=
  (List.range 257).foldl (fun s o =>
    if s.fb fTN_CTL_ADV o && !s.ks.adv.contains o then
      { s.setF fTN_CTL_ADV 0 o with ks := { s.ks with
        cnt := tput s.ks.cnt o ((cntOf s o + 1) % 2 ^ 32), adv := s.ks.adv ++ [o] } }
    else s) s

/-- An accepted transition takes effect (R356). -/
def startTransition (s : State) : State :=
  match s.ks.pend with
  | some t => transitionGo { s with ks := { s.ks with pend := none, trans := some t } }
  | none => s

-- Deadline monitor (R36, R44, R51) -----------------------------------------------------------------------------------------------------

/-- Egress time in ns of the slowest port that a valid publication of tenant t names. -/
def slowestEgress (s : State) (t : Nat) : Option Nat :=
  s.recs.foldl (fun m (k, ws) =>
    if k / 65536 == 3 && bit (wd ws 0) 31 && bits (wd ws 0) 16 8 == t then
      some ((List.range 12).foldl (fun m p => if bit (wd ws 2) (16 + p) then max m (modeEgress (portMode s p)) else m) (m.getD 0))
    else m) none

/-- The egress allowance E of tenant t in timebase units (R44): egress build, 8 fabric cycles and 75 ns, and the MAC. -/
def egressE (s : State) (t : Nat) : Nat :=
  match slowestEgress s t with
  | some ns => 8 * s.cyc + (75 + ns) * nsU
  | none => 0

/-- The monitor's per-tenant settings for the period. -/
def loadMonitor (s : State) : State :=
  (List.range 256).foldl (fun s t =>
    let x := s.dl t
    let y := { x with cfg := s.effReg rDLM_TN_CFG t 0, e := egressE s t }
    if y = x then s else s.setDl t y) s

-- The boundary (R34) -----------------------------------------------------------------------------------------------------------------------

/-- The changes that wait take effect; while digests are unfinished, those that a proof covers wait on (R358). -/
def loadChanges (s : State) (plan : Bool) : State :=
  let busy := s.fb fKS_PSTAT_BUSY
  let ks := if busy then s.newRegs.filter noDigest else s.newRegs
  let s := effRegs s ks
  let s := if busy then s else loadMarks (s.ptcfg.foldl loadPtCfg { s with ptcfg := [] })
  let s := recheck s ks
  let s := if busy then s else liftQuarantine s
  endWaits2 s plan busy

/-- A new period starts now (R34). -/
def newPeriod (s : State) : State :=
  { s with plan := { s.plan with began := s.tai, beganM := s.now, slot := 0, inslot := false, endM := none,
                                 next := (s.tai / s.plan.period + 1) * s.plan.period } }

/-- PLAN_BOUNDARY (R34): the next period starts, and every change that waited takes effect. -/
def planBoundary (s : State) : State :=
  if s.stopped || 2 ≤ pmState s then s
  else
    let s := gapOver (applySetsec (s.advanceTai s.plan.next))
    let s := sampleDue s s.nowCyc
    let got := installPlan s
    let s := newPeriod (capacity (returnClusters (got.getD s)) got.isSome)
    let busy := s.fb fKS_PSTAT_BUSY
    let s := loadChanges s got.isSome
    let s := if busy then s else swapImages s
    proveAll (loadMonitor (startTransition (startAdvances (wakePinned s))))

def execPlanBoundary (s : State) : Res := done (planBoundary s)

end Sys2Proof.Machine
end

