-- ==== Sys2Proof/Machine/Branch.lean ====
section
/-! DEFINITION. Branches, jumps and hardware loops (R147, R150, R152–R156). -/

namespace Sys2Proof.Machine
open Sys2Proof

/-- PC + 4·offset for a signed word offset of n bits (R146). -/
def relTarget (pc n off : Nat) : Nat := uenc 32 ((pc : Int) + 4 * sval n off)

/-- B.cond: the verdict reaches the span at c + 3 whatever it is (R155). -/
def branch (s : State) (c : Nat) (cond : BitVec 4) (off : BitVec 22) : State :=
  issueI s c { flags := true, ends := true } fun s k pc =>
    let t := issueCyc s c
    let s := match (s.core c).br with | some b => applyVerdict s c b | none => s
    let taken := condTrue (s.thr c k).r.flags cond.toNat
    let s := s.modCore c fun y => { y with br := some ⟨t + 3, taken, false, pc + 4⟩ }
    if taken then .ok (jumpTo s c k (relTarget pc 22 off.toNat)) 2
    else .ok s (if ctOf s c k then 2 else 1)

/-- JAL and JALR: the link register receives PC + 4 (R147). -/
def jump (s : State) (c rd : Nat) (rs : List Nat) (tgt : RSet → Nat → Nat) : State :=
  issueI s c { reads := rs, writes := [rd], ends := true } fun s k pc =>
    let a := tgt (s.thr c k).r pc
    .ok (jumpTo (putReg s c k rd (w32 (pc + 4))) c k a) 2

/-- LOOPERR with a sub-cause: NEST 1, BOUND 2 (R154). -/
def loopFault (s : State) (c pc sub : Nat) : FaultRec :=
  { scalarFault cLOOPERR pc (fetchWord s c pc).toNat (issueCyc s c) with sub := sub }

/-- LOOP and LOOPI: the lowest free level, with the checks made whatever the count (R152, R154). -/
def startLoop (s : State) (c : Nat) (rs : List Nat) (off : BitVec 16) (count : RSet → Word) : State :=
  issueI s c { reads := rs, ends := true } fun s k pc =>
    let r := (s.thr c k).r
    let n := count r
    let le := w32 (pc + 4 * off.toNat)
    let inner := [2, 1, 0].find? fun l => (r.loop l).act
    match [0, 1, 2].find? fun l => !(r.loop l).act with
    | none => .flt (loopFault s c pc 1)
    | some l =>
      if off = 0 || (match inner with | some i => (r.loop i).le.toNat < le.toNat | none => false) then
        .flt (loopFault s c pc 2)
      else if n = 0 then .ok (setPc s c k (le.toNat + 4)) 2
      else .ok (s.modThr c k fun t => { t with r := t.r.setLoop l ⟨w32 (pc + 4), le, n, true⟩ })
        (if ctOf s c k then 2 else 1)

def execBCond (c : Core) (cond : BitVec 4) (off : BitVec 22) (s : State) : Res := runs s c (.bCond c cond off) (branch s c cond off)
def execJal (c : Core) (off : BitVec 26) (s : State) : Res :=
  runs s c (.jal c off) (jump s c 31 [] fun _ pc => relTarget pc 26 off.toNat)
def execJalr (c : Core) (rd ra : Reg5) (imm : BitVec 16) (s : State) : Res :=
  runs s c (.jalr c rd ra imm) (jump s c rd [ra] fun r _ => (r.get ra + imm.signExtend 32).toNat / 4 * 4)
def execLoopR (c : Core) (ra : Reg5) (off : BitVec 16) (s : State) : Res :=
  runs s c (.loopR c ra off) (startLoop s c [ra] off fun r => r.get ra)
def execLoopi (c : Core) (count : BitVec 10) (off : BitVec 16) (s : State) : Res :=
  runs s c (.loopi c count off) (startLoop s c [] off fun _ => w32 count.toNat)

end Sys2Proof.Machine
end

