-- ==== Sys2Proof/Machine/Ubeo.lean ====
section
/-! DEFINITION. The Ubeolyn link: sessions, heartbeats, roles and takeover, mirrors, checkpoints and lent activations
(R416–R427). -/

namespace Sys2Proof.Machine
open Sys2Proof

-- Link (R416, R418, R420) ---------------------------------------------------------------------------------------------------

def ubPeriodU (s : State) : Nat := s.f fUB_HB_PERIOD * 1000 * nsU

/-- The link's state of one session: numbers, epochs, credits of 16 KiB on VC 1–3, and buffers. -/
def ubFresh (u : UbSt) : UbSt :=
  { u with peer := none, hbEver := false, txSeq := [], txEp := [], rxSeq := [], rxEp := [], owed := []
           credit := [(1, 256), (2, 256), (3, 256)], replay := [], out := [] }

/-- UB_LINK_UP (R416): training ends on `width` (1 lanes 0–1, 2 lanes 2–3, 3 all four); a new SESSION is drawn. -/
def ubUp (s : State) (width : Nat) : State :=
  if !s.fb fUB_CTL_EN || unitBad s fBI_UNUSABLE_UB != 0 || s.fb fUB_LINK_UP || width = 0 || s.f fPM_DOM_STATE 15 != 0 || 2 ≤ pmState s then s
  else
    let (x, s) := s.draw
    let s := (s.setF fUB_LINK_UP 1).setF fUB_LINK_WIDTH width
    let s := { s with ub := { ubFresh s.ub with session := x, hbSent := s.now, hbLast := max s.ub.hbLast s.now } }
    raise s kUB_STAT_UP

/-- Every lent activation that has not returned is recorded CAP (R427). -/
def lentLost (s : State) : State :=
  let x := s.ub.lent.foldl (fun s a => if a.missed then s else miss s a 6 0xFFFFFFFF) s
  endHolds { x with ub := { x.ub with lent := [] } }

/-- The link goes down (R420, R427) and retrains while it is enabled. -/
def ubDown (s : State) : State :=
  if !s.fb fUB_LINK_UP then s
  else
    let s := (s.setF fUB_LINK_UP 0).setF fUB_LINK_WIDTH 0
    let s := if s.fb fUB_CTL_EN then s.bump fUB_LINK_RETRAINS else s
    lentLost (raise { s with ub := ubFresh s.ub } kUB_STAT_LINKDN)

/-- A write of UB_CTL (R416, R428): RWL; EN starts training with the role that ROLE gives, and a failed link stays off. -/
def ubCtl (s : State) (v : Word) : State :=
  if s.fb fUB_CTL_LOCK then s
  else
    let v := if unitBad s fBI_UNUSABLE_UB != 0 then v &&& 0xFFFFFFFE#32 else v
    let was := s.fb fUB_CTL_EN
    let s := s.setReg rUB_CTL 0 0 (v &&& 0xBF07FF03#32)
    let on := s.fb fUB_CTL_EN
    if on && !was then { s.setF fUB_LINK_ROLE (s.f fUB_CTL_ROLE) with ub := { s.ub with hbLast := s.now, take := none } }
    else if was && !on then ubDown s
    else s

-- Heartbeats (R421) -----------------------------------------------------------------------------------------------------------

/-- The 48-byte payload of a heartbeat. -/
def heartbeatBytes (s : State) : List Byte :=
  beBytes 8 devIdNat ++ proofPrefix s ++ beBytes 1 (healthCode s) ++ beBytes 1 (b2n (ubActive s)) ++ beBytes 2 (planId s) ++
    beBytes 1 s.plan.fb ++ beBytes 1 s.lc ++ beBytes 1 (s.e fUB_LEND_OFFER) ++ [0] ++ beBytes 6 (taiSec s.tai) ++ [0, 0] ++
    beBytes 4 (taiNs s.tai) ++ beBytes 4 s.ub.hbCount ++ beBytes 8 s.ub.session.toNat

/-- HEARTBEAT_SEND: PERIOD µs after the last; the first of a session lets the other channels' frames go (R418). -/
def heartbeatSend (s : State) : State :=
  if !s.fb fUB_LINK_UP || 2 ≤ pmState s then s
  else
    let s := s.advanceTo (s.ub.hbSent + ubPeriodU s)
    let s := ubSend s 0 1 (heartbeatBytes s)
    ubPump { s with ub := { s.ub with hbSent := s.now, hbCount := (s.ub.hbCount + 1) % 2 ^ 32, hbEver := true } }

/-- A role conflict ends with this device in standby (R424). -/
def yieldRole (s : State) : State :=
  raise { s.setF fUB_LINK_ROLE 0 with ub := { s.ub with take := none } } kUB_STAT_ROLEERR

/-- Judge the partner's proof against KS_EXP entry UB_CTL.EXP (R421, R361). -/
def judgePeer (s : State) (p : List Byte) : State :=
  let e := s.f fUB_CTL_EXP
  if bit (expWord s e 4) 31 && expWord s e 0 + 2 ^ 32 * expWord s e 1 == netField p 0 8 then
    expChange s e (if expWord s e 2 == netField p 8 4 && expWord s e 3 == netField p 12 4 then 1 else 2)
  else s

/-- A heartbeat is taken. -/
def takeHeartbeat (s : State) (p : List Byte) : State :=
  let id := netField p 0 8
  let s := { s with ub := { s.ub with
    hbLast := s.now, peer := some (BitVec.ofNat 64 (netField p 40 8)), peerId := BitVec.ofNat 64 id, offered := netField p 22 1 } }
  let s := judgePeer s p
  if netField p 17 1 = 1 && ubActive s && id < devIdNat then yieldRole s else s

-- Frames in (R418–R420) -------------------------------------------------------------------------------------------------------

/-- The virtual channel of a frame type (R419). -/
def ubChannel : Nat → Option Nat
  | 1 | 5 | 6 | 7 | 8 => some 0
  | 2 | 4 => some 1
  | 3 => some 2
  | 9 | 10 => some 3
  | _ => none

/-- Credits come back in any frame (R420). -/
def ubCreditIn (s : State) (u : UbFrame) : State :=
  let t := [1, 2, 3].foldl (fun t v => tput t v (tget 0 t v + (u.credits.getD v 0).toNat)) s.ub.credit
  ubPump { s with ub := { s.ub with credit := t } }

/-- A received frame of type `ty`: a bad or unknown one is dropped with RXERR; on VC 1–3 it needs the partner's SESSION
and its SEQ in turn, and a gap sends NAK; then `act` takes its payload. -/
def ubTake (s : State) (u : UbFrame) (ty : Nat) (act : State → List Byte → State) : State :=
  let v := u.vc.val
  if !s.fb fUB_LINK_UP || 2 ≤ pmState s then s
  else if !u.good || ubChannel u.ty.toNat != some v || (v != 0 && !u.enc) || 2048 < u.payload.length || u.payload.length % 8 != 0 then
    raise s kUB_STAT_RXERR
  else if u.ty.toNat != ty then s
  else if v = 0 then act (ubCreditIn s u) u.payload
  else if s.ub.peer.isNone then s
  else
    let want := tget 0 s.ub.rxSeq v
    let ahead := (u.seq.toNat + 2 ^ 32 - want) % 2 ^ 32
    if ahead = 0 then
      let s := ubCreditIn s u
      let s := { s with ub := { s.ub with
        rxSeq := tput s.ub.rxSeq v ((want + 1) % 2 ^ 32)
        rxEp := if want = 2 ^ 32 - 1 then tput s.ub.rxEp v (tget 0 s.ub.rxEp v + 1) else s.ub.rxEp
        owed := tput s.ub.owed v (tget 0 s.ub.owed v + ubCredits u.payload.length) } }
      act s u.payload
    else if ahead < 2 ^ 31 then ubSend s 0 7 (beBytes 4 v ++ beBytes 4 want)
    else s

/-- NAK (R420): the sender replays from the named SEQ, or takes the link down where that frame is no longer held. -/
def nakTake (s : State) (p : List Byte) : State :=
  let v := netField p 0 4
  let q := netField p 4 4
  if v = 0 || 3 < v || q = tget 0 s.ub.txSeq v then s
  else if s.ub.replay.any fun f => f.vc.val == v && f.seq.toNat == q then s
  else ubDown s

/-- CREDIT_RETURN (R420): an IDLE frame within 1 µs, while credits are owed. -/
def creditReturn (s : State) : State :=
  if !s.fb fUB_LINK_UP || s.ub.owed.all fun e => e.2 == 0 then s
  else ubSend (s.advance (1000 * nsU)) 0 8 []

-- Takeover (R424–R426) --------------------------------------------------------------------------------------------------------------

/-- HEARTBEAT_MISS (R424): no heartbeat for MISS periods: the standby sends TAKE. -/
def heartbeatMiss (s : State) : State :=
  if !standby s || s.ub.take.isSome || 2 ≤ pmState s then s
  else
    let s := s.advanceTo (s.ub.hbLast + s.f fUB_HB_MISS * ubPeriodU s)
    raise (ubSend { s with ub := { s.ub with take := some s.now } } 0 5 []) kUB_STAT_HBLOSS

/-- This device becomes active (R426): one event frame for every valid publication, in control-block order, with stNum one
above the mirrored value. -/
def becomeActive (s : State) : State :=
  let cbs := (s.recs.filter fun (k, ws) => k / 65536 == 3 && bit (wd ws 0) 31).map fun e => e.1 % 65536
  let s := { s.setF fUB_LINK_ROLE 1 with ub := { s.ub with take := none } }
  let s := cbs.foldl (fun s cb =>
    match tfind s.ub.stm cb with
    | some n => s.setPub cb { s.pub cb with st := n }
    | none => s) s
  raise { s with pubq := s.pubq ++ cbs.map fun cb => ⟨cb, false, none, true, none, s.now⟩ } kUB_STAT_TAKEOVER

def takeWaitU (s : State) : Nat := s.f fUB_HB_TAKEWAIT * 1000 * nsU

/-- TAKEOVER (R424): no HOLD within TAKEWAIT. -/
def takeover (s : State) : State :=
  match s.ub.take with
  | some t => if standby s && pmState s < 2 then becomeActive (s.advanceTo (t + takeWaitU s)) else s
  | none => s

/-- TAKE (R424): the active device answers HOLD; of two devices that send TAKE in one heartbeat period, the one with the
lower KS_DEVID becomes active. -/
def takeTake (s : State) : State :=
  if ubActive s then ubSend s 0 6 []
  else match s.ub.take with
    | some t => if s.now < t + ubPeriodU s then (if devIdNat < s.ub.peerId.toNat then becomeActive s else yieldRole s) else s
    | none => s

/-- HOLD (R424): the standby stays standby, and counts heartbeats anew. -/
def holdTake (s : State) : State :=
  match s.ub.take with
  | some t => if standby s && s.now ≤ t + takeWaitU s then { s with ub := { s.ub with take := none, hbLast := s.now } } else s
  | none => s

-- Mirrors and checkpoints (R422, R423) -----------------------------------------------------------------------------------------------

/-- A mirror entry as a write through the host port. -/
def mirrorWrite (e : List Byte) : PtWrite :=
  let w4 := netField e 16 4
  ⟨.host, netField e 20 4 % 2 ^ 17, some (BitVec.ofNat 64 (netField e 0 4 + 2 ^ 32 * netField e 4 4)), some (bits w4 16 13),
   some ((netField e 12 4 + 2 ^ 32 * (w4 % 65536)) * sec + netField e 8 4), none, none, .mirror, 0, none, 0, none⟩

/-- Pieces of n bytes. -/
def pieces (n : Nat) : Nat → List Byte → List (List Byte)
  | 0, _ => []
  | k + 1, bs => if bs.length < n then [] else bs.take n :: pieces n k (bs.drop n)

def mirrorTake (s : State) (p : List Byte) : State :=
  { s with ptq := s.ptq ++ (pieces 32 64 p).map mirrorWrite }

/-- PUBST (R422). -/
def pubstTake (s : State) (p : List Byte) : State :=
  { s with ub := { s.ub with stm := (pieces 8 256 p).foldl (fun t e => tput t (netField e 0 4 % 1024) (netField e 4 4)) s.ub.stm } }

/-- CKPT (R423): the standby holds the frame; a newer one replaces one that waits. -/
def ckptTake (s : State) (p : List Byte) : State :=
  if !standby s || p.length < 8 then s
  else
    let t := netField p 0 4 % 256
    let off := netField p 4 4
    { s with ub := { s.ub with ckpt := s.ub.ckpt.filter (fun x => !(x.1 == t && x.2.1 == off)) ++ [(t, off, p.drop 8)] } }

/-- CHECKPOINT_REFOG (R423): once the context is neither queued nor running. -/
def checkpointRefog (s : State) (t : Nat) : State :=
  let (c, k) := s.place t
  if !standby s || ctxBusy s c k then s
  else
    let (mine, rest) := s.ub.ckpt.partition fun x => x.1 == t
    mine.foldl (fun s (_, off, bs) =>
      let bs := bs.take (16384 - off)
      let a := 16384 * k + off
      trayFresh (putTrayBytes s c a bs) c a bs.length) { s with ub := { s.ub with ckpt := rest } }

-- Lending (R427) -------------------------------------------------------------------------------------------------------------------------

/-- The activation that ACT0–ACT3 describe (R143). -/
def actOf (s : State) (p : List Byte) : Act :=
  let w := netField p 0 4
  let trig := netField p 8 4 * sec + netField p 4 4
  mkAct (w % 256) (bits w 12 4) (bits w 16 16) trig (monoOf s trig) (netField p 12 4)

/-- LEND: the lender runs the activation in its own context for the tenant, where that lies on a lent cluster. -/
def lendTake (s : State) (p : List Byte) : State :=
  let a := actOf s p
  if bit (s.e fUB_LEND_OFFER) ((s.place a.tenant).1 / 4) then
    { s with postq := s.postq ++ [{ a with lent := true, id := s.plan.posts }], plan := { s.plan with posts := s.plan.posts + 1 } }
  else s

/-- A decision output of a LENDOUT payload (log entry 12). -/
def outOf (e : List Byte) : DecOut :=
  let w := netField e 0 4
  if bit w 29 then .pub (w % 1024)
  else .point (w % 2 ^ 17) (bit w 31) (bit w 30) (netField e 4 4) (netField e 8 8) (netField e 16 8)

/-- An activation that runs with the partner has the words of `p`. -/
def sameAct (p : List Byte) (a : Act) : Bool := (List.range 4).all fun i => (actWord a i).toNat == netField p (4 * i) 4

/-- LENDOUT: the borrower releases the outputs, up to 64, and judges completion. -/
def lendoutTake (s : State) (p : List Byte) : State :=
  match takeOut (sameAct p) s.ub.lent with
  | none => s
  | some (a, rest) =>
    let t := a.tenant
    let (c, k) := s.place t
    let s := { s with ub := { s.ub with lent := rest } }
    let s := endHolds (releaseAll s c k a ((pieces 24 64 (p.drop 16)).map outOf))
    ckptCount (judge s a 0) t

def execUbLinkUp (width : Fin 4) (s : State) : Res := done (ubUp s width)
def execUbLinkDown (s : State) : Res := done (ubDown s)
def execHeartbeatSend (s : State) : Res := done (heartbeatSend s)
def execHeartbeat (u : UbFrame) (s : State) : Res := done (ubTake s u 1 takeHeartbeat)
def execHeartbeatMiss (s : State) : Res := done (heartbeatMiss s)
def execTakeover (s : State) : Res := done (takeover s)
def execMirror (u : UbFrame) (s : State) : Res := done (ubTake s u 2 mirrorTake)
def execCkpt (u : UbFrame) (s : State) : Res := done (ubTake s u 3 ckptTake)
def execCheckpointRefog (t : Tenant) (s : State) : Res := done (checkpointRefog s t)
def execPubst (u : UbFrame) (s : State) : Res := done (ubTake s u 4 pubstTake)
def execTakeU (u : UbFrame) (s : State) : Res := done (ubTake s u 5 fun s _ => takeTake s)
def execHoldU (u : UbFrame) (s : State) : Res := done (ubTake s u 6 fun s _ => holdTake s)
def execNak (u : UbFrame) (s : State) : Res := done (ubTake s u 7 nakTake)
def execIdleU (u : UbFrame) (s : State) : Res := done (ubTake s u 8 fun s _ => s)
def execCreditReturn (s : State) : Res := done (creditReturn s)
def execLend (u : UbFrame) (s : State) : Res := done (ubTake s u 9 lendTake)
def execLendout (u : UbFrame) (s : State) : Res := done (ubTake s u 10 lendoutTake)

end Sys2Proof.Machine
end

