-- ==== Sys2Proof/Machine/Bus.lean ====
section
/-! DEFINITION. Accesses to BAR0 from the host and the supervisor: decoding, access codes, locks, computed registers and
the special writes; and the management SPI (R7–R9, R36, R342, R365, R381, R402, R406, R413, R415, R439, R450–R453). -/

namespace Sys2Proof.Machine
open Sys2Proof

-- Decoding (R450, R451, R455) ------------------------------------------------------------------------------------------------

/-- An offset lies in a block range of R450. -/
def decoded (off : Nat) : Bool := blockRanges.any fun r => r.1 ≤ off && off ≤ r.2

/-- Element (i, j) of a register that lies at an offset. -/
def Reg.at? (r : Reg) (off : Nat) : Option (Nat × Nat) :=
  if off < r.base then none
  else
    let d := off - r.base
    let i := d / r.st
    let e := d % r.st
    if r.n ≤ i then none
    else if r.m = 1 then (if e = 0 then some (i, 0) else none)
    else if e % r.st2 = 0 ∧ e / r.st2 < r.m then some (i, e / r.st2)
    else none

/-- The register at an offset; IC_SRC has no source 0 (R207). -/
def findReg (off : Nat) : Option (Reg × Nat × Nat) :=
  allRegs.findSome? fun r =>
    match r.at? off with
    | some (i, j) => if r.base = rIC_SRC.base ∧ j = 0 then none else some (r, i, j)
    | none => none

/-- Blocks that answer before start-up BIST has ended (R439): GL, HI, PM, BT, BI and SL. -/
def earlyBlock (off : Nat) : Bool :=
  off < 0x14 || (0x900000 ≤ off && off < 0x941040) || (0xC00000 ≤ off && off < 0xC10010) ||
  (0xD00000 ≤ off && off < 0xD0006C) || (0xF00000 ≤ off && off < 0xF001A0)

/-- An access to `off` that completes with an error response, as the state it leaves (R392, R439, R451); none where it
reaches its block. -/
def busError (s : State) (off : Nat) : Option State :=
  let e := { s with resp := .err }
  if 2 ≤ pmState s then some e
  else if !decoded off then some (raise e kMX_STAT_DECERR)
  else if s.bist.running && !earlyBlock off then some e
  -- every access passes the bus matrix of D13
  else if domFaulted s 12 || (regDomain off).any (domFaulted s) then some (raise e kMX_STAT_DECERR)
  else none

/-- An access that proceeds keeps its domain from gating (R389). -/
def reached (s : State) (off : Nat) : State := match regDomain off with | some d => domUsed s d | none => s

/-- The part of an access that its domain decides (R389): it proceeds, and the domain has been used, or it stalls and the
domain wakes. -/
def busReach (s : State) (off : Nat) (act : State → State) : State :=
  if (regDomain off).any (domStalls s) then { demandWake s ((regDomain off).getD 0) false with resp := .stalled }
  else act (reached s off)

-- Reads (R7, R8) ----------------------------------------------------------------------------------------------------------------

/-- A Word with fields put into it. -/
def packF (fs : List (Field × Nat)) : Word := fs.foldl (fun w f => f.1.ins w f.2) 0

/-- STATE of a pipe (R109): unusable, running its span, held in another's, or free. -/
def pipeState (s : State) (p : Nat) : Nat :=
  if s.f fVP_STAT_STATE p = 3 then 3
  else if (s.core p).run.isSome then 1
  else if pipeRuns s p || (s.pipe p).base != p then 2
  else 0

/-- STATE of a context (R163). -/
def ctxState (s : State) (c k : Nat) : Nat :=
  if (s.ctx c k).quar then 3
  else if (match (s.core c).run with | some r => r.ctx == k | none => false) then 2
  else if (s.core c).queue.any fun a => a.tenant == (s.ctx c k).tenant then 1
  else 0

def loopBits (r : RSet) : Nat := b2n r.l0.act + 2 * b2n r.l1.act + 4 * b2n r.l2.act

/-- IC_RPRIO (R207). -/
def rprioWord (k : CoreSt) : Word :=
  packF [(fIC_RPRIO_DEPTH, k.ic.stack.length), (fIC_RPRIO_TOPSRC, (k.ic.stack.headD (0, 0)).2),
    (fIC_RPRIO_LATCH, b2n k.ic.latch), (fIC_RPRIO_RPRIO, k.rprio)]

/-- The bytes of a digest from `o` as a register shows them, first byte in [31:24]. -/
def digestWord (d : BitVec 256) (o : Nat) : Word := w32 (beVal (imgBytes (digestBytes d) o 4))

/-- Registers whose value the device computes from its state. -/
def computed (s : State) (r : Reg) (i j : Nat) : Option Word :=
  if r.base = rGL_HEALTH.base then some (packF [(fGL_HEALTH_REPLACE, b2n s.bist.replace), (fGL_HEALTH_CODE, healthCode s)])
  else if r.base = rPLT_BG_STAT.base then some (fPLT_BG_STAT_FUSECOL.ins (s.reg r i j) (Config.fuseCol i).toNat)
  else if r.base = rVP_STAT.base then
    some (packF [(fVP_STAT_STATE, pipeState s i), (fVP_STAT_BASE, (s.pipe i).base), (fVP_STAT_WLOG, (s.pipe i).wlog),
      (fVP_STAT_TENANT, (s.pipe i).ten)])
  else if r.base = rSCH_PLAN.base then
    some (packF [(fSCH_PLAN_PLAN_ID, planId s), (fSCH_PLAN_FALLBACK, s.plan.fb), (fSCH_PLAN_SLOT, s.plan.slot)])
  else if r.base = rSCH_QDEPTH.base then some (fSCH_QDEPTH_DEPTH.ins (s.reg r i j) (s.core i).queue.length)
  else if r.base = rEZ_CTXSTAT.base then
    let x := s.ctx i j
    some (packF [(fEZ_CTXSTAT_TENANT, x.tenant), (fEZ_CTXSTAT_MASKLVL, x.ml), (fEZ_CTXSTAT_DL, b2n x.dl),
      (fEZ_CTXSTAT_STATE, ctxState s i j), (fEZ_CTXSTAT_LOOPS, loopBits x.thr.r)])
  else if r.base = rEZ_PC.base then some (s.ctx i j).thr.r.pc
  else if r.base = rEZ_SUPPC.base then
    some (if (s.core i).run.isSome && !(s.core i).sup then (s.core i).rpc else (s.core i).thr.r.pc)
  else if r.base = rIC_RPRIO.base then some (rprioWord (s.core i))
  else if r.base = rIC_PEND.base then
    some (w32 ((List.range 32).foldl (fun a n => a + b2n (srcPending (idleRelease s i) i (32 * j + n)) * 2 ^ n) 0))
  else if r.base = rFE_STORE.base then some (w32 (leVal (mread s.store (4 * i) 4)))
  else if r.base = rTU_HOLDEST.base then some (w32 (holdEst s))
  else if r.base = rTU_SEL.base then some (fTU_SEL_TACC.ins (s.reg r i j) (tacc s))
  else if r.base = rTN_EPOCH.base then some (w32 (cntOf s i))
  else if r.base = rTN_PROOF.base then some (digestWord ((tfind s.ks.proof i).getD 0) 0)
  else if r.base = rKS_PSTAT.base then some (fKS_PSTAT_PLANPEND.ins (s.reg r i j) (b2n s.plan.waiting.isSome))
  else if r.base = rKS_DEVID_LO.base then some (w32 devIdNat)
  else if r.base = rKS_DEVID_HI.base then some (w32 (devIdNat / 2 ^ 32))
  else if r.base = rKS_ROOT_HI.base then some (digestWord s.ks.root 0)
  else if r.base = rKS_ROOT_LO.base then some (digestWord s.ks.root 4)
  else if r.base = rKS_CUSTKEY.base then
    some (packF [(fKS_CUSTKEY_REVOKED, s.ks.crev), (fKS_CUSTKEY_PROGRAMMED, s.ks.cprog),
      (fKS_CUSTKEY_ACTIVE, (custSlot s).getD 0)])
  else if r.base = rLC_STATE.base then
    some (packF [(fLC_STATE_PENDING, b2n s.ks.pend.isSome), (fLC_STATE_STATE, s.lc)])
  else if r.base = rLC_CHAL_LO.base then some (w32 s.ks.chal.toNat)
  else if r.base = rLC_CHAL_HI.base then some (w32 (s.ks.chal.toNat / 2 ^ 32))
  else if r.base = rPM_PIN.base then
    some (w32 ((List.range 20).foldl (fun a d => a + b2n (pinned s d) * 2 ^ d) 0))
  else if r.base = rHI_TN_CTL.base then some (fHI_TN_CTL_HALT.ins (s.reg r i j) (b2n (s.hset i).halt))
  else none

/-- The mask of the bits that a register's table defines, without those that no read shows. -/
def shownBits (r : Reg) : Nat :=
  r.flds.foldl (fun a f => if f.acc == .wo then a else a + (2 ^ (f.hi - f.lo + 1) - 1) * 2 ^ f.lo) 0

/-- What a register shows: undefined bits and write-only fields read 0 (R7, R8). -/
def regView (s : State) (r : Reg) (i j : Nat) : Word :=
  ((computed s r i j).getD (s.reg r i j)) &&& w32 (shownBits r)

/-- What a read answers: a set counter that counts in the cycle of the read shows its value before it (R205). -/
def readView (s : State) (r : Reg) (i j : Nat) : Word :=
  r.flds.foldl (fun w f =>
    match (if f.acc == .rc then setNow s (setKey r i j f.lo) else none) with
    | some b => Field.ins ⟨r, f.hi, f.lo⟩ w b
    | none => w) (regView s r i j)

/-- What a read leaves in an RC field: 0, or what was counted in the cycle of the read (R7, R205). -/
def rcLeft (s : State) (r : Reg) (i j : Nat) (f : Fld) : Nat :=
  match setNow s (setKey r i j f.lo) with
  | some b => max 1 (bits (s.reg r i j).toNat f.lo (f.hi - f.lo + 1) - b)
  | none => 0

/-- What counted in the cycle of a read stays, and a further read of that cycle finds 0 before it (R205). -/
def rcRead (s : State) (r : Reg) (i j : Nat) (f : Fld) : Tab (Nat × Nat) → Tab (Nat × Nat) := fun t =>
  if f.acc == .rc && (setNow s (setKey r i j f.lo)).isSome then tput t (setKey r i j f.lo) (s.nowCyc, 0) else t

/-- A read clears the RC fields (R7). -/
def clearRc (s : State) (r : Reg) (i j : Nat) : State :=
  if r.flds.any fun f => f.acc == .rc then
    { s.setReg r i j (r.flds.foldl (fun w f => if f.acc == .rc then Field.ins ⟨r, f.hi, f.lo⟩ w (rcLeft s r i j f) else w)
      (s.reg r i j)) with setAt := r.flds.foldl (fun t f => rcRead s r i j f t) s.setAt }
  else s

/-- The seconds field that a reader's last read of TU_NOW_NS latched (R304, R318). -/
def timeLatch (s : State) : Reader → Nat
  | .host => s.tu.latHost | .supervisor => s.tu.latSup

def setLatch (s : State) (rdr : Reader) (v : Nat) : State :=
  { s with tu := match rdr with | .host => { s.tu with latHost := v } | .supervisor => { s.tu with latSup := v } }

def answer (s : State) (v : Word) : State := { s with resp := .data (leBytes 4 v.toNat) }

/-- A read of element (i, j) of a register. The greatest age of an arbiter since its last
read, or since reset, is a free value, and 0 where no time has passed (R381; log entry 64). -/
def readReg (s : State) (rdr : Reader) (r : Reg) (i j : Nat) : State :=
  -- a new second that has come is in what the time unit shows (R318)
  let s := if r.base / 0x1000 = 0x800 then applySetsec s else s
  if r.base = rTU_NOW_NS.base then setLatch (answer s (w32 (taiNs s.tai))) rdr (taiSec s.tai)
  else if r.base = rTU_NOW_SLO.base then answer s (w32 (timeLatch s rdr))
  else if r.base = rTU_NOW_SHI.base then answer s (w32 (timeLatch s rdr / 2 ^ 32 % 65536))
  else if r.base = rKS_VDATA.base then vaultAccess s false 0
  else if r.base = rMX_WAIT.base then
    let t := { s with mxRead := tput s.mxRead i s.now }
    if s.now ≤ tget 0 s.mxRead i then answer t 0 else let (v, t) := t.draw; answer t (w32 (v.toNat % 1024))
  else clearRc (answer s (readView s r i j)) r i j

def windowOff (off : Nat) : Bool := 0x1000000 ≤ off && off < 0x1400000

/-- An aligned 32-bit read of BAR0 (R7, R289, R451): the answer stands in `resp`. -/
def busRead (s : State) (rdr : Reader) (off : Nat) : State :=
  match busError s off with
  | some s => s
  | none => busReach s off fun s =>
    if windowOff off then
      let (v, s) := windowRead s rdr ((off - 0x1000000) / 32) (off / 4 % 8)
      answer s v
    else match findReg off with
      | some (r, i, j) => readReg s rdr r i j
      | none => answer s 0

-- Writes (R7, R8) ------------------------------------------------------------------------------------------------------------------

/-- Whether the RWL fields of element i are locked. -/
def regLocked (s : State) (r : Reg) (i : Nat) : Bool :=
  r.lock != 0 && bit ((tfind s.regs (r.lock + (if r.lockEach then i * r.st else 0))).getD 0).toNat 31

/-- The word that a write leaves in a register, field by field under its access codes. -/
def writtenWord (locked : Bool) (flds : List Fld) (old v : Word) : Word :=
  flds.foldl (fun w f =>
    let n := f.hi - f.lo + 1
    let o := bits old.toNat f.lo n
    let x := bits v.toNat f.lo n
    let new := match f.acc with
      | .rw => x
      | .wo => x
      | .rwl => if locked then o else x
      | .w1c => o - Nat.land o x
      | .w1s => Nat.lor o x
      | .ro => o
      | .rc => o
    Field.ins ⟨⟨0, 1, 4, 1, 0, 0, 0, false, false, []⟩, f.hi, f.lo⟩ w new) old

/-- The interrupt source that a status register's flags assert (R193). -/
def statusSource (r : Reg) (i : Nat) : Option Nat :=
  if r.base = rEP_STAT.base then some (64 + i)
  else if r.base = rFE_LSTAT.base then some (76 + i)
  else if r.base = rEZ_STAT.base then some 16
  else if r.base = rEZ_AFLAGS.base || r.base = rEZ_SAFLAGS.base then some 17
  else if r.base = rIC_STAT.base then some 18
  else (List.range 17).findSome? fun n =>
    match srcReg (32 + n) with
    | some q => if q.base = r.base then some (32 + n) else none
    | none => none

/-- The W1C flags of a register that hardware sets in this cycle: a write of 1 does not clear them (R204). -/
def setBits (s : State) (r : Reg) (i j : Nat) : Nat :=
  r.flds.foldl (fun a f => if f.acc == .w1c && (setNow s (setKey r i j f.lo)).isSome then a + 2 ^ f.lo else a) 0

/-- A write by the access codes alone: it waits for the boundary where R36 says so, and flags that it clears may
withdraw their source (R195). -/
def plainWrite (s : State) (r : Reg) (i j : Nat) (v : Word) : State :=
  let locked := regLocked s r i
  let w := writtenWord locked r.flds (s.reg r i j) (v &&& ~~~w32 (setBits s r i j))
  if r.defer then (if locked then s else deferWrite s r i j w)
  else
    let s := s.setReg r i j w
    match statusSource r i with
    | some n => withdraw s n
    | none => s

/-- A ring's base, size or vectors (R342): only while the set's EN is 0. -/
def ringSetup (s : State) (r : Reg) (i j : Nat) (v : Word) : State :=
  if s.fb fHI_TN_CTL_EN i then raise s kHI_STAT_CFGREF else plainWrite s r i j v

/-- MX_FAIR (R381): values outside 2–64 are ignored and set CFGREF. -/
def fairWrite (s : State) (v : Word) : State :=
  let n := v.toNat % 128
  if regLocked s rMX_FAIR 0 then s
  else if n < 2 || 64 < n then raise s kMX_STAT_CFGREF
  else plainWrite s rMX_FAIR 0 0 v

/-- DDR_CFG (R379): ignored with CFGREF while the channel is READY. -/
def ddrCfg (s : State) (v : Word) : State :=
  if s.f fDDR_STATE_STATE = 2 then raise s kMX_STAT_CFGREF else plainWrite s rDDR_CFG 0 0 v

/-- SCH_CTL (R402): EN = 1 is ignored after a critical failure. -/
def schCtl (s : State) (v : Word) : State :=
  plainWrite s rSCH_CTL 0 0 (if s.bist.crit && !s.fb fSCH_CTL_EN then v &&& 0xFFFFFFFE#32 else v)

/-- TU_SRCCFG (R318, R401): RANK3 cannot be set while source 3 is unusable. -/
def srcCfg (s : State) (v : Word) : State :=
  reselect (plainWrite s rTU_SRCCFG 0 0 (if unitBad s fBI_UNUSABLE_IRIGAM != 0 then v &&& 0xFFFF8FFF#32 else v))

/-- KS_CTL (R361, R364): comparison that starts counts every entry's silence from now. -/
def ksCtl (s : State) (v : Word) : State :=
  let t := plainWrite s rKS_CTL 0 0 v
  if !s.fb fKS_CTL_CHK && t.fb fKS_CTL_CHK then
    { t with ks := { t.ks with heard := (List.range 64).map fun e => (e, t.now) } }
  else t

/-- An MSI-X table word (R203): clearing a vector's mask bit sends what is pending. -/
def msixWrite (s : State) (i : Nat) (v : Word) : State :=
  let s := plainWrite s rMSIX_TABLE i 0 v
  if i % 4 = 3 && !bit v.toNat 0 then msixUnmask s (i / 4) else s

/-- A write of HI_VMOD (R201, R203): a count that has reached the new MCNT, or an MTIME of 0, releases the vector. -/
def vmodWrite (s : State) (v : Nat) : State :=
  let x := s.vec v
  if x.cnt != 0 && (max (s.f fHI_VMOD_MCNT v) 1 ≤ x.cnt || s.f fHI_VMOD_MTIME v == 0) then sendMsix s v else s

/-- Writes with effects of their own, by register. -/
def specialWrite (s : State) (r : Reg) (i j : Nat) (v : Word) : Option State :=
  if r.base = rSHM_OWNER.base then some (shmOwner s i v)
  else if r.base = rSCH_CTL.base then some (schCtl s v)
  else if r.base = rSCH_CAP.base then some (schCap s v)
  else if r.base = rEZ_CTL.base then some (ezCtl s i v)
  else if r.base = rEZ_IDATA.base then some (ezIdata s i v)
  else if r.base = rEZ_XCFG.base then some (ezXcfg s i j v)
  else if r.base = rIC_SWI.base then some (swiWrite s i v)
  else if r.base = rIC_SRC.base then some (srcWrite s i j v)
  else if r.base = rEP_CTL.base then some (epCtl s i v)
  else if r.base = rEP_RDCFG.base || r.base = rEP_RB.base then some (loadPair (plainWrite s r i j v) i)
  else if r.base = rFE_CTL.base then some (feCtl s v)
  else if r.base = rFE_LOAD.base then some (feLoadGo s v)
  else if r.base = rTU_CTL.base || r.base = rTU_PTPROLE.base then some (reselect (plainWrite s r i j v))
  else if r.base = rTU_UTCOFF.base then some (writeUtc s (v.toNat % 65536))
  else if r.base = rTU_SRCCFG.base then some (srcCfg s v)
  else if r.base = rTU_SETSEC.base then some (putSetsec (applySetsec s) v)
  else if r.base = rHI_POLL.base then some (s.setF fHI_POLL_PERIOD (max 250 (min 1000000 (v.toNat % 2 ^ 20))))
  else if r.base = rHI_TN_BASE_LO.base || r.base = rHI_TN_BASE_HI.base || r.base = rHI_TN_SIZE.base ||
      r.base = rHI_TN_VEC.base then some (ringSetup s r i j v)
  else if r.base = rHI_VMOD.base then some (vmodWrite (plainWrite s r i j v) i)
  else if r.base = rHI_TN_CTL.base then some (hiTnCtl s i v)
  else if r.base = rMSIX_TABLE.base then some (msixWrite s i v)
  else if r.base = rTN_CTL.base then some (tnCtl s i v)
  else if r.base = rKS_VDATA.base then some (vaultAccess s true v)
  else if r.base = rKS_CTL.base then some (ksCtl s v)
  else if r.base = rLC_REQ.base then some (lcReq s v)
  else if r.base = rMX_FAIR.base then some (fairWrite s v)
  else if r.base = rDDR_CTL.base then some (ddrCtl s v)
  else if r.base = rDDR_CFG.base then some (ddrCfg s v)
  else if r.base = rPM_REQ.base then some (pmReq s v)
  else if r.base = rPM_DOM.base then some (pmDom s i v)
  else if r.base = rBT_CFG.base then some (btCfg s v)
  else if r.base = rBI_DIRECT.base then some (biDirect s v none)
  else if r.base = rBI_BUDGET.base then
    some (if s.lc == 0 || s.lc == 1 || s.lc == 4 then plainWrite s r i j v else s)
  else if r.base = rUB_CTL.base then some (ubCtl s v)
  else if r.base = rSL_CTL.base then some (slCtl s v)
  else if r.base = rSL_WDOG.base then some (slWdog s v)
  else if r.base = rSL_WDKICK.base then some (watchdogKick s v)
  else if r.base = rSL_STOP.base then some (slStop s v)
  else if r.base = rSL_IMGDATA.base then some (slImgData s v)
  else if rSL_SAFE0.base ≤ r.base && r.base ≤ rSL_SAFE3.base then some (if s.stopped then s else plainWrite s r i j v)
  else none

/-- An aligned 32-bit write to BAR0. -/
def busWrite (s : State) (off : Nat) (v : Word) : State :=
  match busError s off with
  | some s => s
  | none => busReach s off fun s =>
    let s := { s with resp := .data [] }
    if windowOff off then windowWrite s ((off - 0x1000000) / 32) (off / 4 % 8) v
    else match findReg off with
      | some (r, i, j) => (specialWrite s r i j v).getD (plainWrite s r i j v)
      | none => s

-- Bad accesses (R9, R451) ---------------------------------------------------------------------------------------------------------------

/-- An access of another width or alignment (R9): an error and no effect; DECERR as well outside every block range. -/
def narrowAccess (s : State) (off : Nat) : State :=
  let s := { s with resp := .err }
  if 2 ≤ pmState s then s
  else if decoded off then s
  else raise s kMX_STAT_DECERR

/-- Whether a size and offset make an aligned 32-bit access. -/
def wordAccess (off size : Nat) : Bool := size == 4 && off % 4 == 0

-- The management SPI (R413) ----------------------------------------------------------------------------------------------------------------

/-- The byte at an SPI address: the SL registers, most significant byte first, and the log area of the Vault. -/
def spiByte (s : State) (a : Nat) : Byte :=
  if a < 0x1000 then
    match findReg (0xF00000 + a / 4 * 4) with
    | some (r, i, j) => if 0xF00000 + a < 0xF001A0 then (beBytes 4 (regView s r i j).toNat).getD (a % 4) 0 else 0
    | none => 0
  else if 0x10000 ≤ a && a < 0x20000 then mget s.vault (a + 0x10000)
  else 0

/-- SPI_TRANSFER (R413): command 0x03 reads `n` bytes; every other command is ignored. Nothing answers in Off. -/
def spiTransfer (s : State) (cmd addr n : Nat) : State :=
  if cmd != 3 || pmState s = 4 then s
  else { s with resp := .data ((List.range n).map fun i => spiByte s ((addr + i) % 2 ^ 24)) }

/-- An access from outside that stalls is kept until its domain is ON (R389). -/
def stallFor (rdr : Reader) (off : Nat) (data : Option Word) (s : State) : State :=
  if s.resp == .stalled then { s with pm := { s.pm with stall := s.pm.stall ++ [⟨(regDomain off).getD 0, rdr, off, data⟩] } } else s

/-- An access that stalled takes place. -/
def stalledAccess (s : State) (x : Stall) : State :=
  match x.data with | some v => busWrite s x.off v | none => busRead s x.rdr x.off

def execNarrowAccess (_rdr : Reader) (off : BitVec 26) (size : Nat) (s : State) : Res :=
  done (if wordAccess off.toNat size then s else narrowAccess s off.toNat)
def execUndecodedAccess (_rdr : Reader) (off : BitVec 26) (_size : Nat) (s : State) : Res :=
  done (if decoded off.toNat then s else narrowAccess s off.toNat)
/-- REGISTER_WRITE (R7); one that is not aligned is R9's. -/
def execRegisterWrite (rdr : Reader) (off : BitVec 26) (v : Word) (s : State) : Res :=
  done (if wordAccess off.toNat 4 then stallFor rdr off.toNat (some v) (busWrite s off.toNat v) else narrowAccess s off.toNat)
def execRcRead (rdr : Reader) (off : BitVec 26) (s : State) : Res :=
  done (if wordAccess off.toNat 4 then stallFor rdr off.toNat none (busRead s rdr off.toNat) else narrowAccess s off.toNat)
/-- DOMAIN_ON (R388, R389): the accesses that stalled take place, in their order. -/
def execDomainOn (d : Fin 20) (s : State) : Res :=
  let s := domainOn s d
  done (if domOn s d then
    let xs := s.pm.stall.filter fun x => x.dom == d.val
    xs.foldl stalledAccess { s with pm := { s.pm with stall := s.pm.stall.filter fun x => x.dom != d.val } }
  else s)
def execSpiTransfer (cmd : Byte) (addr : BitVec 24) (n : Nat) (s : State) : Res :=
  done (spiTransfer s cmd.toNat addr.toNat n)

end Sys2Proof.Machine
end

