-- ==== Sys2Proof/Machine/Lsu.lean ====
section
/-! DEFINITION. Loads and stores (R141, R142, R147, R150, R377). -/

namespace Sys2Proof.Machine
open Sys2Proof

/-- Where a data address lies: the Tray at a byte of the core's 128 KiB, the Plate space, or the DRAM window. -/
inductive DSpace where
  | tray (a : Nat) | plate (a : Nat) | dram (off : Nat)
  deriving DecidableEq, Repr

/-- DL refuses DRAM to the issuer (R142). -/
def dlSet (s : State) (c : Nat) : Option Nat → Bool
  | none => false
  | some q => (s.ctx c q).dl

/-- A data fault of the instruction at pc. -/
def dataFault (s : State) (c code pc a : Nat) : FaultRec :=
  { scalarFault code pc a (issueCyc s c) with addr := a % 2 ^ 24 }

/-- Resolve a data address of n bytes (R141, R142): DRAMDL is judged first, then alignment, then the map. -/
def dataSpace (s : State) (c : Nat) (k : Option Nat) (a n : Nat) : Except Nat DSpace :=
  if 0x80000000 ≤ a && dlSet s c k then .error cDRAMDL
  else if a % n != 0 then .error cALIGN
  else if 0x80000000 ≤ a then
    match dramAddr s (ownerOf s c k) (a - 0x80000000) with
    | some p => .ok (.dram p)
    | none => .error cDUNMAP
  else if 0x01000000 ≤ a && a < 0x02000000 then .ok (.plate (a - 0x01000000))
  else match k with
    | some q => if a < 0x3F00 then .ok (.tray (16384 * q + a)) else .error cDUNMAP
    | none => if a < 0x20000 then .ok (.tray a) else .error cDUNMAP

/-- An access of core c to a domain that is not ON starts or joins its wake, and the instruction stalls until it is ON (R388,
R389). -/
def coreDemand (s : State) (c d : Nat) (dl : Bool) : State :=
  let s := demandWake (toIssue s c) d dl
  waitTo s c (cdiv (rampEnd s d) s.cyc)

/-- A DRAM access that a FAULTED D17 refuses (R392). -/
def dramLost (s : State) (c : Nat) (k : Option Nat) (a : Nat) : Bool :=
  domFaulted s 16 && 0x80000000 ≤ a && inWindow s (ownerOf s c k) (a - 0x80000000)

/-- A fault of an access; one that a lost domain refuses sets DECERR (R392). -/
def lostFault (lost : Bool) (c : Nat) (f : FaultRec) : Out :=
  if lost then .err (fun s => raise (toIssue s c) kMX_STAT_DECERR) f else .flt f

/-- An access that meets an error of a word sets its flags in its own cycle (R195). -/
def errIssue (s : State) (c err : Nat) : State := if err = 0 then s else toIssue s c

/-- The bound on a DRAM load in core cycles (R376). -/
def dramBound (s : State) : Nat := let n := s.f fMX_FAIR_N; if 8 < n then 400 + 40 * (n - 8) else 400

/-- Cycles until a DRAM load's result: at most the bound, and exactly 400 in constant-time mode (R150, R173). -/
def dramWait (s : State) (c : Nat) (k : Option Nat) : Nat × State :=
  if ctOf s c k then (400, s)
  else let (v, s) := s.draw; (1 + v.toNat % dramBound s, s)

/-- The part of a load after its address is resolved. -/
def loadAct (s : State) (c : Nat) (k : Option Nat) (pc a rd n : Nat) (signed : Bool) : DSpace → Out
  | .tray b =>
    let (ok, s') := trayCheck s c b
    let f := { dataFault s c cPOISON pc a with imp := true }
    if ok then
      let v := leVal (trayBytes s' c b n)
      .ok (s'.modThr c k fun x => { x with dslot := loadRegs rd n v signed }) 1
    else .ok (holdFault (s'.modThr c k fun x => { x with dslot := [(0, 0)] }) c k f) 1
  | .plate b =>
    let t := issueCyc s c
    if vBusyOf c k s then .wait (vBusyOf c k) else
    match plateResolve s (ownerOf s c k) b false with
    | .error 1 => lostFault (wordLost s (ownerOf s c k) b false) c (dataFault s c cUNMAPPED pc a)
    | .error _ => .flt (dataFault s c cWPROT pc a)
    | .ok wa =>
      -- the cycle in which the bank's read port grants the word is open (R142)
      let (w, s') := s.draw
      let x : Sampling := ⟨wa, b % 8, n, signed, rd, t + 4 + w.toNat % 5, { dataFault s c cPOISON pc a with imp := true }⟩
      .ok (addLong s' c k ⟨.plate, loadRegs rd n 0 signed, t + 12, w32 pc, none, none, some x⟩) 1
  | .dram p =>
    if vBusyOf c k s then .wait (vBusyOf c k) else
    if domStalls s 16 then .stall fun s => coreDemand s c 16 (dlSet s c k) else
    let t := issueCyc s c
    let s := domUsed (toIssue s c) 16
    let (w, s) := dramWait s c k
    match dramRead s (ownerOf s c k) p n with
    | (some v, s') => .ok (addLong s' c k ⟨.dram, loadRegs rd n v signed, t + w, w32 pc, none, none, none⟩) 1
    | (none, s') =>
      let f := { dataFault s c cDRAMUE pc a with imp := true }
      .ok (addLong s' c k ⟨.dram, loadRegs rd n 0 signed, t + w, w32 pc, none, some f, none⟩) 1

/-- A load of n bytes into rd, or into the pair rd for 8 bytes. -/
def load (s : State) (c rd ra : Nat) (imm : BitVec 16) (n : Nat) (signed : Bool) : State :=
  let ws := if n = 8 then [rd, rd + 1] else [rd]
  issueI s c { reads := [ra], writes := ws, ill := n == 8 && rd % 2 == 1 } fun s k pc =>
    let a := ((s.thr c k).r.get ra + imm.signExtend 32).toNat
    match dataSpace s c k a n with
    | .error e => lostFault (e == cDUNMAP && dramLost s c k a) c (dataFault s c e pc a)
    | .ok d => loadAct s c k pc a rd n signed d

/-- A narrow DRAM write of the issuer is pending (R377). -/
def storeBusy (c : Nat) (k : Option Nat) (s : State) : Bool := (s.thr c k).pend.any fun o => o.kind == .store

/-- The issuer's earlier loads sample before its store: they take place in program order (R142). -/
def sampleOwn (s : State) (c : Nat) (k : Option Nat) : State :=
  if (s.thr c k).pend.any fun o => o.samp.isSome then
    let (t, s) := sampleThr s (s.thr c k) (issueCyc s c + 8)
    s.setThr c k t
  else s

/-- The part of a store after its address is resolved. -/
def storeAct (s : State) (c : Nat) (k : Option Nat) (pc a n v : Nat) (d : DSpace) : Out :=
  match d with
  | .tray b => .ok (sign (trayFresh (putTrayBytes s c b (leBytes n v)) c b n) c k sgTray b v) 1
  | .plate b =>
    if vBusyOf c k s then .wait (vBusyOf c k) else
    let cyc := if n = 8 then 1 else 3
    let s := errIssue s c (match plateResolve s (ownerOf s c k) b true with | .ok wa => tget 0 s.plateEcc wa | .error _ => 0)
    match plateWrite (sampleOwn (sampleDue s (issueCyc s c)) c k) (ownerOf s c k) b n v 0 with
    | (.error 1, _) => lostFault (wordLost s (ownerOf s c k) b true) c (dataFault s c cUNMAPPED pc a)
    | (.error 2, _) => .flt (dataFault s c cWPROT pc a)
    | (.error _, s') => .ok (holdFault s' c k { dataFault s c cPOISON pc a with imp := true }) cyc
    | (.ok _, s') => .ok (sign s' c k sgPlate b v) cyc
  | .dram p =>
    if vBusyOf c k s then .wait (vBusyOf c k) else
    if storeBusy c k s then .wait (storeBusy c k) else
    if domStalls s 16 then .stall fun s => coreDemand s c 16 (dlSet s c k) else
    let t := issueCyc s c
    let (w, s) := (domUsed (toIssue s c) 16).draw
    let (ok, s') := dramCheck s (p / 64)
    let s := if ok then dramWrite s' (ownerOf s c k) p n v else s'
    .ok (addLong s c k ⟨.store, [], t + 1 + w.toNat % 400, w32 pc, none, none, none⟩) 1

/-- A store of n bytes from rd, or from the pair rd for 8 bytes. -/
def store (s : State) (c rd ra : Nat) (imm : BitVec 16) (n : Nat) : State :=
  let rs := if n = 8 then [rd, rd + 1] else [rd]
  issueI s c { reads := ra :: rs, ill := n == 8 && rd % 2 == 1 } fun s k pc =>
    let r := (s.thr c k).r
    let a := (r.get ra + imm.signExtend 32).toNat
    let v := (r.get rd).toNat + if n = 8 then (r.get (rd + 1)).toNat * 2 ^ 32 else 0
    match dataSpace s c k a n with
    | .error e => lostFault (e == cDUNMAP && dramLost s c k a) c (dataFault s c e pc a)
    | .ok d => storeAct s c k pc a n (v % 2 ^ (8 * n)) d

def execLdb (c : Core) (rd ra : Reg5) (imm : BitVec 16) (s : State) : Res := runs s c (.ldb c rd ra imm) (load s c rd ra imm 1 true)
def execLdbu (c : Core) (rd ra : Reg5) (imm : BitVec 16) (s : State) : Res := runs s c (.ldbu c rd ra imm) (load s c rd ra imm 1 false)
def execLdh (c : Core) (rd ra : Reg5) (imm : BitVec 16) (s : State) : Res := runs s c (.ldh c rd ra imm) (load s c rd ra imm 2 true)
def execLdhu (c : Core) (rd ra : Reg5) (imm : BitVec 16) (s : State) : Res := runs s c (.ldhu c rd ra imm) (load s c rd ra imm 2 false)
def execLdw (c : Core) (rd ra : Reg5) (imm : BitVec 16) (s : State) : Res := runs s c (.ldw c rd ra imm) (load s c rd ra imm 4 false)
def execLdd (c : Core) (rd ra : Reg5) (imm : BitVec 16) (s : State) : Res := runs s c (.ldd c rd ra imm) (load s c rd ra imm 8 false)
def execStb (c : Core) (rd ra : Reg5) (imm : BitVec 16) (s : State) : Res := runs s c (.stb c rd ra imm) (store s c rd ra imm 1)
def execSth (c : Core) (rd ra : Reg5) (imm : BitVec 16) (s : State) : Res := runs s c (.sth c rd ra imm) (store s c rd ra imm 2)
def execStw (c : Core) (rd ra : Reg5) (imm : BitVec 16) (s : State) : Res := runs s c (.stw c rd ra imm) (store s c rd ra imm 4)
def execStd (c : Core) (rd ra : Reg5) (imm : BitVec 16) (s : State) : Res := runs s c (.std c rd ra imm) (store s c rd ra imm 8)

/-- NARROW_WRITE_RETIRE (R377): the pending narrow write of core c with the earliest end retires. -/
def execNarrowWriteRetire (c : Core) (s : State) : Res :=
  let xs := ((none : Option Nat) :: (List.range 8).map some).flatMap fun k =>
    (picks (s.thr c k).pend).filterMap fun (o, rest) => if o.kind == .store then some (k, o, rest) else none
  done (if s.stopped then s else match xs with
    | [] => s
    | x :: xs =>
      let (k, o, rest) := xs.foldl (fun b y => if y.2.1.ready < b.2.1.ready then y else b) x
      waitTo (retireOp s c k o rest) c o.ready)

end Sys2Proof.Machine
end

