-- ==== Sys2Proof/Machine/Io.lean ====
section
/-! DEFINITION. IN and OUT: the tenant ports, the point and egress windows, the supervisor's ports, claims, and the
window onto BAR0 (R143–R145, R191, R198, R199, R208, R216, R217, R228, R259, R293–R295, R453). -/

namespace Sys2Proof.Machine
open Sys2Proof

-- What a port shows -----------------------------------------------------------------------------------------------------------

/-- The save bank that the supervisor's ports reach: that of its ML, all 0 at ML 0 (R191; log entry 45). -/
def portBank (s : State) (c : Nat) : Bank :=
  let y := s.core c
  if y.ml = 0 then Bank.init else tget Bank.init y.banks y.ml

/-- XMODE (R191). -/
def xmodeWord (b : Bank) : Word := w32 (b.disp * 2 ^ 24 + b.rml * 2 ^ 16 + b.ctx * 2 ^ 8 + b2n b.rsup)

/-- The sticky flags that XAFLAGS names: the register and its index (R191). -/
def portAflags (s : State) (c : Nat) : Reg × Nat × Nat :=
  let b := portBank s c
  if b.rsup then (rEZ_SAFLAGS, c, 0) else (rEZ_AFLAGS, c, b.ctx)

/-- The tenant whose fault record the VF ports show: the context's; in supervisor mode that of the dispatched
activation (log entry 46). -/
def vfTenant (s : State) (c : Nat) (k : Option Nat) : Option Nat :=
  match k, (s.core c).run with
  | some q, _ => some (s.ctx c q).tenant
  | none, some r => some (s.ctx c r.ctx).tenant
  | none, none => none

/-- A loop register of a register set, by port (R143). -/
def loopPort (r : RSet) (port : Nat) : Word :=
  let x := r.loop ((port - 4) / 3)
  match (port - 4) % 3 with | 0 => x.lb | 1 => x.le | _ => x.lc

/-- The value of a port that an IN reads in four cycles with no effect (R143, R191, R228, R259); none where there is no
such port. -/
def plainPort (s : State) (c : Nat) (k : Option Nat) (port : Nat) : Option Word :=
  let r := (s.thr c k).r
  if port = 0 then some (w32 (vcountOf s c k))
  else if port = 1 then some (w32 (groupOf s c k))
  else if port = 2 then some (w32 (mlOf s c k * 2 ^ 8 + b2n (ctOf s c k) * 2 + b2n (strictOf s c k)))
  else if 4 ≤ port && port ≤ 12 then some (loopPort r port)
  else if port = 0xF then some (w32 r.loopact)
  else if 0x10 ≤ port && port ≤ 0x13 then
    some (match vfTenant s c k with
      | some t => s.reg ([rVF_PC, rVF_IDX, rVF_CAUSE, rVF_INFO].getD (port - 0x10) rVF_PC) t 0
      | none => 0)
  else if 0x20 ≤ port && port ≤ 0x23 then
    some (match (s.core c).run with | some x => actWord x.act (port - 0x20) | none => 0)
  else if port = 0x200 then some (w32 (match k with | some q => (s.ctx c q).negres % 4 | none => 0))
  else if port = 0x201 then some (w32 (match secOf s c k with | some x => x.held.length | none => 0))
  else if port = 0x210 then some 0
  else if k.isSome then none
  else if port = 0x400 then some (portBank s c).cause
  else if port = 0x401 then some (portBank s c).pc
  else if port = 0x402 then some (portBank s c).fpc
  else if port = 0x403 then some (portBank s c).info
  else if port = 0x404 then some (xmodeWord (portBank s c))
  else if port = 0x405 then some (w32 (s.core c).ml)
  else if port = 0x406 then
    some (if (s.core c).ml = 0 then 0 else (let (r, i, j) := portAflags s c; s.reg r i j &&& 0x3F#32))
  else if port = 0x411 then some 0
  else if port = 0x412 then some (rprioWord (s.core c))
  else if port = 0x7FFF then some (w32 (s.core c).sio)
  else none

/-- A port fault: PRIV from 0x7FFF up for a tenant, IOUNMAP for every other port that is not defined (R143). -/
def portFault (s : State) (c : Nat) (k : Option Nat) (pc port : Nat) : FaultRec :=
  scalarFault (if k.isSome && 0x7FFF ≤ port then cPRIV else cIOUNMAP) pc port (issueCyc s c)

-- Logged inputs (R216) -----------------------------------------------------------------------------------------------------------

/-- What a logged IN receives: the fresh value, logged in a main pass, or the logged value in a Negative pass; none
where the section mismatches with cause INLOG. -/
def logIn (s : State) (c : Nat) (k : Option Nat) (port : Nat) (fresh : Word × State) : Option (Word × State) :=
  match k, secOf s c k with
  | some q, some x =>
    if x.neg then
      match x.inlog[x.inpos]? with
      | some (p, v) => if p = port then some (v, modSec s c q fun x => { x with inpos := x.inpos + 1 }) else none
      | none => none
    else if 32 ≤ x.inlog.length then none
    else some (fresh.1, modSec fresh.2 c q fun x => { x with inlog := x.inlog ++ [(port, fresh.1)] })
  | _, _ => some fresh

/-- A Negative pass reads no fresh value (R216). -/
def replays (s : State) (c : Nat) (k : Option Nat) : Bool :=
  match secOf s c k with | some x => x.neg | none => false

/-- Key of an issuer's latch of station seconds. -/
def timeKey (c : Nat) : Option Nat → Nat
  | none => 9 * c
  | some q => 9 * c + q + 1

/-- Station time ports from the cluster's replica (R31, R143): TNOW_NS latches the seconds. -/
def timePort (s : State) (c : Nat) (k : Option Nat) (port : Nat) : Word × State :=
  let s := toIssue s c
  if port = 0x30 then
    let t := replicaTime s (clusterIsl c)
    (w32 (taiNs t), { s with tu := { s.tu with latCtx := tput s.tu.latCtx (timeKey c k) (taiSec t) } })
  else
    let n := tget 0 s.tu.latCtx (timeKey c k)
    (w32 (if port = 0x31 then n else n / 2 ^ 32 % 65536), s)

/-- Whether an issuer may read a point (R287). -/
def readAllowed (p : Point) : Option Nat → Bool
  | none => true
  | some t => p.ty != 0 && (p.owner == t || bit p.flags 3)

/-- The owner that an issuer's point accesses are judged by (R287). -/
def pointOwner (s : State) (c : Nat) (k : Option Nat) : Option Nat := k.map fun q => (s.ctx c q).tenant

/-- PRD's snapshot into the read latch, and PW1–PW7 from it (R293). -/
def pointPort (s : State) (c : Nat) (k : Option Nat) (port idx : Nat) : Word × State :=
  let s := toIssue s c
  if port = 0x100 then
    let s := s.modThr c k fun t => { t with latch := (List.range 8).map (ptWord (s.pt idx)) }
    ((s.thr c k).latch.getD 0 0, s)
  else ((s.thr c k).latch.getD (port - 0x100) 0, s)

-- Claims (R198, R199) -------------------------------------------------------------------------------------------------------------

/-- A source after its claim in cycle `t` (R198): a release in that very cycle stays for the next claim, and a claim of a
software source serves every set that it has had (R206). -/
def SrcSt.claimed (x : SrcSt) (n t line : Nat) : SrcSt :=
  let x := { x with gone := none, cnt := if n < 16 then 0 else x.cnt }
  if x.again = some t && 16 ≤ n then { x with line := line, relAt := t, again := none }
  else { x with released := false, again := none }

/-- IC_CLAIM: the result and the state it leaves. -/
def claim (s : State) (c : Nat) : Word × State :=
  let s := toIssue s c
  let spur := (s.core c).ic.latch
  let s0 := s.modCore c fun y => { y with ic := { y.ic with latch := false } }
  match bestSrc s c with
  | some (p, n) =>
    let s1 := s0.modCore c fun y => y.setSrc n ((y.src n).claimed n s.nowCyc (s.now + lineDelay n * s.cyc))
    let s1 := s1.modCore c fun y => { y with ic := { y.ic with stack := (p, n) :: y.ic.stack } }
    (w32 n, if n < 16 then s1.setReg rIC_SWI c 0 (s1.reg rIC_SWI c 0 &&& ~~~(w32 (2 ^ n))) else s1)
  | none => if spur then (1023, raise s0 kIC_STAT_SPUR c) else (0, s0)

/-- IC_EOI: the named source is popped if it is on top, else EOIERR is set. -/
def eoi (s : State) (c n : Nat) : State :=
  match (s.core c).ic.stack with
  | (_, m) :: rest => if m = n then s.modCore c fun y => { y with ic := { y.ic with stack := rest } }
      else raise (toIssue s c) kIC_STAT_EOIERR c
  | [] => raise (toIssue s c) kIC_STAT_EOIERR c

-- IN (R143–R145) ------------------------------------------------------------------------------------------------------------------

/-- The BAR0 offset of a window port (R144). -/
def barOff (s : State) (c port : Nat) : Nat := (s.core c).sio * 2 ^ 17 + port % 2 ^ 15 * 4

/-- Cycles until a window IN's result: at most 64 (R144, R150). -/
def windowWait (s : State) : Nat × State := let (v, s) := s.draw; (4 + v.toNat % 61, s)

/-- A VCOUNT access waits for the vector instructions of its issuer that are still to write VCOUNT, and an OUT for
those that are still to read it too (R103). -/
def countBusy (c : Nat) (k : Option Nat) (out : Bool) (s : State) : Bool :=
  vOwner s c == k && ((s.core c).vq.any (fun e => vSetsCount e.op || (out && readsCount s c e)) ||
    (s.core c).jobs.any fun j => j.ents.any fun e => vSetsCount e.op)

/-- A logged IN: a long operation from the point window, a result in four cycles from the time ports. -/
def loggedIn (s : State) (c : Nat) (k : Option Nat) (pc rd port : Nat) (fresh : Word × State) : Out :=
  match logIn s c k port fresh with
  | none => .stop (mismatch s c (k.getD 0) 5)
  | some (v, s') =>
    if 0x100 ≤ port then .ok (addLong s' c k ⟨.point, [(rd, v)], issueCyc s c + 14, w32 pc, none, none, none⟩) 4
    else .ok (putReg s' c k rd v) 4

/-- An IN through the window onto BAR0: an error response raises IOUNMAP (R144, R453). -/
def windowIn (s : State) (c : Nat) (k : Option Nat) (pc rd port : Nat) : Out :=
  let s' := busRead (toIssue s c) .supervisor (barOff s c port)
  match s'.resp with
  | .data bs =>
    let (w, s') := windowWait s'
    .ok (addLong s' c k ⟨.window, [(rd, w32 (leVal bs))], issueCyc s c + w, w32 pc, none, none, none⟩) 4
  | .stalled => .stall fun s => coreDemand s c ((regDomain (barOff s c port)).getD 0) (dlSet s c k)
  | _ => .err (fun s => busRead (toIssue s c) .supervisor (barOff s c port)) (portFault s c k pc port)

/-- An IN of a port into rd; `pt` is the point index of a PRD. -/
def inAct (s : State) (c : Nat) (k : Option Nat) (pc rd port pt : Nat) : Out :=
  if port = 0 && countBusy c k false s then .wait (countBusy c k false)
  else if 0x30 ≤ port && port ≤ 0x32 then
    loggedIn s c k pc rd port (if replays s c k then (0, s) else timePort s c k port)
  else if 0x100 ≤ port && port ≤ 0x107 then
    if replays s c k then loggedIn s c k pc rd port (0, s)
    else if port = 0x100 && !readAllowed (s.pt pt) (pointOwner s c k) then .flt (portFault s c k pc port)
    else loggedIn s c k pc rd port (pointPort s c k port pt)
  else if k.isNone && port = 0x410 then
    let (v, s') := claim s c
    .ok (putReg s' c k rd v) 4
  else if k.isNone && 0x8000 ≤ port then windowIn s c k pc rd port
  else match plainPort s c k port with
    | some v => .ok (putReg s c k rd v) 4
    | none => .flt (portFault s c k pc port)

/-- Issue an IN: port s[ra] + imm into rd. The index of a PRD is rd's old value (R293). -/
def inI (s : State) (c rd ra : Nat) (imm : BitVec 16) : State :=
  issueI s c { reads := [ra, rd], writes := [rd] } fun s k pc =>
    let r := (s.thr c k).r
    inAct s c k pc rd (portOf r ra imm) ((r.get rd).toNat % 2 ^ 17)

-- OUT (R143–R145) -----------------------------------------------------------------------------------------------------------------

/-- A decision output is held; the 65th makes the section mismatch with cause HELD (R217). -/
def holdOut (s : State) (c q : Nat) (x : Sec) (o : DecOut) (key v : Nat) : Option State :=
  if 64 ≤ x.held.length then none
  else some (sign (modSec s c q fun x => { x with held := x.held ++ [o] }) c (some q) sgOut key v)

/-- The time stamp that an issuer's point write carries (R292). -/
def writeStamp (s : State) (c : Nat) : Nat :=
  match (s.core c).run with
  | some r => r.act.trig
  | none => replicaTime s (clusterIsl c)

/-- The Tray address of an issuer's write block (R294): in the context's slice; the supervisor's lies at the
offset itself (log entry 47). -/
def blockAddr (k : Option Nat) (a : Nat) : Nat := match k with | some q => 16384 * q + a | none => a

/-- The point write that a write block of 16 bytes names (R294). -/
def blockWrite (s : State) (c : Nat) (k : Option Nat) (b : List Byte) : PtWrite :=
  let w := leVal (b.take 4)
  ⟨.ez, w % 2 ^ 17, if bit w 31 then none else some (BitVec.ofNat 64 (leVal ((b.drop 8).take 8))),
    if bit w 30 then none else some (leVal ((b.drop 4).take 2)), some (writeStamp s c), pointOwner s c k, none,
    .pwr c k, 0, none, (issueCyc s c + 5) * s.cyc, (s.core c).run.map fun r => trigMono r.act⟩

/-- A write block as a decision output (R217). -/
def blockOut (s : State) (c : Nat) (b : List Byte) : DecOut :=
  let w := leVal (b.take 4)
  .point (w % 2 ^ 17) (bit w 31) (bit w 30) (leVal ((b.drop 4).take 2)) (leVal ((b.drop 8).take 8)) (writeStamp s c)

/-- PWR (R145, R217, R293–R295) of the block at Tray offset a. -/
def pwrAct (s : State) (c : Nat) (k : Option Nat) (pc a : Nat) : Out :=
  if a % 16 != 0 || 0x3F00 ≤ a then .flt (dataFault s c cALIGN pc a)
  else
    let p := blockAddr k a
    let (ok, s') := trayCheck s c p
    let (ok', s') := if ok then trayCheck s' c (p + 8) else (false, s')
    if !(ok && ok') then .ok (holdFault s' c k { dataFault s c cPOISON pc a with imp := true }) 4
    else
      let s' := toIssue s' c
      let b := trayBytes s' c p 16
      let w := blockWrite s' c k b
      if leVal ((b.drop 4).take 2) / 2 ^ 13 != 0 || !writeAllowed (s'.pt w.pt) w then .flt (portFault s c k pc 0x108)
      else match k, secOf s c k with
        | some q, some x =>
          match holdOut s' c q x (blockOut s' c b) (leVal (b.take 8) + writeStamp s' c * 2 ^ 64) (leVal (b.drop 8)) with
          | some s' => .ok (putFlags s' c k { (s'.thr c k).r.flags with v := false }) 4
          | none => .stop (mismatch s c q 4)
        | _, _ =>
          let s' := { s' with ptq := s'.ptq ++ [w] }
          .ok (s'.modThr c k fun t => { t with pwr := some none }) 4

/-- PUB of control block cb (R259). -/
def pubAct (s : State) (c : Nat) (k : Option Nat) (pc cb : Nat) : Out :=
  let ws := s.recw 3 cb
  let mine := match pointOwner s c k with | some t => bits (wd ws 0) 16 8 == t | none => true
  if !(bit (wd ws 0) 31 && mine) then .flt (portFault s c k pc 0x210)
  else match k, secOf s c k with
    | some q, some x =>
      match holdOut s c q x (.pub cb) (2 ^ 29 + cb) 0 with
      | some s => .ok s 4
      | none => .stop (mismatch s c q 4)
    | _, _ =>
      let s := toIssue s c
      .ok { s with pubq := s.pubq ++ [⟨cb, false, none, false, none, s.now⟩] } 4

/-- An OUT to VCOUNT (R103, R143, R174). -/
def vcountAct (s : State) (c : Nat) (k : Option Nat) (pc v : Nat) : Out :=
  if countBusy c k true s then .wait (countBusy c k true)
  else if 0x100000 < v then .flt (scalarFault cRANGE pc 0 (issueCyc s c))
  else .ok (setVceil (setVcount s c k v) c k v) 4

/-- An OUT through the window onto BAR0 (R144, R453). -/
def windowOut (s : State) (c : Nat) (k : Option Nat) (pc port : Nat) (v : Word) : Out :=
  let s' := busWrite (toIssue s c) (barOff s c port) v
  match s'.resp with
  | .data _ => .ok s' 4
  | .stalled => .stall fun s => coreDemand s c ((regDomain (barOff s c port)).getD 0) (dlSet s c k)
  | _ => .err (fun s => busWrite (toIssue s c) (barOff s c port) v) (portFault s c k pc port)

/-- The supervisor's own ports (R144, R191, R199): the state after an OUT; none where the port only reads or is not
there. -/
def supOut (s : State) (c port : Nat) (v : Word) : Option State :=
  let l := (s.core c).ml
  let bank (f : Bank → Bank) : State :=
    if l = 0 then s else s.modCore c fun y => { y with banks := tput y.banks l (f (tget Bank.init y.banks l)) }
  if port = 0x401 then some (bank fun b => { b with pc := v })
  else if port = 0x404 then some (bank fun b => { b with disp := bits v.toNat 24 2, rml := bits v.toNat 16 3 })
  else if port = 0x406 then
    some (if l = 0 then s else (let (r, i, j) := portAflags s c; plainWrite (toIssue s c) r i j v))
  else if port = 0x411 then some (eoi s c (v.toNat % 1024))
  else if port = 0x7FFF then some (s.modCore c fun y => { y with sio := v.toNat % 512 })
  else none

/-- An OUT of v to a port. -/
def outAct (s : State) (c : Nat) (k : Option Nat) (pc port : Nat) (v : Word) : Out :=
  if port = 0 then vcountAct s c k pc v.toNat
  else if port = 0x108 then pwrAct s c k pc v.toNat
  else if port = 0x210 then pubAct s c k pc (v.toNat % 1024)
  else if port = 6 || port = 9 || port = 12 then
    .ok (s.modThr c k fun t =>
      { t with r := t.r.setLoop ((port - 4) / 3) { t.r.loop ((port - 4) / 3) with lc := v } }) 4
  else if k.isNone && 0x8000 ≤ port then windowOut s c k pc port v
  else match (if k.isNone then supOut s c port v else none) with
    | some s => .ok s 4
    | none =>
      if (0x30 ≤ port && port ≤ 0x32) || (k.isNone && port = 0x410) || (plainPort s c k port).isSome then .ok s 4
      else .flt (portFault s c k pc port)

/-- Issue an OUT: rd to port s[ra] + imm. -/
def outI (s : State) (c rd ra : Nat) (imm : BitVec 16) : State :=
  issueI s c { reads := [ra, rd], outAt := some (ra, imm) } fun s k pc =>
    let r := (s.thr c k).r
    outAct s c k pc (portOf r ra imm) (r.get rd)

/-- PWR_JUDGEMENT (R145): the judgement of the PWR of the core's issuer returns, and V is written. -/
def pwrJudgement (s : State) (c : Nat) : State :=
  let k := curCtx s c
  match (s.thr c k).pwr with
  | some (some (v, m)) =>
    let due := cdiv m s.cyc
    let s := waitTo (runTo s c due (eventFuel s c)) c due
    if (s.thr c k).pwr.isSome then writeV s c k v else s
  | _ => s

def execInp (c : Core) (rd ra : Reg5) (imm : BitVec 16) (s : State) : Res := runs s c (.inp c rd ra imm) (inI s c rd ra imm)
def execOut (c : Core) (rd ra : Reg5) (imm : BitVec 16) (s : State) : Res := runs s c (.out c rd ra imm) (outI s c rd ra imm)
/-- PRD is the IN of port 0x0100 (R293). -/
def execPrd (c : Core) (rd ra : Reg5) (imm : BitVec 16) (s : State) : Res := runs s c (.prd c rd ra imm) (inI s c rd ra imm)
/-- PWR is the OUT to port 0x0108 (R293). -/
def execPwr (c : Core) (rd ra : Reg5) (imm : BitVec 16) (s : State) : Res := runs s c (.pwr c rd ra imm) (outI s c rd ra imm)
def execPwrJudgement (c : Core) (s : State) : Res := done (pwrJudgement s c)
/-- PUB is the OUT to port 0x0210 (R259). -/
def execPub (c : Core) (rd ra : Reg5) (imm : BitVec 16) (s : State) : Res := runs s c (.pub c rd ra imm) (outI s c rd ra imm)
/-- VCOUNT is the OUT to port 0x0000 (R143). -/
def execVcount (c : Core) (rd ra : Reg5) (imm : BitVec 16) (s : State) : Res := runs s c (.vcount c rd ra imm) (outI s c rd ra imm)
/-- TNOW_NS is the IN of port 0x0030 (R143). -/
def execTnowNs (c : Core) (rd ra : Reg5) (imm : BitVec 16) (s : State) : Res := runs s c (.tnowNs c rd ra imm) (inI s c rd ra imm)
/-- XAFLAGS is the OUT to port 0x0406 (R191). -/
def execXaflags (c : Core) (rd ra : Reg5) (imm : BitVec 16) (s : State) : Res := runs s c (.xaflags c rd ra imm) (outI s c rd ra imm)
/-- SIO_PAGE is the OUT to port 0x7FFF (R144). -/
def execSioPage (c : Core) (rd ra : Reg5) (imm : BitVec 16) (s : State) : Res := runs s c (.sioPage c rd ra imm) (outI s c rd ra imm)
/-- The window is ports 0x8000–0xFFFF, by OUT or by IN (R144). -/
def execBar0Window (c : Core) (wr : Bool) (rd ra : Reg5) (imm : BitVec 16) (s : State) : Res :=
  runs s c (.bar0Window c wr rd ra imm) (if wr then outI s c rd ra imm else inI s c rd ra imm)
/-- IC_CLAIM is the IN of port 0x0410 (R198, R208). -/
def execIcClaim (c : Core) (rd ra : Reg5) (imm : BitVec 16) (s : State) : Res := runs s c (.icClaim c rd ra imm) (inI s c rd ra imm)
/-- IC_EOI is the OUT to port 0x0411 (R199, R208). -/
def execIcEoi (c : Core) (rd ra : Reg5) (imm : BitVec 16) (s : State) : Res := runs s c (.icEoi c rd ra imm) (outI s c rd ra imm)

end Sys2Proof.Machine
end

