-- ==== Sys2Proof/Machine/Vector.lean ====
section
/-! DEFINITION. The stream and short-vector instructions (R120, R132, R134): each issues its operation to the span; what
it computes is in `VEval.lean`. -/

namespace Sys2Proof.Machine
open Sys2Proof

-- Stream instructions (R120)

/-- VMOV (R120). -/
def execVmov (c : Core) (x : StreamArgs) (s : State) : Host.Outcome State Fault Refusal :=
  runsV s c (.vmov c x) x.sh (issueV s c (.str .mov x))
/-- VLDFF (R131). -/
def execVldff (c : Core) (x : StreamArgs) (s : State) : Host.Outcome State Fault Refusal :=
  runsV s c (.vldff c x) x.sh (issueV s c (.str .ldff x))
/-- VLDS (R127). -/
def execVlds (c : Core) (x : StreamArgs) (s : State) : Host.Outcome State Fault Refusal :=
  runsV s c (.vlds c x) x.sh (issueV s c (.str .lds x))
/-- VSTS (R127). -/
def execVsts (c : Core) (x : StreamArgs) (s : State) : Host.Outcome State Fault Refusal :=
  runsV s c (.vsts c x) x.sh (issueV s c (.str .sts x))
/-- VCVT (R129). -/
def execVcvt (c : Core) (x : StreamArgs) (s : State) : Host.Outcome State Fault Refusal :=
  runsV s c (.vcvt c x) x.sh (issueV s c (.str .cvt x))
/-- VADD (R120). -/
def execVadd (c : Core) (x : StreamArgs) (s : State) : Host.Outcome State Fault Refusal :=
  runsV s c (.vadd c x) x.sh (issueV s c (.str .add x))
/-- VSUB (R120). -/
def execVsub (c : Core) (x : StreamArgs) (s : State) : Host.Outcome State Fault Refusal :=
  runsV s c (.vsub c x) x.sh (issueV s c (.str .sub x))
/-- VMUL (R120). -/
def execVmul (c : Core) (x : StreamArgs) (s : State) : Host.Outcome State Fault Refusal :=
  runsV s c (.vmul c x) x.sh (issueV s c (.str .mul x))
/-- VFMA (R122). -/
def execVfma (c : Core) (x : StreamArgs) (s : State) : Host.Outcome State Fault Refusal :=
  runsV s c (.vfma c x) x.sh (issueV s c (.str .fma x))
/-- VMIN (R122). -/
def execVmin (c : Core) (x : StreamArgs) (s : State) : Host.Outcome State Fault Refusal :=
  runsV s c (.vmin c x) x.sh (issueV s c (.str .min x))
/-- VMAX (R122). -/
def execVmax (c : Core) (x : StreamArgs) (s : State) : Host.Outcome State Fault Refusal :=
  runsV s c (.vmax c x) x.sh (issueV s c (.str .max x))
/-- VABS (R122). -/
def execVabs (c : Core) (x : StreamArgs) (s : State) : Host.Outcome State Fault Refusal :=
  runsV s c (.vabs c x) x.sh (issueV s c (.str .abs x))
/-- VNEG (R122). -/
def execVneg (c : Core) (x : StreamArgs) (s : State) : Host.Outcome State Fault Refusal :=
  runsV s c (.vneg c x) x.sh (issueV s c (.str .neg x))
/-- VAND (R120). -/
def execVand (c : Core) (x : StreamArgs) (s : State) : Host.Outcome State Fault Refusal :=
  runsV s c (.vand c x) x.sh (issueV s c (.str .and x))
/-- VOR (R120). -/
def execVor (c : Core) (x : StreamArgs) (s : State) : Host.Outcome State Fault Refusal :=
  runsV s c (.vor c x) x.sh (issueV s c (.str .or x))
/-- VXOR (R120). -/
def execVxor (c : Core) (x : StreamArgs) (s : State) : Host.Outcome State Fault Refusal :=
  runsV s c (.vxor c x) x.sh (issueV s c (.str .xor x))
/-- VSHL (R122). -/
def execVshl (c : Core) (x : StreamArgs) (s : State) : Host.Outcome State Fault Refusal :=
  runsV s c (.vshl c x) x.sh (issueV s c (.str .shl x))
/-- VSHR (R122). -/
def execVshr (c : Core) (x : StreamArgs) (s : State) : Host.Outcome State Fault Refusal :=
  runsV s c (.vshr c x) x.sh (issueV s c (.str .shr x))
/-- VDIV (R120). -/
def execVdiv (c : Core) (x : StreamArgs) (s : State) : Host.Outcome State Fault Refusal :=
  runsV s c (.vdiv c x) x.sh (issueV s c (.str .div x))
/-- VSQRT (R120). -/
def execVsqrt (c : Core) (x : StreamArgs) (s : State) : Host.Outcome State Fault Refusal :=
  runsV s c (.vsqrt c x) x.sh (issueV s c (.str .sqrt x))
/-- VCMP (R128). -/
def execVcmp (c : Core) (x : StreamArgs) (s : State) : Host.Outcome State Fault Refusal :=
  runsV s c (.vcmp c x) x.sh (issueV s c (.str .cmp x))
/-- VMULW (R123). -/
def execVmulw (c : Core) (x : StreamArgs) (s : State) : Host.Outcome State Fault Refusal :=
  runsV s c (.vmulw c x) x.sh (issueV s c (.str .mulw x))
/-- VFMAW (R123). -/
def execVfmaw (c : Core) (x : StreamArgs) (s : State) : Host.Outcome State Fault Refusal :=
  runsV s c (.vfmaw c x) x.sh (issueV s c (.str .fmaw x))
/-- VDOT (R124). -/
def execVdot (c : Core) (x : StreamArgs) (s : State) : Host.Outcome State Fault Refusal :=
  runsV s c (.vdot c x) x.sh (issueV s c (.str .dot x))
/-- VCMUL (R125). -/
def execVcmul (c : Core) (x : StreamArgs) (s : State) : Host.Outcome State Fault Refusal :=
  runsV s c (.vcmul c x) x.sh (issueV s c (.str .cmul x))
/-- VREDADD (R126). -/
def execVredadd (c : Core) (x : StreamArgs) (s : State) : Host.Outcome State Fault Refusal :=
  runsV s c (.vredadd c x) x.sh (issueV s c (.str .redadd x))
/-- VREDMIN (R126). -/
def execVredmin (c : Core) (x : StreamArgs) (s : State) : Host.Outcome State Fault Refusal :=
  runsV s c (.vredmin c x) x.sh (issueV s c (.str .redmin x))
/-- VREDMAX (R126). -/
def execVredmax (c : Core) (x : StreamArgs) (s : State) : Host.Outcome State Fault Refusal :=
  runsV s c (.vredmax c x) x.sh (issueV s c (.str .redmax x))
/-- VPREFIX (R126). -/
def execVprefix (c : Core) (x : StreamArgs) (s : State) : Host.Outcome State Fault Refusal :=
  runsV s c (.vprefix c x) x.sh (issueV s c (.str .psum x))
/-- VDADD (R130). -/
def execVdadd (c : Core) (x : StreamArgs) (s : State) : Host.Outcome State Fault Refusal :=
  runsV s c (.vdadd c x) x.sh (issueV s c (.str .dadd x))
/-- VDSUB (R130). -/
def execVdsub (c : Core) (x : StreamArgs) (s : State) : Host.Outcome State Fault Refusal :=
  runsV s c (.vdsub c x) x.sh (issueV s c (.str .dsub x))

-- Short-vector instructions (R132, R134)

/-- VADD_SHORT (R132). -/
def execVaddShort (c : Core) (x : ShortArgs) (s : State) : Host.Outcome State Fault Refusal :=
  runsV s c (.vaddShort c x) x.sh (issueV s c (.sht .add x))
/-- VSUB_SHORT (R132). -/
def execVsubShort (c : Core) (x : ShortArgs) (s : State) : Host.Outcome State Fault Refusal :=
  runsV s c (.vsubShort c x) x.sh (issueV s c (.sht .sub x))
/-- VMUL_SHORT (R132). -/
def execVmulShort (c : Core) (x : ShortArgs) (s : State) : Host.Outcome State Fault Refusal :=
  runsV s c (.vmulShort c x) x.sh (issueV s c (.sht .mul x))
/-- VFMA_SHORT (R132). -/
def execVfmaShort (c : Core) (x : ShortArgs) (s : State) : Host.Outcome State Fault Refusal :=
  runsV s c (.vfmaShort c x) x.sh (issueV s c (.sht .fma x))
/-- VMIN_SHORT (R132). -/
def execVminShort (c : Core) (x : ShortArgs) (s : State) : Host.Outcome State Fault Refusal :=
  runsV s c (.vminShort c x) x.sh (issueV s c (.sht .min x))
/-- VMAX_SHORT (R132). -/
def execVmaxShort (c : Core) (x : ShortArgs) (s : State) : Host.Outcome State Fault Refusal :=
  runsV s c (.vmaxShort c x) x.sh (issueV s c (.sht .max x))
/-- VAND_SHORT (R132). -/
def execVandShort (c : Core) (x : ShortArgs) (s : State) : Host.Outcome State Fault Refusal :=
  runsV s c (.vandShort c x) x.sh (issueV s c (.sht .and x))
/-- VOR_SHORT (R132). -/
def execVorShort (c : Core) (x : ShortArgs) (s : State) : Host.Outcome State Fault Refusal :=
  runsV s c (.vorShort c x) x.sh (issueV s c (.sht .or x))
/-- VXOR_SHORT (R132). -/
def execVxorShort (c : Core) (x : ShortArgs) (s : State) : Host.Outcome State Fault Refusal :=
  runsV s c (.vxorShort c x) x.sh (issueV s c (.sht .xor x))
/-- VSHLI (R132). -/
def execVshli (c : Core) (x : ShortArgs) (s : State) : Host.Outcome State Fault Refusal :=
  runsV s c (.vshli c x) x.sh (issueV s c (.sht .shli x))
/-- VSHRAI (R132). -/
def execVshrai (c : Core) (x : ShortArgs) (s : State) : Host.Outcome State Fault Refusal :=
  runsV s c (.vshrai c x) x.sh (issueV s c (.sht .shrai x))
/-- VSHRLI (R132). -/
def execVshrli (c : Core) (x : ShortArgs) (s : State) : Host.Outcome State Fault Refusal :=
  runsV s c (.vshrli c x) x.sh (issueV s c (.sht .shrli x))
/-- VCMPEQ (R128). -/
def execVcmpeq (c : Core) (x : ShortArgs) (s : State) : Host.Outcome State Fault Refusal :=
  runsV s c (.vcmpeq c x) x.sh (issueV s c (.sht .cmpeq x))
/-- VCMPLT (R128). -/
def execVcmplt (c : Core) (x : ShortArgs) (s : State) : Host.Outcome State Fault Refusal :=
  runsV s c (.vcmplt c x) x.sh (issueV s c (.sht .cmplt x))
/-- VCMPLE (R128). -/
def execVcmple (c : Core) (x : ShortArgs) (s : State) : Host.Outcome State Fault Refusal :=
  runsV s c (.vcmple c x) x.sh (issueV s c (.sht .cmple x))
/-- VSEL (R132). -/
def execVsel (c : Core) (x : ShortArgs) (s : State) : Host.Outcome State Fault Refusal :=
  runsV s c (.vsel c x) x.sh (issueV s c (.sht .sel x))
/-- VSPLAT (R132). -/
def execVsplat (c : Core) (x : ShortArgs) (s : State) : Host.Outcome State Fault Refusal :=
  runsV s c (.vsplat c x) x.sh (issueV s c (.sht .splat x))
/-- VCVT_SHORT (R132). -/
def execVcvtShort (c : Core) (x : ShortArgs) (s : State) : Host.Outcome State Fault Refusal :=
  runsV s c (.vcvtShort c x) x.sh (issueV s c (.sht .cvt x))
/-- VREDADD_SHORT (R132). -/
def execVredaddShort (c : Core) (x : ShortArgs) (s : State) : Host.Outcome State Fault Refusal :=
  runsV s c (.vredaddShort c x) x.sh (issueV s c (.sht .redadd x))
/-- VREDMIN_SHORT (R132). -/
def execVredminShort (c : Core) (x : ShortArgs) (s : State) : Host.Outcome State Fault Refusal :=
  runsV s c (.vredminShort c x) x.sh (issueV s c (.sht .redmin x))
/-- VREDMAX_SHORT (R132). -/
def execVredmaxShort (c : Core) (x : ShortArgs) (s : State) : Host.Outcome State Fault Refusal :=
  runsV s c (.vredmaxShort c x) x.sh (issueV s c (.sht .redmax x))
/-- VREDADD2 (R132). -/
def execVredadd2 (c : Core) (x : ShortArgs) (s : State) : Host.Outcome State Fault Refusal :=
  runsV s c (.vredadd2 c x) x.sh (issueV s c (.sht .redadd2 x))
/-- VCMUL_SHORT (R132). -/
def execVcmulShort (c : Core) (x : ShortArgs) (s : State) : Host.Outcome State Fault Refusal :=
  runsV s c (.vcmulShort c x) x.sh (issueV s c (.sht .cmul x))
/-- VDADD_SHORT (R132). -/
def execVdaddShort (c : Core) (x : ShortArgs) (s : State) : Host.Outcome State Fault Refusal :=
  runsV s c (.vdaddShort c x) x.sh (issueV s c (.sht .dadd x))
/-- VDSUB_SHORT (R132). -/
def execVdsubShort (c : Core) (x : ShortArgs) (s : State) : Host.Outcome State Fault Refusal :=
  runsV s c (.vdsubShort c x) x.sh (issueV s c (.sht .dsub x))
/-- VMOVS (R132). -/
def execVmovs (c : Core) (x : ShortArgs) (s : State) : Host.Outcome State Fault Refusal :=
  runsV s c (.vmovs c x) x.sh (issueV s c (.sht .movs x))
/-- MAND (R132). -/
def execMand (c : Core) (x : ShortArgs) (s : State) : Host.Outcome State Fault Refusal :=
  runsV s c (.mand c x) x.sh (issueV s c (.sht .mand x))
/-- MOR (R132). -/
def execMor (c : Core) (x : ShortArgs) (s : State) : Host.Outcome State Fault Refusal :=
  runsV s c (.mor c x) x.sh (issueV s c (.sht .mor x))
/-- MXOR (R132). -/
def execMxor (c : Core) (x : ShortArgs) (s : State) : Host.Outcome State Fault Refusal :=
  runsV s c (.mxor c x) x.sh (issueV s c (.sht .mxor x))
/-- MNOT (R132). -/
def execMnot (c : Core) (x : ShortArgs) (s : State) : Host.Outcome State Fault Refusal :=
  runsV s c (.mnot c x) x.sh (issueV s c (.sht .mnot x))
/-- MPOP (R132). -/
def execMpop (c : Core) (x : ShortArgs) (s : State) : Host.Outcome State Fault Refusal :=
  runsV s c (.mpop c x) x.sh (issueV s c (.sht .mpop x))
/-- VSETN (R134). -/
def execVsetn (c : Core) (x : ShortArgs) (s : State) : Host.Outcome State Fault Refusal :=
  runsV s c (.vsetn c x) x.sh (issueV s c (.sht .setn x))
/-- VGRP (R134). -/
def execVgrp (c : Core) (x : ShortArgs) (s : State) : Host.Outcome State Fault Refusal :=
  runsV s c (.vgrp c x) x.sh (issueV s c (.sht .grp x))

end Sys2Proof.Machine
end

