-- ==== Sys2Proof/Machine/Dispatch.lean ====
section
/-! DEFINITION. The meaning of every command of the opcode table, one arm per constructor of Instr. -/

namespace Sys2Proof.Machine
open Sys2Proof

def exec (i : Instr) (s : State) : Host.Outcome State Fault Refusal :=
  match i with
  | .activationPost => Sys2Proof.Machine.execActivationPost s
  | .dispatch c => Sys2Proof.Machine.execDispatch c s
  | .planBoundary => Sys2Proof.Machine.execPlanBoundary s
  | .slotStart => Sys2Proof.Machine.execSlotStart s
  | .spanFormation p => Sys2Proof.Machine.execSpanFormation p s
  | .deadlineMiss t => Sys2Proof.Machine.execDeadlineMiss t s
  | .fixedRelease t => Sys2Proof.Machine.execFixedRelease t s
  | .heldWriteRetry => Sys2Proof.Machine.execHeldWriteRetry s
  | .migration t => Sys2Proof.Machine.execMigration t s
  | .shmOwner sheet v => Sys2Proof.Machine.execShmOwner sheet v s
  | .handoverComplete sheet => Sys2Proof.Machine.execHandoverComplete sheet s
  | .scrub bank row => Sys2Proof.Machine.execScrub bank row s
  | .bar2Access wr addr size data => Sys2Proof.Machine.execBar2Access wr addr size data s
  | .vectorStart c => Sys2Proof.Machine.execVectorStart c s
  | .countExpiry c half => Sys2Proof.Machine.execCountExpiry c half s
  | .verdict c => Sys2Proof.Machine.execVerdict c s
  | .vmov c x => Sys2Proof.Machine.execVmov c x s
  | .vldff c x => Sys2Proof.Machine.execVldff c x s
  | .vlds c x => Sys2Proof.Machine.execVlds c x s
  | .vsts c x => Sys2Proof.Machine.execVsts c x s
  | .vcvt c x => Sys2Proof.Machine.execVcvt c x s
  | .vadd c x => Sys2Proof.Machine.execVadd c x s
  | .vsub c x => Sys2Proof.Machine.execVsub c x s
  | .vmul c x => Sys2Proof.Machine.execVmul c x s
  | .vfma c x => Sys2Proof.Machine.execVfma c x s
  | .vmin c x => Sys2Proof.Machine.execVmin c x s
  | .vmax c x => Sys2Proof.Machine.execVmax c x s
  | .vabs c x => Sys2Proof.Machine.execVabs c x s
  | .vneg c x => Sys2Proof.Machine.execVneg c x s
  | .vand c x => Sys2Proof.Machine.execVand c x s
  | .vor c x => Sys2Proof.Machine.execVor c x s
  | .vxor c x => Sys2Proof.Machine.execVxor c x s
  | .vshl c x => Sys2Proof.Machine.execVshl c x s
  | .vshr c x => Sys2Proof.Machine.execVshr c x s
  | .vdiv c x => Sys2Proof.Machine.execVdiv c x s
  | .vsqrt c x => Sys2Proof.Machine.execVsqrt c x s
  | .vcmp c x => Sys2Proof.Machine.execVcmp c x s
  | .vmulw c x => Sys2Proof.Machine.execVmulw c x s
  | .vfmaw c x => Sys2Proof.Machine.execVfmaw c x s
  | .vdot c x => Sys2Proof.Machine.execVdot c x s
  | .vcmul c x => Sys2Proof.Machine.execVcmul c x s
  | .vredadd c x => Sys2Proof.Machine.execVredadd c x s
  | .vredmin c x => Sys2Proof.Machine.execVredmin c x s
  | .vredmax c x => Sys2Proof.Machine.execVredmax c x s
  | .vprefix c x => Sys2Proof.Machine.execVprefix c x s
  | .vdadd c x => Sys2Proof.Machine.execVdadd c x s
  | .vdsub c x => Sys2Proof.Machine.execVdsub c x s
  | .vaddShort c x => Sys2Proof.Machine.execVaddShort c x s
  | .vsubShort c x => Sys2Proof.Machine.execVsubShort c x s
  | .vmulShort c x => Sys2Proof.Machine.execVmulShort c x s
  | .vfmaShort c x => Sys2Proof.Machine.execVfmaShort c x s
  | .vminShort c x => Sys2Proof.Machine.execVminShort c x s
  | .vmaxShort c x => Sys2Proof.Machine.execVmaxShort c x s
  | .vandShort c x => Sys2Proof.Machine.execVandShort c x s
  | .vorShort c x => Sys2Proof.Machine.execVorShort c x s
  | .vxorShort c x => Sys2Proof.Machine.execVxorShort c x s
  | .vshli c x => Sys2Proof.Machine.execVshli c x s
  | .vshrai c x => Sys2Proof.Machine.execVshrai c x s
  | .vshrli c x => Sys2Proof.Machine.execVshrli c x s
  | .vcmpeq c x => Sys2Proof.Machine.execVcmpeq c x s
  | .vcmplt c x => Sys2Proof.Machine.execVcmplt c x s
  | .vcmple c x => Sys2Proof.Machine.execVcmple c x s
  | .vsel c x => Sys2Proof.Machine.execVsel c x s
  | .vsplat c x => Sys2Proof.Machine.execVsplat c x s
  | .vcvtShort c x => Sys2Proof.Machine.execVcvtShort c x s
  | .vredaddShort c x => Sys2Proof.Machine.execVredaddShort c x s
  | .vredminShort c x => Sys2Proof.Machine.execVredminShort c x s
  | .vredmaxShort c x => Sys2Proof.Machine.execVredmaxShort c x s
  | .vredadd2 c x => Sys2Proof.Machine.execVredadd2 c x s
  | .vcmulShort c x => Sys2Proof.Machine.execVcmulShort c x s
  | .vdaddShort c x => Sys2Proof.Machine.execVdaddShort c x s
  | .vdsubShort c x => Sys2Proof.Machine.execVdsubShort c x s
  | .vmovs c x => Sys2Proof.Machine.execVmovs c x s
  | .mand c x => Sys2Proof.Machine.execMand c x s
  | .mor c x => Sys2Proof.Machine.execMor c x s
  | .mxor c x => Sys2Proof.Machine.execMxor c x s
  | .mnot c x => Sys2Proof.Machine.execMnot c x s
  | .mpop c x => Sys2Proof.Machine.execMpop c x s
  | .vsetn c x => Sys2Proof.Machine.execVsetn c x s
  | .vgrp c x => Sys2Proof.Machine.execVgrp c x s
  | .add c rd ra rb sb => Sys2Proof.Machine.execAdd c rd ra rb sb s
  | .sub c rd ra rb sb => Sys2Proof.Machine.execSub c rd ra rb sb s
  | .adc c rd ra rb sb => Sys2Proof.Machine.execAdc c rd ra rb sb s
  | .sbc c rd ra rb sb => Sys2Proof.Machine.execSbc c rd ra rb sb s
  | .andR c rd ra rb sb => Sys2Proof.Machine.execAndR c rd ra rb sb s
  | .orR c rd ra rb sb => Sys2Proof.Machine.execOrR c rd ra rb sb s
  | .xorR c rd ra rb sb => Sys2Proof.Machine.execXorR c rd ra rb sb s
  | .andn c rd ra rb sb => Sys2Proof.Machine.execAndn c rd ra rb sb s
  | .shl c rd ra rb sb => Sys2Proof.Machine.execShl c rd ra rb sb s
  | .shrl c rd ra rb sb => Sys2Proof.Machine.execShrl c rd ra rb sb s
  | .shra c rd ra rb sb => Sys2Proof.Machine.execShra c rd ra rb sb s
  | .ror c rd ra rb sb => Sys2Proof.Machine.execRor c rd ra rb sb s
  | .shli c rd ra sh sb => Sys2Proof.Machine.execShli c rd ra sh sb s
  | .shrli c rd ra sh sb => Sys2Proof.Machine.execShrli c rd ra sh sb s
  | .shrai c rd ra sh sb => Sys2Proof.Machine.execShrai c rd ra sh sb s
  | .rori c rd ra sh sb => Sys2Proof.Machine.execRori c rd ra sh sb s
  | .mul c rd ra rb sb => Sys2Proof.Machine.execMul c rd ra rb sb s
  | .mulh c rd ra rb sb => Sys2Proof.Machine.execMulh c rd ra rb sb s
  | .mulhu c rd ra rb sb => Sys2Proof.Machine.execMulhu c rd ra rb sb s
  | .mull c rd ra rb sb => Sys2Proof.Machine.execMull c rd ra rb sb s
  | .mullu c rd ra rb sb => Sys2Proof.Machine.execMullu c rd ra rb sb s
  | .div c rd ra rb sb => Sys2Proof.Machine.execDiv c rd ra rb sb s
  | .divu c rd ra rb sb => Sys2Proof.Machine.execDivu c rd ra rb sb s
  | .rem c rd ra rb sb => Sys2Proof.Machine.execRem c rd ra rb sb s
  | .remu c rd ra rb sb => Sys2Proof.Machine.execRemu c rd ra rb sb s
  | .cmp c rd ra rb sb => Sys2Proof.Machine.execCmp c rd ra rb sb s
  | .tst c rd ra rb sb => Sys2Proof.Machine.execTst c rd ra rb sb s
  | .minS c rd ra rb sb => Sys2Proof.Machine.execMinS c rd ra rb sb s
  | .maxS c rd ra rb sb => Sys2Proof.Machine.execMaxS c rd ra rb sb s
  | .minu c rd ra rb sb => Sys2Proof.Machine.execMinu c rd ra rb sb s
  | .maxu c rd ra rb sb => Sys2Proof.Machine.execMaxu c rd ra rb sb s
  | .clz c rd ra sb => Sys2Proof.Machine.execClz c rd ra sb s
  | .csel c cond rd ra rb sb => Sys2Proof.Machine.execCsel c cond rd ra rb sb s
  | .sextb c rd ra sb => Sys2Proof.Machine.execSextb c rd ra sb s
  | .sexth c rd ra sb => Sys2Proof.Machine.execSexth c rd ra sb s
  | .addi c rd ra imm => Sys2Proof.Machine.execAddi c rd ra imm s
  | .addis c rd ra imm => Sys2Proof.Machine.execAddis c rd ra imm s
  | .andi c rd ra imm => Sys2Proof.Machine.execAndi c rd ra imm s
  | .ori c rd ra imm => Sys2Proof.Machine.execOri c rd ra imm s
  | .xori c rd ra imm => Sys2Proof.Machine.execXori c rd ra imm s
  | .lui c rd imm => Sys2Proof.Machine.execLui c rd imm s
  | .cmpi c ra imm => Sys2Proof.Machine.execCmpi c ra imm s
  | .ldb c rd ra imm => Sys2Proof.Machine.execLdb c rd ra imm s
  | .ldbu c rd ra imm => Sys2Proof.Machine.execLdbu c rd ra imm s
  | .ldh c rd ra imm => Sys2Proof.Machine.execLdh c rd ra imm s
  | .ldhu c rd ra imm => Sys2Proof.Machine.execLdhu c rd ra imm s
  | .ldw c rd ra imm => Sys2Proof.Machine.execLdw c rd ra imm s
  | .ldd c rd ra imm => Sys2Proof.Machine.execLdd c rd ra imm s
  | .stb c rd ra imm => Sys2Proof.Machine.execStb c rd ra imm s
  | .sth c rd ra imm => Sys2Proof.Machine.execSth c rd ra imm s
  | .stw c rd ra imm => Sys2Proof.Machine.execStw c rd ra imm s
  | .std c rd ra imm => Sys2Proof.Machine.execStd c rd ra imm s
  | .bCond c cond off => Sys2Proof.Machine.execBCond c cond off s
  | .jal c off => Sys2Proof.Machine.execJal c off s
  | .jalr c rd ra imm => Sys2Proof.Machine.execJalr c rd ra imm s
  | .loopR c ra off => Sys2Proof.Machine.execLoopR c ra off s
  | .loopi c count off => Sys2Proof.Machine.execLoopi c count off s
  | .inp c rd ra imm => Sys2Proof.Machine.execInp c rd ra imm s
  | .out c rd ra imm => Sys2Proof.Machine.execOut c rd ra imm s
  | .prd c rd ra imm => Sys2Proof.Machine.execPrd c rd ra imm s
  | .pwr c rd ra imm => Sys2Proof.Machine.execPwr c rd ra imm s
  | .pwrJudgement c => Sys2Proof.Machine.execPwrJudgement c s
  | .pub c rd ra imm => Sys2Proof.Machine.execPub c rd ra imm s
  | .vcount c rd ra imm => Sys2Proof.Machine.execVcount c rd ra imm s
  | .tnowNs c rd ra imm => Sys2Proof.Machine.execTnowNs c rd ra imm s
  | .xaflags c rd ra imm => Sys2Proof.Machine.execXaflags c rd ra imm s
  | .sioPage c rd ra imm => Sys2Proof.Machine.execSioPage c rd ra imm s
  | .bar0Window c wr rd ra imm => Sys2Proof.Machine.execBar0Window c wr rd ra imm s
  | .icClaim c rd ra imm => Sys2Proof.Machine.execIcClaim c rd ra imm s
  | .icEoi c rd ra imm => Sys2Proof.Machine.execIcEoi c rd ra imm s
  | .trap c rd ra imm => Sys2Proof.Machine.execTrap c rd ra imm s
  | .nop c => Sys2Proof.Machine.execNop c s
  | .sync c => Sys2Proof.Machine.execSync c s
  | .endA c => Sys2Proof.Machine.execEndA c s
  | .wait c => Sys2Proof.Machine.execWait c s
  | .rfe c => Sys2Proof.Machine.execRfe c s
  | .resume c => Sys2Proof.Machine.execResume c s
  | .negBegin c => Sys2Proof.Machine.execNegBegin c s
  | .checkN c => Sys2Proof.Machine.execCheckN c s
  | .negWindowExpiry c => Sys2Proof.Machine.execNegWindowExpiry c s
  | .restart c => Sys2Proof.Machine.execRestart c s
  | .longOperationRetire c => Sys2Proof.Machine.execLongOperationRetire c s
  | .exceptionEntry c => Sys2Proof.Machine.execExceptionEntry c s
  | .interruptEntry c => Sys2Proof.Machine.execInterruptEntry c s
  | .requestLine c src => Sys2Proof.Machine.execRequestLine c src s
  | .moderationRelease c src => Sys2Proof.Machine.execModerationRelease c src s
  | .icSwi c v => Sys2Proof.Machine.execIcSwi c v s
  | .icSrc c src v => Sys2Proof.Machine.execIcSrc c src v s
  | .msixRelease vec => Sys2Proof.Machine.execMsixRelease vec s
  | .msixUnmask vec => Sys2Proof.Machine.execMsixUnmask vec s
  | .ezCtl c v => Sys2Proof.Machine.execEzCtl c v s
  | .ezIdata c v => Sys2Proof.Machine.execEzIdata c v s
  | .ezXcfgQrel c k v => Sys2Proof.Machine.execEzXcfgQrel c k v s
  | .schCapReturn v => Sys2Proof.Machine.execSchCapReturn v s
  | .frameReceive p f => Sys2Proof.Machine.execFrameReceive p f s
  | .ingressRoutineStart l => Sys2Proof.Machine.execIngressRoutineStart l s
  | .svFrame l => Sys2Proof.Machine.execSvFrame l s
  | .gooseFrame l => Sys2Proof.Machine.execGooseFrame l s
  | .burstSvFrame l => Sys2Proof.Machine.execBurstSvFrame l s
  | .ptpEventFrame l => Sys2Proof.Machine.execPtpEventFrame l s
  | .proofBeacon l => Sys2Proof.Machine.execProofBeacon l s
  | .egressRoutineStart l => Sys2Proof.Machine.execEgressRoutineStart l s
  | .publicationRequest => Sys2Proof.Machine.execPublicationRequest s
  | .transmitStart p => Sys2Proof.Machine.execTransmitStart p s
  | .transmitEnd p => Sys2Proof.Machine.execTransmitEnd p s
  | .retransmission cb => Sys2Proof.Machine.execRetransmission cb s
  | .talExpiry sub => Sys2Proof.Machine.execTalExpiry sub s
  | .supervisionSend pair => Sys2Proof.Machine.execSupervisionSend pair s
  | .duplicateForget pair mac seq => Sys2Proof.Machine.execDuplicateForget pair mac seq s
  | .linkUp p sgmiiSpeed => Sys2Proof.Machine.execLinkUp p sgmiiSpeed s
  | .linkDown p => Sys2Proof.Machine.execLinkDown p s
  | .epnCtl p v => Sys2Proof.Machine.execEpnCtl p v s
  | .transmitDescriptor set data => Sys2Proof.Machine.execTransmitDescriptor set data s
  | .keyChangeover pair => Sys2Proof.Machine.execKeyChangeover pair s
  | .feNop l e dst src imm => Sys2Proof.Machine.execFeNop l e dst src imm s
  | .movi l e dst src imm => Sys2Proof.Machine.execMovi l e dst src imm s
  | .movhi l e dst src imm => Sys2Proof.Machine.execMovhi l e dst src imm s
  | .feAddi l e dst src imm => Sys2Proof.Machine.execFeAddi l e dst src imm s
  | .feAdd l e dst src imm => Sys2Proof.Machine.execFeAdd l e dst src imm s
  | .feSub l e dst src imm => Sys2Proof.Machine.execFeSub l e dst src imm s
  | .feAnd l e dst src imm => Sys2Proof.Machine.execFeAnd l e dst src imm s
  | .feOr l e dst src imm => Sys2Proof.Machine.execFeOr l e dst src imm s
  | .feXor l e dst src imm => Sys2Proof.Machine.execFeXor l e dst src imm s
  | .feAndi l e dst src imm => Sys2Proof.Machine.execFeAndi l e dst src imm s
  | .feShli l e dst src imm => Sys2Proof.Machine.execFeShli l e dst src imm s
  | .shri l e dst src imm => Sys2Proof.Machine.execShri l e dst src imm s
  | .feCmpi l e dst src imm => Sys2Proof.Machine.execFeCmpi l e dst src imm s
  | .feCmp l e dst src imm => Sys2Proof.Machine.execFeCmp l e dst src imm s
  | .getF l e dst src imm => Sys2Proof.Machine.execGetF l e dst src imm s
  | .peek l e dst src imm => Sys2Proof.Machine.execPeek l e dst src imm s
  | .skipF l e dst src imm => Sys2Proof.Machine.execSkipF l e dst src imm s
  | .seekF l e dst src imm => Sys2Proof.Machine.execSeekF l e dst src imm s
  | .berlen l e dst src imm => Sys2Proof.Machine.execBerlen l e dst src imm s
  | .crcs l e dst src imm => Sys2Proof.Machine.execCrcs l e dst src imm s
  | .crcr l e dst src imm => Sys2Proof.Machine.execCrcr l e dst src imm s
  | .look l e dst src imm => Sys2Proof.Machine.execLook l e dst src imm s
  | .rrec l e dst src imm => Sys2Proof.Machine.execRrec l e dst src imm s
  | .tagchk l e dst src imm => Sys2Proof.Machine.execTagchk l e dst src imm s
  | .plw l e dst src imm => Sys2Proof.Machine.execPlw l e dst src imm s
  | .plh l e dst src imm => Sys2Proof.Machine.execPlh l e dst src imm s
  | .ptv l e dst src imm => Sys2Proof.Machine.execPtv l e dst src imm s
  | .ptq l e dst src imm => Sys2Proof.Machine.execPtq l e dst src imm s
  | .pts l e dst src imm => Sys2Proof.Machine.execPts l e dst src imm s
  | .ptwr l e dst src imm => Sys2Proof.Machine.execPtwr l e dst src imm s
  | .ptwrJudged l => Sys2Proof.Machine.execPtwrJudged l s
  | .plateWriteAck l => Sys2Proof.Machine.execPlateWriteAck l s
  | .tagOutcome l n => Sys2Proof.Machine.execTagOutcome l n s
  | .crcDone l => Sys2Proof.Machine.execCrcDone l s
  | .lookDone l => Sys2Proof.Machine.execLookDone l s
  | .postF l e dst src imm => Sys2Proof.Machine.execPostF l e dst src imm s
  | .cnt l e dst src imm => Sys2Proof.Machine.execCnt l e dst src imm s
  | .ebeg l e dst src imm => Sys2Proof.Machine.execEbeg l e dst src imm s
  | .eput l e dst src imm => Sys2Proof.Machine.execEput l e dst src imm s
  | .esend l e dst src imm => Sys2Proof.Machine.execEsend l e dst src imm s
  | .tsfwd l e dst src imm => Sys2Proof.Machine.execTsfwd l e dst src imm s
  | .dropF l e dst src imm => Sys2Proof.Machine.execDropF l e dst src imm s
  | .hostF l e dst src imm => Sys2Proof.Machine.execHostF l e dst src imm s
  | .feEnd l e dst src imm => Sys2Proof.Machine.execFeEnd l e dst src imm s
  | .commit l e dst src imm => Sys2Proof.Machine.execCommit l e dst src imm s
  | .br l e cond imm => Sys2Proof.Machine.execBr l e cond imm s
  | .feWait l e cond imm => Sys2Proof.Machine.execFeWait l e cond imm s
  | .callF l e dst src imm => Sys2Proof.Machine.execCallF l e dst src imm s
  | .retF l e dst src imm => Sys2Proof.Machine.execRetF l e dst src imm s
  | .wdog l e => Sys2Proof.Machine.execWdog l e s
  | .feLoadGo v => Sys2Proof.Machine.execFeLoadGo v s
  | .verificationEnd => Sys2Proof.Machine.execVerificationEnd s
  | .feCtlRun v => Sys2Proof.Machine.execFeCtlRun v s
  | .pointWrite fe0 fe1 ez host tu => Sys2Proof.Machine.execPointWrite fe0 fe1 ez host tu s
  | .timeUnitRetry => Sys2Proof.Machine.execTimeUnitRetry s
  | .eventDrain => Sys2Proof.Machine.execEventDrain s
  | .directWindowRead rdr pt w => Sys2Proof.Machine.execDirectWindowRead rdr pt w s
  | .directWindowWrite pt w v => Sys2Proof.Machine.execDirectWindowWrite pt w v s
  | .ppsEdge err => Sys2Proof.Machine.execPpsEdge err s
  | .irigBFrame am g => Sys2Proof.Machine.execIrigBFrame am g s
  | .referenceExcursion => Sys2Proof.Machine.execReferenceExcursion s
  | .announceTimeout => Sys2Proof.Machine.execAnnounceTimeout s
  | .freerun => Sys2Proof.Machine.execFreerun s
  | .leapSecond => Sys2Proof.Machine.execLeapSecond s
  | .replicaCorrection isl => Sys2Proof.Machine.execReplicaCorrection isl s
  | .tuSetsec v => Sys2Proof.Machine.execTuSetsec v s
  | .timePointUpdate => Sys2Proof.Machine.execTimePointUpdate s
  | .ppsOut => Sys2Proof.Machine.execPpsOut s
  | .poll => Sys2Proof.Machine.execPoll s
  | .hostReadCompletion r => Sys2Proof.Machine.execHostReadCompletion r s
  | .hostReadTimeout => Sys2Proof.Machine.execHostReadTimeout s
  | .completionWrite set => Sys2Proof.Machine.execCompletionWrite set s
  | .cmdNop set => Sys2Proof.Machine.execCmdNop set s
  | .plateRd set => Sys2Proof.Machine.execPlateRd set s
  | .plateWr set => Sys2Proof.Machine.execPlateWr set s
  | .trayRd set => Sys2Proof.Machine.execTrayRd set s
  | .trayWr set => Sys2Proof.Machine.execTrayWr set s
  | .dramRd set => Sys2Proof.Machine.execDramRd set s
  | .dramWr set => Sys2Proof.Machine.execDramWr set s
  | .pointWr set => Sys2Proof.Machine.execPointWr set s
  | .pointCfg set => Sys2Proof.Machine.execPointCfg set s
  | .actCfg set => Sys2Proof.Machine.execActCfg set s
  | .svSub set => Sys2Proof.Machine.execSvSub set s
  | .gooseSub set => Sys2Proof.Machine.execGooseSub set s
  | .goosePub set => Sys2Proof.Machine.execGoosePub set s
  | .bsvSub set => Sys2Proof.Machine.execBsvSub set s
  | .recStat set => Sys2Proof.Machine.execRecStat set s
  | .imemWr set => Sys2Proof.Machine.execImemWr set s
  | .planLoad set img => Sys2Proof.Machine.execPlanLoad set img s
  | .keyLoadKey set => Sys2Proof.Machine.execKeyLoadKey set s
  | .keyLoadFuse set => Sys2Proof.Machine.execKeyLoadFuse set s
  | .keyLoadRevoke set => Sys2Proof.Machine.execKeyLoadRevoke set s
  | .hiTnCtlRestart set => Sys2Proof.Machine.execHiTnCtlRestart set s
  | .flr => Sys2Proof.Machine.execFlr s
  | .pcieLinkLoss => Sys2Proof.Machine.execPcieLinkLoss s
  | .perstN level => Sys2Proof.Machine.execPerstN level s
  | .tnCtlAdv o v => Sys2Proof.Machine.execTnCtlAdv o v s
  | .epochAdvance o => Sys2Proof.Machine.execEpochAdvance o s
  | .ksVdata wr v => Sys2Proof.Machine.execKsVdata wr v s
  | .lcReqGo v => Sys2Proof.Machine.execLcReqGo v s
  | .requestVerdict => Sys2Proof.Machine.execRequestVerdict s
  | .wipe => Sys2Proof.Machine.execWipe s
  | .tamper x => Sys2Proof.Machine.execTamper x s
  | .proofDigestDone => Sys2Proof.Machine.execProofDigestDone s
  | .beaconSend => Sys2Proof.Machine.execBeaconSend s
  | .silent e => Sys2Proof.Machine.execSilent e s
  | .loupeRequest bank => Sys2Proof.Machine.execLoupeRequest bank s
  | .refresh => Sys2Proof.Machine.execRefresh s
  | .patrolScrub => Sys2Proof.Machine.execPatrolScrub s
  | .ddrCtlInit v => Sys2Proof.Machine.execDdrCtlInit v s
  | .trainingEnd ok => Sys2Proof.Machine.execTrainingEnd ok s
  | .pmReqGo v => Sys2Proof.Machine.execPmReqGo v s
  | .sleepEntry => Sys2Proof.Machine.execSleepEntry s
  | .entryComplete => Sys2Proof.Machine.execEntryComplete s
  | .wake src => Sys2Proof.Machine.execWake src s
  | .idleEntry => Sys2Proof.Machine.execIdleEntry s
  | .domainGate d => Sys2Proof.Machine.execDomainGate d s
  | .demandWake d dl => Sys2Proof.Machine.execDemandWake d dl s
  | .rampStep d => Sys2Proof.Machine.execRampStep d s
  | .domainOn d => Sys2Proof.Machine.execDomainOn d s
  | .switchOpen d why => Sys2Proof.Machine.execSwitchOpen d why s
  | .pmDomClrflt d v => Sys2Proof.Machine.execPmDomClrflt d v s
  | .vbatTakeover mv => Sys2Proof.Machine.execVbatTakeover mv s
  | .constantVoltage => Sys2Proof.Machine.execConstantVoltage s
  | .chargeDone => Sys2Proof.Machine.execChargeDone s
  | .recharge mv => Sys2Proof.Machine.execRecharge mv s
  | .vbatSample mv => Sys2Proof.Machine.execVbatSample mv s
  | .cellRemoved mv => Sys2Proof.Machine.execCellRemoved mv s
  | .probe riseMv => Sys2Proof.Machine.execProbe riseMv s
  | .powerOnReset straps vbatOk => Sys2Proof.Machine.execPowerOnReset straps vbatOk s
  | .resetN straps => Sys2Proof.Machine.execResetN straps s
  | .bistSliceEnd fails => Sys2Proof.Machine.execBistSliceEnd fails s
  | .sliceOverrun fails => Sys2Proof.Machine.execSliceOverrun fails s
  | .onlineSlice kind unit => Sys2Proof.Machine.execOnlineSlice kind unit s
  | .onlineSliceEnd unit res => Sys2Proof.Machine.execOnlineSliceEnd unit res s
  | .biDirectScanDump v pass => Sys2Proof.Machine.execBiDirectScanDump v pass s
  | .biDirectMarch v pass => Sys2Proof.Machine.execBiDirectMarch v pass s
  | .biDirectLbist v pass => Sys2Proof.Machine.execBiDirectLbist v pass s
  | .biDirectLoopback v pass => Sys2Proof.Machine.execBiDirectLoopback v pass s
  | .watchdogExpiry => Sys2Proof.Machine.execWatchdogExpiry s
  | .slWdkickKick v => Sys2Proof.Machine.execSlWdkickKick v s
  | .stopN => Sys2Proof.Machine.execStopN s
  | .slStopGo v => Sys2Proof.Machine.execSlStopGo v s
  | .stopBath => Sys2Proof.Machine.execStopBath s
  | .safeStateBuild slot => Sys2Proof.Machine.execSafeStateBuild slot s
  | .safeStateRetransmission slot => Sys2Proof.Machine.execSafeStateRetransmission slot s
  | .seal => Sys2Proof.Machine.execSeal s
  | .slCtlLogrearm v => Sys2Proof.Machine.execSlCtlLogrearm v s
  | .slImgdata v => Sys2Proof.Machine.execSlImgdata v s
  | .spiTransfer cmd addr n => Sys2Proof.Machine.execSpiTransfer cmd addr n s
  | .ubLinkUp width => Sys2Proof.Machine.execUbLinkUp width s
  | .ubLinkDown => Sys2Proof.Machine.execUbLinkDown s
  | .heartbeatSend => Sys2Proof.Machine.execHeartbeatSend s
  | .heartbeat u => Sys2Proof.Machine.execHeartbeat u s
  | .heartbeatMiss => Sys2Proof.Machine.execHeartbeatMiss s
  | .takeover => Sys2Proof.Machine.execTakeover s
  | .mirror u => Sys2Proof.Machine.execMirror u s
  | .ckpt u => Sys2Proof.Machine.execCkpt u s
  | .checkpointRefog t => Sys2Proof.Machine.execCheckpointRefog t s
  | .pubst u => Sys2Proof.Machine.execPubst u s
  | .takeU u => Sys2Proof.Machine.execTakeU u s
  | .holdU u => Sys2Proof.Machine.execHoldU u s
  | .nak u => Sys2Proof.Machine.execNak u s
  | .idleU u => Sys2Proof.Machine.execIdleU u s
  | .creditReturn => Sys2Proof.Machine.execCreditReturn s
  | .lend u => Sys2Proof.Machine.execLend u s
  | .lendout u => Sys2Proof.Machine.execLendout u s
  | .narrowAccess rdr off size => Sys2Proof.Machine.execNarrowAccess rdr off size s
  | .undecodedAccess rdr off size => Sys2Proof.Machine.execUndecodedAccess rdr off size s
  | .registerWrite rdr off v => Sys2Proof.Machine.execRegisterWrite rdr off v s
  | .rcRead rdr off => Sys2Proof.Machine.execRcRead rdr off s
  | .ppsEdgeMissing => Sys2Proof.Machine.execPpsEdgeMissing s
  | .referenceQualified => Sys2Proof.Machine.execReferenceQualified s
  | .ptpTransmit p m => Sys2Proof.Machine.execPtpTransmit p m s
  | .pcieLinkUp width gen => Sys2Proof.Machine.execPcieLinkUp width gen s
  | .temphi hot => Sys2Proof.Machine.execTemphi hot s
  | .glTempUpdate temps => Sys2Proof.Machine.execGlTempUpdate temps s
  | .mirrorRetry => Sys2Proof.Machine.execMirrorRetry s
  | .cutThrough p f => Sys2Proof.Machine.execCutThrough p f s
  | .narrowWriteRetire c => Sys2Proof.Machine.execNarrowWriteRetire c s

end Sys2Proof.Machine
end

