-- ==== Sys2Proof/Safety.lean ====
section
/-! DEFINITION. What statements about the block are said with: an issuer's registers, when a core issues an instruction
at once, what an instruction's own effect leaves alone, and the conditions that every step leaves true. -/

namespace Sys2Proof.Machine
open Sys2Proof

/-- A command completes: it answers a next state, of which `P` holds. -/
def Completes (o : Host.Outcome State Fault Refusal) (P : State → Prop) : Prop := ∃ t, o = .next t ∧ P t

/-- Instruction i, which core c fetches next (R110, R140, R147), completes. -/
def Runs (s : State) (c : Core) (i : Instr) (P : State → Prop) : Prop := fetched s c i = true → Completes (exec i s) P

/-- Microword i, which a thread of lane l fetches next (R268), completes. -/
def LaneRuns (s : State) (l : Lane) (e : Bool) (i : Instr) (P : State → Prop) : Prop :=
  feFetched s l e i = true → Completes (exec i s) P

-- Easel cores -----------------------------------------------------------------------------------------------------------

/-- Scalar register n of issuer k of core c: a context's, or the supervisor's (R137). -/
def gpr (s : State) (c : Nat) (k : Option Nat) (n : Nat) : Word := (s.thr c k).r.get n

/-- The flags of an issuer (R138). -/
def nzcv (s : State) (c : Nat) (k : Option Nat) : Nzcv := (s.thr c k).r.flags

/-- Nothing that an issuer began earlier is pending: no long operation, no PWR without its V, no delay slot, no held
fault. -/
structure ThrCalm (t : Thr) : Prop where
  pend : t.pend = []
  pwr  : t.pwr = none
  slot : t.dslot = []
  held : t.held = []

/-- Core c issues the instruction of `size` bytes at the program counter of issuer k at once: k issues there, nothing
earlier is pending, the instruction lies where k may fetch it and its word spells one, the Negative pass is in its window, and the Loupe neither
stops issue here nor has a logged write to apply (R225). -/
structure Ready (s : State) (c : Nat) (k : Option Nat) (size : Nat) : Prop where
  who   : curCtx s c = k
  ctx8  : ∀ q, k = some q → q < 8
  up    : canIssue s c = true
  jobs  : (s.core c).jobs = []
  vq    : (s.core c).vq = []
  br    : (s.core c).br = none
  calm  : ThrCalm (s.thr c k)
  sup   : ThrCalm (s.thr c none)
  own   : ∀ q, (s.core c).run.map (·.ctx) = some q → ThrCalm (s.thr c (some q))
  win   : windowOver s c k = false
  brk   : atBreak s c k = false
  go    : (s.core c).loupe.go = false
  log   : (loupeNow s c k).1 = []
  first : fetchOk s c k (pcOf s c k) = true
  last  : fetchOk s c k (pcOf s c k + size - 4) = true
  word  : fetchBad s c (pcOf s c k) = false

/-- The instruction of `size` bytes at the program counter is not the last of an active loop's body. -/
def NotAtEnd (s : State) (c : Nat) (k : Option Nat) (size : Nat) : Prop :=
  ∀ l < 3, ¬(((s.thr c k).r.loop l).act = true ∧ ((s.thr c k).r.loop l).le.toNat = pcOf s c k + size - 4)

/-- What an instruction of issuer k of core c leaves alone when it writes registers only: every memory, register and
unit of the device, every other core and context, and of the own ones all but the register set, the issue clock and
what an open section records (R219, R225). The output pins follow the state that drives them. -/
structure ScalarFrame (s t : State) (c : Nat) (k : Option Nat) : Prop where
  rest  : { t with cores := s.cores, ctxs := s.ctxs, pm := s.pm } = s
  pins  : t.pm = (settle s).pm
  cores : ∀ n, n ≠ c → tfind t.cores n = tfind s.cores n
  ctxs  : ∀ n, k.map (8 * c + ·) ≠ some n → tfind t.ctxs n = tfind s.ctxs n
  core  : { t.core c with cyc := (s.core c).cyc, thr := (s.core c).thr } = s.core c
  sup   : k ≠ none → (t.core c).thr = (s.core c).thr
  ctx   : ∀ q, k = some q → { t.ctx c q with thr := (s.ctx c q).thr, sec := (s.ctx c q).sec } = s.ctx c q
  thr   : { t.thr c k with r := (s.thr c k).r } = s.thr c k

/-- Where a non-branching instruction of `size` bytes leads: the next instruction, or the start of a loop body that
repeats (R152, R153); the loop registers count. -/
def Advanced (s t : State) (c : Nat) (k : Option Nat) (size : Nat) : Prop :=
  let n := nextPc (s.thr c k).r (pcOf s c k) size
  (t.thr c k).r.pc = n.pc ∧ (t.thr c k).r.l0 = n.l0 ∧ (t.thr c k).r.l1 = n.l1 ∧ (t.thr c k).r.l2 = n.l2

/-- The next instruction of core c issues `n` cycles after this one did. -/
def Took (s t : State) (c n : Nat) : Prop := (t.core c).cyc = issueCyc s c + n

/-- Register rd holds v and every other register what it held; s0 reads as 0 (R137). -/
def RegIs (s t : State) (c : Nat) (k : Option Nat) (rd : Nat) (v : Word) : Prop :=
  ∀ n, gpr t c k n = if n = rd ∧ n ≠ 0 then v else gpr s c k n

/-- The own effect of an instruction that computes: rd holds v, the flags are fl, issue took n cycles, and the rest is
as it was. -/
structure Computes (s t : State) (c : Nat) (k : Option Nat) (rd : Nat) (v : Word) (fl : Nzcv) (n : Nat) : Prop where
  reg   : RegIs s t c k rd v
  flags : nzcv t c k = fl
  next  : Advanced s t c k 4
  took  : Took s t c n
  frame : ScalarFrame s t c k

/-- The register set keeps its registers and flags, and issue goes on behind the instruction n cycles later. -/
structure Passes (s t : State) (c : Nat) (k : Option Nat) (n : Nat) : Prop where
  regs  : ∀ m, gpr t c k m = gpr s c k m
  flags : nzcv t c k = nzcv s c k
  next  : Advanced s t c k 4
  took  : Took s t c n

/-- The data address of a load or store (R147). -/
def dataAddr (s : State) (c : Nat) (k : Option Nat) (ra : Nat) (imm : BitVec 16) : Nat :=
  (gpr s c k ra + imm.signExtend 32).toNat

/-- An aligned access of n bytes at data address a reaches Tray byte b of the core: in the context's slice below its
saved state, or anywhere in the 128 KiB for the supervisor (R141). -/
def InTray (k : Option Nat) (a n b : Nat) : Prop :=
  a % n = 0 ∧ match k with
    | some q => a < 0x3F00 ∧ b = 16384 * q + a
    | none => a < 0x20000 ∧ b = a

/-- An aligned access of n bytes at data address a reaches address b of the issuer's Plate space (R141, R142). -/
def InPlate (a n b : Nat) : Prop := a = 0x01000000 + b ∧ b < 0x01000000 ∧ a % n = 0

/-- An aligned access of n bytes at data address a reaches byte p of the DRAM, inside the issuer's window, in a unit
without an error (R141, R142, R378); the DRAM's domain is powered, and DL does not forbid the access. -/
def InDram (s : State) (c : Nat) (k : Option Nat) (a n p : Nat) : Prop :=
  0x80000000 ≤ a ∧ a % n = 0 ∧ dlSet s c k = false ∧ dramAddr s (ownerOf s c k) (a - 0x80000000) = some p ∧
  domStalls s 16 = false ∧ tget 0 s.dramEcc (p / 64) = 0

/-- No Tray word of the n bytes at b holds an error (R76). -/
def TrayClean (s : State) (c b : Nat) : Prop := tget 0 s.trayEcc (trayKey c b / 8) = 0

/-- What taking an exception into supervisor mode does (R184): the cause, the return address and the interrupted mode
and level are saved in the bank of level l, and the handler of level l is next, 14 cycles later. -/
structure Entered (s t : State) (c : Nat) (k : Option Nat) (l code pc : Nat) : Prop where
  sup   : (t.core c).sup = true
  ml    : (t.core c).ml = l
  start : (t.core c).thr.r.pc = w32 (s.f fEZ_XBASE_BASE c * 2 ^ 11 + 0x40 * l)
  code  : bits (tget Bank.init (t.core c).banks l).cause.toNat 0 8 = code
  level : bits (tget Bank.init (t.core c).banks l).cause.toNat 8 3 = l
  saved : (tget Bank.init (t.core c).banks l).pc = w32 pc
  rml   : (tget Bank.init (t.core c).banks l).rml = mlOf s c k
  rsup  : (tget Bank.init (t.core c).banks l).rsup = k.isNone
  took  : Took s t c 14

/-- A signed result does not fit in 32 bits (R138, R164). -/
def overflows (z : Int) : Bool := decide (z < -(2 ^ 31)) || decide (2 ^ 31 ≤ z)

/-- N and Z of a result, with C and V given. -/
def nzFlags (x : Word) (cf vf : Bool) : Nzcv := ⟨x.msb, x == 0, cf, vf⟩

/-- The points that held decision outputs write, and the control blocks that they publish, in issue order (R217). -/
def heldPoints (os : List DecOut) : List Nat :=
  os.filterMap fun | .point p _ _ _ _ _ => some p | .pub _ => none
def heldPubs (os : List DecOut) : List Nat :=
  os.filterMap fun | .point _ _ _ _ _ _ => none | .pub b => some b

-- Registers, flags and points --------------------------------------------------------------------------------------------------

/-- A saturating counter field counts once more. -/
def Counted (s t : State) (f : Field) (i : Nat := 0) (j : Nat := 0) : Prop :=
  t.f f i j = min (s.f f i j + 1) (2 ^ f.w - 1)

/-- Hardware has set a status flag (R204). -/
def Flagged (t : State) (k : Flag) (i : Nat := 0) (j : Nat := 0) : Prop := t.f k.f i j = 1

/-- Nothing but the output pins changed. -/
def Same (s t : State) : Prop := t = settle s

/-- The value and quality that a write leaves in a point (R285, R290), and whether that is a change (R296). -/
def newVal (p : Point) (w : PtWrite) : Nat :=
  match w.val with | some v => storedBits p.ty v.toNat | none => p.val.toNat
def newQ (p : Point) (w : PtWrite) : Nat := match w.q with | some q => q % 2 ^ 13 | none => p.q
def changes (p : Point) (w : PtWrite) : Bool :=
  valueChange p.ty (newVal p w) p.ref.toNat p.dead.toNat || newQ p w != p.q

/-- A write has landed in its point (R290, R292, R296, R297). -/
structure Landed (s t : State) (w : PtWrite) : Prop where
  val   : (t.pt w.pt).val = BitVec.ofNat 64 (newVal (s.pt w.pt) w)
  q     : (t.pt w.pt).q = newQ (s.pt w.pt) w
  ts    : (t.pt w.pt).ts = w.ts.getD t.tai
  chg   : (t.pt w.pt).chg = if changes (s.pt w.pt) w then ((s.pt w.pt).chg + 1) % 256 else (s.pt w.pt).chg
  ref   : (t.pt w.pt).ref = if changes (s.pt w.pt) w then (t.pt w.pt).val else (s.pt w.pt).ref
  keeps : (t.pt w.pt).ty = (s.pt w.pt).ty ∧ (t.pt w.pt).owner = (s.pt w.pt).owner ∧
    (t.pt w.pt).dead = (s.pt w.pt).dead ∧ (t.pt w.pt).flags = (s.pt w.pt).flags
  rest  : ∀ n, n ≠ w.pt → t.pt n = s.pt n

-- Frame Engine lanes ---------------------------------------------------------------------------------------------------------------

/-- Register n of a lane's thread (R267). -/
def lreg (s : State) (l : Nat) (e : Bool) (n : Nat) : Nat := feReg s l e (feThr s l e) n

/-- A thread runs its next microword, none of its Plate writes is due, and nothing abandons its routine there (R268, R271,
R273, R275–R277, R281). -/
structure FeReady (s : State) (l : Nat) (e : Bool) (k : FeCls) : Prop where
  run    : (feThr s l e).run = true
  up     : lanesRun s l = true
  bound  : (feThr s l e).cyc < (feThr s l e).bound
  word   : tget 0 s.storeEcc (storeWord (feThr s l e)) = 0
  spells : wordBad s (feThr s l e) = false
  parity : (feThr s l e).perr = false
  landed : ∀ w ∈ (feThr s l e).acks, (feThr s l e).cyc < w.due
  egress : k.egress = true → e = true
  region : k.vendor = true → customerWord (feThr s l e).pc = false
  order  : k.post = true → (feThr s l e).commit = true
  words  : ∀ n, lreg s l e n < 2 ^ 32

/-- The thread goes on at the next microword n cycles later; the other thread and the other lanes stand. -/
structure FeNext (s t : State) (l : Nat) (e : Bool) (n : Nat) : Prop where
  pc    : (feThr t l e).pc = ((feThr s l e).pc + 1) % 16384
  cyc   : (feThr t l e).cyc = (feThr s l e).cyc + n
  run   : (feThr t l e).run = true
  other : feThr t l (!e) = feThr s l (!e)
  lanes : ∀ m, m ≠ l → t.lane m = s.lane m

/-- x1–x24 keep their values, but that register d, where it is one of them, holds v. -/
def LaneRegIs (s t : State) (l : Nat) (e : Bool) (d v : Nat) : Prop :=
  ∀ n < 25, lreg t l e n = if n = d ∧ n ≠ 0 then v else lreg s l e n

/-- A thread's flags Z, N and C (R269). -/
def laneFlags (s : State) (l : Nat) (e : Bool) : Bool × Bool × Bool :=
  ((feThr s l e).z, (feThr s l e).n, (feThr s l e).c)

/-- Only the lanes, and the pins that follow the state, may differ. -/
def OnlyLanes (s t : State) : Prop := { t with lanes := s.lanes, pm := s.pm } = s

/-- Nothing of the frame at the head of lane l's queue has been done yet, and no customer PRE hook is loaded that would run
before the vendor routine takes it (R272, R275). -/
structure FrameTurn (s : State) (l : Nat) (q : QFrame) : Prop where
  head   : headFrame s l = some q
  up     : lanesRun s l = true
  commit : (s.lane l).ing.commit = false
  hook   : (s.lane l).ing.hookRet = none
  pre    : hookEntry s (s.lane l).ing.old 1 = none

/-- The routine of a thread is abandoned with a cause, at its word (R276, R283). -/
def Abandoned (s t : State) (l : Nat) (e : Bool) (cause : Nat) : Prop :=
  (feThr t l e).run = false ∧ t.f fFE_LABORT_CAUSE l = cause ∧ Flagged t kFE_USTAT_ABORT ∧
  t.f fFE_LABORT_PC l = (feThr s l e).pc % 2 ^ fFE_LABORT_PC.w ∧ t.f fFE_LABORT_LATE l = b2n (feThr s l e).commit ∧
  Counted s t fFE_LABORT_CNT_CNT l

/-- The ingress routine of lane l is over, and its frame has left the queue (R266); one that was refused at full in the same
cycle may be in it now (R235, R261). -/
def RoutineOver (s t : State) (l : Nat) : Prop :=
  (feThr t l false).run = false ∧ ((t.port l).ing = (s.port l).ing.drop 1 ∨
    ∃ q, (s.port l).lateIn = some q ∧ (t.port l).ing = (s.port l).ing.drop 1 ++ [q])

-- The host ------------------------------------------------------------------------------------------------------------------------------

/-- Command c with operation `op` is at the head of a live set whose turn it is (R331), nothing that came before it is
unfinished, and the power domain of its work is ON (R389). -/
structure HostTurn (s : State) (set : Nat) (c : HCmd) (op : Nat) : Prop where
  head  : (s.hset set).cmds.head? = some c
  op    : cmdOp c = op
  live  : setLive s set = true
  cpls  : (s.hset set).cpls = []
  room  : ringFull s set 1 (s.hset set).cplPI (s.hset set).cplCI = false
  waits : (s.hi.waits.filter fun w => w.set == set) = []
  adv   : s.ks.adv.contains (cmdTarget set c) = false
  turn  : myTurn s set = true
  power : ∀ d, opDomain s set c = some d → domOn s d = true
  fresh : c.put = 0

/-- The command is off the list and its completion carries STATUS, DATA0 and DATA1 (R325, R333); under NOCPL an OK has
none. -/
structure Ended (s t : State) (set : Nat) (c : HCmd) (status d0 d1 : Nat) : Prop where
  cmds : (t.hset set).cmds = (s.hset set).cmds.tail
  ci   : (t.hset set).cmdCI = ((s.hset set).cmdCI + 1) % 65536
  cpl  : (t.hset set).cpls = if status = 0 ∧ bit (wd c.w 0) 9 = true then []
    else [⟨w32 (wd c.w 0 / 65536 + wd c.w 0 % 256 * 2 ^ 16 + status * 2 ^ 24), w32 d0, w32 d1, c.idx⟩]

/-- The command has acted, and its completion waits (R334). -/
def Waits (s t : State) (set : Nat) (c : HCmd) (inst : Option RecInst) (plan : Bool) : Prop :=
  (t.hset set).cmds = (s.hset set).cmds.tail ∧ (t.hset set).cpls = [] ∧
    t.hi.waits = s.hi.waits ++ [⟨set, c, inst, true, plan⟩]

/-- Host memory from address a on holds these bytes. -/
def HostHolds (t : State) (a : Nat) (bs : List Byte) : Prop := mread t.host (a % 2 ^ 64) bs.length = bs

-- The Ubeolyn link -----------------------------------------------------------------------------------------------------------------

/-- A frame of type `ty` is taken (R418–R420): the link is up, its CRC, tag, channel and length are good and, on VC 1–3, the
session is known and it is the next of its channel. No frame of this device waits for credits. -/
structure UbIn (s : State) (u : UbFrame) (ty : Nat) : Prop where
  up    : s.fb fUB_LINK_UP = true
  awake : pmState s < 2
  good  : u.good = true
  type  : u.ty.toNat = ty
  chan  : ubChannel ty = some u.vc.val
  size  : u.payload.length ≤ 2048 ∧ u.payload.length % 8 = 0
  enc   : u.vc.val ≠ 0 → u.enc = true ∧ s.ub.peer ≠ none ∧ u.seq.toNat = tget 0 s.ub.rxSeq u.vc.val
  out   : s.ub.out = []

-- What every step leaves true ----------------------------------------------------------------------------------------------

/-- The output pins that follow the state: ALARM_N is driven low exactly in stop bath (R410), REPLACE_N exactly while a
replacement is called for (R408), and the 1PPS output exactly while its pulse lasts (R318). -/
def PinsFollow (s : State) : Prop :=
  s.pm.alarmN = !s.stopped ∧ s.pm.replN = !s.bist.replace ∧ s.pm.ppsOut = (settle s).pm.ppsOut

/-- Every memory of the device is in its canonical form. -/
def MemsCanonical (s : State) : Prop :=
  memWf s.plate ∧ memWf s.tray ∧ memWf s.imem ∧ memWf s.dram ∧ memWf s.vault ∧ memWf s.store ∧ memWf s.slimg ∧
  memWf s.host ∧ memWf s.vreg

end Sys2Proof.Machine
end

