-- ==== Sys2Proof/Certificates/Slice0/Obligations.lean ====
section
/-! DEFINITION. The statements about the EVT2560 model that the provers are asked to prove. -/

open Sys2Proof Sys2Proof.Machine

-- Scalar instructions -------------------------------------------------------------------------------------------------------

/-- R138, R148, R150, R164: ADD, SUB, ADC, SBC and ADDIS write the 32-bit result; with S = 1 they write N, Z, the carry
or the absence of a borrow, and signed overflow; nothing else changes. -/
def Obligations.AddAndSubtract : Prop :=
  ∀ (s : State) (c : Core) (k : Option Nat) (rd ra rb : Reg5) (sb : Bool) (imm : BitVec 16), Ready s c k 4 →
    let a := gpr s c k ra
    let b := gpr s c k rb
    let m := imm.signExtend 32
    let f := nzcv s c k
    let ci : Nat := if f.c then 1 else 0
    let bo : Nat := if f.c then 0 else 1
    let out := fun (x : Word) (cf : Bool) (z : Int) => if sb then nzFlags x cf (overflows z) else f
    Runs s c (.add c rd ra rb sb) (fun t =>
      Computes s t c k rd (a + b) (out (a + b) (decide (2 ^ 32 ≤ a.toNat + b.toNat)) (a.toInt + b.toInt)) 1) ∧
    Runs s c (.sub c rd ra rb sb) (fun t =>
      Computes s t c k rd (a - b) (out (a - b) (decide (b.toNat ≤ a.toNat)) (a.toInt - b.toInt)) 1) ∧
    Runs s c (.adc c rd ra rb sb) (fun t =>
      Computes s t c k rd (a + b + BitVec.ofNat 32 ci) (out (a + b + BitVec.ofNat 32 ci)
        (decide (2 ^ 32 ≤ a.toNat + b.toNat + ci)) (a.toInt + b.toInt + ci)) 1) ∧
    Runs s c (.sbc c rd ra rb sb) (fun t =>
      Computes s t c k rd (a - b - BitVec.ofNat 32 bo) (out (a - b - BitVec.ofNat 32 bo)
        (decide (b.toNat + bo ≤ a.toNat)) (a.toInt - b.toInt - bo)) 1) ∧
    Runs s c (.addis c rd ra imm) (fun t =>
      Computes s t c k rd (a + m) (nzFlags (a + m) (decide (2 ^ 32 ≤ a.toNat + m.toNat))
        (overflows (a.toInt + m.toInt))) 1)

/-- R138, R148, R165: logic and MUL with S = 1 write N and Z only; a shift writes C too, unless its amount is 0. -/
def Obligations.LogicShiftMultiply : Prop :=
  ∀ (s : State) (c : Core) (k : Option Nat) (rd ra rb : Reg5) (sb : Bool) (sh : BitVec 5), Ready s c k 4 →
    let a := gpr s c k ra
    let b := gpr s c k rb
    let f := nzcv s c k
    let n := b.toNat % 256
    let r := b.toNat % 32
    let i := sh.toNat
    let logic := fun (x : Word) => if sb then nzFlags x f.c f.v else f
    let shift := fun (x : Word) (amount : Nat) (last : Bool) =>
      if sb then nzFlags x (if amount = 0 then f.c else last) f.v else f
    let lastLeft := fun (m : Nat) => decide (m ≤ 32) && a.getLsbD (32 - m)
    let lastRight := fun (m : Nat) => (a >>> (m - 1)).getLsbD 0
    let lastSigned := fun (m : Nat) => (a.sshiftRight (m - 1)).getLsbD 0
    Runs s c (.andR c rd ra rb sb) (fun t => Computes s t c k rd (a &&& b) (logic (a &&& b)) 1) ∧
    Runs s c (.orR c rd ra rb sb) (fun t => Computes s t c k rd (a ||| b) (logic (a ||| b)) 1) ∧
    Runs s c (.xorR c rd ra rb sb) (fun t => Computes s t c k rd (a ^^^ b) (logic (a ^^^ b)) 1) ∧
    Runs s c (.andn c rd ra rb sb) (fun t => Computes s t c k rd (a &&& ~~~b) (logic (a &&& ~~~b)) 1) ∧
    Runs s c (.mul c rd ra rb sb) (fun t => Computes s t c k rd (a * b) (logic (a * b)) 1) ∧
    Runs s c (.shl c rd ra rb sb) (fun t =>
      Computes s t c k rd (a <<< n) (shift (a <<< n) n (lastLeft n)) 1) ∧
    Runs s c (.shrl c rd ra rb sb) (fun t =>
      Computes s t c k rd (a >>> n) (shift (a >>> n) n (lastRight n)) 1) ∧
    Runs s c (.shra c rd ra rb sb) (fun t =>
      Computes s t c k rd (a.sshiftRight n) (shift (a.sshiftRight n) n (lastSigned n)) 1) ∧
    Runs s c (.ror c rd ra rb sb) (fun t =>
      Computes s t c k rd (a.rotateRight r) (shift (a.rotateRight r) r (lastRight r)) 1) ∧
    Runs s c (.shli c rd ra sh sb) (fun t =>
      Computes s t c k rd (a <<< i) (shift (a <<< i) i (lastLeft i)) 1) ∧
    Runs s c (.shrli c rd ra sh sb) (fun t =>
      Computes s t c k rd (a >>> i) (shift (a >>> i) i (lastRight i)) 1) ∧
    Runs s c (.shrai c rd ra sh sb) (fun t =>
      Computes s t c k rd (a.sshiftRight i) (shift (a.sshiftRight i) i (lastSigned i)) 1) ∧
    Runs s c (.rori c rd ra sh sb) (fun t =>
      Computes s t c k rd (a.rotateRight i) (shift (a.rotateRight i) i (lastRight i)) 1)

/-- R137, R147, R148, R150: the functions that never write flags (S = 0), the pair products, and the immediate
instructions. -/
def Clause.PlainResults : Prop :=
  ∀ (s : State) (c : Core) (k : Option Nat) (rd ra rb : Reg5) (cond : BitVec 4) (imm : BitVec 16), Ready s c k 4 →
    let a := gpr s c k ra
    let b := gpr s c k rb
    let f := nzcv s c k
    let result := fun (i : Instr) (x : Word) => Runs s c i (fun t => Computes s t c k rd x f 1)
    let pair := fun (i : Instr) (p : BitVec 64) => rd.val % 2 = 0 → Runs s c i (fun t =>
      (∀ n, n ≠ rd.val → n ≠ rd.val + 1 → gpr t c k n = gpr s c k n) ∧
      (rd.val ≠ 0 → gpr t c k rd = p.truncate 32) ∧ gpr t c k (rd + 1) = (p >>> 32).truncate 32 ∧
      nzcv t c k = f ∧ Advanced s t c k 4 ∧ Took s t c 2 ∧ ScalarFrame s t c k)
    result (.mulh c rd ra rb false) (((a.signExtend 64 * b.signExtend 64) >>> 32).truncate 32) ∧
    result (.mulhu c rd ra rb false) (((a.zeroExtend 64 * b.zeroExtend 64) >>> 32).truncate 32) ∧
    pair (.mull c rd ra rb false) (a.signExtend 64 * b.signExtend 64) ∧
    pair (.mullu c rd ra rb false) (a.zeroExtend 64 * b.zeroExtend 64) ∧
    result (.minS c rd ra rb false) (if a.toInt < b.toInt then a else b) ∧
    result (.maxS c rd ra rb false) (if a.toInt < b.toInt then b else a) ∧
    result (.minu c rd ra rb false) (if a.toNat < b.toNat then a else b) ∧
    result (.maxu c rd ra rb false) (if a.toNat < b.toNat then b else a) ∧
    result (.clz c rd ra false) a.clz ∧
    result (.csel c cond rd ra rb false) (if condTrue f cond.toNat then a else b) ∧
    result (.sextb c rd ra false) ((a.truncate 8).signExtend 32) ∧
    result (.sexth c rd ra false) ((a.truncate 16).signExtend 32) ∧
    result (.addi c rd ra imm) (a + imm.signExtend 32) ∧
    result (.andi c rd ra imm) (a &&& imm.zeroExtend 32) ∧
    result (.ori c rd ra imm) (a ||| imm.zeroExtend 32) ∧
    result (.xori c rd ra imm) (a ^^^ imm.zeroExtend 32) ∧
    result (.lui c rd imm) (imm.zeroExtend 32 <<< 16)

/-- R138, R148: CMP and CMPI write the flags of a subtraction and TST those of an AND; no register changes. -/
def Clause.Compares : Prop :=
  ∀ (s : State) (c : Core) (k : Option Nat) (ra rb : Reg5) (sb : Bool) (imm : BitVec 16), Ready s c k 4 →
    let a := gpr s c k ra
    let b := gpr s c k rb
    let m := imm.signExtend 32
    let f := nzcv s c k
    let flags := fun (i : Instr) (fl : Nzcv) => Runs s c i (fun t => Computes s t c k 0 0 fl 1)
    flags (.cmp c 0 ra rb sb) (nzFlags (a - b) (decide (b.toNat ≤ a.toNat)) (overflows (a.toInt - b.toInt))) ∧
    flags (.cmpi c ra imm) (nzFlags (a - m) (decide (m.toNat ≤ a.toNat)) (overflows (a.toInt - m.toInt))) ∧
    flags (.tst c 0 ra rb sb) (nzFlags (a &&& b) f.c f.v)

/-- Results without flags, and compares. -/
def Obligations.ResultsAndCompares : Prop :=
  Clause.PlainResults ∧ Clause.Compares

/-- R150, R166, R175, R177: DIV, REM, DIVU and REMU give the quotient rounded toward zero or the remainder with the
dividend's sign, with the exception DZ (a divisor of 0) or OF (the most negative dividend over -1). Outside strict mode
they leave a long operation that is ready 18 cycles after issue, and no register or flag changes at issue; in strict mode
the result is there before the next instruction, 18 cycles on; an exception that traps there is precise, and the result
is not written. -/
def Obligations.DivideResults : Prop :=
  ∀ (s : State) (c : Core) (k : Option Nat) (rd ra rb : Reg5), Ready s c k 4 →
    let a := gpr s c k ra
    let b := gpr s c k rb
    let exc := if b = 0 then some 1 else none
    let excS := if b = 0 then some 1 else if a = 0x80000000 ∧ b = 0xFFFFFFFF then some 2 else none
    let trapped := fun (e : Option Nat) => e.any fun n => bit (trapEn s c k) n
    let long := fun (i : Instr) (x : Word) (e : Option Nat) =>
      (strictOf s c k = false → Runs s c i (fun t =>
        (∃ o, (t.thr c k).pend = [o] ∧ o.res = [(rd.val, x)] ∧ o.ready = issueCyc s c + 18 ∧ o.arith = e) ∧
        (∀ n, gpr t c k n = gpr s c k n) ∧ nzcv t c k = nzcv s c k ∧ Advanced s t c k 4 ∧ Took s t c 1 ∧
        { t with cores := s.cores, ctxs := s.ctxs, pm := s.pm } = s)) ∧
      (strictOf s c k = true → trapped e = false → Runs s c i (fun t =>
        RegIs s t c k rd x ∧ nzcv t c k = nzcv s c k ∧ (t.thr c k).pend = [] ∧ Advanced s t c k 4 ∧ Took s t c 18)) ∧
      (strictOf s c k = true → trapped e = true → secOf s c k = none → mlOf s c k < 7 → Runs s c i (fun t =>
        let l := max 2 (mlOf s c k + 1)
        (t.core c).sup = true ∧ (t.core c).ml = l ∧
        some (bits (tget Bank.init (t.core c).banks l).cause.toNat 0 8) = e.map (0x10 + ·) ∧
        (tget Bank.init (t.core c).banks l).pc = w32 (pcOf s c k) ∧ ∀ n, gpr t c k n = gpr s c k n))
    long (.div c rd ra rb false) (if b = 0 then 0xFFFFFFFF else if a = 0x80000000 ∧ b = 0xFFFFFFFF then 0x80000000
      else BitVec.ofInt 32 (a.toInt.tdiv b.toInt)) excS ∧
    long (.rem c rd ra rb false) (if b = 0 then a else if a = 0x80000000 ∧ b = 0xFFFFFFFF then 0
      else BitVec.ofInt 32 (a.toInt.tmod b.toInt)) excS ∧
    long (.divu c rd ra rb false) (if b = 0 then 0xFFFFFFFF else a / b) exc ∧
    long (.remu c rd ra rb false) (if b = 0 then a else a % b) exc

/-- R113, R137, R147–R149, R177–R184: an odd pair register, S = 1 on a function without flags, a destination in CMP, TST or
TRAP, and a word of instruction RAM that spells no instruction raise ILLEGAL: the exception is taken at level 5, or above
the level that runs. -/
def Clause.IllegalEncodings : Prop :=
  ∀ (s : State) (c : Core) (q : Nat) (rd ra rb : Reg5) (cond : BitVec 4) (sb : Bool) (imm : BitVec 16),
    Ready s c (some q) 4 → secOf s c (some q) = none → mlOf s c (some q) < 7 →
    let l := max 5 (mlOf s c (some q) + 1)
    let traps := fun (i : Instr) =>
      Runs s c i (fun t => Entered s t c (some q) l 0x20 (pcOf s c (some q)) ∧
        (∀ n, gpr t c (some q) n = gpr s c (some q) n) ∧ s.plate = t.plate ∧ s.tray = t.tray)
    traps (.mulh c rd ra rb true) ∧ traps (.mulhu c rd ra rb true) ∧ traps (.mull c rd ra rb true) ∧
    traps (.mullu c rd ra rb true) ∧ traps (.div c rd ra rb true) ∧ traps (.divu c rd ra rb true) ∧
    traps (.rem c rd ra rb true) ∧ traps (.remu c rd ra rb true) ∧ traps (.minS c rd ra rb true) ∧
    traps (.maxS c rd ra rb true) ∧ traps (.minu c rd ra rb true) ∧ traps (.maxu c rd ra rb true) ∧
    traps (.clz c rd ra true) ∧ traps (.csel c cond rd ra rb true) ∧ traps (.sextb c rd ra true) ∧
    traps (.sexth c rd ra true) ∧
    (rd.val % 2 = 1 → traps (.mull c rd ra rb false) ∧ traps (.mullu c rd ra rb false) ∧ traps (.ldd c rd ra imm) ∧
      traps (.std c rd ra imm)) ∧
    (rd.val ≠ 0 → traps (.cmp c rd ra rb sb) ∧ traps (.tst c rd ra rb sb)) ∧
    (rd.val ≠ 0 ∨ ra.val ≠ 0 → traps (.trap c rd ra imm)) ∧
    ∀ m : Tab Byte, let s' := { s with imem := m }
      fetchBad s' c (pcOf s c (some q)) = true → Runs s' c (.nop c) (fun t =>
        Entered s' t c (some q) l 0x20 (pcOf s c (some q)) ∧ ∀ n, gpr t c (some q) n = gpr s c (some q) n)

-- Loads and stores ------------------------------------------------------------------------------------------------------------

/-- R141, R147, R150, R151: a Tray load reads the aligned little-endian bytes, extends them, and leaves the result to the
delay slot: no register changes until the next instruction has passed. -/
def Clause.TrayLoads : Prop :=
  ∀ (s : State) (c : Core) (k : Option Nat) (rd ra : Reg5) (imm : BitVec 16) (b : Nat), Ready s c k 4 →
    let a := dataAddr s c k ra imm
    let v := fun n => leVal (trayBytes s c b n)
    let loads := fun (i : Instr) (n : Nat) (rs : List (Nat × Word)) => InTray k a n b → TrayClean s c b →
      Runs s c i (fun t => (t.thr c k).dslot = rs ∧ Passes s t c k 1 ∧
        { t with cores := s.cores, ctxs := s.ctxs, pm := s.pm } = s)
    loads (.ldb c rd ra imm) 1 [(rd, (BitVec.ofNat 8 (v 1)).signExtend 32)] ∧
    loads (.ldbu c rd ra imm) 1 [(rd, (BitVec.ofNat 8 (v 1)).zeroExtend 32)] ∧
    loads (.ldh c rd ra imm) 2 [(rd, (BitVec.ofNat 16 (v 2)).signExtend 32)] ∧
    loads (.ldhu c rd ra imm) 2 [(rd, (BitVec.ofNat 16 (v 2)).zeroExtend 32)] ∧
    loads (.ldw c rd ra imm) 4 [(rd, BitVec.ofNat 32 (v 4))] ∧
    (rd.val % 2 = 0 → loads (.ldd c rd ra imm) 8
      [(rd, (BitVec.ofNat 64 (v 8)).truncate 32), (rd + 1, (BitVec.ofNat 64 (v 8) >>> 32).truncate 32)])

/-- R151: the instruction in the delay slot still reads the old value; the loaded value is there for the one after it. -/
def Clause.LoadDelaySlot : Prop :=
  ∀ (s : State) (c : Core) (k : Option Nat) (rd : Nat) (v : Word) (ra rb : Reg5), Ready s c k 4 → rd ≠ 0 →
    let s' := s.modThr c k fun t => { t with dslot := [(rd, v)] }
    Runs s' c (.nop c) (fun t => (∀ n, gpr t c k n = if n = rd then v else gpr s c k n) ∧
      (t.thr c k).dslot = [] ∧ nzcv t c k = nzcv s c k ∧ Took s t c 1) ∧
    Runs s' c (.orR c ra rb rb false) (fun t => ∀ n, gpr t c k n =
      if n = ra ∧ n ≠ 0 then gpr s c k rb else if n = rd then v else gpr s c k n)

/-- R141, R142, R147, R150: a Plate or DRAM load is a long operation. A Plate load is ready 12 cycles after issue and takes
its word 4 to 8 cycles after issue, from the Plate as it then is; a DRAM load is ready within its bound, which is what it
takes in constant-time mode. That a DRAM load takes its unit at issue is the model's choice (log entry 19). -/
def Clause.LongLoads : Prop :=
  ∀ (s : State) (c : Core) (k : Option Nat) (rd ra : Reg5) (imm : BitVec 16) (b : Nat), Ready s c k 4 →
    let a := dataAddr s c k ra imm
    let own := ownerOf s c k
    let waits := fun (t : State) (P : LongOp → Prop) => Passes s t c k 1 ∧ t.plate = s.plate ∧ t.tray = s.tray ∧
      t.dram = s.dram ∧ ∃ o, (t.thr c k).pend = [o] ∧ o.fault = none ∧ o.arith = none ∧ P o
    let loads := fun (i : Instr) (n : Nat) (rs : Nat → List (Nat × Word)) =>
      (∀ wa, InPlate a n b → plateResolve s own b false = .ok wa → Runs s c i (fun t => waits t fun o =>
        o.ready = issueCyc s c + 12 ∧ ∃ x, o.samp = some x ∧ issueCyc s c + 4 ≤ x.cyc ∧ x.cyc ≤ issueCyc s c + 8 ∧
        ∀ u : State, u.poison.contains wa = false → tget 0 u.plateEcc wa = 0 →
          (sampleOp u o).1.res = rs (plateWord u wa / 2 ^ (8 * (b % 8)) % 2 ^ (8 * n)))) ∧
      (InDram s c k a n b → Runs s c i (fun t => waits t fun o => o.samp = none ∧
        o.res = rs (dramUnit (toIssue s c) own (b / 64) / 2 ^ (8 * (b % 64)) % 2 ^ (8 * n)) ∧
        issueCyc s c < o.ready ∧ o.ready ≤ issueCyc s c + max 400 (400 + 40 * (s.f fMX_FAIR_N - 8)) ∧
        (ctOf s c k = true → o.ready = issueCyc s c + 400)))
    loads (.ldb c rd ra imm) 1 (fun v => [(rd.val, (BitVec.ofNat 8 v).signExtend 32)]) ∧
    loads (.ldbu c rd ra imm) 1 (fun v => [(rd.val, (BitVec.ofNat 8 v).zeroExtend 32)]) ∧
    loads (.ldh c rd ra imm) 2 (fun v => [(rd.val, (BitVec.ofNat 16 v).signExtend 32)]) ∧
    loads (.ldhu c rd ra imm) 2 (fun v => [(rd.val, (BitVec.ofNat 16 v).zeroExtend 32)]) ∧
    loads (.ldw c rd ra imm) 4 (fun v => [(rd.val, BitVec.ofNat 32 v)]) ∧
    (rd.val % 2 = 0 → loads (.ldd c rd ra imm) 8 (fun v =>
      [(rd.val, BitVec.ofNat 32 v), (rd.val + 1, BitVec.ofNat 32 (v / 2 ^ 32))]))

/-- Tray loads, the slot of such a load, and Plate and DRAM loads. That a DRAM load takes its unit at issue is the model's
choice (log entry 19). -/
def Obligations.Loads : Prop :=
  Clause.TrayLoads ∧ Clause.LoadDelaySlot ∧ Clause.LongLoads

/-- R76, R77, R141, R147, R150: a Tray store writes exactly the bytes at its data address, through the slice's keystream;
every other byte and every other part of the device keeps its content. That a store of a whole word leaves no error in
it, and a narrower one leaves its errors as they are, is the model's choice (log entry 72). -/
def Obligations.TrayStores : Prop :=
  ∀ (s : State) (c : Core) (k : Option Nat) (rd ra : Reg5) (imm : BitVec 16) (b : Nat), Ready s c k 4 →
    memWf s.tray = true → keyless s = false →
    let a := dataAddr s c k ra imm
    let w := gpr s c k rd
    let stores := fun (i : Instr) (n : Nat) (v : Nat) => InTray k a n b →
      Runs s c i (fun t => leVal (trayBytes t c b n) = v % 2 ^ (8 * n) ∧
        (∀ x, x < trayKey c b ∨ trayKey c b + n ≤ x → mget t.tray x = mget s.tray x) ∧ memWf t.tray = true ∧
        (∀ x, tget 0 t.trayEcc x = if n = 8 ∧ x = trayKey c b / 8 then 0 else tget 0 s.trayEcc x) ∧
        Passes s t c k 1 ∧
        { t with cores := s.cores, ctxs := s.ctxs, pm := s.pm, tray := s.tray, trayEcc := s.trayEcc } = s)
    stores (.stb c rd ra imm) 1 w.toNat ∧
    stores (.sth c rd ra imm) 2 w.toNat ∧
    stores (.stw c rd ra imm) 4 w.toNat ∧
    (rd.val % 2 = 0 → stores (.std c rd ra imm) 8 (w.toNat + 2 ^ 32 * (gpr s c k (rd + 1)).toNat))

/-- R141, R142, R177–R184: a misaligned data address raises ALIGN, and one in no space raises DUNMAP, at level 4; nothing
is read or written. -/
def Clause.DataFaults : Prop :=
  ∀ (s : State) (c : Core) (q : Nat) (rd ra : Reg5) (imm : BitVec 16), Ready s c (some q) 4 →
    secOf s c (some q) = none → mlOf s c (some q) < 7 →
    let k := some q
    let a := dataAddr s c k ra imm
    let l := max 4 (mlOf s c k + 1)
    let faults := fun (i : Instr) (code : Nat) => Runs s c i (fun t =>
      Entered s t c k l code (pcOf s c k) ∧ (tget Bank.init (t.core c).banks l).info = w32 a ∧
      (∀ n, gpr t c k n = gpr s c k n) ∧ t.plate = s.plate ∧ t.tray = s.tray ∧ t.dram = s.dram)
    let all := fun (n code : Nat) =>
      (n = 1 → faults (.ldb c rd ra imm) code ∧ faults (.ldbu c rd ra imm) code ∧ faults (.stb c rd ra imm) code) ∧
      (n = 2 → faults (.ldh c rd ra imm) code ∧ faults (.ldhu c rd ra imm) code ∧ faults (.sth c rd ra imm) code) ∧
      (n = 4 → faults (.ldw c rd ra imm) code ∧ faults (.stw c rd ra imm) code) ∧
      (n = 8 → rd.val % 2 = 0 → faults (.ldd c rd ra imm) code ∧ faults (.std c rd ra imm) code)
    ∀ n : Nat, (a < 0x80000000 → a % n ≠ 0 → all n 0x30) ∧
      (a % n = 0 → (0x3F00 ≤ a ∧ a < 0x01000000 ∨ 0x02000000 ≤ a ∧ a < 0x80000000) → all n 0x31) ∧
      (0x80000000 ≤ a → (s.ctx c q).dl = true → all n 0x32)

/-- Faults of scalar instructions: data addresses, and encodings that are illegal. -/
def Obligations.ScalarFaults : Prop :=
  Clause.DataFaults ∧ Clause.IllegalEncodings

-- Control flow ------------------------------------------------------------------------------------------------------------------

/-- R138, R147, R150, R153, R155: B.cond, JAL and JALR go where they say; a link register receives PC + 4; a taken
branch leaves active exactly the loops it stays inside, and the verdict of a branch is due three cycles after its
issue. -/
def Obligations.BranchesAndJumps : Prop :=
  ∀ (s : State) (c : Core) (k : Option Nat) (cond : BitVec 4) (off : BitVec 22) (far : BitVec 26) (rd ra : Reg5)
    (imm : BitVec 16), Ready s c k 4 → NotAtEnd s c k 4 →
    let pc := (s.thr c k).r.pc
    let loop := fun (x : State) l => (x.thr c k).r.loop l
    let stays := fun (t : State) (tgt : Word) => ∀ l < 3,
      { loop t l with act := (loop s l).act } = loop s l ∧
      ((loop t l).act = true ↔ (loop s l).act = true ∧ ∀ j ≤ l, (loop s j).act = true →
        (loop s j).lb.toNat ≤ tgt.toNat ∧ tgt.toNat ≤ (loop s j).le.toNat)
    let jumps := fun (i : Instr) (link : Nat) (tgt : Word) => Runs s c i (fun t =>
      RegIs s t c k link (pc + 4) ∧ nzcv t c k = nzcv s c k ∧ (t.thr c k).r.pc = tgt ∧ stays t tgt ∧ Took s t c 2)
    jumps (.jal c far) 31 (pc + (far.signExtend 32 <<< 2)) ∧
    jumps (.jalr c rd ra imm) rd ((gpr s c k ra + imm.signExtend 32) &&& 0xFFFFFFFC) ∧
    Runs s c (.bCond c cond off) (fun t =>
      let tgt := pc + (off.signExtend 32 <<< 2)
      let taken := condTrue (nzcv s c k) cond.toNat
      (∀ n, gpr t c k n = gpr s c k n) ∧ nzcv t c k = nzcv s c k ∧
      (t.core c).br = some ⟨issueCyc s c + 3, taken, false, pcOf s c k + 4⟩ ∧
      (if taken then (t.thr c k).r.pc = tgt ∧ stays t tgt ∧ Took s t c 2
       else (t.thr c k).r.pc = pc + 4 ∧ (∀ l < 3, loop t l = loop s l) ∧ Took s t c (if ctOf s c k then 2 else 1)))

/-- R152–R154: LOOP and LOOPI take the lowest free level: the body starts behind the instruction and ends `off` words
on; a count of 0 skips it; in constant-time mode both ways take 2 cycles (R173). That LOOPI skips too with a count of 0,
where R152 speaks of LOOP, is the model's reading (DEDUCED, log entry 76). -/
def Clause.HardwareLoopSetup : Prop :=
  ∀ (s : State) (c : Core) (k : Option Nat) (ra : Reg5) (count : BitVec 10) (off : BitVec 16) (l : Nat),
    Ready s c k 4 → NotAtEnd s c k 4 → off ≠ 0 → l < 3 →
    (∀ j < l, ((s.thr c k).r.loop j).act = true) → (∀ j < 3, l ≤ j → ((s.thr c k).r.loop j).act = false) →
    (∀ j < l, pcOf s c k + 4 * off.toNat ≤ ((s.thr c k).r.loop j).le.toNat) → pcOf s c k + 4 * off.toNat < 2 ^ 32 →
    let pc := (s.thr c k).r.pc
    let le := pc + BitVec.ofNat 32 (4 * off.toNat)
    let starts := fun (i : Instr) (n : Word) => Runs s c i (fun t =>
      (∀ m, gpr t c k m = gpr s c k m) ∧ nzcv t c k = nzcv s c k ∧
      if n = 0 then (t.thr c k).r.pc = le + 4 ∧ (∀ j < 3, (t.thr c k).r.loop j = (s.thr c k).r.loop j) ∧ Took s t c 2
      else (t.thr c k).r.pc = pc + 4 ∧ (t.thr c k).r.loop l = ⟨pc + 4, le, n, true⟩ ∧
        (∀ j < 3, j ≠ l → (t.thr c k).r.loop j = (s.thr c k).r.loop j) ∧ Took s t c (if ctOf s c k then 2 else 1))
    starts (.loopR c ra off) (gpr s c k ra) ∧ starts (.loopi c count off) (count.zeroExtend 32)

/-- R152, R153: behind the last instruction of a loop's body, issue goes back to the body's start while the count is
above 1; at 1 the level is free and issue goes on. -/
def Clause.LoopEnd : Prop :=
  ∀ (s : State) (c : Core) (k : Option Nat) (x : Loop), Ready s c k 4 →
    (s.thr c k).r.l0 = x → x.act = true → x.le.toNat = pcOf s c k →
    (s.thr c k).r.l1.act = false → (s.thr c k).r.l2.act = false →
    Runs s c (.nop c) (fun t =>
      (∀ n, gpr t c k n = gpr s c k n) ∧ nzcv t c k = nzcv s c k ∧ Took s t c 1 ∧
      if 1 < x.lc.toNat then (t.thr c k).r.pc = x.lb ∧ (t.thr c k).r.l0 = { x with lc := x.lc - 1 }
      else (t.thr c k).r.pc = (s.thr c k).r.pc + 4 ∧ (t.thr c k).r.l0 = { x with act := false })

/-- R152, R154, R181: with no free level LOOP and LOOPI raise LOOPERR NEST; with an end offset of 0, or an end beyond that
of the enclosing level, BOUND; as the last instruction of a body, LAST. -/
def Clause.LoopErrors : Prop :=
  ∀ (s : State) (c : Core) (k : Option Nat) (ra : Reg5) (count : BitVec 10) (off : BitVec 16), Ready s c k 4 →
    secOf s c k = none → mlOf s c k < 7 →
    let lp := fun l => (s.thr c k).r.loop l
    let le := pcOf s c k + 4 * off.toNat
    let l := max 5 (mlOf s c k + 1)
    let traps := fun (sub : Nat) (i : Instr) => Runs s c i (fun t =>
      Entered s t c k l 0x22 (pcOf s c k) ∧ bits (tget Bank.init (t.core c).banks l).cause.toNat 20 4 = sub ∧
      Flagged t kEZ_STAT_LOOPERR c ∧ ∀ n, gpr t c k n = gpr s c k n)
    let fails := fun (sub : Nat) => traps sub (.loopR c ra off) ∧ traps sub (.loopi c count off)
    (NotAtEnd s c k 4 → (∀ j < 3, (lp j).act = true) → fails 1) ∧
    (NotAtEnd s c k 4 → (∃ j < 3, (lp j).act = false) → off = 0 → fails 2) ∧
    (NotAtEnd s c k 4 → (lp 0).act = true → (lp 1).act = false → (lp 2).act = false → (lp 0).le.toNat < le → le < 2 ^ 32 →
      fails 2) ∧
    (¬NotAtEnd s c k 4 → fails 3)

/-- R150–R154: hardware loops, as they are set up, as a body ends, and their errors. That LOOPI skips too with a count of 0,
where R152 speaks of LOOP, is the model's reading (DEDUCED, log entry 76). -/
def Obligations.HardwareLoops : Prop :=
  Clause.HardwareLoopSetup ∧ Clause.LoopEnd ∧ Clause.LoopErrors

-- System instructions, exceptions and returns -----------------------------------------------------------------------------------

/-- R147, R149, R150, R160, R176, R184: NOP and SYNC pass in one cycle; TRAP n of a tenant enters supervisor mode with
number n and returns behind itself; WAIT with no request enabled leaves the core waiting, and a NOP given next does
nothing. What the upper bits of the immediate of TRAP do is the model's (log entry 75). -/
def Clause.SystemRuns : Prop :=
  (∀ (s : State) (c : Core) (k : Option Nat), Ready s c k 4 →
    Runs s c (.nop c) (fun t => Computes s t c k 0 0 (nzcv s c k) 1) ∧
    Runs s c (.sync c) (fun t => Computes s t c k 0 0 (nzcv s c k) 1)) ∧
  (∀ (s : State) (c : Core) (q : Nat) (imm : BitVec 16), Ready s c (some q) 4 → NotAtEnd s c (some q) 4 →
    secOf s c (some q) = none → mlOf s c (some q) < 7 →
    let l := max 1 (mlOf s c (some q) + 1)
    Runs s c (.trap c 0 0 imm) (fun t =>
      Entered s t c (some q) l 0x50 (pcOf s c (some q) + 4) ∧
      bits (tget Bank.init (t.core c).banks l).cause.toNat 24 8 = imm.toNat % 256 ∧
      (∀ n, gpr t c (some q) n = gpr s c (some q) n) ∧ nzcv t c (some q) = nzcv s c (some q))) ∧
  (∀ (s : State) (c : Core), Ready s c none 4 → NotAtEnd s c none 4 → s.fb fIC_CTL_EN c = false →
    Runs s c (.wait c) (fun t => (t.core c).waiting = true ∧ Took s t c 1 ∧
      (∀ n, gpr t c none n = gpr s c none n) ∧ exec (.nop c) t = .next t))

/-- R149, R151: SYNC holds issue until the pending long operation has retired and written its register. -/
def Clause.SyncWaits : Prop :=
  ∀ (s : State) (c : Core) (k : Option Nat) (rd : Nat) (v pc : Word) (n : Nat), Ready s c k 4 →
    let o : LongOp := ⟨.divide, [(rd, v)], issueCyc s c + n, pc, none, none, none⟩
    Runs (s.modThr c k fun t => { t with pend := [o] }) c (.sync c) (fun t =>
      RegIs s t c k rd v ∧ nzcv t c k = nzcv s c k ∧ (t.thr c k).pend = [] ∧ Took s t c (n + 1) ∧ Advanced s t c k 4)

/-- R147, R149, R160, R178–R184: a supervisor's function in tenant mode raises PRIV; TRAP, END, NEG.BEGIN and CHECK raise
ILLEGAL in supervisor mode. The exception is taken at level 5, or above the level that runs. -/
def Clause.WrongMode : Prop :=
  ∀ (s : State) (c : Core) (k : Option Nat) (imm : BitVec 16), Ready s c k 4 → secOf s c k = none → mlOf s c k < 7 →
    let traps := fun (i : Instr) (code : Nat) => Runs s c i (fun t =>
      Entered s t c k (max 5 (mlOf s c k + 1)) code (pcOf s c k) ∧ ∀ n, gpr t c k n = gpr s c k n)
    (k ≠ none → traps (.wait c) 0x21 ∧ traps (.rfe c) 0x21 ∧ traps (.resume c) 0x21) ∧
    (k = none → traps (.trap c 0 0 imm) 0x20 ∧ traps (.endA c) 0x20 ∧ traps (.negBegin c) 0x20 ∧ traps (.checkN c) 0x20)

/-- The system instructions: what each does in its own mode, how SYNC waits, and what the other mode raises. What the
upper bits of the immediate of TRAP do is the model's (log entry 75). -/
def Obligations.SystemInstructions : Prop :=
  Clause.SystemRuns ∧ Clause.SyncWaits ∧ Clause.WrongMode

/-- R22, R44, R158, R457: END completes the activation: in time, it counts DONE and the run of misses is over; the core
resumes supervisor mode at its resume point. -/
def Clause.EndOfActivation : Prop :=
  ∀ (s : State) (c : Core) (q : Nat) (r : Run), Ready s c (some q) 4 → NotAtEnd s c (some q) 4 →
    secOf s c (some q) = none → (s.core c).run = some r → r.ctx = q → r.mism = false → r.act.lent = false →
    (s.ctx c q).waitRel = [] → s.ks.trans = none → s.fb fDLM_CTL_EN = true →
    max s.now (issueCyc s c * s.cyc) + (s.dl r.act.tenant).e ≤ r.act.deadline →
    Runs s c (.endA c) (fun t =>
      (t.core c).run = none ∧ (t.core c).sup = true ∧ (t.core c).thr.r.pc = (s.core c).rpc ∧
      t.f fDLM_TN_CNT_DONE r.act.tenant = (s.f fDLM_TN_CNT_DONE r.act.tenant + 1) % 2 ^ fDLM_TN_CNT_DONE.w ∧
      (t.dl r.act.tenant).run = 0)

/-- R100, R184, R186: RFE restores the interrupted mode, PC and level; RESUME does so too, and puts the recorded
instruction back at the head of the span's queue. -/
def Clause.Returns : Prop :=
  ∀ (s : State) (c : Core), Ready s c none 4 → NotAtEnd s c none 4 → (s.core c).ml ≠ 0 →
    let b := tget Bank.init (s.core c).banks (s.core c).ml
    b.disp = 0 →
    (b.rsup = true → Runs s c (.rfe c) (fun t =>
      (t.core c).ml = b.rml ∧ (t.core c).sup = (s.core c).sup ∧ (t.core c).thr.r.pc = b.pc ∧ Took s t c 8 ∧
      ∀ n, gpr t c none n = gpr s c none n)) ∧
    (b.rsup = false → ∀ r, (s.core c).run = some r → r.ctx = b.ctx →
      let back := fun (t : State) => (t.core c).sup = false ∧ (t.core c).ml = 0 ∧ (t.core c).frozen = false ∧
        (t.ctx c b.ctx).ml = b.rml ∧ pcOf t c (some b.ctx) = b.pc.toNat ∧ Took s t c 8 ∧
        (∀ n, gpr t c (some b.ctx) n = gpr s c (some b.ctx) n) ∧ nzcv t c (some b.ctx) = nzcv s c (some b.ctx)
      Runs s c (.rfe c) back ∧
      (s.fb fVF_CAUSE_VALID (s.ctx c b.ctx).tenant = true → Runs s c (.resume c) (fun t => back t ∧
        t.fb fVF_CAUSE_VALID (s.ctx c b.ctx).tenant = false ∧
        (t.core c).vq.map (fun e => (e.op, e.first)) =
          (tget [] s.vfStr (s.ctx c b.ctx).tenant).map (fun e => (e.op, e.first)))))

/-- The ends of activations, and returns from handlers. That END waits for a fixed release still to come, and where RFE
goes when its activation has gone, are the model's readings (DEDUCED, log entries 21, 42 and 44). -/
def Obligations.EndsAndReturns : Prop :=
  Clause.EndOfActivation ∧ Clause.Returns

/-- R177–R184: a held fault is taken at a boundary: its cause, level and information go into the save bank, with the
boundary as its return address, or the instruction itself where the fault is precise; R183, R197: an interrupt request
is taken at level 1. That an entry is a command of its own is the model's choice (log entry 11). -/
def Obligations.ExceptionEntry : Prop :=
  (∀ (s : State) (c : Core) (k : Option Nat) (f : FaultRec), Ready s c k 4 → secOf s c k = none → f.code < 256 →
    f.level ≤ 7 → mlOf s c k < 7 →
    let s' := s.modThr c k fun t => { t with held := [f] }
    let l := max f.level (mlOf s c k + 1)
    let back := if f.imp = true ∨ f.vec = true then pcOf s c k else f.pc.toNat
    Completes (exec (.exceptionEntry c) s') (fun t => Entered s' t c k l f.code back ∧
      (tget Bank.init (t.core c).banks l).fpc = f.pc ∧ (tget Bank.init (t.core c).banks l).info = f.info ∧
      (k ≠ none → (t.thr c k).held = []))) ∧
  (∀ (s : State) (c : Core) (k : Option Nat), Ready s c k 4 → lineHigh s c = true → mayInterrupt s c = true →
    pipeTested s c = false →
    Completes (exec (.interruptEntry c) s) (fun t => Entered s t c k 1 0x51 (pcOf s c k) ∧
      (t.core c).ic.latch = true ∧ (k ≠ none → ∀ n, gpr t c k n = gpr s c k n)))

-- The Negative pass -----------------------------------------------------------------------------------------------------------------

/-- R209–R211, R218, R219: NEG.BEGIN opens a section with an empty signature; the first CHECK starts the Negative pass
from the entry state; a second CHECK with equal signatures and outputs lets the outputs leave in issue order. -/
def Clause.NegativePass : Prop :=
  ∀ (s : State) (c : Core) (q : Nat), Ready s c (some q) 4 → NotAtEnd s c (some q) 4 →
    let k := some q
    (secOf s c k = none → tanksFull s c = false →
      Runs s c (.negBegin c) (fun t => Took s t c 4 ∧ (∀ n, gpr t c k n = gpr s c k n) ∧
        ∃ x, secOf t c k = some x ∧ x.neg = false ∧ x.sig = 0 ∧ x.held = [] ∧ x.pcBegin = (s.thr c k).r.pc ∧
          x.restarts = 0 ∧ ∀ n < 32, x.shadow.r.get n = gpr s c k n)) ∧
    (∀ x r, secOf s c k = some x → (s.core c).run = some r → (s.thr c k).r.loopact = x.shadow.r.loopact →
      (x.neg = false → Runs s c (.checkN c) (fun t => Took s t c 12 ∧
        (∀ n < 32, gpr t c k n = x.shadow.r.get n) ∧ pcOf t c k = (x.pcBegin + 4).toNat ∧ t.ptq = s.ptq ∧ t.pubq = s.pubq ∧
        ∃ y, secOf t c k = some y ∧ y.neg = true ∧ y.sigMain = x.sig ∧ y.heldMain = x.held ∧ y.held = [] ∧ y.sig = 0)) ∧
      (x.neg = true → x.held = x.heldMain → x.sig = x.sigMain → r.act.lent = false →
        (s.dl r.act.tenant).cfg.getLsbD 2 = false → Runs s c (.checkN c) (fun t => Took s t c 8 ∧
        secOf t c k = none ∧ (t.ctx c q).negres = x.restarts ∧
        t.ptq.map (·.pt) = s.ptq.map (·.pt) ++ heldPoints x.held ∧
        t.pubq.map (·.cb) = s.pubq.map (·.cb) ++ heldPubs x.held)))

/-- R220–R222: a held fault restarts the section while its restarts allow, from its entry state and with no output; the
window's expiry and unequal signatures are mismatches: no held output leaves. -/
def Clause.NegativeFailures : Prop :=
  ∀ (s : State) (c : Core) (q : Nat) (x : Sec) (r : Run) (f : FaultRec), Ready s c (some q) 4 →
    NotAtEnd s c (some q) 4 → secOf s c (some q) = some x → (s.core c).run = some r → r.ctx = q →
    let k := some q
    (x.restarts < bits (s.effReg rNEG_TN_CFG (s.ctx c q).tenant 0).toNat 12 2 →
      Completes (exec (.restart c) (s.modThr c k fun t => { t with held := [f] })) (fun t =>
        (∀ n < 32, gpr t c k n = x.shadow.r.get n) ∧ pcOf t c k = (x.pcBegin + 4).toNat ∧ t.ptq = s.ptq ∧ t.pubq = s.pubq ∧
        ∃ y, secOf t c k = some y ∧ y.restarts = x.restarts + 1 ∧ y.neg = false ∧ y.held = [] ∧ y.sig = 0)) ∧
    (x.neg = true →
      let failed := fun (t : State) => t.ptq = s.ptq ∧ secOf t c k = none ∧
        ((s.ctx c q).waitRel = [] → (t.core c).run = none)
      Completes (exec (.negWindowExpiry c) s) failed ∧
      (x.sig ≠ x.sigMain → (s.thr c k).r.loopact = x.shadow.r.loopact → Runs s c (.checkN c) failed))

/-- R208–R219: the Negative pass over a window, and what a failure of it does. How a signature strings its items together
is the model's choice (log entry 15). -/
def Obligations.NegativeWindows : Prop :=
  Clause.NegativePass ∧ Clause.NegativeFailures

-- Ports ----------------------------------------------------------------------------------------------------------------------------

/-- R143, R145, R293, R304: IN reads VCOUNT and the group size in four cycles; TNOW_NS reads the nanoseconds of station
time at the cluster and latches its seconds; PRD snapshots the point's record and delivers its word 0 fourteen cycles
after issue. -/
def Obligations.PortReads : Prop :=
  ∀ (s : State) (c : Core) (k : Option Nat) (rd ra : Reg5) (imm : BitVec 16), Ready s c k 4 →
    let port := portOf (s.thr c k).r ra imm
    let i := (gpr s c k rd).toNat % 2 ^ 17
    (port = 0 → Runs s c (.inp c rd ra imm) (fun t =>
      Computes s t c k rd (w32 (vcountOf s c k)) (nzcv s c k) 4)) ∧
    (port = 1 → Runs s c (.inp c rd ra imm) (fun t =>
      Computes s t c k rd (w32 (groupOf s c k)) (nzcv s c k) 4)) ∧
    (port = 0x30 → secOf s c k = none → Runs s c (.tnowNs c rd ra imm) (fun t =>
      let ns := replicaTime (toIssue s c) (clusterIsl c)
      RegIs s t c k rd (w32 (ns % 1000000000)) ∧ nzcv t c k = nzcv s c k ∧ Took s t c 4 ∧
      tget 0 t.tu.latCtx (timeKey c k) = ns / 1000000000 ∧ t.clk = (toIssue s c).clk)) ∧
    (port = 0x100 → secOf s c k = none → readAllowed (s.pt i) (pointOwner s c k) = true →
      Runs s c (.prd c rd ra imm) (fun t =>
        (t.thr c k).latch = (List.range 8).map (ptWord (s.pt i)) ∧
        (∃ o, (t.thr c k).pend = [o] ∧ o.res = [(rd.val, w32 ((s.pt i).val.toNat % 2 ^ 32))] ∧
          o.ready = issueCyc s c + 14) ∧
        Passes s t c k 4 ∧ t.points = s.points))

/-- R103, R143, R144, R259: OUT writes VCOUNT and its ceiling, a loop count, the window's page, and a request to
publish; each takes four cycles and leaves registers and flags alone. -/
def Clause.PortWrites : Prop :=
  ∀ (s : State) (c : Core) (k : Option Nat) (rd ra : Reg5) (imm : BitVec 16), Ready s c k 4 →
    let port := portOf (s.thr c k).r ra imm
    let v := gpr s c k rd
    let keeps := fun (t : State) => (∀ n, gpr t c k n = gpr s c k n) ∧ nzcv t c k = nzcv s c k ∧ Took s t c 4
    (port = 0 → v.toNat ≤ 0x100000 → Runs s c (.vcount c rd ra imm) (fun t =>
      keeps t ∧ vcountOf t c k = v.toNat ∧ vceilOf t c k = v.toNat)) ∧
    (port = 6 → Runs s c (.out c rd ra imm) (fun t => keeps t ∧ (t.thr c k).r.l0.lc = v)) ∧
    (port = 0x7FFF → k = none → Runs s c (.sioPage c rd ra imm) (fun t =>
      keeps t ∧ (t.core c).sio = v.toNat % 512)) ∧
    (port = 0x210 → secOf s c k = none →
      let cb := v.toNat % 1024
      bit (wd (s.recw 3 cb) 0) 31 = true → (∀ t, pointOwner s c k = some t → bits (wd (s.recw 3 cb) 0) 16 8 = t) →
      Runs s c (.pub c rd ra imm) (fun t =>
        keeps t ∧ t.pubq = s.pubq ++ [⟨cb, false, none, false, none, (toIssue s c).now⟩] ∧ t.ptq = s.ptq))

/-- R145, R294, R295: a PWR sends the write block at its Tray offset to the sheet, and the judgement writes V alone. -/
def Clause.PointWritePort : Prop :=
  ∀ (s : State) (c : Core) (k : Option Nat) (rd ra : Reg5) (imm : BitVec 16), Ready s c k 4 →
    (portOf (s.thr c k).r ra imm = 0x108 → secOf s c k = none → keyless s = false →
      let a := (gpr s c k rd).toNat
      let p := blockAddr k a
      let w := leVal (trayBytes s c p 4)
      let q := leVal (trayBytes s c (p + 4) 2)
      let pt := s.pt (w % 2 ^ 17)
      a % 16 = 0 → a < 0x3F00 → TrayClean s c p → TrayClean s c (p + 8) → q < 2 ^ 13 → pt.ty ≠ 0 →
      (∀ t, pointOwner s c k = some t → pt.owner = t) →
      Runs s c (.pwr c rd ra imm) (fun t => Passes s t c k 4 ∧ (t.thr c k).pwr = some none ∧
        ∃ x, t.ptq = s.ptq ++ [x] ∧ x.src = .ez ∧ x.pt = w % 2 ^ 17 ∧ x.owner = pointOwner s c k ∧
          x.val = (if w.testBit 31 then none else some (BitVec.ofNat 64 (leVal (trayBytes s c (p + 8) 8)))) ∧
          x.q = (if w.testBit 30 then none else some q))) ∧
    (∀ (v : Bool) (m : Nat),
      Completes (exec (.pwrJudgement c) (s.modThr c k fun t => { t with pwr := some (some (v, m)) })) (fun t =>
        nzcv t c k = { nzcv s c k with v := v } ∧ (t.thr c k).pwr = none ∧ ∀ n, gpr t c k n = gpr s c k n))

/-- Writes through ports, and through a point write port. Where a supervisor's write block lies, what XINFO holds at the
fault of a port, and details of IN and OUT are the model's readings (DEDUCED, log entries 47, 67 and 68). -/
def Obligations.PortWritesAndPoints : Prop :=
  Clause.PortWrites ∧ Clause.PointWritePort

/-- R144, R191, R198, R199, R204, R206, R453: the supervisor's XAFLAGS clears the sticky flags written as 1, of the
interrupted context or of the supervisor, but those set in the same cycle; IC_CLAIM takes the highest pending source,
and a software source's bit with it, or answers 1023 or 0 where none qualifies; IC_EOI pops the source on top, and
sets EOIERR for any other; the window reaches BAR0 as an access of the host does. The result of an IN through the
window is readable at most 64 cycles after its issue (R144). That an IN through the window takes at least 4 cycles of
the 64 that it may take, that XAFLAGS does nothing at mask level 0, and what the same cycle is, are the model's
readings (log entries 68, 45 and 119). -/
def Obligations.SupervisorPorts : Prop :=
  ∀ (s : State) (c : Core) (rd ra : Reg5) (imm : BitVec 16), Ready s c none 4 →
    let port := portOf (s.thr c none).r ra imm
    let v := gpr s c none rd
    let b := tget Bank.init (s.core c).banks (s.core c).ml
    let keeps := fun (t : State) => (∀ n, gpr t c none n = gpr s c none n) ∧ nzcv t c none = nzcv s c none ∧ Took s t c 4
    let clears := fun (r : Reg) (j : Nat) => Runs s c (.xaflags c rd ra imm) (fun t =>
      keeps t ∧ ∀ e < 6, (t.reg r c j).getLsbD e = ((s.reg r c j).getLsbD e &&
        !(v.getLsbD e && (setNow (toIssue s c) (setKey r c j e)).isNone)))
    (port = 0x406 → (s.core c).ml ≠ 0 → (b.rsup = true → clears rEZ_SAFLAGS 0) ∧ (b.rsup = false → clears rEZ_AFLAGS b.ctx)) ∧
    (port = 0x406 → (s.core c).ml = 0 → Runs s c (.xaflags c rd ra imm) (fun t => keeps t ∧ t.regs = s.regs)) ∧
    (port = 0x410 →
      (∀ p n, bestSrc (toIssue s c) c = some (p, n) → Runs s c (.icClaim c rd ra imm) (fun t =>
        RegIs s t c none rd (w32 n) ∧ (t.core c).ic.stack = (p, n) :: (s.core c).ic.stack ∧
        (t.core c).ic.latch = false ∧ Took s t c 4 ∧
        (n < 16 ∨ ((s.core c).src n).again ≠ some (toIssue s c).nowCyc → ((t.core c).src n).released = false) ∧
        (16 ≤ n → t.regs = s.regs) ∧ (n < 16 → t.reg rIC_SWI c 0 = s.reg rIC_SWI c 0 &&& ~~~(w32 (2 ^ n))))) ∧
      (bestSrc (toIssue s c) c = none → Runs s c (.icClaim c rd ra imm) (fun t =>
        RegIs s t c none rd (if (s.core c).ic.latch then 1023 else 0) ∧ (t.core c).ic.stack = (s.core c).ic.stack ∧
        (t.core c).ic.latch = false ∧ Took s t c 4 ∧ ((s.core c).ic.latch = true → Flagged t kIC_STAT_SPUR c) ∧
        ((s.core c).ic.latch = false → t.regs = s.regs)))) ∧
    (port = 0x411 →
      (∀ p n rest, (s.core c).ic.stack = (p, n) :: rest → v.toNat % 1024 = n →
        Runs s c (.icEoi c rd ra imm) (fun t => keeps t ∧ (t.core c).ic.stack = rest ∧ t.regs = s.regs)) ∧
      ((∀ p rest, (s.core c).ic.stack ≠ (p, v.toNat % 1024) :: rest) → Runs s c (.icEoi c rd ra imm) (fun t =>
        keeps t ∧ (t.core c).ic.stack = (s.core c).ic.stack ∧ Flagged t kIC_STAT_EOIERR c))) ∧
    (0x8000 ≤ port →
      (let u := busRead (toIssue s c) .supervisor (barOff s c port)
       ∀ bs, u.resp = .data bs → Runs s c (.bar0Window c false rd ra imm) (fun t => keeps t ∧ t.regs = u.regs ∧ ∃ o,
        (t.thr c none).pend = [o] ∧ o.res = [(rd.val, w32 (leVal bs))] ∧ issueCyc s c + 4 ≤ o.ready ∧
        o.ready ≤ issueCyc s c + 64)) ∧
      (let u := busWrite (toIssue s c) (barOff s c port) v
       ∀ bs, u.resp = .data bs → Runs s c (.bar0Window c true rd ra imm) (fun t => t.resp = u.resp ∧
        t.regs = u.regs ∧ t.eff = u.eff ∧ t.newRegs = u.newRegs))) ∧
    (0x8000 ≤ port → barOff s c port = rTU_PPSDLY.base → pmState s < 2 → s.bist.running = false →
      domFaulted s 12 = false → domOn s 18 = true → s.tu.setsec = none →
      Runs s c (.bar0Window c false rd ra imm) (fun t => keeps t ∧ t.regs = s.regs ∧ ∃ o,
        (t.thr c none).pend = [o] ∧ o.res = [(rd.val, w32 (s.f fTU_PPSDLY_DLY))] ∧ issueCyc s c + 4 ≤ o.ready ∧
        o.ready ≤ issueCyc s c + 64) ∧
      Runs s c (.bar0Window c true rd ra imm) (fun t => keeps t ∧ t.resp = .data [] ∧
        t.f fTU_PPSDLY_DLY = v.toNat % 2 ^ 16 ∧
        ∀ n, n ≠ rTU_PPSDLY.base → tfind t.regs n = tfind s.regs n))

-- The vector machine ------------------------------------------------------------------------------------------------------------------

/-- R84, R110, R114, R120, R132, R134: a legal vector instruction outside a branch shadow takes its place in the span's
queue with the scalar registers as they stand at issue; issue goes on in the next cycle, behind its 8 or 4 bytes. -/
def Clause.VectorIssue : Prop :=
  ∀ (s : State) (c : Core) (k : Option Nat),
    let issued := fun (i : Instr) (op : VOp) (size : Nat) => Ready s c k size → vShad op = false → vLegal op = true →
      strictOf s c k = false → spanOwner s c = true → (k = none → (s.core c).run = none) →
      Runs s c i (fun t =>
        (t.core c).vq = [newEnt s c k op (s.thr c k).r.pc (issueCyc s c) false false] ∧
        (t.core c).jobs = [] ∧ (∀ n, gpr t c k n = gpr s c k n) ∧ nzcv t c k = nzcv s c k ∧ Advanced s t c k size ∧
        Took s t c 1 ∧ { t with cores := s.cores, ctxs := s.ctxs, pm := s.pm } = s)
    (∀ x : StreamArgs,
      let stream := fun (i : Instr) (op : SOp) => issued i (.str op x) 8
      stream (.vmov c x) .mov ∧ stream (.vldff c x) .ldff ∧ stream (.vlds c x) .lds ∧ stream (.vsts c x) .sts ∧
      stream (.vcvt c x) .cvt ∧ stream (.vadd c x) .add ∧ stream (.vsub c x) .sub ∧ stream (.vmul c x) .mul ∧
      stream (.vfma c x) .fma ∧ stream (.vmin c x) .min ∧ stream (.vmax c x) .max ∧ stream (.vabs c x) .abs ∧
      stream (.vneg c x) .neg ∧ stream (.vand c x) .and ∧ stream (.vor c x) .or ∧ stream (.vxor c x) .xor ∧
      stream (.vshl c x) .shl ∧ stream (.vshr c x) .shr ∧ stream (.vdiv c x) .div ∧ stream (.vsqrt c x) .sqrt ∧
      stream (.vcmp c x) .cmp ∧ stream (.vmulw c x) .mulw ∧ stream (.vfmaw c x) .fmaw ∧ stream (.vdot c x) .dot ∧
      stream (.vcmul c x) .cmul ∧ stream (.vredadd c x) .redadd ∧ stream (.vredmin c x) .redmin ∧
      stream (.vredmax c x) .redmax ∧ stream (.vprefix c x) .psum ∧ stream (.vdadd c x) .dadd ∧
      stream (.vdsub c x) .dsub) ∧
    (∀ x : ShortArgs,
      let short := fun (i : Instr) (op : HOp) => issued i (.sht op x) 4
      short (.vaddShort c x) .add ∧ short (.vsubShort c x) .sub ∧ short (.vmulShort c x) .mul ∧
      short (.vfmaShort c x) .fma ∧ short (.vminShort c x) .min ∧ short (.vmaxShort c x) .max ∧
      short (.vandShort c x) .and ∧ short (.vorShort c x) .or ∧ short (.vxorShort c x) .xor ∧
      short (.vshli c x) .shli ∧ short (.vshrai c x) .shrai ∧ short (.vshrli c x) .shrli ∧
      short (.vcmpeq c x) .cmpeq ∧ short (.vcmplt c x) .cmplt ∧ short (.vcmple c x) .cmple ∧ short (.vsel c x) .sel ∧
      short (.vsplat c x) .splat ∧ short (.vcvtShort c x) .cvt ∧ short (.vredaddShort c x) .redadd ∧
      short (.vredminShort c x) .redmin ∧ short (.vredmaxShort c x) .redmax ∧ short (.vredadd2 c x) .redadd2 ∧
      short (.vcmulShort c x) .cmul ∧ short (.vdaddShort c x) .dadd ∧ short (.vdsubShort c x) .dsub ∧
      short (.vmovs c x) .movs ∧ short (.mand c x) .mand ∧ short (.mor c x) .mor ∧ short (.mxor c x) .mxor ∧
      short (.mnot c x) .mnot ∧ short (.mpop c x) .mpop ∧ short (.vsetn c x) .setn ∧ short (.vgrp c x) .grp)

/-- R84, R92, R151, R155: an instruction starts at the later of its issue and the end of the last count on its pipes;
its writes land when its own count expires, in the Negative pass as its transform holds them (R212); a branch verdict squashes what stands in a taken branch's shadow; a long
operation writes its registers when it retires, unless it faults. -/
def Clause.SpanEngine : Prop :=
  ∀ (s : State) (c : Core) (k : Option Nat), Ready s c k 4 →
    (∀ e : VEnt, e.first = 0 →
      Completes (exec (.vectorStart c) (s.modCore c fun y => { y with vq := [e], frozen := false })) (fun t =>
        (t.core c).vq = [] ∧ t.plate = s.plate ∧ t.vreg = s.vreg ∧ (∀ n, gpr t c k n = gpr s c k n) ∧
        ∃ j, (t.core c).jobs = [j] ∧ j.start = max (s.core c).vlast (max e.issue (freedAt (s.core c) (vHalf e.op))) ∧ j.start ≤ j.fin ∧
          j.h = vHalf e.op ∧ j.ents.map (fun f => (f.op, f.regs, f.issue)) = [(e.op, e.regs, e.issue)])) ∧
    (∀ (j : VJob) (half : Half), j.h = (match half with | .whole => 0 | .lower => 1 | .upper => 2) → j.fault = none →
      let s' := s.modCore c fun y => { y with jobs := [j] }
      Completes (exec (.countExpiry c half) s') (fun t => (t.core c).jobs = [] ∧ (t.core c).vq = [] ∧
        freedAt (t.core c) j.h = max (freedAt (s.core c) j.h) j.fin) ∧
      (∀ r v, j.writes = [.sreg r v] → Completes (exec (.countExpiry c half) s') (fun t =>
        RegIs s t c ((s.core c).run.map (·.ctx)) r v)) ∧
      (∀ r o bs cls, j.writes = [.vreg r o bs cls] → memWf s.vreg = true →
        let sel := selOf c (spanLog s c) j.h (negOf s c ((s.core c).run.map (·.ctx)))
        let key := vKey sel r o
        Completes (exec (.countExpiry c half) s') (fun t =>
          mread t.vreg key bs.length = leBytes bs.length (heldAs sel.neg cls (key % 8) bs.length (leVal bs)) ∧
          (sel.neg = false → mread t.vreg key bs.length = bs) ∧
          ∀ a, a < key ∨ key + bs.length ≤ a → mget t.vreg a = mget s.vreg a))) ∧
    (∀ (b : Branch) (j : VJob), b.due < j.fin → j.chain = false →
      Completes (exec (.verdict c) (s.modCore c fun y => { y with br := some b, jobs := [j] })) (fun t =>
        (t.core c).br = none ∧ t.plate = s.plate ∧ t.vreg = s.vreg ∧ (∀ n, gpr t c k n = gpr s c k n) ∧
        (t.core c).jobs = if b.taken && j.shad then [] else [{ j with pre := false, shad := false }])) ∧
    (∀ (o : LongOp) (r : Nat) (v : Word), o.res = [(r, v)] → o.samp = none →
      Completes (exec (.longOperationRetire c) (s.modThr c k fun t => { t with pend := [o] })) (fun t =>
        (t.thr c k).pend = [] ∧ nzcv t c k = nzcv s c k ∧
        (o.fault = none → RegIs s t c k r v ∧ (t.thr c k).held = []) ∧
        (∀ f, o.fault = some f → (∀ n, gpr t c k n = gpr s c k n) ∧ (t.thr c k).held = [f]))) ∧
    (∀ o : LongOp, o.kind = .store → o.res = [] → o.fault = none → (∀ q, k = some q → q < 8) →
      (∀ q, q < 8 → (s.thr c (some q)).pend = []) →
      Completes (exec (.narrowWriteRetire c) (s.modThr c k fun t => { t with pend := [o] })) (fun t =>
        (t.thr c k).pend = [] ∧ (∀ n, gpr t c k n = gpr s c k n) ∧ t.dram = s.dram ∧
        (t.core c).cyc = max (issueCyc s c) o.ready))

/-- Vector instructions as they are issued, and the span that runs them. How VSTS counts, where VDOT restarts, where VLDFF
stops, on which pipe a supervisor's instruction may start, and that an instruction that must wait does so inside its
command are the model's (log entries 69, 70, 71, 77 and 9). -/
def Obligations.VectorsOnSpans : Prop :=
  Clause.VectorIssue ∧ Clause.SpanEngine

/-- R122: integer elements of w bits wrap modulo 2^w or, with SAT = 1, saturate; shifts by the width or more give 0, the
sign, or the limit. -/
def Obligations.IntegerElements : Prop :=
  ∀ (w a b c : Nat) (r : Bool), 0 < w → a < 2 ^ w → b < 2 ^ w → c < 2 ^ w →
    let x := sval w a
    let y := sval w b
    let n := b % 256
    let op := fun (o : SOp) (sat : Bool) => intOp o w sat r a b c
    let clamp := fun (z : Int) => max (-(2 ^ (w - 1))) (min (2 ^ (w - 1) - 1) z)
    op .add false = (a + b) % 2 ^ w ∧ sval w (op .add true) = clamp (x + y) ∧
    op .sub false = (a + 2 ^ w - b) % 2 ^ w ∧ sval w (op .sub true) = clamp (x - y) ∧
    op .mul false = a * b % 2 ^ w ∧ sval w (op .mul true) = clamp (x * y) ∧
    op .fma false = (a * b + c) % 2 ^ w ∧ sval w (op .fma true) = clamp (x * y + sval w c) ∧
    op .neg false = (2 ^ w - a) % 2 ^ w ∧ sval w (op .neg true) = clamp (-x) ∧
    (a = 2 ^ (w - 1) → op .abs false = 2 ^ (w - 1) ∧ op .abs true = 2 ^ (w - 1) - 1) ∧
    op .shl false = a * 2 ^ n % 2 ^ w ∧ sval w (op .shl true) = clamp (x * 2 ^ n) ∧
    intOp .shr w true false a b c = a / 2 ^ n ∧ sval w (intOp .shr w true true a b c) = x / 2 ^ n ∧
    sval w (op .min false) = min x y ∧ sval w (op .max false) = max x y

-- Memories ----------------------------------------------------------------------------------------------------------------------------------

/-- R57: the bank of in-sheet word w is w[9:0] XOR {w[14:10], w[14:10]}; within one row it is a bijection on w[9:0]; words
of different rows share a bank exactly when their low ten bits differ by {x, x}, x being the XOR of the rows. -/
def Obligations.BankHash : Prop :=
  ∀ w v : Nat, w < 2 ^ 15 → v < 2 ^ 15 →
    bankOf w < 1024 ∧
    (∀ i < 10, (bankOf w).testBit i = (w.testBit i != w.testBit (10 + i % 5))) ∧
    (w / 1024 = v / 1024 → bankOf w = bankOf v → w = v) ∧
    (∀ n < 1024, ∀ r < 32, ∃ l < 1024, bankOf (1024 * r + l) = n) ∧
    (bankOf w = bankOf v ↔ Nat.xor (w % 1024) (v % 1024) = 33 * Nat.xor (w / 1024) (v / 1024)) ∧
    bankOf 0x3FFF = 528 ∧ bankOf 0x4000 = 528

/-- R61, R63, R67, R68, R74: what an aligned write through a sheet map stores, a read through the map returns; the other
bytes of the word and every other word keep their data. A narrow write to a poisoned word faults and changes nothing; a
write of the whole word clears the poison. -/
def Clause.PlateReadAfterWrite : Prop :=
  ∀ (s : State) (m a n v master wa : Nat), n ∈ [1, 2, 4, 8] → a % n = 0 → keyless s = false → memWf s.plate = true →
    trising s.plateEcc = true → plateResolve s m a true = .ok wa →
    let r := plateWrite s m a n v master
    (n = 8 ∨ (s.poison.contains wa = false ∧ tget 0 s.plateEcc wa = 0) →
      r.1 = .ok () ∧ (plateRead r.2 m a n master).1 = .ok (v % 2 ^ (8 * n)) ∧ memWf r.2.plate = true ∧
      (∀ b, b < 8 * wa ∨ 8 * wa + 8 ≤ b → mget r.2.plate b = mget s.plate b) ∧
      (∀ i < 8, i < a % 8 ∨ a % 8 + n ≤ i → plateWord r.2 wa / 2 ^ (8 * i) % 256 = plateWord s wa / 2 ^ (8 * i) % 256) ∧
      { r.2 with plate := s.plate, plateEcc := s.plateEcc, poison := s.poison } = s) ∧
    (n < 8 → s.poison.contains wa = true → r = (.error 3, s))

/-- R347: a write inside one 64-byte unit of an owner's DRAM window reads back under the same owner; the other bytes of
the unit and every other unit keep their data. -/
def Clause.DramReadAfterWrite : Prop :=
  ∀ (s : State) (o p n v : Nat), p % 64 + n ≤ 64 → keyless s = false → memWf s.dram = true →
    tget 0 s.dramEcc (p / 64) = 0 → trising s.dramEcc = true →
    let t := dramWrite s o p n v
    (dramRead t o p n).1 = some (v % 2 ^ (8 * n)) ∧ memWf t.dram = true ∧
    (∀ i < 64, i < p % 64 ∨ p % 64 + n ≤ i →
      dramUnit t o (p / 64) / 2 ^ (8 * i) % 256 = dramUnit s o (p / 64) / 2 ^ (8 * i) % 256) ∧
    (∀ u, u ≠ p / 64 → ∀ x, dramUnit t x u = dramUnit s x u)

/-- R141, R142, R147, R150: a Plate store writes exactly the bytes at its address, where the sheet map leads and no word
holds an error, and takes 3 cycles, or 1 for STD; a DRAM store writes its bytes under the issuer's key, and takes 1. When
a narrow DRAM store lands is the model's reading (DEDUCED, log entry 74). -/
def Clause.LongStores : Prop :=
  ∀ (s : State) (c : Core) (k : Option Nat) (rd ra : Reg5) (imm : BitVec 16) (b : Nat), Ready s c k 4 →
    keyless s = false → memWf s.plate = true → memWf s.dram = true →
    let a := dataAddr s c k ra imm
    let w := gpr s c k rd
    let own := ownerOf s c k
    let byte := fun (x : State) wa i => plateWord x wa / 2 ^ (8 * i) % 256
    let stores := fun (i : Instr) (n v : Nat) =>
      (∀ wa, InPlate a n b → s.plateEcc = [] → s.poison = [] → plateResolve s own b true = .ok wa →
        Runs s c i (fun t => plateWord t wa / 2 ^ (8 * (b % 8)) % 2 ^ (8 * n) = v % 2 ^ (8 * n) ∧
          (∀ i < 8, i < b % 8 ∨ b % 8 + n ≤ i → byte t wa i = byte s wa i) ∧
          (∀ x, x < 8 * wa ∨ 8 * wa + 8 ≤ x → mget t.plate x = mget s.plate x) ∧ memWf t.plate = true ∧
          Passes s t c k (if n = 8 then 1 else 3) ∧
          { t with cores := s.cores, ctxs := s.ctxs, pm := s.pm, plate := s.plate } = s)) ∧
      (InDram s c k a n b → Runs s c i (fun t =>
        t.dram = (dramWrite (toIssue s c) own b n v).dram ∧ Passes s t c k 1 ∧ t.plate = s.plate ∧ t.tray = s.tray))
    stores (.stb c rd ra imm) 1 w.toNat ∧
    stores (.sth c rd ra imm) 2 w.toNat ∧
    stores (.stw c rd ra imm) 4 w.toNat ∧
    (rd.val % 2 = 0 → stores (.std c rd ra imm) 8 (w.toNat + 2 ^ 32 * (gpr s c k (rd + 1)).toNat))

/-- Plate and DRAM read back what was written to them, and what the stores of cores write there. When a narrow DRAM store
lands is the model's reading (DEDUCED, log entry 74). -/
def Obligations.ReadAfterWrite : Prop :=
  Clause.PlateReadAfterWrite ∧ Clause.DramReadAfterWrite ∧ Clause.LongStores

-- The Contact sheet ---------------------------------------------------------------------------------------------------------------------------

/-- R285, R287, R290, R292, R296, R297: an allowed write that is alone in its sheet cycle lands: it replaces the fields it
names and the time stamp; on a change CHG counts, the reference follows, and EVT and WATCH post their record and their
activation. -/
def Clause.PointWriteLands : Prop :=
  ∀ (s : State) (w : PtWrite) (q : List PtWrite), s.ptq = w :: q → writeAllowed (s.pt w.pt) w = true →
    let p := s.pt w.pt
    let chg := changes p w
    Completes (exec (.pointWrite (decide (w.src = .fe 0)) (decide (w.src = .fe 1)) (decide (w.src = .ez))
        (decide (w.src = .host)) (decide (w.src = .tu))) s) (fun t =>
      Landed s t w ∧ t.ptq = q ∧ t.plate = s.plate ∧ t.tray = s.tray ∧
      (chg = true ∧ bit p.flags 1 = true ∧ p.owner < 256 →
        ∃ a, t.postq = s.postq ++ [a] ∧ a.tenant = p.owner ∧ a.kind = 3 ∧ a.idx = w.pt) ∧
      (chg = false ∨ bit p.flags 1 = false → t.postq = s.postq) ∧
      (chg = true → bit p.flags 0 = true → s.fb fCS_CTL_EVEN = true → p.owner < 256 → s.evq.length < 1024 →
        ∃ r, t.evq = s.evq ++ [r] ∧ r.set = p.owner ∧ r.words.take 5 = ptWords (t.pt w.pt) ∧
          r.words[5]? = some (w32 ((t.pt w.pt).chg * 2 ^ 24 + w.pt))))

/-- R291: when a Frame Engine write and an Easel write reach one point in one sheet cycle, the Frame Engine write lands;
the other is dropped, sets CS_STAT.COL, counts in CS_COL_CNT.EZ, and its OUT returns V = 1. -/
def Clause.PointCollision : Prop :=
  ∀ (s : State) (a b : PtWrite) (l n : Nat) (e : Bool) (c : Core) (k : Option Nat), s.ptq = [a, b] → a.src = .fe 0 → b.src = .ez →
    a.pt = b.pt → a.back = .lane l e n → b.back = .pwr c k → writeAllowed (s.pt a.pt) a = true →
    writeAllowed (s.pt b.pt) b = true → (s.thr c k).pwr = some none →
    Completes (exec (.pointWrite true false true false false) s) (fun t =>
      Landed s t a ∧ t.ptq = [] ∧ Flagged t kCS_STAT_COL ∧ Counted s t fCS_COL_CNT_EZ ∧
      ∃ m, (t.thr c k).pwr = some (some (true, m)))

/-- R218, R291, R422: a write of the time unit, of the held-output buffer or of the mirror that lost a collision lands at a
retry that meets no other. -/
def Clause.RetriesLand : Prop :=
  ∀ (s : State) (w : PtWrite) (q : List PtWrite), s.ptq = w :: q → w.lost ≠ 0 → writeAllowed (s.pt w.pt) w = true →
    let lands := fun (i : Instr) => Completes (exec i s) (fun t => Landed s t w ∧ t.ptq = q)
    (w.src = .tu → w.back = .none → lands .timeUnitRetry) ∧
    (w.src = .ez → (∃ c k, w.back = .held c k) → lands .heldWriteRetry) ∧
    (w.src = .host → w.back = .mirror → lands .mirrorRetry)

/-- Point writes that land, that meet another in one sheet cycle, and that are retried. What a mirror write does at a
point that cannot take it, and that one command is the whole of a sheet cycle, are the model's readings (DEDUCED, log
entries 38 and 106). -/
def Obligations.PointWrites : Prop :=
  Clause.PointWriteLands ∧ Clause.PointCollision ∧ Clause.RetriesLand

/-- R284, R288, R289: a read of the direct window answers the word; that of word 0 latches the whole record for its
reader, whose words 1–7 are then read from the latch; writes to words 5–7 wait for the boundary, and a write to words
0–4 only sets CS_STAT.WREF. That words 5 to 7 show a configuration that waits for the boundary is the model's reading
(DEDUCED, log entry 48). -/
def Obligations.DirectWindow : Prop :=
  ∀ (s : State) (p : Fin 131072) (w : Fin 8) (v : Word),
    let answers := fun (t : State) (v : Word) => t.resp = .data (leBytes 4 v.toNat)
    Completes (exec (.directWindowRead .host p 0) s) (fun t => answers t (ptWord (s.pt p) 0) ∧
      t.latchH = some (p.val, s.pt p) ∧ { t with latchH := s.latchH, resp := s.resp, pm := s.pm } = s ∧
      ∀ i < 5, 0 < i → (windowRead t .host p i).1 = ptWord (s.pt p) i) ∧
    Completes (exec (.directWindowRead .supervisor p 0) s) (fun t => answers t (ptWord (s.pt p) 0) ∧
      t.latchS = some (p.val, s.pt p) ∧ { t with latchS := s.latchS, resp := s.resp, pm := s.pm } = s) ∧
    (w.val ≠ 0 → ∀ r : Reader, Completes (exec (.directWindowRead r p w) s) (fun t =>
      answers t (windowRead s r p w).1 ∧ { t with resp := s.resp, pm := s.pm } = s)) ∧
    (5 ≤ w.val → Completes (exec (.directWindowWrite p w v) s) (fun t =>
      { t with ptcfg := s.ptcfg, regs := s.regs, pm := s.pm } = s ∧ (∀ n, t.pt n = s.pt n) ∧
      t.f fKS_PSTAT_BUSY = 1 ∧ (∀ n, n ≠ rKS_PSTAT.key 0 0 → tfind t.regs n = tfind s.regs n) ∧
      (∃ x ∈ t.ptcfg, x.pt = p.val ∧ (w.val = 5 → x.w5 = some v) ∧ (w.val = 6 → x.w6 = some v) ∧
        (w.val = 7 → x.w7 = some v)) ∧ ∀ x, x.pt ≠ p.val → (x ∈ t.ptcfg ↔ x ∈ s.ptcfg))) ∧
    (w.val < 5 → Completes (exec (.directWindowWrite p w v) s) (fun t =>
      Flagged t kCS_STAT_WREF ∧ t.points = s.points ∧ t.ptcfg = s.ptcfg))

-- Interrupts and core registers ------------------------------------------------------------------------------------------------------------------

/-- R195, R201: a software source that is enabled is released when its bit of IC_SWI is written as 1; a source whose EN or
PRIO becomes 0 is withdrawn; the moderation time releases the sets counted meanwhile, and the line of a source that was
pending stays as it is; the line of a pending source ends a WAIT that takes no interrupt entry. R202: a core that has been
idle since has released its sets already. -/
def Clause.InterruptSources : Prop :=
  ∀ (s : State) (c : Core) (v : Word),
    let u := idleRelease s c
    Completes (exec (.icSwi c v) s) (fun t => t.reg rIC_SWI c 0 = s.reg rIC_SWI c 0 ||| (v &&& 0xFFFE) ∧
      (∀ n, n ≠ rIC_SWI.key c 0 → tfind t.regs n = tfind s.regs n) ∧
      ∀ n, 1 ≤ n → n < 16 → v.getLsbD n = true → s.fb fIC_SRC_EN c n = true → s.fb fIC_SRC_PRIO c n = true →
        s.f fIC_SRC_MTIME c n = 0 → ((s.core c).src n).lastSet ≠ some s.nowCyc → ((t.core c).src n).released = true ∧ srcPending t c n = true) ∧
    (∀ n : Fin 1020, Completes (exec (.icSrc c n v) s) (fun t => t.reg rIC_SRC c n = v &&& 0x8FFFFF0F ∧
      (t.fb fIC_SRC_EN c n = false ∨ t.fb fIC_SRC_PRIO c n = false →
        ((t.core c).src n).released = false ∧ ((t.core c).src n).cnt = 0 ∧ srcPending t c n = false))) ∧
    (∀ n : Fin 1024, let x := (u.core c).src n
      (x.cnt ≠ 0 → Completes (exec (.moderationRelease c n) s) (fun t =>
        ((t.core c).src n).released = true ∧ ((t.core c).src n).cnt = 0 ∧ t.regs = s.regs ∧
        t.now = max s.now (x.first + s.f fIC_SRC_MTIME c n * 256 * s.cyc) ∧
        ((t.core c).src n).line = if x.released then x.line else t.now + lineDelay n * s.cyc)) ∧
      (x.cnt = 0 → ((s.core c).src n).cnt ≠ 0 → Completes (exec (.moderationRelease c n) s) (fun t =>
        ((t.core c).src n).released = true ∧ ((t.core c).src n).cnt = 0 ∧ t.regs = s.regs ∧ t.now = s.now))) ∧
    (∀ n : Fin 1024, srcPending u c n = true → pmState s ≠ 1 →
      let s' := u.advanceTo ((u.core c).src n).line
      lineHigh s' c = true → Completes (exec (.requestLine c n) s) (fun t => t.clk = s'.clk ∧
        (mayInterrupt s' c = false → (t.core c).waiting = false) ∧
        (mayInterrupt s' c = true → (t.core c).waiting = (s.core c).waiting)))

/-- R203: when a vector's moderation time ends, one message, its data at its address, stands for the sets counted; a masked
vector keeps its pending bit instead, and sends when it is unmasked. -/
def Clause.MsixMessages : Prop :=
  ∀ (s : State) (v : Fin 256), memWf s.host = true →
    let vec := fun (x : State) => (tfind x.hi.vecs v.val).getD VecSt.init
    let addr := (s.reg rMSIX_TABLE (4 * v) 0).toNat + 2 ^ 32 * (s.reg rMSIX_TABLE (4 * v + 1) 0).toNat
    let sent := fun (t : State) => mread t.host addr 4 = leBytes 4 (s.reg rMSIX_TABLE (4 * v + 2) 0).toNat ∧
      (vec t).sent = (vec s).sent + 1 ∧ (vec t).last = some t.now ∧ ∀ a, a < addr ∨ addr + 4 ≤ a → mget t.host a = mget s.host a
    let pba := fun (x : State) => bit (x.reg rMSIX_PBA (v / 32) 0).toNat (v % 32)
    let masked := (s.reg rMSIX_TABLE (4 * v + 3) 0).toNat % 2 = 1
    ((vec s).cnt ≠ 0 → ¬masked → Completes (exec (.msixRelease v) s) (fun t => sent t ∧ (vec t).cnt = 0)) ∧
    ((vec s).cnt ≠ 0 → masked → Completes (exec (.msixRelease v) s) (fun t => pba t = true ∧ (vec t).cnt = 0 ∧
      t.host = s.host)) ∧
    (pba s = true → Completes (exec (.msixUnmask v) s) (fun t => sent t ∧ pba t = false ∧ (vec t).cnt = (vec s).cnt)) ∧
    (pba s = false → Completes (exec (.msixUnmask v) s) (fun t => t.host = s.host ∧
      (t.reg rMSIX_TABLE (4 * v + 3) 0).toNat % 2 = 0))

/-- Interrupt sources of the cores, and MSI-X messages of the host. What the same cycle is, is the model's choice (log
entry 119). -/
def Obligations.Interrupts : Prop :=
  Clause.InterruptSources ∧ Clause.MsixMessages

/-- R104, R139, R162, R163, R181, R190: EZ_CTL, EZ_IDATA, EZ_XCFG and SCH_CAP take a write as their rules say: LOCK holds
REMAP; a word lands in instruction RAM unless a busy window holds its place; trap enables wait for the boundary; RETURN
is taken in MAINTENANCE only. -/
def Obligations.CoreRegisters : Prop :=
  ∀ (s : State) (c : Core) (k : Fin 8) (v : Word),
    Completes (exec (.ezCtl c v) s) (fun t => t.f fEZ_CTL_HALT c = bits v.toNat 1 1 ∧
      (s.fb fEZ_CTL_LOCK c = false → t.f fEZ_CTL_REMAP c = bits v.toNat 0 1 ∧ t.f fEZ_CTL_LOCK c = bits v.toNat 31 1) ∧
      (s.fb fEZ_CTL_LOCK c = true → t.f fEZ_CTL_REMAP c = s.f fEZ_CTL_REMAP c ∧ t.fb fEZ_CTL_LOCK c = true) ∧
      t.cores = s.cores ∧ ∀ n, n ≠ rEZ_CTL.key c 0 → tfind t.regs n = tfind s.regs n) ∧
    (memWf s.imem = true → let w := s.f fEZ_IADDR_WORD c
      (imemBusy s c w = false → Completes (exec (.ezIdata c v) s) (fun t => imemWord t c w = v.toNat ∧
        t.f fEZ_IADDR_WORD c = (w + 1) % 2 ^ 14 ∧
        ∀ a, a < c * 65536 + 4 * w ∨ c * 65536 + 4 * w + 4 ≤ a → mget t.imem a = mget s.imem a)) ∧
      (imemBusy s c w = true → Completes (exec (.ezIdata c v) s) (fun t => t.imem = s.imem ∧
        Flagged t kEZ_STAT_IWREF c ∧ t.f fEZ_IADDR_WORD c = w))) ∧
    Completes (exec (.ezXcfgQrel c k v) s) (fun t =>
      t.reg rEZ_XCFG c k = (v &&& 0x8000003F) ||| (s.reg rEZ_XCFG c k &&& 0x80000000) ∧ t.eff = s.eff) ∧
    (s.maint = true → Completes (exec (.schCapReturn v) s) (fun t =>
      t.f fSCH_CAP_RETURN = s.f fSCH_CAP_RETURN ||| bits v.toNat 16 8)) ∧
    (s.maint = false → Completes (exec (.schCapReturn v) s) (Same s))

-- The activation scheduler ---------------------------------------------------------------------------------------------------------------------------

/-- R40, R41, R48: an activation that reaches the scheduler joins its core's queue; while dispatch is off it is only
counted; the ninth of a tenant is a miss with cause QFULL. -/
def Clause.Posting : Prop :=
  ∀ (s : State) (a : Act) (as : List Act), s.postq = a :: as → s.stopped = false → standby s = false → pmState s = 0 →
    let c := (s.place a.tenant).1
    let q := (s.core c).queue
    let mine := (q.filter fun b => b.tenant == a.tenant).length
    let on := s.fb fSCH_CTL_EN = true ∧ s.plan.img.isSome = true ∧ (s.ctx c (s.place a.tenant).2).quar = false ∧
      lendOut s a.tenant = false ∧ coreLost s c = false
    (on → q.length < 64 → mine < 8 → Completes (exec .activationPost s) (fun t =>
      t.postq = as ∧ (t.core c).queue = q ++ [a] ∧ (∀ n, n ≠ c → t.core n = s.core n) ∧
      t.f fSCH_QDEPTH_MAX c = max (s.f fSCH_QDEPTH_MAX c) (q.length + 1) % 2 ^ fSCH_QDEPTH_MAX.w)) ∧
    (s.fb fSCH_CTL_EN = false → Completes (exec .activationPost s) (fun t =>
      t.postq = as ∧ t.cores = s.cores ∧ Counted s t fSCH_OFFCNT_CNT)) ∧
    (on → 8 ≤ mine → s.fb fDLM_CTL_EN = true → bits (s.dl a.tenant).cfg.toNat 0 2 = 0 →
      Completes (exec .activationPost s) (fun t => t.postq = as ∧ (t.core c).queue = q ∧ Flagged t kDLM_STAT_QFULL ∧
        Counted s t fDLM_TN_CNT_MISSES a.tenant))

/-- R39: a core that runs an activation dispatches no other; among the pending activations that may run, a free core takes
one of the highest rank, of those the one with the earliest trigger, and of those the one of the lowest tenant; a
tenant with no rank in the slot waits. That the larger number is the higher rank is the model's reading (DEDUCED, log
entry 22). -/
def Obligations.DispatchOrder : Prop :=
  ∀ (s : State) (c : Core),
    ((s.core c).run.isSome = true → domStalls s (c / 4) = false → Completes (exec (.dispatch c) s) (Same s)) ∧
    (∀ a, nextAct s c = some a →
      a ∈ (s.core c).queue ∧ ∃ r, mayRun s c a = some (r, a) ∧ rankOf s a.tenant = some r ∧
        ∀ b ∈ (s.core c).queue, ∀ x, mayRun s c b = some (x, b) →
          x < r ∨ (x = r ∧ (a.trig < b.trig ∨ (a.trig = b.trig ∧ a.tenant ≤ b.tenant)))) ∧
    (nextAct s c = none → (∀ b ∈ (s.core c).queue, mayRun s c b = none) ∧ Completes (exec (.dispatch c) s) (Same s)) ∧
    (dispatchOn s = true → s.ks.trans = none → coreFree s c = true → ThrCalm (s.thr c none) → (s.core c).jobs = [] →
      (s.core c).vq = [] → (s.core c).cyc ≠ (s.core c).freed + 24 → ∀ a, nextAct s c = some a →
      Completes (exec (.dispatch c) s) (fun t => (t.core c).run.map (·.act) = some a)) ∧
    (∀ a, rankOf s a.tenant = none → mayRun s c a = none)

/-- R39, R81, R158, R159: a dispatch starts the activation in its tenant's context: at its entry, with cleared flags, loops,
VCOUNT and latches and a cleared span; supervisor mode is left at its resume point; it takes 64 cycles. -/
def Clause.DispatchStarts : Prop :=
  ∀ (s : State) (c : Core) (a : Act), dispatchOn s = true → s.ks.trans = none → coreFree s c = true →
    nextAct s c = some a → ThrCalm (s.thr c none) → (s.core c).jobs = [] → (s.core c).vq = [] →
    (s.core c).cyc ≠ (s.core c).freed + 24 →
    let k := (s.place a.tenant).2
    Completes (exec (.dispatch c) s) (fun t =>
      (t.core c).run = some ⟨a, k, (s.pipe c).wlog, false, false⟩ ∧ (t.core c).sup = false ∧
      (t.core c).rpc = (s.core c).thr.r.pc ∧ (t.core c).rwait = (s.core c).waiting ∧ Took s t c 64 ∧
      (t.core c).queue.length + 1 = (s.core c).queue.length ∧
      pcOf t c (some k) = (ramBase s c + 4 * s.e fEZ_ENTRY_WORD c k) % 2 ^ 32 ∧
      nzcv t c (some k) = ⟨false, false, false, false⟩ ∧ (t.thr c (some k)).r.loopact = 0 ∧
      (t.ctx c k).vcount = 0 ∧ (t.ctx c k).g = 1 ∧ (t.thr c (some k)).latch = List.replicate 8 0 ∧
      (∀ n, gpr t c (some k) n = gpr s c (some k) n) ∧
      (∀ x, c * 2048 ≤ x → x < (c + 2 ^ (s.pipe c).wlog) * 2048 → tfind t.vreg x = none) ∧
      t.plate = s.plate ∧ t.tray = s.tray ∧ t.regs = s.regs)

/-- Activations are posted and dispatched. That a larger number is the higher rank, that a queue is judged by the entries
in it when the command comes, and what dispatches before the first slot are the model's readings (log entries 6, 22
and 108). -/
def Obligations.Dispatch : Prop :=
  Clause.Posting ∧ Clause.DispatchStarts

/-- R45, R46: when deadline − E passes, the running activation is recorded EXPIRED: under COUNT it goes on; under FALLBACK
it is aborted and its tenant's fallback datasets are published. -/
def Clause.DeadlineMisses : Prop :=
  ∀ (s : State) (t : Tenant) (r : Run) (c : Nat), s.fb fDLM_CTL_EN = true → s.stopped = false → runOf s t = some (c, r) →
    (s.core c).run = some r → r.act.missed = false → r.act.lent = false → r.ended = false →
    (s.core (s.place t).1).queue = [] → s.ub.lent = [] → s.ks.trans = none →
    let at_ := fun (u : State) => u.now = max s.now (fixedAt s r.act) ∧ Flagged u kDLM_STAT_EXPIRED ∧
      Counted s u fDLM_TN_CNT_MISSES t
    (bits (s.dl t).cfg.toNat 0 2 = 0 → Completes (exec (.deadlineMiss t) s) (fun u => at_ u ∧
      (u.core c).run = some { r with act := { r.act with missed := true } } ∧ u.pubq = s.pubq)) ∧
    (bits (s.dl t).cfg.toNat 0 2 = 1 → Completes (exec (.deadlineMiss t) s) (fun u => at_ u ∧ (u.core c).run = none ∧
      u.pubq = (fallbackPubs (s.advanceTo (fixedAt s r.act)) t).pubq ∧ (u.ctx c r.ctx).waitRel = [] ∧
      (u.ctx c r.ctx).sec = none))

/-- R47: at deadline − E the outputs of a fixed-release activation leave together, in issue order. -/
def Clause.FixedReleases : Prop :=
  ∀ (s : State) (t : Tenant) (c k : Nat) (r : Run), runOf s t = some (c, r) → r.ctx = k →
    r.act.lent = false → r.ended = false → s.stopped = false → (s.ctx c k).waitRel ≠ [] →
    Completes (exec (.fixedRelease t) s) (fun u => u.now = max s.now (fixedAt s r.act) ∧ (u.ctx c k).waitRel = [] ∧
      u.ptq.map (·.pt) = s.ptq.map (·.pt) ++ heldPoints (s.ctx c k).waitRel ∧
      u.pubq.map (·.cb) = s.pubq.map (·.cb) ++ heldPubs (s.ctx c k).waitRel ∧ u.cores = s.cores)

/-- Deadlines that pass, and fixed releases. That a run that has ended waits for its release on its core, and that a
command at a known instant lets time pass until then, are the model's (log entries 42, 104 and 6). -/
def Obligations.DeadlinesAndReleases : Prop :=
  Clause.DeadlineMisses ∧ Clause.FixedReleases

/-- R19, R35, R85: the next slot starts at its offset and posts its activations; its spans wait to form, and SCH_STAT.SPANWAIT
is set where a member of one still runs an activation; a span forms in 16 cycles once no member runs one, and not before. -/
def Clause.SlotsAndSpans : Prop :=
  ∀ (s : State),
    (∀ (p : Plan) (x : PlanSlot), curPlan s = some p → (slotsOf p)[nextSlot s]? = some x → s.stopped = false →
      fabricOn s = true →
      let due := s.plan.beganM + x.offset * nsU
      max due s.now < s.plan.beganM + s.plan.period * nsU →
      Completes (exec .slotStart s) (fun t => t.now = max due s.now ∧ t.plan.slot = nextSlot s ∧ t.plan.inslot = true ∧
        t.postq.map (fun a => (a.tenant, a.kind)) = s.postq.map (fun a => (a.tenant, a.kind)) ++
          x.posts.map (fun q => (q.val, 4)) ∧
        (∀ p < 32, (t.pipe p).base = (s.pipe p).base ∧ (t.pipe p).wlog = (s.pipe p).wlog ∧
          (t.pipe p).wait = if (s.pipe p).base = (layoutOf x p).1 ∧ (s.pipe p).wlog = (layoutOf x p).2 then none
            else some (layoutOf x p)) ∧
        ∀ p < 32, (layoutOf x p).1 = p → ¬((s.pipe p).base = p ∧ (s.pipe p).wlog = (layoutOf x p).2) →
          (∃ i < 2 ^ (layoutOf x p).2, pipeRuns s (p + i) = true) → Flagged t kSCH_STAT_SPANWAIT)) ∧
    (∀ (p : Pipe) (b w : Nat), (s.pipe p).wait = some (b, w) →
      let runs := ∃ i < 2 ^ w, pipeRuns s (b + i) = true
      (¬runs → s.stopped = false → Completes (exec (.spanFormation p) s) (fun t => t.now = s.now + 16 * s.cyc ∧ t.regs = s.regs ∧
        (∀ i < 2 ^ w, (t.pipe (b + i)).base = b ∧ (t.pipe (b + i)).wlog = w ∧ (t.pipe (b + i)).wait = none) ∧
        ∀ n, n < b ∨ b + 2 ^ w ≤ n → t.pipe n = s.pipe n)) ∧
      (runs → Completes (exec (.spanFormation p) s) (Same s)))

/-- R77, R106: a migration copies the context and, unfogged, its Tray slice to the new context, which then serves the
tenant; SCH_MIG records it. -/
def Clause.Migrations : Prop :=
  ∀ (s : State) (t : Tenant) (src dst : Fin 256), src ≠ dst → s.plan.mig = [(t.val, src.val, dst.val)] →
    (s.core (src / 8)).run = none → keyless s = false → memWf s.tray = true → s.stopped = false →
    Completes (exec (.migration t) s) (fun u => u.plan.mig = [] ∧ Flagged u kSCH_STAT_MIGRATE ∧
      u.ctx (dst / 8) (dst % 8) = { s.ctx (src / 8) (src % 8) with tenant := t } ∧
      (∀ o < 0x3F00, trayByte u (dst / 8) (16384 * (dst % 8) + o) = trayByte s (src / 8) (16384 * (src % 8) + o)) ∧
      u.f fSCH_MIG_TENANT = t ∧ u.f fSCH_MIG_FROM = src / 8 ∧ u.now = s.now + 2072 * s.cyc)

/-- R34, R36, R37, R288: at the end of a period the next one begins, before its first slot; with no digest under way the
changes of points that waited take effect. -/
def Clause.PlanBoundaries : Prop :=
  ∀ s : State, s.stopped = false → pmState s < 2 → -(2 ^ 32) < s.clk.corr → s.tu.setsec = none →
    Completes (exec .planBoundary s) (fun t => t.plan.slot = 0 ∧ t.plan.inslot = false ∧ s.plan.next ≤ t.plan.began ∧
      t.plan.beganM = t.now ∧ (s.fb fKS_PSTAT_BUSY = false → s.plan.waiting = none → t.ptcfg = [] ∧
        ∀ x, s.ptcfg = [x] → x.w6 = none → ((s.pt x.pt).owner ≤ 0x100 ∨ (s.pt x.pt).owner = 0x1FF) →
          (s.pt x.pt).ty ≤ 12 → (t.pt x.pt).dead = x.w5.getD (s.pt x.pt).dead ∧
          (t.pt x.pt).val = (s.pt x.pt).val ∧ ∀ n, n ≠ x.pt → t.pt n = s.pt n))

/-- Slots and spans, migrations, and the plan boundary. How a layout waits to form, which plan serves after a loss, where
a moved tenant goes home, and what a record or window that a boundary loads is checked for are the model's readings
(log entries 5, 82, 85, 87, 108 and 123). -/
def Obligations.PlanAndSlots : Prop :=
  Clause.SlotsAndSpans ∧ Clause.Migrations ∧ Clause.PlanBoundaries

-- The Frame Engine -------------------------------------------------------------------------------------------------------------------------------------

/-- R267, R269, R270, R271, R277: the arithmetic, compare and cursor operations of a lane, each in one cycle; a SEEK of
customer code to a target outside words 0x3800–0x3FFF abandons the routine. That the target that R277 names is the cursor
that SEEK moves to is the model's reading (DEDUCED, log entry 20). -/
def Obligations.LaneArithmetic : Prop :=
  ∀ (s : State) (l : Lane) (e : Bool) (dst src : Reg5) (imm : BitVec 16), FeReady s l e fePlain →
    let x := fun n => w32 (lreg s l e n)
    let m := imm.toNat % 32
    let sets := fun (i : Instr) (d : Nat) (v : Word) => LaneRuns s l e i (fun t =>
      LaneRegIs s t l e d v.toNat ∧ laneFlags t l e = laneFlags s l e ∧ FeNext s t l e 1 ∧ OnlyLanes s t)
    let flags := fun (i : Instr) (a b : Word) => LaneRuns s l e i (fun t =>
      LaneRegIs s t l e 0 0 ∧ laneFlags t l e = (a == b, (a - b).msb, decide (b.toNat ≤ a.toNat)) ∧ FeNext s t l e 1 ∧
      OnlyLanes s t)
    sets (.movi l e dst src imm) dst (imm.zeroExtend 32) ∧
    sets (.movhi l e dst src imm) dst ((imm.zeroExtend 32 <<< 16) ||| (x dst &&& 0xFFFF)) ∧
    sets (.feAddi l e dst src imm) dst (x src + imm.signExtend 32) ∧
    sets (.feAdd l e dst src imm) dst (x src + x m) ∧ sets (.feSub l e dst src imm) dst (x src - x m) ∧
    sets (.feAnd l e dst src imm) dst (x src &&& x m) ∧ sets (.feOr l e dst src imm) dst (x src ||| x m) ∧
    sets (.feXor l e dst src imm) dst (x src ^^^ x m) ∧
    sets (.feAndi l e dst src imm) dst (x src &&& imm.zeroExtend 32) ∧
    sets (.feShli l e dst src imm) dst (x src <<< m) ∧ sets (.shri l e dst src imm) dst (x src >>> m) ∧
    sets (.feNop l e dst src imm) 0 0 ∧
    sets (.skipF l e dst src imm) 24 (x 24 + imm.signExtend 32 + x src) ∧
    (let at_ := x src + imm.signExtend 32
     let out := customerWord (feThr s l e).pc = true ∧ customerWord at_.toNat = false
     (¬out → sets (.seekF l e dst src imm) 24 at_) ∧
     (out → LaneRuns s l e (.seekF l e dst src imm) (fun t => Abandoned s t l e 6))) ∧
    flags (.feCmp l e dst src imm) (x src) (x m) ∧ flags (.feCmpi l e dst src imm) (x src) (imm.signExtend 32)

/-- R267, R270, R271: GET and PEEK read 1 to 4 bytes of the frame in network order, 2 cycles later outside the window, and
an open value past the frame's end; any other number of bytes is illegal (DESIGN CHOICE, log entry 24); BERLEN decodes a
definite length of one to three octets, and any other form gives 0 and sets N. -/
def Clause.LaneFrameReads : Prop :=
  ∀ (s : State) (l : Lane) (e : Bool) (dst src : Reg5) (imm : BitVec 16), FeReady s l e fePlain →
    let th := feThr s l e
    let bs := feBytes s l e
    let n := imm.toNat % 8
    let cost := fun (o n : Nat) => if th.win ≤ o ∧ o + n ≤ th.win + 16 then 1 else 3
    let reads := fun (t : State) (v cur c : Nat) => FeNext s t l e c ∧
      ∀ m < 25, lreg t l e m = if m = dst.val ∧ m ≠ 0 then v else if m = 24 then cur % 2 ^ 32 else lreg s l e m
    let gets := fun (i : Instr) (o cur : Nat) (P : State → Prop) =>
      (1 ≤ n → n ≤ 4 → o + n ≤ bs.length → LaneRuns s l e i
        (fun t => reads t (beVal ((bs.drop o).take n)) cur (cost o n) ∧ OnlyLanes s t ∧ P t)) ∧
      (1 ≤ n → n ≤ 4 → bs.length < o + n → LaneRuns s l e i
        (fun t => (∃ v < 2 ^ (8 * n), reads t v cur (cost o n)) ∧ P t)) ∧
      (n = 0 ∨ 4 < n → LaneRuns s l e i (fun t => Abandoned s t l e 7))
    gets (.getF l e dst src imm) th.cur (th.cur + n) (fun t => (feThr t l e).win = th.cur + n) ∧
    gets (.peek l e dst src imm) (th.cur + imm.toNat / 16) th.cur (fun _ => True) ∧
    (let r := bs.drop th.cur
     let len := fun (v k : Nat) => LaneRuns s l e (.berlen l e dst src imm)
       (fun t => reads t v (th.cur + k) (cost th.cur k) ∧ (feThr t l e).n = false ∧ OnlyLanes s t)
     (∀ b x, r = b :: x → b.toNat < 0x80 → len b.toNat 1) ∧
     (∀ b x, r = 0x81 :: b :: x → len b.toNat 2) ∧
     (∀ b y x, r = 0x82 :: b :: y :: x → len (b.toNat * 256 + y.toNat) 3) ∧
     ((∀ b ∈ r.head?, 0x82 < b.toNat ∨ b.toNat = 0x80 ∨ (b = 0x81 ∧ r.length < 2) ∨ (b = 0x82 ∧ r.length < 3)) →
       LaneRuns s l e (.berlen l e dst src imm) (fun t => (∃ c, reads t 0 th.cur c) ∧ (feThr t l e).n = true ∧
         OnlyLanes s t)))

/-- R243, R247, R251–R255, R270, R360: CRCS and CRCR form the CRC of bytes from CUR, and CRCR stalls until it is done; LOOK
finds the lowest-numbered matching record and RREC reads its words; TAGCHK passes once the tag's outcome is there: its MAC,
of a length of its algorithm, verifies under a key of the named pair within that key's time; in a Burst SV frame or a
beacon it is HMAC-SHA256-128 over the bytes before the tag. What the MAC of a 62351-6 tag covers is the model's (log
entry 93). -/
def Clause.LaneEngines : Prop :=
  ∀ (s : State) (l : Lane) (e : Bool) (dst src : Reg5) (imm : BitVec 16), FeReady s l e feVendor →
    let th := feThr s l e
    let bs := feBytes s l e
    let n := lreg s l e src
    let plain := fun (t : State) => LaneRegIs s t l e 0 0 ∧ FeNext s t l e 1
    let stalled := fun (t : State) => LaneRegIs s t l e 0 0 ∧ (feThr t l e).pc = th.pc ∧ (feThr t l e).cyc = th.cyc + 1 ∧
      OnlyLanes s t
    let mine := e = true → (feThr s l false).run = false
    (th.cur + n ≤ bs.length → LaneRuns s l e (.crcs l e dst src imm) (fun t => plain t ∧ OnlyLanes s t ∧
      (feThr t l e).crc = some (th.cyc + 1 + cdiv n 8, w32 (crc32 ((bs.drop th.cur).take n))))) ∧
    (bs.length < th.cur + n → LaneRuns s l e (.crcs l e dst src imm) (fun t => plain t ∧
      ∃ v, (feThr t l e).crc = some (th.cyc + 1 + cdiv n 8, v))) ∧
    (∀ d v, th.crc = some (d, v) →
      (d ≤ th.cyc ∨ th.crcDone = true → LaneRuns s l e (.crcr l e dst src imm) (fun t =>
        LaneRegIs s t l e dst v.toNat ∧ FeNext s t l e 1 ∧ OnlyLanes s t)) ∧
      (th.cyc < d → th.crcDone = false → LaneRuns s l e (.crcr l e dst src imm) stalled) ∧
      (th.crcDone = false → mine → Completes (exec (.crcDone l) s) (fun t => (feThr t l e).crcDone = true ∧
        (feThr t l e).cyc = max th.cyc d ∧ (feThr t l e).pc = th.pc ∧ OnlyLanes s t))) ∧
    (th.crc = none → LaneRuns s l e (.crcr l e dst src imm) stalled) ∧
    (imm.toNat % 4 < 3 → let kind := lookKind (imm.toNat % 4)
      let r := (if e then th.build.map (·.f) else (headFrame s l).map (·.f)).bind fun f =>
        findRec s kind fun ws => recMatch kind ws n f l
      LaneRuns s l e (.look l e dst src imm) (fun t =>
        LaneRegIs s t l e dst (r.getD 0xFFFFFFFF % 2 ^ 32) ∧ (feThr t l e).look = some (th.cyc + 4, r) ∧
        FeNext s t l e 4 ∧ OnlyLanes s t)) ∧
    (imm.toNat % 4 = 3 → LaneRuns s l e (.look l e dst src imm) (fun t => Abandoned s t l e 7)) ∧
    (∀ d r, th.look = some (d, r) → th.lookDone = false → mine → Completes (exec (.lookDone l) s) (fun t =>
      (feThr t l e).lookDone = true ∧ (feThr t l e).cyc = max th.cyc d ∧ (feThr t l e).pc = th.pc ∧ OnlyLanes s t)) ∧
    (∀ d r, th.look = some (d, some r) → LaneRuns s l e (.rrec l e dst src imm) (fun t =>
      LaneRegIs s t l e dst (wd (s.recw (lookKind th.lookTab) r) (imm.toNat % 16)) ∧ FeNext s t l e 1 ∧ OnlyLanes s t)) ∧
    ((∀ d r, th.look ≠ some (d, some r)) → LaneRuns s l e (.rrec l e dst src imm) (fun t =>
      FeNext s t l e 1 ∧ ∃ v, LaneRegIs s t l e dst v)) ∧
    (let ready := e = false ∧ ∃ q, headFrame s l = some q ∧ q.tag.isSome = true
     (ready → LaneRuns s l e (.tagchk l e dst src imm) (fun t => plain t ∧ OnlyLanes s t)) ∧
     (¬ready → LaneRuns s l e (.tagchk l e dst src imm) stalled)) ∧
    (∀ (q : QFrame) (n : Fin 64), (s.port l).ing[n.val]? = some q →
      let judged := fun (P : Bool → Prop) => Completes (exec (.tagOutcome l n) s) (fun t => t.lanes = s.lanes ∧
        ∃ ok, (t.port l).ing = (s.port l).ing.set n { q with tag := some ok } ∧ P ok)
      let accepted := fun (pair : Nat) (x : Nat × List Byte) => (s.key pair).cur = some x ∨
        ((s.key pair).nxt = some x ∧ (s.key pair).chg ≤ s.tai + 2 * sec) ∨
        ((s.key pair).prev = some x ∧ s.tai ≤ (s.key pair).prevTo)
      (tagPresent q.f = false → judged (· = false)) ∧
      (∀ g, q.f.tag = some g →
        let verifies := fun (x : Nat × List Byte) => g.mac.length ∈ (if x.1 = 0 then [10, 16, 32] else [8, 16]) ∧
          g.mac = (macOf x (tagMsg q.f)).take g.mac.length
        judged fun ok => ok = true ↔ s.ks.wipe = none ∧ ∃ x, accepted (g.keyId.toNat % 2048) x ∧ verifies x) ∧
      (q.f.tag = none → tagPresent q.f = true →
        let bs := payload q.f
        let o := if netField bs 0 1 = 2 then 38 else bsvTagAt bs
        let mac := (bs.drop (o + 4)).take 16
        judged fun ok => ok = true ↔ s.ks.wipe = none ∧ ∃ x, accepted (netField bs o 4 % 2048) x ∧ x.1 = 0 ∧
          mac.length = 16 ∧ mac = (hmac x.2 (bs.take o)).take 16))

/-- What lanes read of a frame, and their engines. What the MAC of a 62351-6 tag covers, how LOOK names a Burst SV record, that
LOOK's fourth table is illegal, and what a read past the end of a frame gives are the model's (log entries 24, 28, 29 and
93). -/
def Obligations.LaneReadsAndEngines : Prop :=
  Clause.LaneFrameReads ∧ Clause.LaneEngines

/-- R74, R270, R271, R276, R277, R287, R292: PTV, PTQ and PTS stage a point write that PTWR sends to the sheet: vendor code
to points of its record, customer code to points of its tenant; PLW and PLH start a write to the record's tenant's Plate
space, which lands at its acknowledgement, or counts RINGDROP, or finds poison and abandons the routine; the judgement
comes back to the lane. What x29 and x30 hold without a record, that a Plate write lands at its acknowledgement, and that
a vendor write outside the record is dropped without a flag are the model's readings (DEDUCED, log entries 32 and 125). -/
def Obligations.LaneOutputs : Prop :=
  ∀ (s : State) (l : Lane) (e : Bool) (dst src : Reg5) (imm : BitVec 16),
    let th := feThr s l e
    let x := fun n => lreg s l e n
    let p := x dst % 131072
    let stamp := th.st.getD (feStamp s l e)
    (FeReady s l e fePlain →
      LaneRuns s l e (.ptv l e dst src imm) (fun t => FeNext s t l e 1 ∧ OnlyLanes s t ∧
        (feThr t l e).sv = some (BitVec.ofNat 64
          (x src + if imm.toNat % 2 = 1 then 2 ^ 32 * x ((src.val + 1) % 32) else 0))) ∧
      LaneRuns s l e (.ptq l e dst src imm) (fun t => FeNext s t l e 1 ∧ OnlyLanes s t ∧
        (feThr t l e).sq = some (x src % 65536)) ∧
      LaneRuns s l e (.pts l e dst src imm) (fun t => FeNext s t l e 1 ∧ OnlyLanes s t ∧
        (feThr t l e).st = some (feStamp s l e))) ∧
    (FeReady s l e fePost →
      let sent := LaneRuns s l e (.ptwr l e dst src imm) (fun t => FeNext s t l e 1 ∧
        (feThr t l e).pack = false ∧ (∃ w, t.ptq = s.ptq ++ [w] ∧ w.src = .fe (if l.val < 6 then 0 else 1) ∧ w.pt = p ∧
          w.val = th.sv ∧ w.q = th.sq ∧ w.ts = some stamp ∧ w.back = .lane l e (th.ptN + 1)) ∧ t.points = s.points)
      let vendor := customerWord th.pc = false ∨ th.cust = none
      (vendor → (recPoints s th).contains p = true → sent) ∧
      (vendor → (recPoints s th).contains p = false →
        LaneRuns s l e (.ptwr l e dst src imm) (fun t => t.ptq = s.ptq ∧ FeNext s t l e 1 ∧ OnlyLanes s t)) ∧
      (customerWord th.pc = true → ∀ o, th.cust = some o →
        ((s.pt p).owner = o → sent) ∧
        ((s.pt p).owner ≠ o → LaneRuns s l e (.ptwr l e dst src imm) (fun t => t.ptq = s.ptq ∧ FeNext s t l e 1 ∧
          (feThr t l e).pack = true ∧ (feThr t l e).ptcol = false ∧ Flagged t kFE_USTAT_PTREF)))) ∧
    (FeReady s l e feVendor →
      let plate := fun (i : Instr) (bs : List Byte) rc => LaneRuns s l e i (fun t => FeNext s t l e 1 ∧ OnlyLanes s t ∧
        (feThr t l e).acks = th.acks ++ [⟨th.cyc + (if s.clk.slow then 19 else 15), x 30 % 256, x dst, bs, rc⟩])
      (∀ d r, th.look = some (d, some r) → let rc := some (lookKind th.lookTab, r)
        plate (.plw l e dst src imm) (leBytes 4 (x src)) rc ∧ plate (.plh l e dst src imm) (leBytes 2 (x src)) rc) ∧
      ((∀ d r, th.look ≠ some (d, some r)) → plate (.plw l e dst src imm) [] none ∧
        plate (.plh l e dst src imm) [] none)) ∧
    (th.run = true → (e = true → (feThr s l false).run = false) →
      (∀ d, th.ptwr = some (d + 1) → Completes (exec (.ptwrJudged l) s) (fun t => (feThr t l e).pack = true ∧
        (feThr t l e).ptwr = none ∧ (feThr t l e).cyc = max th.cyc th.ptDue ∧ t.now = max s.now (d + 1))) ∧
      (∀ a r, th.acks = a :: r → (∀ b ∈ r, a.due < b.due) →
        let u := setFeThr s l e { th with cyc := max th.cyc a.due, acks := r }
        let w := feWrite (sampleDue u u.nowCyc) a.ten a.at_ a.bs
        let acked := fun P => Completes (exec (.plateWriteAck l) s) (fun t => t.plate = w.2.plate ∧ t.poison = w.2.poison ∧ P t)
        (w.1 ≠ 3 → acked (fun t => (feThr t l e).acks = r ∧ (feThr t l e).cyc = max th.cyc a.due ∧
          (w.1 ≠ 0 → Flagged t kFE_LSTAT_RINGDROP l))) ∧
        (w.1 = 3 → r = [] → acked (fun t => (feThr t l e).run = false ∧ (e = false → RoutineOver s t l) ∧
          t.f fFE_LABORT_CAUSE l = 2 ∧ Flagged t kFE_USTAT_ABORT))))

/-- R269, R271–R273, R275, R276: a branch, call or return goes where it says in two cycles; WAIT passes once its condition
holds; COMMIT may be given once, and the commit point of an egress routine is its ESEND; END, DROP, HOST and TSFWD end the
routine; at its bound a routine is abandoned. -/
def Clause.LaneFlow : Prop :=
  ∀ (s : State) (l : Lane) (e : Bool) (dst src : Reg5) (imm : BitVec 16) (cond : BitVec 5),
    let th := feThr s l e
    let w := imm.toNat % 16384
    let holds := feCond s l e th cond.toNat
    let at_ := fun (t : State) (pc n : Nat) => (feThr t l e).pc = pc ∧ (feThr t l e).cyc = th.cyc + n ∧
      LaneRegIs s t l e 0 0 ∧ laneFlags t l e = laneFlags s l e ∧ OnlyLanes s t
    let quits := fun (t : State) => (feThr t l e).run = false ∧ (e = false → RoutineOver s t l) ∧
      (e = true → (t.port l).ing = (s.port l).ing)
    (FeReady s l e fePlain →
      (holds = false ∨ badTarget th w = false → LaneRuns s l e (.br l e cond imm)
        (fun t => if holds then at_ t w 2 else at_ t ((th.pc + 1) % 16384) 1)) ∧
      (badTarget th w = false → th.stk.length < 4 → LaneRuns s l e (.callF l e dst src imm) (fun t => at_ t w 2 ∧
        (feThr t l e).stk = (th.pc + 1) % 16384 :: th.stk)) ∧
      LaneRuns s l e (.feWait l e cond imm) (fun t => if holds then at_ t ((th.pc + 1) % 16384) 1 else at_ t th.pc 1) ∧
      (∀ r rs, th.stk = r :: rs → r < 16384 → customerWord th.pc = false ∨ customerWord r = true ∨ th.hookRet = some r →
        LaneRuns s l e (.retF l e dst src imm) (fun t => at_ t r 2 ∧ (feThr t l e).stk = rs)) ∧
      (th.commit = false → LaneRuns s l e (.commit l e dst src imm) (fun t => at_ t ((th.pc + 1) % 16384) 1 ∧
        (feThr t l e).commit = !e)) ∧
      (e = true ∨ headFrame s l ≠ none → LaneRuns s l e (.dropF l e dst src imm) quits ∧
        LaneRuns s l e (.hostF l e dst src imm) quits)) ∧
    (FeReady s l e fePost → LaneRuns s l e (.feEnd l e dst src imm) quits) ∧
    (FeReady s l e feVendor → e = true ∨ headFrame s l ≠ none → LaneRuns s l e (.tsfwd l e dst src imm) quits) ∧
    (th.run = true → lanesRun s l = true → (∀ w ∈ th.acks, th.bound ≤ w.due ∧ 0 < w.due) →
      Completes (exec (.wdog l e) s) (fun t => (feThr t l e).run = false ∧ Flagged t kFE_USTAT_ABORT ∧
      t.f fFE_LABORT_CAUSE l = 4 ∧ t.f fFE_LABORT_PC l = th.pc % 2 ^ fFE_LABORT_PC.w ∧
      t.f fFE_LABORT_LATE l = b2n th.commit ∧ Counted s t fFE_LABORT_CNT_CNT l))

/-- R268, R271, R275–R277, R281: an operation outside its region, its thread or its side of COMMIT, a call too deep, a
return with no address, a target outside the customer region, an uncorrectable or undefined word, a register of bad
parity and the bound each abandon the routine with their cause. -/
def Clause.LaneAbandonments : Prop :=
  ∀ (s : State) (l : Lane) (e : Bool) (dst src : Reg5) (imm : BitVec 16) (cond : BitVec 5),
    let th := feThr s l e
    let w := imm.toNat % 16384
    let ends := fun (i : Instr) (cause : Nat) => LaneRuns s l e i (fun t => Abandoned s t l e cause)
    (FeReady s l e fePlain →
      (customerWord th.pc = true → ends (.look l e dst src imm) 6 ∧ ends (.rrec l e dst src imm) 6 ∧
        ends (.tagchk l e dst src imm) 6 ∧ ends (.plw l e dst src imm) 6 ∧ ends (.plh l e dst src imm) 6 ∧
        ends (.postF l e dst src imm) 6 ∧ ends (.ebeg l e dst src imm) 6 ∧ ends (.eput l e dst src imm) 6 ∧
        ends (.esend l e dst src imm) 6 ∧ ends (.tsfwd l e dst src imm) 6) ∧
      (customerWord th.pc = false → e = false → ends (.ebeg l e dst src imm) 7 ∧ ends (.eput l e dst src imm) 7 ∧
        ends (.esend l e dst src imm) 7) ∧
      (th.commit = false → ends (.ptwr l e dst src imm) 5 ∧ ends (.cnt l e dst src imm) 5 ∧
        ends (.feEnd l e dst src imm) 5 ∧ (customerWord th.pc = false → ends (.postF l e dst src imm) 5)) ∧
      (th.commit = true → ends (.commit l e dst src imm) 7) ∧
      (4 ≤ th.stk.length → ends (.callF l e dst src imm) 7) ∧
      (th.stk = [] → ends (.retF l e dst src imm) 7) ∧
      (badTarget th w = true → (th.stk.length < 4 → ends (.callF l e dst src imm) 6) ∧
        (feCond s l e th cond.toNat = true → ends (.br l e cond imm) 6)) ∧
      (∀ r rs, th.stk = r :: rs → customerWord th.pc = true → customerWord r = false → th.hookRet ≠ some r →
        ends (.retF l e dst src imm) 6)) ∧
    (th.run = true → lanesRun s l = true → (∀ x ∈ th.acks, th.cyc < x.due) →
      (th.bound ≤ th.cyc → ends (.feNop l e dst src imm) 4) ∧
      (th.cyc < th.bound → th.perr = true → ends (.feNop l e dst src imm) 3) ∧
      (th.cyc < th.bound → th.perr = false → 2 ≤ tget 0 s.storeEcc (storeWord th) →
        ends (.feNop l e dst src imm) 2) ∧
      (th.cyc < th.bound → th.perr = false → tget 0 s.storeEcc (storeWord th) = 0 → wordBad s th = true →
        ends (.feNop l e dst src imm) 7))

/-- The control flow of lanes, and what abandons a routine. What an abandoned routine leaves, what an egress routine that
ends without ESEND does, and that COMMIT has no effect on an egress thread are the model's readings (DEDUCED, log entries
20, 27 and 122). -/
def Obligations.LaneControl : Prop :=
  Clause.LaneFlow ∧ Clause.LaneAbandonments

/-- R19, R256, R266, R270, R272, R274: CNT counts the lane's counters and POST posts its record's activation; a routine
starts on the head frame, or on the next frame to build; EBEG and EPUT write that frame's bytes and ESEND queues it. -/
def Clause.LaneRoutines : Prop :=
  ∀ (s : State) (l : Lane) (dst src : Reg5) (imm : BitVec 16),
    (FeReady s l false fePost →
      let counts := fun (n : Nat) (f : Field) (k : Flag) => imm.toNat % 4 = n →
        LaneRuns s l false (.cnt l false dst src imm) (fun t => Counted s t f l ∧ Flagged t k l ∧ FeNext s t l false 1)
      counts 0 fFE_AUTHFAIL_CNT_CNT kFE_LSTAT_AUTHFAIL ∧ counts 1 fFE_NOMATCH_CNT_CNT kFE_LSTAT_NOMATCH ∧
      counts 2 fFE_RINGDROP_CNT_CNT kFE_LSTAT_RINGDROP ∧ counts 3 fFE_MALFORM_CNT_CNT kFE_LSTAT_MALFORM) ∧
    (FeReady s l false fePostVendor → ∀ d r, (feThr s l false).look = some (d, some r) → (feThr s l false).lookTab = 0 →
      bit (wd (s.recw 1 r) 0) 30 = true → LaneRuns s l false (.postF l false dst src imm) (fun t =>
        FeNext s t l false 1 ∧ ∃ a, t.postq = s.postq ++ [a] ∧ a.tenant = bits (wd (s.recw 1 r) 0) 16 8 ∧ a.kind = 1 ∧
          a.idx = r ∧ a.trig = feStamp s l ∧ a.budget = wd (s.recw 1 r) 10)) ∧
    (∀ q, headFrame s l = some q → (s.lane l).ing.run = false → lanesRun s l = true →
      let r := routineFor s false q.f.etype.toNat
      let starts := fun P => Completes (exec (.ingressRoutineStart l) s) (fun t => (feThr t l false).run = true ∧
        (feThr t l false).cyc = 4 ∧ (feThr t l false).commit = false ∧ (∀ n < 25, lreg t l false n = 0) ∧
        t.now = max s.now (max q.ready (s.lane l).free) ∧ t.ports = s.ports ∧ P (feThr t l false))
      (hookEntry s false 1 = none → starts (fun th => th.pc = r.entry ∧ th.bound = effBound s r ∧ th.stk = [])) ∧
      (∀ h, hookEntry s false 1 = some h → starts (fun th => th.pc = h.entry ∧ th.bound = effBound s h + effBound s r ∧
        th.stk = [r.entry] ∧ th.cust = some h.tenant))) ∧
    (∀ b rest, nextBuild (s.lane l).build = some (b, rest) → b.cb = none → (s.lane l).eg.run = false →
      lanesRun s l = true → Completes (exec (.egressRoutineStart l) s) (fun t => (feThr t l true).run = true ∧
        (feThr t l true).build = some b ∧ (t.lane l).build = rest ∧ (t.lane l).ing = (s.lane l).ing ∧ OnlyLanes s t)) ∧
    (FeReady s l true feEgress →
      LaneRuns s l true (.ebeg l true dst src imm) (fun t => FeNext s t l true 1 ∧ OnlyLanes s t ∧
        (feThr t l true).efrm = some []) ∧
      (∀ bs, (feThr s l true).efrm = some bs → let n := imm.toNat % 8
        1 ≤ n → n ≤ 4 → LaneRuns s l true (.eput l true dst src imm) (fun t => FeNext s t l true 1 ∧ OnlyLanes s t ∧
          (feThr t l true).efrm = some (bs ++ beBytes n (lreg s l true src)))) ∧
      (∀ b bs, (feThr s l true).build = some b → (feThr s l true).efrm = some bs → classDepth s l b.cls < 32 →
        linkUp s l = true → s.fb fEP_EG_DEC l = false →
        let f := { b.f with bytes := bs }
        let f := match (feThr s l true).ekey with | some (pair, k) => { f with tag := some (makeTag pair k f) } | none => f
        LaneRuns s l true (.esend l true dst src imm) (fun t =>
          FeNext s t l true 1 ∧ (feThr t l true).build = none ∧ (feThr t l true).commit = true ∧
          (∃ n, (t.port l).egq = (s.port l).egq ++ [{ b with f := { f with len := builtLen f }, rdy := n }]) ∧
          (t.port l).ing = (s.port l).ing)))

/-- R278–R280: GO starts the check of the staged image, and is refused while one runs; an image that passes waits for the
boundary, and one that fails changes no store; RUN needs a vendor image. -/
def Clause.MicrocodeLoading : Prop :=
  ∀ (s : State) (v : Word),
    (bit v.toNat 31 = false → Completes (exec (.feLoadGo v) s) (Same s)) ∧
    (bit v.toNat 31 = true → s.f fFE_LOAD_STATE = 0 → Completes (exec (.feLoadGo v) s) (fun t =>
      t.f fFE_LOAD_STATE = 1 ∧ t.verify = some s.now ∧ t.store = s.store ∧ t.newImg = s.newImg)) ∧
    (bit v.toNat 31 = true → s.f fFE_LOAD_STATE ≠ 0 → Completes (exec (.feLoadGo v) s) (fun t =>
      t.f fFE_LOAD_REASON = 8 ∧ Flagged t kFE_USTAT_LOADREF ∧ t.verify = s.verify ∧ t.store = s.store)) ∧
    (∀ n, s.verify = some n →
      let img := stagedImage s
      let r := imageReason (s.setF fFE_LOAD_STATE 0) img
      (r = 0 → Completes (exec .verificationEnd s) (fun t => Flagged t kFE_USTAT_LOADOK ∧ t.verify = none ∧
        t.store = s.store ∧ (imgVal img 5 1, img) ∈ t.newImg ∧
        t.f fFE_LOAD_STATE = if imgVal img 5 1 = 1 then 2 else 0)) ∧
      (r ≠ 0 → Completes (exec .verificationEnd s) (fun t => Flagged t kFE_USTAT_LOADREF ∧ t.verify = none ∧
        t.f fFE_LOAD_STATE = 0 ∧ t.store = s.store ∧ t.newImg = s.newImg))) ∧
    (s.fb fFE_CTL_LOCK = false → Completes (exec (.feCtlRun v) s) (fun t =>
      t.fb fFE_CTL_RUN = (bit v.toNat 0 && (s.fb fFE_CTL_RUN || (s.f fFE_UCODE_VER_VVER != 0 && !s.bist.crit))) ∧
      t.fb fFE_CTL_LOCK = bit v.toNat 31)) ∧
    (s.fb fFE_CTL_LOCK = true → Completes (exec (.feCtlRun v) s) (Same s))

/-- Lane routines, and the loading of microcode. The entry and the bound of a routine that no image describes, when a
vendor image takes effect, and that frames wait in the build list of their lane are the model's readings (log entries
33, 51 and 122). -/
def Obligations.RoutinesAndMicrocode : Prop :=
  Clause.LaneRoutines ∧ Clause.MicrocodeLoading

-- Frames ----------------------------------------------------------------------------------------------------------------------------------------------------

/-- R23, R229, R233, R237, R239, R307: a good frame on a plain port enters its ingress queue with station time at its last
bit; a bad one and a PAUSE frame are only counted; the second copy of a redundant frame is dropped, but where both
last bits arrive in one cycle, the copy on the lower-numbered port is kept; after FORGET its entry goes. When the
settings of a pair take effect, and that one cycle of a port group is 1 ns, are the model's readings (log entries 50
and 119). -/
def Obligations.FrameReception : Prop :=
  ∀ (s : State) (p : Port) (f : Frame), linkUp s p = true → portEn s p = true → portPower s p = true →
    let q := p.val / 2
    let good := f.fcsOk = true ∧ 64 ≤ f.len ∧ f.len ≤ (if pairRed s q = 0 then 1522 else 1528)
    (¬good → Completes (exec (.frameReceive p f) s) (fun t => t.ports = s.ports ∧ Counted s t fEP_RXERR_CNT_CNT p)) ∧
    (good → f.body = .pause → Completes (exec (.frameReceive p f) s) (fun t => t.ports = s.ports ∧
      Counted s t fEP_RXCTL_CNT_CNT p)) ∧
    (good → f.body ≠ .pause → f.body ≠ .supervision → pairRed s q = 0 → s.fb fFE_CTL_RUN = true → s.stopped = false →
      (s.port p).ing.length < 64 → ((s.port p).ing.map fun x => ingBytes x.f).sum + ingBytes f ≤ 32768 →
      Completes (exec (.frameReceive p f) s) (fun t => Counted s t fEP_RXOK_CNT_CNT p ∧ (t.port p).ing =
        (s.port p).ing ++ [⟨f, replicaTime s (portIsl p), none, s.now + modeIngress (portMode s p) * nsU, s.now⟩])) ∧
    (∀ n e, good → f.body ≠ .pause → pairRed s q ≠ 0 → f.red = some n → e ∈ (s.pair q).dup → e.1 = f.smac → e.2.1 = n →
      (s.now < e.2.2.1 + forgetU s q →
        (∀ y ∈ (s.pair q).dup, y.1 = f.smac → y.2.1 = n → y.2.2.1 / nsU = s.now / nsU → y.2.2.2 ≤ p) →
        Completes (exec (.frameReceive p f) s) (fun t => t.ports = s.ports ∧ t.lanes = s.lanes)) ∧
      ((s.pair q).dup = [e] → e.2.2.1 / nsU = s.now / nsU → p.val < e.2.2.2 → s.fb fFE_CTL_RUN = true → s.stopped = false →
        (s.port p).ing.length < 64 → ((s.port p).ing.map fun x => ingBytes x.f).sum + ingBytes f ≤ 32768 →
        Completes (exec (.frameReceive p f) s) (fun t => (t.port p).ing = (s.port p).ing ++
            [⟨f, replicaTime s (portIsl p), none, s.now + modeIngress (portMode s p) * nsU, s.now⟩] ∧
          (t.port e.2.2.2).ing = (s.port e.2.2.2).ing.filter fun x => !(dupIs x.f e && x.arr == e.2.2.1)))) ∧
    (∀ (r : Fin 6) e, (s.pair r).dup = [e] → Completes (exec (.duplicateForget r e.1 e.2.1) s) (fun t =>
      (t.pair r).dup = [] ∧ t.now = max s.now (e.2.2.1 + forgetU s r)))

/-- R243–R245, R253–R255: a sampled-value frame that a record takes writes its samples to the record's ring, its status
point, and its activation where ACT is 1; so does a Burst SV block. -/
def Clause.SampledValues : Prop :=
  ∀ (s : State) (l : Lane) (q : QFrame) (i : Nat), FrameTurn s l q →
    let took := fun (kind trigKind : Nat) (ws : List Word) (w : Nat × State) (pt : Nat) (t : State) =>
      RoutineOver s t l ∧ t.plate = w.2.plate ∧ (∃ x, t.ptq = s.ptq ++ [x] ∧ x.src = fePort l ∧ x.pt = pt) ∧
      (t.rst kind i).seen = true ∧ (bit (wd ws 0) 30 = true → ∃ a, t.postq = s.postq ++ [a] ∧
        a.tenant = bits (wd ws 0) 16 8 ∧ a.kind = trigKind ∧ a.idx = i ∧ a.trig = q.stamp)
    (∀ a sim as, q.f.body = .sv a sim as false → as ≠ [] → as.length ≤ 8 →
      findRec s 1 (fun ws => svMatch ws a.toNat as q.f l) = some i →
      let ws := s.recw 1 i
      bit (wd ws 0) 29 = sim →
      (∀ x ∈ as, x.chans.length = bits (wd ws 3) 24 5 ∧ x.smpCnt < bits (wd ws 5) 16 16) →
      let due := frameStart s l q + (60 + as.length * (12 + 3 * max (svSelCount s l q a.toNat as) 8) + slowNs s 5) * nsU
      tagPass (bits (wd ws 0) 27 2) (bits (wd ws 7) 21 11) (tagKeyId q.f) q = some true →
      let w := ringWrites (s.advanceTo due) (bits (wd ws 0) 16 8) (as.flatMap (svWrites ws))
      w.1 = 0 → Completes (exec (.svFrame l) s) (took 1 1 ws w (bits (wd ws 7) 0 17))) ∧
    (∀ b, q.f.etype = 0x88B5 → let bs := payload q.f
      netField bs 0 1 = 1 → netField bs 1 1 = 1 → netField bs 3 1 = 1 → bsvBlocks bs 1 12 = ([b], true) →
      findRec s 4 (fun ws => bsvMatch ws q.f.tags.length (netField bs 4 2) (netField bs 8 4) (netField b 0 1) l) = some i →
      let ws := s.recw 4 i
      let n := netField b 2 2
      bit (wd ws 0) 29 = bit (netField bs 2 1) 0 →
      netField b (20 + 2 * n) 4 = crc32 (b.take (20 + 2 * n)) →
      let due := frameStart s l q + (40 + (12 + netField bs 14 2 / 4) + slowNs s 5) * nsU
      tagPass (bits (wd ws 0) 27 2) (bits (wd ws 4) 21 11) (bsvKeyId bs) q = some true →
      let w := ringWrites (s.advanceTo due) (bits (wd ws 0) 16 8) ((List.range n).map fun j =>
        (bits (wd ws 3) 0 24 + 2 * ((netField b 4 4 + j) % (wd ws 4 % 65536)), leBytes 2 (netField b (20 + 2 * j) 2)))
      w.1 = 0 → Completes (exec (.burstSvFrame l) s) (took 4 2 ws w (bits (wd ws 5) 0 17)))

/-- R247, R248, R301: a GOOSE frame with a new stNum writes its members' points, merged and stamped with the frame's time,
and restarts timeAllowedtoLive; one with the last stNum only restarts it; at its end, where no frame of the stream is
complete by then (R261), every point of the dataset becomes invalid with oldData. -/
def Clause.GooseSubscriptions : Prop :=
  ∀ (s : State) (l : Lane) (q : QFrame) (a : BitVec 16) (g : GooseBody) (i : Fin 4096),
    (FrameTurn s l q → q.f.body = .goose a g →
      findRec s 2 (fun ws => recMatch 2 ws a.toNat q.f l && g.refCrc.toNat == wd ws 4 && g.dsCrc.toNat == wd ws 5 &&
        g.confRev.toNat == wd ws 6) = some i.val →
      let ws := s.recw 2 i
      let due := frameStart s l q + (48 + 5 * g.members.length + slowNs s 4) * nsU
      tagPass (bits (wd ws 0) 27 2) (bits (wd ws 7) 21 11) (tagKeyId q.f) q = some true →
      g.unsup = false → g.members ≠ [] → g.members.length ≤ 64 → bit (wd ws 0) 29 = g.sim →
      g.ndsCom = false →
      let live := fun (t : State) => RoutineOver s t l ∧ t.now = max s.now due ∧ (t.rst 2 i).tal = some (t.now + g.talMs * 1000000 * nsU) ∧
        (t.rst 2 i).seen = true ∧ (t.rst 2 i).last = g.stNum.toNat ∧ (t.rst 2 i).lastSq = g.sqNum.toNat
      ((s.rst 2 i).seen = true → (s.rst 2 i).last = g.stNum.toNat →
        Completes (exec (.gooseFrame l) s) (fun t => live t ∧ t.ptq = s.ptq)) ∧
      (∀ xs, ¬((s.rst 2 i).seen = true ∧ (s.rst 2 i).last = g.stNum.toNat) →
        membersTake s (dsMembers s (bits (wd ws 7) 0 13)) g.members = some xs →
        Completes (exec (.gooseFrame l) s) (fun t => live t ∧
          t.ptq = s.ptq ++ (mergeMembers xs).map fun (p, v, r) => ⟨fePort l, p, v.map (BitVec.ofNat 64), r, some q.stamp,
            none, some (wd ws 8), .none, 0, none, 0, some q.arr⟩))) ∧
    (∀ d, (s.rst 2 i).tal = some d → gooseDue s i d = false → Completes (exec (.talExpiry i) s) (fun t => t.now = max s.now d ∧
      (t.rst 2 i).tal = none ∧ ∀ e ∈ dsMembers s (bits (wd (s.recw 2 i) 7) 0 13), ∃ w ∈ t.ptq, w.pt = bits e 0 17 ∧
        w.val = none ∧ w.q = some 0x81))

/-- Sampled values and GOOSE subscriptions. Which frames are malformed, dropped or unsupported, what the MAC of a tag covers,
and that a whole-frame routine takes effect at its end are the model's readings (log entries 56, 93 and 106). -/
def Obligations.Subscriptions : Prop :=
  Clause.SampledValues ∧ Clause.GooseSubscriptions

/-- R309, R360, R361: a tagged beacon of an expected device sets its entry MATCH, or MISMATCH where its root differs; an
entry that hears nothing for MISS seconds is SILENT; a PTP frame reaches the time unit with the stamp of its first bit
after the start-of-frame delimiter (R307). That PTP frames arrive decoded and what the MAC of a tag covers are the model's
choices, and the comparison of masters is taken from IEEE 1588 (PRESUMED, log entries 13, 37 and 93). -/
def Obligations.BeaconsAndPtp : Prop :=
  ∀ (s : State) (l : Lane) (q : QFrame) (e : Fin 64),
    (FrameTurn s l q →
      (∀ m, q.f.body = .ptp m → m.kind ≠ .management → Completes (exec (.ptpEventFrame l) s) (fun t =>
        RoutineOver s t l ∧ t.tu = (ptpReceive (s.advanceTo (frameStart s l q + 24 * nsU)) l
          (q.stamp - q.f.len * 8000 / modeRate (portMode s l)) m).tu)) ∧
      (let bs := payload q.f
       let named := fun x => bit (expWord s x 4) 31 && bit (expWord s x 4) (16 + l) &&
         expWord s x 0 + 2 ^ 32 * expWord s x 1 == netField bs 4 8
       q.f.etype = 0x88B5 → netField bs 0 1 = 2 → netField bs 1 1 = 1 → q.f.dmac = 0x034E56000002 →
       netField bs 4 8 ≠ devIdNat →
       tagPass 1 (netField bs 38 4 % 2048) (netField bs 38 4) q = some true →
       s.fb fKS_CTL_CHK = true → (List.range 64).find? named = some e.val →
       Completes (exec (.proofBeacon l) s) (fun t => RoutineOver s t l ∧
         (expWord s e 2 = netField bs 12 4 ∧ expWord s e 3 = netField bs 16 4 → expState t e = 1) ∧
         (¬(expWord s e 2 = netField bs 12 4 ∧ expWord s e 3 = netField bs 16 4) → expState t e = 2 ∧
           (expState s e ≠ 2 → Flagged t kKS_STAT_MISMATCH))))) ∧
    (tuOn s = true → s.fb fKS_CTL_CHK = true → bit (expWord s e 4) 31 = true → expWord s e 4 % 256 ≠ 0 →
      expState s e ≠ 3 → Completes (exec (.silent e) s) (fun t => expState t e = 3 ∧ Flagged t kKS_STAT_SILENT ∧
        t.now = max s.now (tget 0 s.ks.heard e + expWord s e 4 % 256 * sec * nsU)))

/-- R51, R249, R250, R261, R334: an event publication, once it has crossed to egress, counts stNum, starts sqNum at 0 and
the ladder at T1, capped at T0; a request whose members are as last sent sends nothing; a retransmission, where no
event falls due with it, counts sqNum and doubles the interval up to T0. How stNum and sqNum wrap, and that the built
frame waits in the build list of its lane, are the model's readings (DEDUCED, log entries 53 and 122). -/
def Obligations.Publications : Prop :=
  ∀ (s : State) (cb : Fin 1024), standby s = false → s.stopped = false → fabricOn s = true →
    bit (wd (s.recw 3 cb) 0) 31 = true →
    let ws := s.recw 3 cb
    let x := s.pub cb
    let queued := fun (t : State) (p : Nat) => ∃ f, (t.lane p).build = (s.lane p).build ++ [f] ∧ f.cb = some cb.val
    (∀ r rs, s.pubq = r :: rs → r.cb = cb.val → s.ptq = [] → r.takeover = false → s.fb fUB_CTL_EN = false →
      let u := s.advanceTo (pushedAt s r)
      let ms := (pubMembers u ws r.fallback).2
      let t1 := min (bits (wd ws 5) 0 16) (bits (wd ws 5) 16 16 * 1000)
      (∀ old, x.last = some old → maskTimes (pubMembers u ws r.fallback).1 old ≠ maskTimes (pubMembers u ws r.fallback).1 ms) →
      Completes (exec .publicationRequest s) (fun t => t.pubq = rs ∧ (t.pub cb).st = wrap1 x.st ∧ (t.pub cb).sq = 0 ∧
        (t.pub cb).last = some ms ∧ (t.pub cb).iv = t1 ∧ (t.pub cb).due = some (u.now + t1 * 1000 * nsU) ∧
        ∀ p < 12, bit (wd ws 2) (16 + p) = true → queued t p)) ∧
    (∀ r rs ms, s.pubq = r :: rs → r.cb = cb.val → s.ptq = [] → r.takeover = false → x.last = some ms →
      ms = (pubMembers (s.advanceTo (pushedAt s r)) ws r.fallback).2 →
      Completes (exec .publicationRequest s) (fun t => t.pubq = rs ∧ t.lanes = s.lanes ∧ t.pub cb = x)) ∧
    (∀ d ms, x.due = some d → x.last = some ms → eventDue s cb d = false → Completes (exec (.retransmission cb) s) (fun t =>
      t.now = max s.now d ∧ (t.pub cb).st = x.st ∧ (t.pub cb).sq = wrap1 x.sq ∧
      (t.pub cb).iv = min (2 * x.iv) (bits (wd ws 5) 16 16 * 1000) ∧
      (t.pub cb).due = some (d + (t.pub cb).iv * 1000 * nsU) ∧ ∀ p < 12, bit (wd ws 2) (16 + p) = true → queued t p))

/-- R51, R231, R232, R240, R241, R256, R257, R264: the frame that starts is, of those that may start and are built, of the
highest class; its last bit ends the transmission; a ring frame for another node leaves at once by the other ring
port; supervision frames go to the egress routines of both ports under one number; a link that goes down loses its
frames. When a pair's settings take effect, when a transmission ends, and how long a cut-through forward waits are the
model's readings (DEDUCED, log entries 50, 54, 58 and 122). -/
def Obligations.Wire : Prop :=
  ∀ (s : State) (p : Port) (f : Frame) (v : Word),
    (let u := untilBuilt s p
     linkUp s p = true → portEn s p = true → portPower s p = true → (s.port p).tx = none →
      ∀ b rest, nextTx u p = some (b, rest) →
      Completes (exec (.transmitStart p) s) (fun t => (t.port p).tx = some b ∧
        ((t.port p).egq = rest ∨ ∃ x at_, (s.port p).lateEg = some (x, at_) ∧ x.cls = b.cls ∧ (t.port p).egq = rest ++ [x]) ∧
        (t.port p).txEnd = u.now + modeEgress (portMode s p) * nsU + wireNs s p b.f.len * nsU ∧
        b ∈ (s.port p).egq ∧ mayStart s p b = true ∧ b.rdy ≤ u.now ∧
        ∀ x ∈ (s.port p).egq, mayStart s p x = true → u.now ≤ max s.now x.rdy ∧ (x.rdy ≤ u.now → x.cls ≤ b.cls))) ∧
    ((s.port p).tx ≠ none → Completes (exec (.transmitEnd p) s) (fun t => (t.port p).tx = none ∧
      (t.port p).egq = (s.port p).egq ∧ t.now = max s.now (s.port p).txEnd ∧ Counted s t fEP_TXOK_CNT_CNT p)) ∧
    (let o := if p.val % 2 = 0 then p.val + 1 else p.val - 1
     2 ≤ pairRed s (p / 2) → linkUp s p = true → linkUp s o = true → s.stopped = false → portPower s p = true → f.dmac ≠ portMac s p →
     f.smac ≠ portMac s p → f.smac ≠ portMac s o → (s.port o).tx = none → Completes (exec (.cutThrough p f) s) (fun t =>
       (∃ b, (t.port o).tx = some b ∧ b.f.dmac = f.dmac ∧ b.f.smac = f.smac ∧ b.f.red = f.red ∧ b.f.bytes = f.bytes) ∧
       t.port p = s.port p ∧ t.now = s.now + cutNs (modeRate (portMode s o)) * nsU)) ∧
    (∀ r : Fin 6, pairRed s r ≠ 0 → s.stopped = false → portPower s (2 * r) = true →
      Completes (exec (.supervisionSend r) s) (fun t => (t.pair r).seq = ((s.pair r).seq + 1) % 65536 ∧
        ∀ i < 2, ∃ b, (t.lane (2 * r + i)).build = (s.lane (2 * r + i)).build ++ [b] ∧ b.f.body = .supervision ∧ b.cls = 1 ∧
          b.f.red = some (BitVec.ofNat 16 (s.pair r).seq))) ∧
    (linkUp s p = true → Completes (exec (.linkDown p) s) (fun t => linkUp t p = false ∧ (t.port p).egq = [] ∧
      (t.port p).tx = none ∧ Flagged t kEP_STAT_LINKDN p)) ∧
    (linkUp s p = false → portReady s p = true → ∀ sp, (portMode s p = 3 ∨ portMode s p = 4 → sp = modeRate (portMode s p)) →
      Completes (exec (.linkUp p sp) s) (fun t => linkUp t p = true ∧ t.ports = s.ports)) ∧
    (s.fb fEP_CTL_LOCK p = false → portEn s p = false → bit (unitBad s fBI_UNUSABLE_PORTS) p = false →
      Completes (exec (.epnCtl p v) s) (fun t => portMode t p = bits v.toNat 1 4 ∧ portEn t p = bit v.toNat 0 ∧
        t.fb fEP_CTL_LOCK p = bit v.toNat 31)) ∧
    (s.fb fEP_CTL_LOCK p = true → Completes (exec (.epnCtl p v) s) (Same s))

-- Time ----------------------------------------------------------------------------------------------------------------------------------------------------------

/-- R308, R311, R314, R318: a source qualifies and is lost as its rules say: the fourth edge within 1 µs, the third frame
that agrees, a missing edge, an invalid frame, three announce intervals without an Announce, and the 10 MHz reference.
When a source counts as locked, and that an edge carries its error and an IRIG-B frame its decoded fields, are the
model's (log entries 34, 35 and 36). -/
def Obligations.TimeSources : Prop :=
  ∀ (s : State), tuOn s = true → (∀ v b, s.tu.setsec = some (v, b) → s.tai < b) →
    let ranked := fun i => srcRank s i ≠ 0
    let qual := fun (t : State) (i : Nat) => bit (t.f fTU_SEL_QUAL) i
    (ranked 4 → Completes (exec .referenceQualified s) (fun t => qual t 4 = true ∧ t.f fTU_SEL_FREQREF = 1 ∧
      t.clk = s.clk)) ∧
    Completes (exec .referenceExcursion s) (fun t => qual t 4 = false ∧ t.f fTU_SEL_FREQREF = 0 ∧ t.clk = s.clk) ∧
    (∀ err : Int, ¬(s.tu.ppsRun = 0 ∧ s.tu.ppsLast = 0) →
      let e := s.advanceTai ((s.tu.ppsLast : Int) + sec + err).toNat
      let near := err.natAbs ≤ 1000 ∧ e.tai ≤ s.tu.ppsLast + sec + 1000
      Completes (exec (.ppsEdge err) s) (fun t => t.f fTU_PPSSTAMP_NS = taiNs e.tai ∧
        t.tu.ppsRun = (if near then min (s.tu.ppsRun + 1) 4 else 0) ∧
        (near → s.tu.ppsRun = 3 → s.tu.set = true → ranked 1 → qual t 1 = true) ∧
        (¬near → qual t 1 = false))) ∧
    (s.tu.ppsRun ≠ 0 → Completes (exec .ppsEdgeMissing s) (fun t => t.tu.ppsRun = 0 ∧ qual t 1 = false)) ∧
    (∀ (am : Bool) (g : IrigFrame), let i := if am then 3 else 2
      (g.valid = false → Completes (exec (.irigBFrame am g) s) (fun t => qual t i = false)) ∧
      (∀ last at_, g.valid = true → tget (0, 0, 0) s.tu.irig i = (2, last, at_) →
        irigTai (s.advanceTai ((at_ : Int) + sec + g.err).toNat) g = last + 1 → ranked i →
        Completes (exec (.irigBFrame am g) s) (fun t => qual t i = true))) ∧
    (∀ p x, annFirst s = some (p, x) → Completes (exec .announceTimeout s) (fun t => tfind t.tu.ptpErb p = none ∧
      t.now = max s.now (annDue x) ∧
      (s.tu.ptpGm ≠ none → s.tu.ptpPort = p → qual t 0 = false ∧
        t.tu.ptpGm = (ptpBest { s with tu := { s.tu with ptpErb := tdel s.tu.ptpErb p } }).map Prod.snd) ∧
      (s.tu.ptpPort ≠ p → t.tu.ptpGm = s.tu.ptpGm)))

/-- R304–R306, R309, R314, R315, R317, R318: holdover ends in free-run when its error bound passes ERRMAX; a leap changes the
UTC offset by one; a written seconds value takes effect at a second; the 1PPS output rises at a second; a replica differs
by at most 2 ns; OFFSET is written; a master port's PTP messages go to its egress routine in class 1, a Follow_Up with the
egress stamp of its Sync. -/
def Clause.TimeServices : Prop :=
  ∀ (s : State), tuOn s = true → -(2 ^ 32) < s.clk.corr → (∀ v b, s.tu.setsec = some (v, b) → s.tai < b) →
    (s.f fTU_SEL_STATE = 3 → s.f fTU_HOLD_ERRMAX < s.tu.holdE0 → Completes (exec .freerun s) (fun t =>
      t.f fTU_SEL_STATE = 0 ∧ Flagged t kTU_STAT_FREERUN)) ∧
    (∀ up : Bool, s.tu.leap = (if up then 1 else 2) → -32768 < sval 16 (s.f fTU_UTCOFF_OFF) →
      sval 16 (s.f fTU_UTCOFF_OFF) < 32767 → Completes (exec .leapSecond s) (fun t => t.tu.leap = 0 ∧
        sval 16 (t.f fTU_UTCOFF_OFF) = sval 16 (s.f fTU_UTCOFF_OFF) + (if up then 1 else -1) ∧
        Flagged t kTU_STAT_LEAP ∧ s.tu.leapAt ≤ t.tai)) ∧
    (∀ v : Word, Completes (exec (.tuSetsec v) s) (fun t => t.tu.setsec = some (v, (s.tai / sec + 1) * sec) ∧
      t.clk = s.clk)) ∧
    (∀ v, s.tu.setsec = some (v, (s.tai / sec + 1) * sec) → s.clk.corr ≤ 2 ^ 32 → Completes (exec .ppsOut s) (fun t =>
      taiSec t.tai = v.toNat ∧ t.tu.setsec = none ∧ t.tu.set = true ∧ Flagged t kTU_STAT_STEP)) ∧
    (s.tu.setsec = none → Completes (exec .ppsOut s) (fun t => t.pm.ppsOut = s.fb fTU_CTL_PPSOE ∧
      taiSec s.tai < taiSec t.tai)) ∧
    (∀ isl, Completes (exec (.replicaCorrection isl) s) (fun t => t.clk = s.clk ∧
      ((replicaTime t (islKey isl) : Int) - t.tai).natAbs ≤ 2)) ∧
    (s.fb fTU_PTBASE_EN = true → (s.pt ((s.f fTU_PTBASE_BASE + 3) % 131072)).ty = 4 →
      Completes (exec .timePointUpdate s) (fun t => ∃ w ∈ t.ptq, w.src = .tu ∧
        w.pt = (s.f fTU_PTBASE_BASE + 3) % 131072 ∧
        w.val = some (BitVec.ofNat 64 (uenc 64 (sval 32 (s.f fTU_OFFSET_OFS)))))) ∧
    (∀ (p : Port) (m : PtpMsg) (tx : Nat), ptpRole s p = 2 → s.tu.ptpGm = none → tfind s.tu.ptpErb p = none →
      m.kind = .announce ∨ m.kind = .sync ∨ m.kind = .pdelayReq ∨
        (m.kind = .followUp ∧ tfind s.tu.syncTx p = some (m.seq.toNat, tx)) → s.stopped = false →
      Completes (exec (.ptpTransmit p m) s) (fun t =>
        ∃ b x, (t.lane p).build = (s.lane p).build ++ [b] ∧ b.cls = 1 ∧ b.f.body = .ptp x ∧ x.kind = m.kind ∧ x.seq = m.seq ∧
          x.origin = (if m.kind = .followUp then tx else s.tai) ∧ x.domain.toNat = s.f fTU_PTPDS_DOMAIN % 2 ^ 8 ∧
          x.gmId.toNat = clockId s % 2 ^ 64 ∧ x.tlv = (decide (m.kind = .announce) && s.f fTU_PTPROLE_PROFILE == 2)))

/-- R314: the holdover time that the model finds is the greatest for which the error bound stays within its limit. -/
def Clause.HoldoverSpan : Prop :=
  ∀ e f d lim : Nat, e ≤ lim →
    let t := holdSpan e f d lim 62 0
    holdE e f d t ≤ lim * holdUnit ∧ (t + 1 < 2 ^ 62 → lim * holdUnit < holdE e f d (t + 1)) ∧
      ∀ u, holdE e f d u ≤ lim * holdUnit → u < 2 ^ 62 → u ≤ t

/-- The time unit at work, and the span of a holdover. How far a replica differs, when a source counts as locked, and what
PTP messages carry beyond the rules (PRESUMED) are the model's (log entries 26, 34 and 37). -/
def Obligations.TimeKeeping : Prop :=
  Clause.TimeServices ∧ Clause.HoldoverSpan

-- The host --------------------------------------------------------------------------------------------------------------------------------------------------------------

/-- R66, R74, R332, R333, R341, R345: PLATE, TRAY and DRAM commands move their bytes between host memory and the target's
space and complete with the number of bytes moved; a fault ends the move with its status. Where a plan boundary is due, a
PLATE_WR lands a part of its words before it and the rest later; how many is left open (log entry 134). -/
def Clause.HostMemoryCommands : Prop :=
  ∀ (s : State) (set : Fin 257) (c : HCmd) (bs : List Byte), memWf s.host = true → memWf s.tray = true →
    keyless s = false →
    let tgt := cmdTarget set c
    let a := cmdArg c
    let n := cmdLen c
    let given := c.data = some (.data bs) ∧ bs.length = n
    let place := s.place tgt
    let visible := bit (wd c.w 0) 9 = false ∧ s.fb fHI_LINK_UP = true
    (HostTurn s set c 1 → plateBad set s c = none →
      let r := plateOut tgt (n / 8) a s []
      Completes (exec (.plateRd set) s) (fun t =>
        (r.2.2 = none → Ended s t set c 0 r.2.1.length 0) ∧
        (∀ e, r.2.2 = some e → Ended s t set c (e + 3) r.2.1.length (a + r.2.1.length)) ∧
        (visible → HostHolds t (cmdAddr c) r.2.1) ∧ t.plate = r.1.plate)) ∧
    (HostTurn s set c 2 → plateBad set s c = none → given → s.tai < s.plan.next ∨ s.stopped = true →
      let r := plateIn tgt bs (n / 8) a 0 s
      Completes (exec (.plateWr set) s) (fun t => t.plate = r.1.plate ∧ t.poison = r.1.poison ∧
        (r.2.2 = none → Ended s t set c 0 r.2.1 0) ∧
        ∀ e, r.2.2 = some e → Ended s t set c (e + 3) r.2.1 (a + r.2.1))) ∧
    (HostTurn s set c 2 → plateBad set s c = none → given → s.plan.next ≤ s.tai → s.stopped = false →
      let k := s.draw.1.toNat % (n / 8 + 1)
      let r := plateIn tgt bs k a 0 s.draw.2
      Completes (exec (.plateWr set) s) (fun t => t.plate = r.1.plate ∧ t.poison = r.1.poison ∧
        (r.2.2 = none → k < n / 8 → ((t.hset set).cmds.head?.map (·.put)) = some r.2.1 ∧ (t.hset set).cpls = []) ∧
        ∀ e, r.2.2 = some e → Ended s t set c (e + 3) r.2.1 (a + r.2.1))) ∧
    (HostTurn s set c 2 → plateBad set s c = none → n ≠ 0 → c.data = none → c.asked = false →
      Completes (exec (.plateWr set) s) (fun t => t.plate = s.plate ∧
        ∃ r, t.hi.reads = s.hi.reads ++ [r] ∧ r.kind = .cmdData set c.idx ∧ r.addr = cmdAddr c % 2 ^ 64 ∧ r.len = n)) ∧
    (HostTurn s set c 3 → trayBad set s c = none → pmState s ≠ 1 →
      let r := trayOut place.1 (n / 8) (16384 * place.2 + a) (domUsed s (place.1 / 4)) []
      Completes (exec (.trayRd set) s) (fun t =>
        (r.2.2 = true → Ended s t set c 0 r.2.1.length 0) ∧
        (r.2.2 = false → Ended s t set c 6 r.2.1.length (a + r.2.1.length)) ∧
        (visible → HostHolds t (cmdAddr c) r.2.1) ∧ t.tray = s.tray)) ∧
    (HostTurn s set c 4 → trayBad set s c = none → given → Completes (exec (.trayWr set) s) (fun t =>
      Ended s t set c 0 n 0 ∧ trayBytes t place.1 (16384 * place.2 + a) n = bs)) ∧
    (HostTurn s set c 5 → dramBad set s c = none →
      let r := dramOut tgt 1026 a n (domUsed s 16) []
      Completes (exec (.dramRd set) s) (fun t =>
        Ended s t set c r.2.2 r.2.1.length (if r.2.2 = 0 then 0 else a + r.2.1.length) ∧
        (visible ∨ (r.2.2 ≠ 0 ∧ s.fb fHI_LINK_UP = true) → HostHolds t (cmdAddr c) r.2.1) ∧ t.dram = s.dram)) ∧
    (HostTurn s set c 6 → dramBad set s c = none → given →
      let r := dramIn tgt bs 1026 a 0 (domUsed s 16)
      Completes (exec (.dramWr set) s) (fun t => t.dram = r.1.dram ∧
        Ended s t set c r.2.2 r.2.1 (if r.2.2 = 0 then 0 else a + r.2.1)))

/-- R287, R288, R332–R334: POINT_WR sends its write through the host port; POINT_CFG, ACT_CFG and the record commands wait for
the plan boundary; a tenant may name its own records only; REC_STAT reads a record's counters and may clear them. -/
def Clause.HostRecordCommands : Prop :=
  ∀ (s : State) (set : Fin 257) (c : HCmd) (bs : List Byte),
    let sup := set.val = 256
    let rights := fun (i : Instr) => Completes (exec i s) (fun t => Ended s t set c 3 0 0)
    let record := fun (i : Instr) (op kind : Nat) => HostTurn s set c op → cmdArg c < recCount kind → cmdAddr c % 8 = 0 →
      ((¬sup → recMine s set kind (cmdArg c) = false → rights i) ∧
       (sup ∨ recMine s set kind (cmdArg c) = true → c.data = some (.data bs) → bs.length = recBytes kind →
        let ws := wordsOf bs (recWords kind)
        (sup ∨ bits (wd ws 0) 16 8 = set → Completes (exec i s) (fun t =>
          Waits s t set c (some ⟨kind, cmdArg c, ws, bs.drop (4 * recWords kind)⟩) true ∧ t.recs = s.recs)) ∧
        (¬sup → bits (wd ws 0) 16 8 ≠ set → rights i)))
    (HostTurn s set c 8 → bits (inl c 1) 13 3 = 0 → inl c 4 < sec → Completes (exec (.pointWr set) s) (fun t => Waits s t set c none false ∧
      t.points = s.points ∧ ∃ w, t.ptq = s.ptq ++ [w] ∧ w.src = .host ∧ w.pt = inl c 0 % 2 ^ 17 ∧
        w.val = (if bit (inl c 0) 31 then none else some (BitVec.ofNat 64 (inl c 2 + 2 ^ 32 * inl c 3))) ∧
        w.q = (if bit (inl c 0) 30 then none else some (inl c 1 % 2 ^ 13)) ∧
        w.owner = (if set.val = 256 then none else some set.val))) ∧
    (HostTurn s set c 9 → sup → Completes (exec (.pointCfg set) s) (fun t => Waits s t set c none true ∧
      t.points = s.points ∧ ∃ x ∈ t.ptcfg, x = ⟨cmdArg c % 2 ^ 17, some (w32 (inl c 0)), some (w32 (inl c 1)),
        some (w32 (inl c 2))⟩)) ∧
    (HostTurn s set c 9 → ¬sup → rights (.pointCfg set)) ∧
    (HostTurn s set c 10 → sup → cmdArg c % 2 ^ 17 < srcCount (bits (cmdArg c) 28 4) → Completes (exec (.actCfg set) s) (fun t => Waits s t set c none true ∧ t.hi.bg = s.hi.bg ∧
      t.hi.bgPend = s.hi.bgPend ++ [(bits (cmdArg c) 28 4, cmdArg c % 2 ^ 17, bit (inl c 0) 0)])) ∧
    (HostTurn s set c 10 → sup → srcCount (bits (cmdArg c) 28 4) ≤ cmdArg c % 2 ^ 17 →
      Completes (exec (.actCfg set) s) (fun t => Ended s t set c 2 0 0 ∧ t.hi.bgPend = s.hi.bgPend)) ∧
    (HostTurn s set c 10 → ¬sup → rights (.actCfg set)) ∧
    record (.svSub set) 0x10 1 ∧ record (.gooseSub set) 0x11 2 ∧ record (.goosePub set) 0x12 3 ∧
    record (.bsvSub set) 0x13 4 ∧
    (HostTurn s set c 0x14 →
      let kind := bits (cmdArg c) 28 4
      let i := cmdArg c % 65536
      1 ≤ kind → kind ≤ 4 → i < recCount kind → cmdAddr c % 8 = 0 →
      (¬sup → recMine s set kind i = false → rights (.recStat set)) ∧
      (sup ∨ recMine s set kind i = true → Completes (exec (.recStat set) s) (fun t => Ended s t set c 0 32 0 ∧
        (t.rst kind i).cnt = (if bit (wd c.w 0) 10 then List.replicate 8 0 else (s.rst kind i).cnt) ∧
        (memWf s.host = true → s.fb fHI_LINK_UP = true → bit (wd c.w 0) 9 = false →
          HostHolds t (cmdAddr c) ((s.rst kind i).cnt.flatMap (leBytes 4))))))

/-- Host commands that move memory and records. That what the device reads from host memory is the sender's operand is the
model's choice (log entry 97). -/
def Obligations.HostMoves : Prop :=
  Clause.HostMemoryCommands ∧ Clause.HostRecordCommands

/-- R162, R331–R333, R348, R349, R362: IMEM_WR writes a window that is not busy; a plan that passes its checks waits for
the boundary and one that fails is refused with its reason; KEY_LOAD loads a key, fuses a hash or revokes a slot for
the supervisor only; other OP values are BADOP. How a plan image is laid out, and which key signs it in TEST, are the
model's (log entries 14, 65, 87 and 88). -/
def Obligations.HostControlCommands : Prop :=
  ∀ (s : State) (set : Fin 257) (c : HCmd) (bs : List Byte) (im : PlanImage),
    let sup := set.val = 256
    let ends := fun (i : Instr) (st d0 : Nat) => Completes (exec i s) (fun t => Ended s t set c st d0 0)
    let given := c.data = some (.data bs)
    (HostTurn s set c 0x18 → memWf s.imem = true → given → bs.length = cmdLen c →
      let co := bits (cmdArg c) 16 5
      let w := bits (cmdArg c) 2 14
      cmdLen c % 4 = 0 → 4 * w + cmdLen c ≤ 65536 → cmdAddr c % 8 = 0 →
      (sup ∨ (imemWords c).all (ownWindow s set co) = true → (imemWords c).any (imemBusy s co) = false →
        Completes (exec (.imemWr set) s) (fun t => Ended s t set c 0 (cmdLen c) 0 ∧
          ∀ i, 4 * i < cmdLen c → imemWord t co (w + i) = imgVal bs (4 * i) 4)) ∧
      (sup → (imemWords c).any (imemBusy s co) = true → ends (.imemWr set) 7 0)) ∧
    (HostTurn s set c 0x20 → cmdAddr c % 8 = 0 → given → bs.length = cmdLen c →
      (sup → planReason s bs im = 0 → Completes (exec (.planLoad set im) s) (fun t => Waits s t set c none true ∧
        t.plan = { s.plan with waiting := some { im with planId := BitVec.ofNat 16 (imgVal bs 6 2), bytes := bs } })) ∧
      (sup → planReason s bs im ≠ 0 → Completes (exec (.planLoad set im) s) (fun t => Ended s t set c 8 0 0 ∧
        t.plan = s.plan ∧ t.f fKS_LASTREF_REASON = planReason s bs im ∧ Flagged t kKS_STAT_PLANREF)) ∧
      (¬sup → ends (.planLoad set im) 3 0)) ∧
    (HostTurn s set c 0x21 → s.ks.wipe = none →
      let kind := bits (cmdArg c) 28 4
      (kind = 1 → sup → s.lc = 3 ∨ s.lc = 4 → cmdLen c = 64 → cmdAddr c % 8 = 0 → given → bs.length = 64 →
        (blobOk bs = true → Completes (exec (.keyLoadKey set) s) (fun t => Ended s t set c 0 64 0 ∧
          t.keys = (putKey s (cmdArg c % 2048) bs).keys)) ∧
        (blobOk bs = false → ends (.keyLoadKey set) 2 0)) ∧
      (kind = 2 → sup → s.lc = 2 ∨ s.lc = 4 → cmdLen c = 32 → cmdAddr c % 8 = 0 → given → bs.length = 32 →
        (∀ i, (List.range 4).find? (fun i => !bit s.ks.cprog i) = some i → Completes (exec (.keyLoadFuse set) s) (fun t =>
          Ended s t set c 0 32 0 ∧ t.ks.cprog = s.ks.cprog + 2 ^ i ∧ custHashOf t i = BitVec.ofNat 256 (beVal bs))) ∧
        ((List.range 4).find? (fun i => !bit s.ks.cprog i) = none → ends (.keyLoadFuse set) 8 0)) ∧
      (kind = 3 → sup → s.lc = 4 → let i := cmdArg c % 4
        let others := (List.range 4).any fun j => j != i && bit s.ks.cprog j && !bit s.ks.crev j
        (others = true → Completes (exec (.keyLoadRevoke set) s) (fun t => Ended s t set c 0 0 0 ∧
          t.ks.crev = s.ks.crev ||| 2 ^ i)) ∧
        (others = false → ends (.keyLoadRevoke set) 8 0)) ∧
      (kind = 1 → ¬sup → ends (.keyLoadKey set) 3 0)) ∧
    (HostTurn s set c 0 → ends (.cmdNop set) 0 0) ∧
    (HostTurn s set c 0x0B → ends (.cmdNop set) 2 0)

/-- R323–R328, R335, R339, R340: a poll reads the summary and then the doorbells of the sets it flags; a doorbell gives a
running set its indices and restarts a halted one; a completion takes the next free slot; a failed read halts its set, and
RESTART asks for its doorbell. -/
def Clause.HostEngine : Prop :=
  ∀ (s : State) (set : Fin 257),
    let h := s.hset set
    (s.fb fHI_CTL_EN = true → s.fb fHI_LINK_UP = true → polling s = false → pmState s < 2 →
      Completes (exec .poll s) (fun t => t.now = max s.now (s.hi.polls + pollNs s * nsU) ∧ t.hi.polls = t.now ∧
        t.hi.reads = s.hi.reads ++ [⟨.summary, reg64 s rHI_SUMBASE_LO rHI_SUMBASE_HI 0 0 % 2 ^ 64, 64, t.now⟩])) ∧
    (∀ r rs bs, s.hi.reads = r :: rs →
      let arrives := fun (P : State → Prop) => Completes (exec (.hostReadCompletion (.data bs)) s) P
      (r.kind = .summary → arrives fun t =>
        t.hi.reads.map (·.kind) = rs.map (·.kind) ++ (doorbellSets s bs).map .doorbell) ∧
      (r.kind = .doorbell set ∨ r.kind = .restart set → h.halt = true → arrives fun t => (t.hset set).halt = false ∧
        (t.hset set).cmdPI = imgVal bs 0 2 ∧ (t.hset set).cmdCI = imgVal bs 0 2 ∧ (t.hset set).cplCI = imgVal bs 2 2 ∧
        (t.hset set).evtCI = imgVal bs 4 2 ∧ (t.hset set).txCI = imgVal bs 6 2 ∧ (t.hset set).rxDI = imgVal bs 8 2 ∧
        (t.hset set).cmds = []) ∧
      (r.kind = .doorbell set → h.halt = false → ringN s set 0 ≤ ringDepth (imgVal bs 0 2) h.cmdCI → arrives fun t =>
        (t.hset set).halt = true ∧ Flagged t kHI_STAT_IDXERR ∧ t.f fHI_ERRINFO_SET = set) ∧
      (∀ n, r.kind = .cmd set n → arrives fun t => (t.hset set).cmds.map (·.w) =
        h.cmds.map (·.w) ++ (List.range n).map fun i => wordsOf (imgBytes bs (64 * i) 64) 16) ∧
      (∀ n, r.kind = .cmd set n → Completes (exec (.hostReadCompletion .ur) s) (fun t => (t.hset set).halt = true ∧
          Flagged t kHI_STAT_HOSTERR ∧ t.f fHI_ERRINFO_KIND = 1 ∧ t.f fHI_ERRINFO_SET = set) ∧
        Completes (exec .hostReadTimeout s) (fun t => (t.hset set).halt = true ∧ t.f fHI_ERRINFO_KIND = 2 ∧
          t.now = max s.now (r.sent + s.f fHI_RDTMO_TMO * 1000 * nsU)))) ∧
    (∀ c cs, h.cpls = c :: cs → setLive s set = true → ringFull s set 1 h.cplPI h.cplCI = false →
      Completes (exec (.completionWrite set) s) (fun t => (t.hset set).cpls = cs ∧
        (t.hset set).cplPI = (h.cplPI + 1) % 65536 ∧ (t.hset set).upd = (h.upd + 1) % 2 ^ 32)) ∧
    (h.halt = true → s.fb fHI_TN_CTL_EN set = true → s.fb fHI_LINK_UP = true →
      Completes (exec (.hiTnCtlRestart set) s) (fun t => ∃ r, t.hi.reads = s.hi.reads ++ [r] ∧ r.kind = .restart set ∧
        r.len = 16))

/-- R298, R299, R325, R336–R338: the oldest event record goes into its ring, or is dropped and counted; the oldest transmit
descriptor's frame goes to its port's egress routine in class 0, or its status says why not. -/
def Clause.HostRingEntries : Prop :=
  ∀ (s : State),
    (∀ r rs, s.evq = r :: rs →
      let h := s.hset r.set
      let room := setLive s r.set = true ∧ s.fb fHI_LINK_UP = true ∧ ringFull s r.set 2 h.evtPI h.evtCI = false
      (room → Completes (exec .eventDrain s) (fun t => t.evq = rs ∧ (t.hset r.set).evtPI = (h.evtPI + 1) % 65536 ∧
        (t.hset r.set).seq = (if r.ringSeq then (h.seq + 1) % 2 ^ 32 else h.seq) ∧
        (r.pt = true → (t.hset r.set).lost = 0) ∧ Counted s t fCS_EVOK_CNT_CNT)) ∧
      (¬room → Completes (exec .eventDrain s) (fun t => t.evq = rs ∧ (t.hset r.set).lost = min (h.lost + 1) 0xFFFF ∧
        Counted s t fCS_EVDROP_CNT_CNT ∧ Flagged t kCS_STAT_EVLOST))) ∧
    (∀ (set : Fin 257) d ds bs, (s.hset set).txq = d :: ds → setLive s set = true →
      let p := bits (wd d 2) 16 4
      let n := bits (wd d 2) 0 11
      bs.length = n →
      let b : TxFrame := ⟨hostFrame bs, 0, none, none, none, none, 0⟩
      (hostFrameOk s set p n bs = true → linkUp s p = true → overDmax s p b = false → s.stopped = false →
        Completes (exec (.transmitDescriptor set bs) s) (fun t => (t.hset set).txq = ds ∧
          (t.hset set).txCI = ((s.hset set).txCI + 1) % 65536 ∧
          (t.lane p).build = (s.lane p).build ++ [b])) ∧
      (hostFrameOk s set p n bs = true → linkUp s p = false → Completes (exec (.transmitDescriptor set bs) s) (fun t =>
        (t.hset set).txq = ds ∧ t.ports = s.ports ∧ t.lanes = s.lanes ∧ Counted s t fEP_TXLOST_CNT_CNT p)) ∧
      (hostFrameOk s set p n bs = false → Completes (exec (.transmitDescriptor set bs) s) (fun t =>
        (t.hset set).txq = ds ∧ t.ports = s.ports ∧ (p < 12 → Counted s t fEP_TXREF_CNT_CNT p))))

/-- The host engine and its rings. That the sender gives what host reads return, when the receive ring appears full, and
what becomes of an event without room are the model's (log entries 39, 66, 97 and 126). -/
def Obligations.HostRings : Prop :=
  Clause.HostEngine ∧ Clause.HostRingEntries

/-- R320, R437–R439: the loss of the PCIe link, an FLR and PERST_N low halt every set and drop what is outstanding; a link
comes up within the lanes and the rate that the device allows. What each of the resets of the PCIe side keeps is the
model's reading (DEDUCED, log entry 100). -/
def Obligations.PcieLink : Prop :=
  ∀ (s : State),
    let halted := fun (t : State) => (∀ n < 257, (t.hset n).halt = true ∧ (t.hset n).cmds = [] ∧ (t.hset n).cpls = []) ∧
      t.hi.reads = [] ∧ t.hi.waits = []
    Completes (exec .flr s) (fun t => halted t ∧ t.reg rHI_LINK 0 0 = s.reg rHI_LINK 0 0 ∧
      ∀ n < 257, t.fb fHI_TN_CTL_EN n = false) ∧
    (s.fb fHI_LINK_UP = true → Completes (exec .pcieLinkLoss s) (fun t => halted t ∧ t.fb fHI_LINK_UP = false ∧
      Flagged t kHI_STAT_LINKDN)) ∧
    Completes (exec (.perstN false) s) (fun t => halted t ∧ t.fb fHI_LINK_UP = false ∧ t.hi.perst = false) ∧
    Completes (exec (.perstN true) s) (fun t => t.hi = { s.hi with perst := true } ∧ t.regs = s.regs) ∧
    (∀ w g, w ∈ [1, 2, 4, 8] → w ≤ s.bist.pcie → 1 ≤ g → g + s.f fGL_STRAP_PCIEGEN ≤ 4 → s.hi.perst = true →
      s.bist.running = false → pmState s < 3 → Completes (exec (.pcieLinkUp w g) s) (fun t =>
        t.fb fHI_LINK_UP = true ∧ t.f fHI_LINK_WIDTH = w % 2 ^ fHI_LINK_WIDTH.w ∧ t.f fHI_LINK_GEN = g % 2 ^ fHI_LINK_GEN.w))

-- Sheets, scrubbers and DRAM --------------------------------------------------------------------------------------------------------------------------------------------------

/-- R65, R66, R67: a write of SHM_OWNER starts a handover or is refused with its reason; a completed handover gives the
sheet its new owner, epoch and seed at once, within 96 fabric cycles, and leaves the stored words; Plate loads whose
sampling cycle comes before it have sampled. Which reason a write with several faults gets, and that SHM_OWNER shows the
old owner until the handover completes, are the model's readings (DEDUCED, log entry 107). -/
def Obligations.SheetOwnership : Prop :=
  ∀ (s : State) (sheet : Fin 384) (v : Word),
    let o := v.toNat % 512
    let ep := (s.reg rSHM_EPOCH sheet 0).toNat
    let busy := s.fb fSHM_OWNER_STATE sheet = true
    let refuses := fun (r : Nat) => Completes (exec (.shmOwner sheet v) s) (fun t =>
      t.f fSHM_LASTREF_REASON = r ∧ t.f fSHM_LASTREF_SHEET = sheet.val ∧ Flagged t kSHM_STAT_REFUSED ∧ t.eff = s.eff ∧
      t.reg rSHM_OWNER sheet 0 = s.reg rSHM_OWNER sheet 0)
    (busy → refuses 2) ∧
    (¬busy → 0x100 < o → o < 0x1FF → refuses 3) ∧
    (o ≤ 0x100 ∨ o = 0x1FF →
      (¬busy → ep = 2 ^ 32 - 1 → refuses 4) ∧
      (¬busy → ep < 2 ^ 32 - 1 → sheetMapped s sheet = true → refuses 1) ∧
      (¬busy → ep < 2 ^ 32 - 1 → sheetMapped s sheet = false → Completes (exec (.shmOwner sheet v) s) (fun t =>
        t.fb fSHM_OWNER_STATE sheet = true ∧ t.f fSHM_OWNER_OWNER sheet = s.f fSHM_OWNER_OWNER sheet ∧
        t.e fSHM_OWNER_OWNER sheet = o ∧
        (∀ n, n ≠ rSHM_OWNER.key sheet 0 → tfind t.regs n = tfind s.regs n) ∧ t.plate = s.plate))) ∧
    (let w := s.advance (96 * s.cyc)
     let u := sampleDue w w.nowCyc
     let o := u.e fSHM_OWNER_OWNER sheet
     let ep := (u.reg rSHM_EPOCH sheet 0).toNat
     busy → ep < 2 ^ 32 - 1 → trising u.ks.seed = true →
      Completes (exec (.handoverComplete sheet) s) (fun t =>
        t.f fSHM_OWNER_OWNER sheet = o ∧ t.fb fSHM_OWNER_STATE sheet = false ∧
        t.reg rSHM_EPOCH sheet 0 = w32 (ep + 1) ∧
        sheetSeed t sheet = seedFrom u (keyAt u o (cntOf u o)) sheet (ep + 1) ∧ Flagged t kSHM_STAT_DONE ∧
        t.plate = u.plate ∧ t.clk = u.clk))

/-- R57, R72, R73, R74, R225, R370, R371, R375, R378, R406, R452: a Plate scrubber and patrol scrub correct, poison or count what
they find; the debug window writes and reads a word in MAINTENANCE; a Loupe request sets its flag; where the Loupe is offered,
it writes Plate words, halts a core and sets breakpoints, and logs its writes to a context in a section, up to 64; a refresh
falls due at a multiple of tREFI. That a scrubber's read of poison counts as a set of PLT_STAT.UE, what the Loupe's command
carries, and the value of tREFI (PRESUMED) are the model's (log entries 63, 117 and 55). -/
def Clause.ScrubAndDebug : Prop :=
  ∀ (s : State), trising s.plateEcc = true → trising s.dramEcc = true →
    (∀ (b : Fin 1056) (r : Fin 12288), b.val < 1024 → s.fb fPLT_CTL_SCRUB = true → domOn s (8 + b.val / 256) = true →
      pmState s < 2 →
      let wa := bankWord b r
      let scrubs := fun P => Completes (exec (.scrub b r) s) P
      bankOf wa = b.val ∧
      (s.poison.contains wa = true → scrubs (fun t => Counted s t fPLT_SETCNT_UE_N ∧ t.poison = s.poison ∧ t.plate = s.plate)) ∧
      (s.poison.contains wa = false → tget 0 s.plateEcc wa = 0 → scrubs (Same s)) ∧
      (s.poison.contains wa = false → tget 0 s.plateEcc wa = 1 → scrubs (fun t => tget 0 t.plateEcc wa = 0 ∧
        Counted s t fPLT_CE_CNT_CNT b ∧ Flagged t kPLT_STAT_CE ∧ t.poison = s.poison ∧ t.plate = s.plate)) ∧
      (s.poison.contains wa = false → 2 ≤ tget 0 s.plateEcc wa → scrubs (fun t => t.poison = wa :: s.poison ∧
        t.f fPLT_UE_ADDR_WADDR = wa ∧ t.f fPLT_UE_INFO_MASTER = 3 ∧ Flagged t kPLT_STAT_UE ∧ t.plate = s.plate))) ∧
    (∀ (addr size : Nat) (v : DWord), size = 4 ∨ size = 8 → addr % size = 0 →
      let sheet := addr / 0x40000
      let wa := 32768 * sheet + addr % 0x40000 / 8
      let off := addr % 8
      (s.maint = false → ∀ wr, Completes (exec (.bar2Access wr addr size v) s) (fun t => t.resp = .ur ∧
        { t with resp := s.resp, pm := s.pm } = s)) ∧
      (s.maint = true → sheet < 384 → s.f fSHM_OWNER_OWNER sheet ≠ 0x1FF → sheetHeld s sheet = false →
        quadFailed s wa = false → s.poison.contains wa = false → tget 0 s.plateEcc wa = 0 → memWf s.plate = true →
        Completes (exec (.bar2Access false addr size v) s) (fun t =>
          t.resp = .data (leBytes size (plateWord s wa / 2 ^ (8 * off) % 2 ^ (8 * size))) ∧ t.plate = s.plate) ∧
        Completes (exec (.bar2Access true addr size v) s) (fun t =>
          t.resp = .data [] ∧ plateWord t wa / 2 ^ (8 * off) % 2 ^ (8 * size) = v.toNat % 2 ^ (8 * size) ∧
          ∀ a, a < 8 * wa ∨ 8 * wa + 8 ≤ a → mget t.plate a = mget s.plate a))) ∧
    (let may := (s.lc = 0 ∨ s.lc = 1 ∨ s.lc = 4) ∧ domOn s 19 = true
     (∀ op, loupeOpen s = false → Completes (exec (.loupeRequest op) s) (fun t => Flagged t kBI_STAT_GATED ∧
       t.plate = s.plate ∧ t.tray = s.tray ∧ t.poison = s.poison ∧ t.clk = s.clk)) ∧
     (∀ b, may → Completes (exec (.loupeRequest (.bank b)) s) (fun t => Flagged t kMX_STAT_LOUPE ∧ t.plate = s.plate ∧
      t.clk = s.clk)) ∧
     (∀ (sheet : Fin 384) (w : Fin 32768) v, let wa := 32768 * sheet.val + w.val
      let writes := fun P => Completes (exec (.loupeRequest (.plate sheet w v)) s) P
      may → domOn s (8 + bankOf (wa % 32768) / 256) = true → memWf s.plate = true →
      (sheetHeld s sheet = false → writes (fun t => Flagged t kMX_STAT_LOUPE ∧ plateWord t wa = v.toNat ∧
        t.poison.contains wa = false ∧ ∀ a, a < 8 * wa ∨ 8 * wa + 8 ≤ a → mget t.plate a = mget s.plate a)) ∧
      (sheetHeld s sheet = true → writes (fun t => t.resp = .err ∧ t.plate = s.plate))) ∧
     (∀ (c : Core), may → nextEvent s c = none →
      let acts := fun (op : LoupeCoreOp) P => Completes (exec (.loupeRequest (.core c op)) s) P
      acts .halt (fun t => (t.core c).loupe = { (s.core c).loupe with halt := true }) ∧
      acts .go (fun t => (t.core c).loupe = { (s.core c).loupe with halt := false, go := true }) ∧
      (∀ pc, acts (.setBreak pc) (fun t => pc ∈ (t.core c).loupe.bps) ∧
        acts (.clearBreak pc) (fun t => pc ∉ (t.core c).loupe.bps)) ∧
      (∀ (k : Fin 8) (n : Reg5) (v : Word) (x : Sec), (s.ctx c k).sec = some x → x.neg = false →
        (x.llog.length < 64 → acts (.reg k n v) (fun t => gpr t c (some k.val) n = (if n = 0 then 0 else v) ∧
          ∃ y, (t.ctx c k).sec = some y ∧ y.llog = x.llog ++ [(x.retired, .reg n v)])) ∧
        (64 ≤ x.llog.length → acts (.reg k n v) (fun t => t.resp = .err ∧ t.ctx c k = s.ctx c k))) ∧
      (∀ (k : Fin 8) r ty (e : Fin 2048) v (x : Sec), (s.ctx c k).sec = some x → x.neg = false → x.llog.length < 64 →
        vOwner s c = some k.val → tySize ty.toNat * (e + 1) ≤ 64 * 2 ^ spanLog s c →
        acts (.vreg k r ty e v) (fun t => ∃ y, (t.ctx c k).sec = some y ∧ y.llog = x.llog ++
          [(x.retired, .vreg r.toNat (tySize ty.toNat * e) (tySize ty.toNat) (tyCls ty.toNat) v.toNat)])))) ∧
    (dramReady s = true → domOn s 16 = true → pmState s < 2 → Completes (exec .refresh s) (fun t => t.now % refreshU s = 0 ∧ s.now < t.now ∧
      t.now ≤ s.now + refreshU s ∧ t.dram = s.dram ∧ t.regs = s.regs)) ∧
    (dramReady s = true → s.fb fDDR_CTL_SCRUBEN = true → domOn s 16 = true → pmState s < 2 →
      let u := s.patrol
      Completes (exec .patrolScrub s) (fun t => t.dram = s.dram ∧
        t.now = max s.now (s.patrolAt + u * patrolU s / (s.f fDDR_STATE_SIZE * 2 ^ 24)) ∧
        t.patrol = (if u + 1 < s.f fDDR_STATE_SIZE * 2 ^ 24 then u + 1 else 0) ∧
        (tget 0 s.dramEcc u = 0 → t.regs = s.regs) ∧
        (tget 0 s.dramEcc u = 1 → tget 0 t.dramEcc u = 0 ∧ Counted s t fDDR_CE_CNT_CNT ∧ Flagged t kDDR_STAT_CE) ∧
        (2 ≤ tget 0 s.dramEcc u → t.dramEcc = s.dramEcc ∧ t.reg rDDR_UE_ADDR_LO 0 0 = w32 (64 * u) ∧ Flagged t kDDR_STAT_UE)))

/-- R379, R401: DDR_CTL under its lock, INIT, and the end of training. R375: TEMPHI is set when the case passes 85 °C. -/
def Clause.DramControl : Prop :=
  ∀ (s : State) (v : Word) (ok hot : Bool),
    Completes (exec (.ddrCtlInit v) s) (fun t =>
      (s.fb fDDR_CTL_LOCK = true → t.f fDDR_CTL_SCRUBEN = s.f fDDR_CTL_SCRUBEN ∧ t.fb fDDR_CTL_LOCK = true) ∧
      t.fb fDDR_CTL_INIT = (s.fb fDDR_CTL_INIT || (bit v.toNat 0 && !s.bist.dram)) ∧
      (s.fb fDDR_CTL_LOCK = false → t.f fDDR_CTL_SCRUBEN = bits v.toNat 1 1 ∧ t.f fDDR_CTL_LOCK = bits v.toNat 31 1) ∧
      t.f fDDR_STATE_STATE = (if bit v.toNat 0 = true ∧ s.bist.dram = false then 1 else s.f fDDR_STATE_STATE) ∧
      t.dram = s.dram) ∧
    (s.f fDDR_STATE_STATE = 1 → Completes (exec (.trainingEnd ok) s) (fun t => t.fb fDDR_CTL_INIT = false ∧
      (ok = true → t.f fDDR_STATE_STATE = 2 ∧ t.f fDDR_STATE_SIZE = dramGiB (s.reg rDDR_CFG 0 0)) ∧
      (ok = false → t.f fDDR_STATE_STATE = 3 ∧ Flagged t kDDR_STAT_TRAINFAIL))) ∧
    Completes (exec (.temphi hot) s) (fun t => t.ddrHot = hot ∧ t.dram = s.dram ∧
      (hot = true → s.ddrHot = false → Flagged t kDDR_STAT_TEMPHI) ∧ (hot = s.ddrHot → t.regs = s.regs))

/-- Scrubbers, the debug window, and the DRAM controller. That a scrubber's read of poison counts as a set of PLT_STAT.UE,
what the Loupe's command carries, and the value of tREFI (PRESUMED) are the model's (log entries 63, 117 and 55). -/
def Obligations.DramAndScrubbing : Prop :=
  Clause.ScrubAndDebug ∧ Clause.DramControl

-- Keys, the Vault and the lifecycle -----------------------------------------------------------------------------------------------------------------------------------------------

/-- R345, R349, R351, R358, R360: TN_CTL.ADV waits; an epoch advance installs the new seeds within 96 cycles of its owner's last
work; a key pair changes over at its instant; KS_VDATA moves a word of an open area and advances the address; digests end
BUSY; a beacon leaves each second and counts. -/
def Clause.KeyService : Prop :=
  ∀ (s : State) (o : Fin 257) (v : Word),
    (bit v.toNat 31 = true → Completes (exec (.tnCtlAdv o v) s) (fun t => t.f fTN_CTL_ADV o = 1 ∧ t.ks = s.ks ∧
      ∀ n, n ≠ rTN_CTL.key o 0 → tfind t.regs n = tfind s.regs n)) ∧
    (bit v.toNat 31 = false → Completes (exec (.tnCtlAdv o v) s) (Same s)) ∧
    (s.ks.adv.contains o.val = true → ownerRuns s o = false → trising s.ks.seed = true →
      Completes (exec (.epochAdvance o) s) (fun t => t.ks.adv = s.ks.adv.filter (· != o.val) ∧
        cntIn t o = cntOf s o ∧ s.now ≤ t.now ∧ t.now ≤ s.now + 96 * s.cyc ∧
        (∀ i < 384, s.f fSHM_OWNER_OWNER i = o → tfind t.ks.seed i = none) ∧
        (o.val < 256 → let k := 8 * (s.holder o).1 + (s.holder o).2
          tget 0 t.ks.slep k = (tget 0 s.ks.slep k + 1) % 2 ^ 32))) ∧
    (∀ (p : Fin 2048) n, (s.key p).nxt = some n → Completes (exec (.keyChangeover p) s) (fun t =>
      t.key p = { s.key p with cur := some n, nxt := none, prev := (s.key p).cur, prevTo := (s.key p).chg + 2 * sec } ∧
      (∀ q, q ≠ p.val → t.key q = s.key q) ∧ (-(2 ^ 32) < s.clk.corr → (s.key p).chg ≤ t.tai))) ∧
    (let n := s.f fKS_VADDR_WORD
     let next := fun (t : State) => t.f fKS_VADDR_WORD = (n + 1) % 2 ^ 15
     (s.ks.wipe = none → vaultReadable (8 * n) = true → Completes (exec (.ksVdata false v) s) (fun t =>
       t.resp = .data (mread s.vault (8 * n) 4) ∧ t.vault = s.vault ∧ next t)) ∧
     (s.ks.wipe = none → vaultWritable (8 * n) = true → memWf s.vault = true → Completes (exec (.ksVdata true v) s) (fun t =>
       t.resp = .data [] ∧ mread t.vault (8 * n) 4 = leBytes 4 v.toNat ∧ next t ∧
       ∀ a, a < 8 * n ∨ 8 * n + 8 ≤ a → mget t.vault a = mget s.vault a)) ∧
     (s.ks.wipe ≠ none ∨ vaultWritable (8 * n) = false → Completes (exec (.ksVdata true v) s) (fun t =>
       t.resp = .err ∧ t.vault = s.vault ∧ next t)) ∧
     (s.ks.wipe ≠ none ∨ vaultReadable (8 * n) = false → Completes (exec (.ksVdata false v) s) (fun t =>
       t.resp = .err ∧ t.vault = s.vault ∧ next t))) ∧
    Completes (exec .proofDigestDone s) (fun t => t.f fKS_PSTAT_BUSY = 0 ∧
      (∀ n, n ≠ rKS_PSTAT.key 0 0 → tfind t.regs n = tfind s.regs n) ∧ t.ks = s.ks) ∧
    (s.fb fKS_BCN_EN = true → s.stopped = false → pmState s < 2 →
      Completes (exec .beaconSend s) (fun t => t.ks.bcnSeq = (s.ks.bcnSeq + 1) % 2 ^ 32 ∧ t.clk = (nextSecond s).clk ∧
        ∀ p < 12, (bit (s.f fKS_BCN_PORTS) p = false → t.lane p = s.lane p) ∧
          (∀ f, bit (s.f fKS_BCN_PORTS) p = true → beaconOf (nextSecond s) p = some f →
            (t.lane p).build = (s.lane p).build ++ [⟨f, 1, none, none, none, none, 0⟩]) ∧
          (bit (s.f fKS_BCN_PORTS) p = true → beaconOf (nextSecond s) p = none → Counted s t fEP_TXLOST_CNT_CNT p)))

/-- R352, R354–R357, R363: LC_REQ takes a request with its challenge, and draws a new one; the verdict decides it; a wipe leaves
the Vault zero and the lifecycle in the state it leads to; a tamper starts a wipe. -/
def Clause.Lifecycle : Prop :=
  ∀ (s : State) (v : Word) (ev : TamperIn),
    Completes (exec (.lcReqGo v) s) (fun t => t.f fLC_REQ_TARGET = v.toNat % 8 ∧ t.ks.fuse = s.ks.fuse ∧ t.vault = s.vault ∧
      (bit v.toNat 31 = false → t.ks = s.ks) ∧
      (bit v.toNat 31 = true → t.ks.chal = Config.freeValue s.fresh) ∧
      (bit v.toNat 31 = true → s.ks.pend = none → s.ks.trans = none →
        t.ks.req = some (v.toNat % 8, s.ks.chal, authBytes s)) ∧
      (bit v.toNat 31 = true → s.ks.pend ≠ none ∨ s.ks.trans ≠ none →
        t.ks.req = s.ks.req ∧ t.f fLC_REQ_RESULT = 6 ∧ Flagged t kLC_STAT_REFUSED)) ∧
    (∀ target chal auth, s.ks.req = some (target, chal, auth) →
      let r := lcJudge s target chal auth
      Completes (exec .requestVerdict s) (fun t => t.ks.req = none ∧ t.f fLC_REQ_RESULT = r ∧ t.lc = s.lc ∧
        (r = 1 → t.ks.pend = some target) ∧ (r ≠ 1 → t.ks.pend = s.ks.pend ∧ Flagged t kLC_STAT_REFUSED))) ∧
    (∀ target chal auth, transitionBy s.lc target = none → lcJudge s target chal auth = 2) ∧
    (∀ due target, s.ks.wipe = some (due, target) → s.ks.trans = none → (∀ x, target = some x → x ≤ 5) →
      Completes (exec .wipe s) (fun t => t.vault = [] ∧ t.keys = [] ∧ t.ks.cnt = [] ∧ t.ks.seed = [] ∧ t.ks.wipe = none ∧
        t.now = max s.now due ∧ t.plate = s.plate ∧
        (∀ x, target = some x → t.lc = x ∧ Flagged t kLC_STAT_DONE) ∧ (target = none → t.lc = s.lc))) ∧
    (tamperOn s ev = false → Completes (exec (.tamper ev) s) (Same s)) ∧
    (tamperOn s ev = true → pmState s ≠ 4 → Completes (exec (.tamper ev) s) (fun t => Flagged t kLC_STAT_TAMPER ∧
      t.f fLC_TAMPSRC_SRC = 2 ^ ev.src.val ∧ t.ks.wipe = some (t.now + 327680 * nsU, s.ks.wipe.bind Prod.snd))) ∧
    (tamperOn s ev = true → pmState s = 4 → Completes (exec (.tamper ev) s) (fun t => t.ks.offTamp = some ev.src.val ∧
      t.ks.wipe = some (t.now + 327680 * nsU, s.ks.wipe.bind Prod.snd) ∧ t.regs = s.regs))

/-- Keys, the Vault, and the lifecycle. What an advance that cannot start does, the upper half of KS_VDATA, and what
requests that meet each other do are the model's readings (log entries 84, 98 and 99). -/
def Obligations.KeysAndLifecycle : Prop :=
  Clause.KeyService ∧ Clause.Lifecycle

-- Power and the backup cell --------------------------------------------------------------------------------------------------------------------------------------------------------

/-- R383–R387: a sleep request is taken once every core waits, and its entry completes at its time; a request that may not
be made is refused; Idle follows a quiet time; an enabled wake ends a sleep, or aborts a request on its way. That a
command at a known instant lets time pass until then, and what lasts through a sleep, are the model's (log entries 6
and 100). -/
def Obligations.DeviceStates : Prop :=
  ∀ (s : State) (v : Word) (src : Fin 4),
    let tg := v.toNat % 8
    let may := s.fb fSCH_CTL_EN = false ∧ s.stopped = false ∧ 2 ≤ tg ∧ tg ≤ 4 ∧ s.pm.entry = none
    (bit v.toNat 31 = true → may → Completes (exec (.pmReqGo v) s) (fun t => t.pm.entry = some (tg, 0) ∧
      t.f fPM_REQ_PEND = 1 ∧ t.f fPM_REQ_TARGET = tg ∧ pmState t = pmState s)) ∧
    (bit v.toNat 31 = true → ¬may → Completes (exec (.pmReqGo v) s) (fun t => t.pm.entry = s.pm.entry ∧
      Flagged t kPM_STAT_REQREF)) ∧
    (∀ g, s.pm.entry = some (g, 0) → allWaiting s = true → Completes (exec .sleepEntry s) (fun t =>
      t.pm.entry = some (g, s.now + entryNs g * nsU) ∧ { t with pm := s.pm } = s)) ∧
    (∀ g due, s.pm.entry = some (g, due) → due ≠ 0 → 2 ≤ g → g ≤ 4 → Completes (exec .entryComplete s) (fun t =>
      pmState t = g ∧ t.f fPM_REQ_PEND = 0 ∧ t.pm.entry = none ∧ t.now = max s.now due ∧
      (g = 2 → t.tray = s.tray ∧ t.pm.pwren = s.pm.pwren ∧ ∀ d < 20, t.f fPM_DOM_STATE d = s.f fPM_DOM_STATE d) ∧
      (3 ≤ g → t.pm.pwren = decide (g ≠ 4) ∧ ∀ d < 20,
        t.f fPM_DOM_STATE d = if domFaulted s d then 4 else 3))) ∧
    (s.fb fPM_CTL_IDLEEN = true → pmState s = 0 → s.stopped = false → s.postq = [] →
      (∀ c < 32, coreUp s c = true → (s.core c).idle = true ∧ (s.core c).queue = []) →
      Completes (exec .idleEntry s) (fun t => pmState t = 1 ∧ t.cores = s.cores ∧
        s.pm.idleAt + s.f fPM_IDLE_TIMER * s.cyc ≤ t.now)) ∧
    (let on := bit (s.f fPM_WAKECFG_EN) src = true ∧ (src.val = 1 → s.f fPM_ALARM_S ≠ 0) ∧ s.stopped = false
     let wakes := fun P => Completes (exec (.wake src) s) P
     (¬on → wakes (Same s)) ∧
     (on → src.val ≠ 1 → s.pm.entry ≠ none → wakes (fun t => t.pm.entry = none ∧ t.f fPM_REQ_PEND = 0 ∧
       Flagged t kPM_STAT_SLEEP_ABORT ∧ t.clk = s.clk)) ∧
     (on → src.val ≠ 1 → s.pm.entry = none → pmState s = 2 → wakes (fun t => pmState t = 0 ∧ Flagged t kPM_STAT_WAKE ∧
       t.f fPM_WAKESRC_SRC = 2 ^ src.val ∧ t.clk = (s.advance (50000 * nsU)).clk ∧ t.plate = s.plate ∧ t.tray = s.tray ∧
       ∀ c, (t.core c).waiting = true → tfind s.cores c = none)) ∧
     (on → src.val = 0 → s.pm.entry = none → pmState s = 4 → s.pm.pwren = false → wakes (fun t => t.pm.pwren = true ∧
       t.f fPM_WAKESRC_SRC = 1 ∧ Flagged t kPM_STAT_WAKE ∧ pmState t = 4)) ∧
     (on → src.val = 0 → s.pm.entry = none → pmState s = 3 → wakes (fun t => pmState t = 0 ∧ Flagged t kPM_STAT_WAKE ∧
       t.tray = s.tray ∧ t.dram = s.dram ∧ t.imem = [] ∧
       (s.fb fPM_PLATE_RET_RET = true → t.plate = s.plate ∧ t.ks.nonce = s.ks.nonce ∧ t.poison = s.poison) ∧
       (s.fb fPM_PLATE_RET_RET = false → t.plate = []) ∧ ∀ c < 32, (t.core c).held = false)))

/-- R388–R392: a domain gates itself once its timer has run, wakes on an access in 8 steps, and a ramp or rail failure opens its
switch for good until CLRFLT in MAINTENANCE. -/
def Clause.PowerDomains : Prop :=
  ∀ (s : State) (d : Fin 20),
    let st := s.f fPM_DOM_STATE d
    let is := fun (t : State) (n : Nat) => t.f fPM_DOM_STATE d = n
    let used := tget 0 s.pm.usedAt d
    let stalled := s.pm.stall.filter fun x => x.dom == d.val
    let steps := tget 0 s.pm.ramp d
    (st = 0 → s.fb fPM_DOM_AUTO d = true → pinned s d = false → gateable s d = true → pmState s < 2 →
      Completes (exec (.domainGate d) s) (fun t => is t 1 ∧
        t.now = max s.now (lastUsed s d + s.f fPM_DOM_TIMER d * 1000 * nsU) ∧
        (∀ n, n ≠ rPM_DOM.key d 0 → d.val < 12 ∨ d.val = 16 ∨ regDomain n ≠ some d.val → tfind t.regs n = tfind s.regs n) ∧
        (∀ n, 12 ≤ d.val → d.val ≠ 16 → regDomain n = some d.val → tfind t.regs n = none) ∧ t.tray = s.tray)) ∧
    (st ≠ 0 ∨ pinned s d = true ∨ gateable s d = false → Completes (exec (.domainGate d) s) (Same s)) ∧
    (∀ dl, st = 1 → Completes (exec (.demandWake d dl) s) (fun t => is t 2 ∧ Counted s t fPM_DWAKE_CNT_CNT d ∧
      tget 0 t.pm.ramp d = 1 ∧ tget 0 t.pm.usedAt d = s.now ∧ (dl = true → Flagged t kPM_STAT_DLWAKE))) ∧
    (∀ dl, st = 4 → Completes (exec (.demandWake d dl) s) (fun t => is t 4 ∧ t.resp = .err ∧ Flagged t kMX_STAT_DECERR)) ∧
    (st = 2 → steps < 8 → Completes (exec (.rampStep d) s) (fun t => is t 2 ∧ tget 0 t.pm.ramp d = steps + 1 ∧
      t.now = max s.now (used + 2000 * steps * nsU) ∧ t.regs = s.regs)) ∧
    (st = 2 → steps = 8 → stalled = [] → Completes (exec (.domainOn d) s) (fun t => is t 0 ∧
      t.now = max s.now (used + wakeNs d * nsU) ∧ tget 0 t.pm.usedAt d = t.now)) ∧
    (∀ x, st = 2 → steps = 8 → s.pm.stall = [x] → x.dom = d → Completes (exec (.domainOn d) s) (fun t =>
      let on := domainOn s d
      let u := stalledAccess { on with pm := { on.pm with stall := [] } } x
      t.resp = u.resp ∧ t.regs = u.regs ∧ t.pm.stall = u.pm.stall)) ∧
    (∀ why, st = (if why = FCause.railDrop then 0 else 2) → pmState s < 3 →
      Completes (exec (.switchOpen d why) s) (fun t => is t 4 ∧ t.bist.replace = true ∧ t.pm.replN = false ∧
        t.f fPM_DOM_FCAUSE d = (match why with | .slow => 1 | .inrush => 2 | .railDrop => 3) ∧ Flagged t kPM_STAT_SSFAULT ∧
        (st = 2 → d.val ≠ 12 → Flagged t kMX_STAT_DECERR) ∧ (stalled ≠ [] → t.resp = .err))) ∧
    (∀ v : Word, Completes (exec (.pmDomClrflt d v) s) (fun t => t.f fPM_DOM_AUTO d = bits v.toNat 30 1 ∧
      t.f fPM_DOM_TIMER d = v.toNat % 65536 ∧
      is t (if bit v.toNat 31 = true ∧ s.maint = true ∧ st = 4 then 1 else st)))

/-- R393–R396: the charger's phases, the missing cell and the probe that finds it again. -/
def Clause.BackupCell : Prop :=
  ∀ (s : State) (mv : Nat), pmState s ≠ 4 →
    let chg := s.f fBT_STATE_CHG
    let is := fun (t : State) (n : Nat) => t.f fBT_STATE_CHG = n
    let shows := fun (t : State) (m : Nat) => t.f fBT_STATE_VBAT = m % 4096
    (chg = 1 → Completes (exec .constantVoltage s) (fun t => is t 2 ∧ shows t (vcvMv s))) ∧
    (chg = 2 → Completes (exec .chargeDone s) (fun t => is t 3 ∧ Flagged t kBT_STAT_DONE)) ∧
    (chg = 3 → mv + 100 ≤ vcvMv s → Completes (exec (.recharge mv) s) (fun t => is t 1 ∧ shows t mv)) ∧
    (chg = 3 → vcvMv s < mv + 100 → Completes (exec (.recharge mv) s) (Same s)) ∧
    (chg = 0 ∨ chg = 3 ∨ chg = 4 → Completes (exec (.vbatSample mv) s) (fun t => is t chg ∧ shows t mv ∧
      (mv < 2000 → Flagged t kBT_STAT_LOW))) ∧
    (chg = 1 ∨ chg = 2 → Completes (exec (.cellRemoved mv) s) (fun t => is t 4 ∧ shows t mv ∧
      t.f fBT_STATE_PRESENT = 0 ∧ Flagged t kBT_STAT_ABSENT)) ∧
    (chg = 4 → mv < 20 → Completes (exec (.probe mv) s) (fun t => is t 1 ∧ t.f fBT_STATE_PRESENT = 1 ∧
      Flagged t kBT_STAT_PRESENT)) ∧
    (chg = 4 → 20 ≤ mv → Completes (exec (.probe mv) s) (Same s))

/-- Power domains and the backup cell. What a FAULTED domain takes from service, what wakes D17, and details of the cell's
phases are the model's readings (DEDUCED, log entries 23, 59, 61 and 101). -/
def Obligations.DomainsAndCell : Prop :=
  Clause.PowerDomains ∧ Clause.BackupCell

/-- R43, R352, R385, R393, R396, R398, R437–R439: what a power-up, RESET_N and the loss of the main supply keep: the Vault
while VBAT lasts, the VBAT island, and Safelight; the rest has its reset value, station time is the RTC's with the
monotonic timebase aligned to it, and start-up BIST begins. The reset values that the spec does not give, station time
at a reset, and what lasts through each reset are the model's (log entries 4, 60 and 100). -/
def Obligations.Resets : Prop :=
  ∀ (s : State) (straps : BitVec 3) (mv : Nat),
    let fresh := fun (t : State) => t.cores = [] ∧ t.ctxs = [] ∧ t.points = [] ∧ t.plate = [] ∧ t.tray = [] ∧ t.imem = [] ∧
      t.lanes = [] ∧ t.bist.running = true ∧ t.bist.slice = 0 ∧ t.stopped = false ∧ t.pending = s.pending
    let aligned := fun (t : State) (tai : Nat) => t.tai = rtcTime tai ∧ t.now = t.tai * nsU
    let strapped := fun (t : State) => t.f fGL_STRAP_PCIEGEN = straps.toNat % 4 ∧
      t.f fGL_STRAP_DERATE = bits straps.toNat 2 1 ∧ t.clk.slow = (Config.gradeAL || bit straps.toNat 2)
    (pmState s ≠ 4 → Completes (exec (.resetN straps) s) (fun t => fresh t ∧ strapped t ∧ t.vault = s.vault ∧ t.ks.cnt = s.ks.cnt ∧ pmState t = 0 ∧
      aligned t s.tai ∧ t.f fSL_CAUSE_CAUSE = s.f fSL_CAUSE_CAUSE ∧ t.fb fSL_CTL_LOCK = false)) ∧
    (pmState s = 4 → Completes (exec (.resetN straps) s) (Same s)) ∧
    (s.ks.offTamp = none → Completes (exec (.powerOnReset straps true) s) (fun t => fresh t ∧ strapped t ∧ t.vault = s.vault ∧ pmState t = 0 ∧
      aligned t (s.advance (1000000 * nsU)).tai ∧ t.f fBT_CFG_VCV = s.f fBT_CFG_VCV)) ∧
    (pmState s ≠ 4 → Completes (exec (.vbatTakeover mv) s) (fun t => pmState t = 4 ∧ t.vault = s.vault ∧ t.cores = [] ∧
      t.plate = [] ∧ t.f fBT_STATE_VBAT = mv % 4096 ∧ t.f fBT_CFG_VCV = s.f fBT_CFG_VCV ∧
      ∀ d < 20, t.f fPM_DOM_STATE d = if domFaulted s d then 4 else 3))

/-- R396: a power-up after the Safelight supply and VBAT were both lost finds the Vault's contents gone, reports it as
LC_STAT.VAULTLOST and wipes the Vault. -/
def Obligations.VaultLost : Prop :=
  ∀ (s : State) (straps : BitVec 3), Completes (exec (.powerOnReset straps false) s) (fun t =>
    t.vault = [] ∧ t.keys = [] ∧ t.ks.cnt = [] ∧ Flagged t kLC_STAT_VAULTLOST ∧ pmState t = 0 ∧
    t.ks.wipe = some (t.now + 327680 * nsU, none))

-- Self-test and Safelight ----------------------------------------------------------------------------------------------------------------------------------------------------------

/-- R399–R402, R408, R439: a start-up slice that ends or is aborted at its budget is recorded, its failed units are marked, and
the next slice, or the cores, start. -/
def Clause.StartUpTest : Prop :=
  ∀ (s : State) (us : List Nat), s.bist.running = true → s.stopped = false → pmState s ≠ 4 → s.bist.slice ≤ 10 →
    let i := s.bist.slice
    let goesOn := fun (t : State) => (i < 10 → t.bist.slice = i + 1 ∧ t.bist.running = true ∧ t.bist.start = t.now) ∧
      (i = 10 → t.bist.running = false ∧ Flagged t kBI_STAT_DONE ∧ ∀ c < 32, (t.core c).held = false)
    let marked := fun (t : State) =>
      (∀ u < 32, us = [u] → i = 2 ∨ i = 4 → bit (unitBad s fBI_UNUSABLE_CL) (u / 4) = false →
        bit (t.f fBI_UNUSABLE_CL) (u / 4) = true ∧ bit (t.f fSCH_CAP_FAULTED) (u / 4) = true ∧ t.bist.replace = true) ∧
      (∀ g < 32, ∀ k < 32, us = [33 * g + k] → i = 3 → s.f fPLT_BG_STAT_SPARE_FAIL g = 0 →
        (s.f fPLT_BG_STAT_SPARE_USED g = 0 → t.f fPLT_BG_STAT_SPARE_USED g = 1 ∧ t.f fPLT_BG_STAT_SPARE_FOR g = k ∧
          Flagged t kPLT_STAT_SPARE) ∧
        (s.f fPLT_BG_STAT_SPARE_USED g = 1 → t.bist.crit = true)) ∧
      (∀ u, us = [u] → i = 5 ∨ i = 6 → t.bist.crit = true ∧ t.bist.replace = true)
    (sliceU s i ≤ budgetU s i → Completes (exec (.bistSliceEnd ⟨us⟩) s) (fun t => goesOn t ∧ marked t ∧
      t.now = max s.now (s.bist.start + sliceU s i) ∧
      (us = [] → t.f fBI_RESULT_PASS = s.f fBI_RESULT_PASS ||| 2 ^ i) ∧
      (us ≠ [] → t.f fBI_RESULT_PASS = s.f fBI_RESULT_PASS ∧ Flagged t kBI_STAT_FAIL))) ∧
    (budgetU s i < sliceU s i → Completes (exec (.bistSliceEnd ⟨us⟩) s) (Same s)) ∧
    Completes (exec (.sliceOverrun ⟨us⟩) s) (fun t => goesOn t ∧ marked t ∧ t.now = max s.now (s.bist.start + budgetU s i) ∧
      t.f fBI_RESULT_ABORT = s.f fBI_RESULT_ABORT ||| 2 ^ i ∧ Flagged t kBI_STAT_OVR)

/-- R403–R407, R447: an online slice runs in a gap on a free unit and counts when it ends or is aborted; a direct test answers in
RES, in a state that allows it; GL_TEMP shows the hottest sensor, the lowest index on a tie. -/
def Clause.OnlineAndDirectTests : Prop :=
  ∀ (s : State),
    (∀ (k : SliceKind) (u : Fin 1056), s.lc = 3 ∨ s.lc = 4 → s.fb fBI_CTL_ONLINE = true → inGap s = true →
      s.bist.online = none → unitFree s k u = true → s.stopped = false → s.bist.running = false →
      domOn s 19 = true → fabricOn s = true → Completes (exec (.onlineSlice k u) s) (fun t =>
        t.bist.online = some (k, u.val, s.now) ∧ t.bist.gapTo = slotEnd s ∧ t.regs = s.regs)) ∧
    (∀ (k : SliceKind) (u start : Nat) (x : Fin 1056), s.bist.online = some (k, u, start) → onlineUnit k u x = true →
      let due := start + onlineCyc s k u * s.cyc
      (due ≤ s.bist.gapTo → Completes (exec (.onlineSliceEnd x .pass) s) (fun t => t.bist.online = none ∧
        t.now = max s.now due ∧ Counted s t fBI_ONCNT_CNT ∧ t.f fBI_UNUSABLE_CL = s.f fBI_UNUSABLE_CL)) ∧
      (s.bist.gapTo < due → ∀ res, Completes (exec (.onlineSliceEnd x res) s) (fun t => t.bist.online = none ∧
        t.now = max s.now s.bist.gapTo ∧ Counted s t fBI_ONABORT_CNT_CNT)) ∧
      (due ≤ s.bist.gapTo → k = .pipe ∨ k = .neg → u < 32 → coreLost s (4 * (u / 4)) = false →
        Completes (exec (.onlineSliceEnd x .fail) s) (fun t => t.bist.online = none ∧ Flagged t kBI_STAT_ONFAIL ∧
          bit (t.f fBI_UNUSABLE_CL) (u / 4) = true ∧ (k = .neg → Flagged t kNEG_STAT_BISTFAIL)))) ∧
    (∀ (v : Word) (pass : Bool) (op : Nat) (i : Instr), bit v.toNat 31 = true → domOn s 19 = true →
      (op, i) ∈ [(1, Instr.biDirectScanDump v pass), (2, .biDirectMarch v pass), (3, .biDirectLbist v pass),
        (4, .biDirectLoopback v pass)] →
      let u := v.toNat % 32
      let may := s.lc = 0 ∨ s.lc = 1 ∨ s.lc = 4
      (may → Completes (exec i s) (fun t => t.f fBI_DIRECT_OP = op ∧ t.f fBI_DIRECT_UNIT = u ∧
        t.f fBI_DIRECT_RES = (if directRefused s op u = true then 2 else if pass = true then 1 else 3) ∧
        (op = 2 → directRefused s op u = false → ∀ a, bankOf (a / 8 % 32768) / 32 = u → mget t.plate a = 0))) ∧
      (¬may → Completes (exec i s) (fun t => Flagged t kBI_STAT_GATED ∧ t.plate = s.plate ∧
        t.reg rBI_DIRECT 0 0 = s.reg rBI_DIRECT 0 0))) ∧
    (∀ (ts : List Int) (i : Nat) (x : Int), i < 8 → ts[i]? = some x → bit s.bist.sensors i = false →
      (∀ j < 8, ∀ y, ts[j]? = some y → bit s.bist.sensors j = false → y < x ∨ y = x ∧ i ≤ j) →
      Completes (exec (.glTempUpdate ts) s) (fun t => t.f fGL_TEMP_SENSOR = i ∧ t.f fGL_TEMP_MAX = uenc 8 x))

/-- Start-up, online and direct self-test. How failed units are numbered, and that a direct test carries its result, are
the model's (log entries 30, 96 and 108). -/
def Obligations.SelfTest : Prop :=
  Clause.StartUpTest ∧ Clause.OnlineAndDirectTests

/-- R28, R29, R409, R410, R414: each trigger reaches Safelight under its number, a register's three edges of its 100 MHz
clock later, and so does a kick; stop bath begins at the first arrival, once D14 and D19 have ramped out of Deep sleep,
shows as its causes what arrives before the freeze completes, drives ALARM_N low, discards what has not started and drops
a sleep request. In which state an early kick leaves the watchdog, and that the freeze completes 4 ns after the arrival,
are the model's readings (DEDUCED, log entries 78 and 118). -/
def Obligations.StopBath : Prop :=
  ∀ (s : State) (v : Word),
    let sent := fun (t : State) (n at_ : Nat) => t.sl.trig = s.sl.trig ++ [(n, at_)]
    let m := crossed s.now slU 3
    (∀ w real, s.sl.kick = some (w, real) → s.fb fSL_WDOG_EN = true → s.stopped = false →
      let due := watchdogDue s w
      let early := real = true ∧ m < w + s.f fSL_WDOG_MIN * 1000000 * nsU
      Completes (exec .watchdogExpiry s) (fun t => sent t 0 t.now ∧ t.sl.kick = none ∧ Flagged t kSL_STAT_WDOG ∧
        t.now = max s.now due) ∧
      (bit v.toNat 0 = true → m < due → ¬early → Completes (exec (.slWdkickKick v) s) (fun t =>
        t.sl.kick = some (m, true) ∧ t.sl.trig = s.sl.trig ∧ t.regs = s.regs)) ∧
      (bit v.toNat 0 = true → due ≤ m ∨ early → Completes (exec (.slWdkickKick v) s) (fun t =>
        sent t 0 (if due ≤ m then max s.now due else m) ∧ t.sl.kick = none ∧ Flagged t kSL_STAT_WDOG))) ∧
    Completes (exec .stopN s) (fun t => sent t 1 s.now ∧ t.regs = s.regs) ∧
    (bit v.toNat 0 = true → Completes (exec (.slStopGo v) s) (fun t => sent t 2 m ∧ t.regs = s.regs)) ∧
    (bit v.toNat 0 = false → Completes (exec (.slStopGo v) s) (Same s)) ∧
    (∀ x xs, s.sl.trig = x :: xs → (∀ b ∈ x :: xs, b.1 < 5) → s.stopped = false → pmState s ≠ 4 →
      let w := s.advanceTo (xs.foldl (fun m b => min m b.2) x.2)
      let u := if pmState s = 3 then w.advance (16000 * nsU) else w
      (∀ c < 32, nextEvent w c = none) →
      Completes (exec .stopBath s) (fun t => t.stopped = true ∧ t.pm.alarmN = false ∧ t.sl.trig = [] ∧ t.sl.stopAt = u.tai ∧
        (∀ n < 5, bit (t.f fSL_CAUSE_CAUSE) n = (x :: xs).any fun b => b.1 == n && decide (b.2 ≤ u.now + 4 * nsU)) ∧
        Flagged t kSL_STAT_STOPBATH ∧ t.pubq = [] ∧ t.plan.mig = [] ∧ (∀ p, (t.pipe p).wait = none) ∧
        (∀ p, (t.port p).egq = [] ∧ (t.port p).ing = []) ∧ (∀ l, (t.lane l).build = []) ∧ t.pm.entry = none ∧ t.f fPM_REQ_PEND = 0 ∧
        (s.f fSL_STATE_LOG = 0 → s.ks.wipe = none → t.sl.sealAt = some (u.now + 82000 * nsU)) ∧
        (s.f fSL_STATE_LOG ≠ 0 → t.sl.sealAt = none) ∧ t.clk = (u.advance (4 * nsU)).clk))

/-- R411, R412, R415: in stop bath each safe-state slot sends its image with its numbers, and again up the ladder; the log
is sealed with its block and CRC; LOGREARM clears it; image words land. How the fields of an image are encoded, and
where the tag of a safe-state frame stands, are the model's (log entries 31 and 102). -/
def Obligations.SafeStateFrames : Prop :=
  ∀ (s : State) (slot : Fin 8) (v : Word),
    let sends := fun (t : State) (st sq iv : Nat) => ∀ p < 2, bit (s.f fSL_SAFE0_PORTS slot) p = true →
      s.fb fSL_SAFE0_TAG slot = false → linkUp s p = true → classDepth s p 3 < 32 →
      ∃ b, (t.port p).egq = (s.port p).egq ++ [b] ∧ b.cls = 3 ∧ b.rdy = t.now + 4 * nsU ∧
        b.f.bytes = safeBytes s slot st sq (cdiv (talFactor (s.f fSL_SAFE0_TALF slot) * iv) 1000)
    let holds := fun (t : State) (st sq iv : Nat) => tget 0 t.sl.st slot = st ∧ tget 0 t.sl.sq slot = sq ∧
      tget 0 t.sl.iv slot = iv ∧ tfind t.sl.due slot = some (t.now + iv * 1000 * nsU) ∧ sends t st sq iv
    (∀ w, tfind s.sl.build slot = some w → s.stopped = true → Completes (exec (.safeStateBuild slot) s) (fun t =>
      t.now = max s.now w ∧ holds t (wrap1 (s.reg rSL_SAFEST slot 0).toNat) 0 (s.f fSL_SAFE1_T1 slot))) ∧
    (∀ w, tfind s.sl.due slot = some w → s.stopped = true → Completes (exec (.safeStateRetransmission slot) s) (fun t =>
      t.now = max s.now w ∧ holds t (tget 0 s.sl.st slot) (wrap1 (tget 0 s.sl.sq slot))
        (min (2 * tget 0 s.sl.iv slot) (s.f fSL_SAFE1_T0 slot * 1000)))) ∧
    (∀ w, s.sl.sealAt = some w → s.ks.wipe = none → memWf s.vault = true → Completes (exec .seal s) (fun t =>
      t.now = max s.now w ∧ t.sl.sealAt = none ∧ t.f fSL_STATE_LOG = 1 ∧ Flagged t kSL_STAT_SEALED ∧
      mread t.vault 0x2FFC0 4 = leBytes 4 0x4C414553 ∧ mread t.vault 0x2FFC4 2 = leBytes 2 s.sl.logN ∧
      mread t.vault 0x2FFFC 4 = leBytes 4 (crc32 (mread t.vault 0x20000 0xFFFC)) ∧
      ∀ a, a < 0x2FFC0 ∨ 0x30000 ≤ a → mget t.vault a = mget s.vault a)) ∧
    Completes (exec (.slCtlLogrearm v) s) (fun t =>
      (s.fb fSL_CTL_LOCK = false → t.f fSL_CTL_LOGEN = bits v.toNat 0 1 ∧ t.f fSL_CTL_LOCK = bits v.toNat 31 1) ∧
      (s.fb fSL_CTL_LOCK = true → t.f fSL_CTL_LOGEN = s.f fSL_CTL_LOGEN ∧ t.fb fSL_CTL_LOCK = true) ∧
      (bit v.toNat 1 = false → t.vault = s.vault ∧ t.f fSL_STATE_LOG = s.f fSL_STATE_LOG) ∧
      (bit v.toNat 1 = true → t.f fSL_STATE_LOG = 0 ∧ (s.f fSL_STATE_LOG ≠ 0 → t.sl.logN = 0 ∧
        (memWf s.vault = true → mread t.vault 0x2FFC0 4 = [0, 0, 0, 0])))) ∧
    (memWf s.slimg = true → let n := s.f fSL_IMGADDR_WORD
      Completes (exec (.slImgdata v) s) (fun t => mread t.slimg (4 * n) 4 = leBytes 4 v.toNat ∧
        t.f fSL_IMGADDR_WORD = (n + 1) % 512 ∧ ∀ a, a < 4 * n ∨ 4 * n + 4 ≤ a → mget t.slimg a = mget s.slimg a))

-- Register access and the management SPI ----------------------------------------------------------------------------------------------------------------------------------------

/-- R7–R9, R36, R195, R413, R439, R451: an aligned 32-bit access reaches the register at its offset; a write leaves each
field as its access code says, at once or from the next plan boundary on, but a flag set in the same cycle stays set
(R204); a read answers and clears RC fields, but for what was counted in its cycle (R205); an access to a gated domain
stalls and wakes it (R389); an access of another width or alignment, or outside every block, has an error answer and no
other effect. The SPI reads only. What the same cycle is, and that MX_WAIT reads an open value, are the model's (log
entries 64, 96 and 119). -/
def Obligations.RegisterAccess : Prop :=
  ∀ (s : State) (rdr : Reader) (off : BitVec 26) (v : Word) (size : Nat),
    let o := off.toNat
    let aligned := o % 4 = 0
    (∀ r i j, aligned → busError s o = none → (regDomain o).any (domStalls s) = false → windowOff o = false →
      findReg o = some (r, i, j) →
      let u := reached s o
      (specialWrite { u with resp := .data [] } r i j v = none →
        let w := writtenWord (regLocked u r i) r.flds (u.reg r i j) (v &&& ~~~w32 (setBits u r i j))
        (r.defer = false → Completes (exec (.registerWrite rdr off v) s) (fun t => t.resp = .data [] ∧ t.reg r i j = w ∧
          (∀ n, n ≠ r.key i j → tfind t.regs n = tfind s.regs n) ∧ t.eff = s.eff ∧ t.plate = s.plate)) ∧
        (r.defer = true → regLocked u r i = false → Completes (exec (.registerWrite rdr off v) s) (fun t =>
          t.resp = .data [] ∧ t.eff = s.eff ∧ r.key i j ∈ t.newRegs ∧ (r.key i j ≠ rKS_PSTAT.key 0 0 → t.reg r i j = w))) ∧
        (r.defer = true → regLocked u r i = true → Completes (exec (.registerWrite rdr off v) s) (fun t =>
          t.resp = .data [] ∧ t.regs = s.regs ∧ t.newRegs = s.newRegs))) ∧
      (∀ v b, s.tu.setsec = some (v, b) → s.tai < b) →
      (r.base = rTU_NOW_NS.base → Completes (exec (.rcRead rdr off) s) (fun t =>
        t.resp = .data (leBytes 4 (taiNs s.tai)) ∧ timeLatch t rdr = taiSec s.tai ∧ t.regs = s.regs)) ∧
      (r.base = rMX_WAIT.base → Completes (exec (.rcRead rdr off) s) (fun t => t.regs = s.regs ∧
        (s.now ≤ tget 0 s.mxRead i → t.resp = .data (leBytes 4 0)) ∧ ∃ n < 1024, t.resp = .data (leBytes 4 n))) ∧
      (r.base ∉ [rTU_NOW_NS.base, rTU_NOW_SLO.base, rTU_NOW_SHI.base, rKS_VDATA.base, rMX_WAIT.base] →
        Completes (exec (.rcRead rdr off) s) (fun t => t.resp = .data (leBytes 4 (readView u r i j).toNat) ∧
          ((∀ f ∈ r.flds, f.acc ≠ .rc) → t.regs = s.regs) ∧ t.plate = s.plate ∧
          ((∀ f ∈ r.flds, f.lo ≤ f.hi ∧ f.hi < 32) → r.flds.Pairwise (fun f g => f.hi < g.lo ∨ g.hi < f.lo) →
            ∀ f ∈ r.flds, bits (t.reg r i j).toNat f.lo (f.hi - f.lo + 1) =
              if f.acc = .rc then rcLeft u r i j f else bits (s.reg r i j).toNat f.lo (f.hi - f.lo + 1))))) ∧
    (∀ d, aligned → busError s o = none → regDomain o = some d → s.f fPM_DOM_STATE d = 1 →
      Completes (exec (.registerWrite rdr off v) s) (fun t => t.resp = .stalled ∧ t.f fPM_DOM_STATE d = 2 ∧
        Counted s t fPM_DWAKE_CNT_CNT d ∧ t.pm.stall = s.pm.stall ++ [⟨d, rdr, o, some v⟩]) ∧
      Completes (exec (.rcRead rdr off) s) (fun t => t.resp = .stalled ∧ t.f fPM_DOM_STATE d = 2 ∧
        Counted s t fPM_DWAKE_CNT_CNT d ∧ t.pm.stall = s.pm.stall ++ [⟨d, rdr, o, none⟩])) ∧
    (∀ (hi lo rst : Nat) (a : Acc) (lk : Bool) (old : Word), lo ≤ hi → hi < 32 →
      let n := hi - lo + 1
      let x := bits v.toNat lo n
      let was := bits old.toNat lo n
      bits (writtenWord lk [⟨hi, lo, a, rst⟩] old v).toNat lo n = (match a with
        | .rw | .wo => x
        | .rwl => if lk then was else x
        | .w1c => was - Nat.land was x
        | .w1s => Nat.lor was x
        | .ro | .rc => was)) ∧
    (¬(size = 4 ∧ aligned) → Completes (exec (.narrowAccess rdr off size) s) (fun t => t.resp = .err ∧
      (decoded o = true → { t with resp := s.resp, pm := s.pm } = s) ∧
      (decoded o = false → pmState s < 2 → Flagged t kMX_STAT_DECERR) ∧ t.plate = s.plate ∧ t.eff = s.eff)) ∧
    (decoded o = false → Completes (exec (.undecodedAccess rdr off size) s) (fun t => t.resp = .err ∧
      (pmState s < 2 → Flagged t kMX_STAT_DECERR) ∧ t.plate = s.plate ∧ t.eff = s.eff)) ∧
    (∀ (cmd : Byte) (addr : BitVec 24) (n : Nat),
      (cmd = 3 → pmState s ≠ 4 → Completes (exec (.spiTransfer cmd addr n) s) (fun t =>
        { t with resp := s.resp, pm := s.pm } = s ∧ ∃ bs, t.resp = .data bs ∧ bs.length = n ∧
          ∀ i < n, 0x10000 ≤ addr.toNat → addr.toNat + i < 0x20000 →
            bs[i]? = some (mget s.vault (addr.toNat + i + 0x10000)))) ∧
      (cmd ≠ 3 ∨ pmState s = 4 → Completes (exec (.spiTransfer cmd addr n) s) (Same s)))

-- The Ubeolyn link --------------------------------------------------------------------------------------------------------------------------------------------------------------------

/-- R416, R418, R420, R421: a link that comes up starts a new session, and one that goes down forgets it; heartbeats leave
each period and are taken; owed credits return; a NAK for a frame that is no longer held takes the link down. What a
NAK carries and a replay changes, and details of the heartbeat, are the model's (log entries 91 and 92). -/
def Obligations.UbeolynLink : Prop :=
  ∀ (s : State) (u : UbFrame),
    let p := u.payload
    (∀ w : Fin 4, s.fb fUB_CTL_EN = true → unitBad s fBI_UNUSABLE_UB = 0 → s.fb fUB_LINK_UP = false → w ≠ 0 →
      s.f fPM_DOM_STATE 15 = 0 → pmState s < 2 → Completes (exec (.ubLinkUp w) s) (fun t => t.f fUB_LINK_UP = 1 ∧
        t.f fUB_LINK_WIDTH = w.val ∧ t.ub.session = Config.freeValue s.fresh ∧ t.ub.peer = none ∧ t.ub.replay = [] ∧
        t.ub.out = [] ∧ Flagged t kUB_STAT_UP)) ∧
    (s.fb fUB_LINK_UP = true → Completes (exec .ubLinkDown s) (fun t => t.ub.peer = none ∧ t.ub.replay = [] ∧
      t.ub.out = [] ∧ t.ub.lent = [] ∧ (s.ub.lent = [] → t.f fUB_LINK_UP = 0 ∧ t.f fUB_LINK_WIDTH = 0 ∧
        Flagged t kUB_STAT_LINKDN ∧ (s.fb fUB_CTL_EN = true → Counted s t fUB_LINK_RETRAINS)) ∧
      ∀ a, s.ub.lent = [a] → a.missed = false → s.stopped = false → s.fb fDLM_CTL_EN = true → bits (s.dl a.tenant).cfg.toNat 0 2 = 0 →
        Flagged t kDLM_STAT_CAP ∧ Counted s t fDLM_TN_CNT_MISSES a.tenant)) ∧
    (s.fb fUB_LINK_UP = true → pmState s < 2 → Completes (exec .heartbeatSend s) (fun t =>
      t.now = max s.now (s.ub.hbSent + ubPeriodU s) ∧ t.ub.hbSent = t.now ∧ t.ub.hbEver = true ∧
      t.ub.hbCount = (s.ub.hbCount + 1) % 2 ^ 32)) ∧
    (UbIn s u 1 → p.length = 48 → Completes (exec (.heartbeat u) s) (fun t => t.ub.hbLast = s.now ∧
      t.ub.peer = some (BitVec.ofNat 64 (netField p 40 8)) ∧ t.ub.offered = netField p 22 1 ∧
      (netField p 17 1 = 1 → ubActive s = true → netField p 0 8 < devIdNat →
        t.f fUB_LINK_ROLE = 0 ∧ Flagged t kUB_STAT_ROLEERR) ∧
      (netField p 17 1 = 0 → t.f fUB_LINK_ROLE = s.f fUB_LINK_ROLE))) ∧
    (UbIn s u 8 → Completes (exec (.idleU u) s) (fun t => t.regs = s.regs ∧ ∀ v, 1 ≤ v → v ≤ 3 →
      tget 0 t.ub.credit v = tget 0 s.ub.credit v + (u.credits.getD v 0).toNat)) ∧
    (UbIn s u 7 → let v := netField p 0 4
      let q := netField p 4 4
      let kept := s.ub.replay.any fun f => f.vc.val == v && f.seq.toNat == q
      1 ≤ v → v ≤ 3 → q ≠ tget 0 s.ub.txSeq v →
      (kept = true → Completes (exec (.nak u) s) (fun t => t.regs = s.regs ∧ t.ub.replay = s.ub.replay)) ∧
      (kept = false → Completes (exec (.nak u) s) (fun t => t.ub.peer = none ∧ t.ub.replay = [] ∧
        (s.ub.lent = [] → t.f fUB_LINK_UP = 0 ∧ Flagged t kUB_STAT_LINKDN)))) ∧
    (s.fb fUB_LINK_UP = true → s.ub.out = [] → trising s.ub.owed = true → (∃ v, tget 0 s.ub.owed v ≠ 0) →
      Completes (exec .creditReturn s) (fun t => t.now = s.now + 1000 * nsU ∧
        ∀ v, tget 0 t.ub.owed v = tget 0 s.ub.owed v - 255)) ∧
    (∀ i ∈ [Instr.heartbeat u, .mirror u, .ckpt u, .pubst u, .takeU u, .holdU u, .nak u, .idleU u, .lend u, .lendout u], s.fb fUB_LINK_UP = true → pmState s < 2 → u.good = false →
      Completes (exec i s) (fun t => Flagged t kUB_STAT_RXERR ∧ t.ub = s.ub ∧ t.ptq = s.ptq ∧ t.tray = s.tray))

/-- R422–R427: without heartbeats the standby asks with TAKE; without HOLD it becomes active and every valid publication
goes out; mirrors, checkpoints and lent activations arrive at what they name, and a checkpoint is refogged into its
slice. How a decision output is laid out, what a mirror write does at a point that cannot take it, and details of a
takeover are the model's (log entries 12, 38 and 92). -/
def Obligations.UbeolynPartner : Prop :=
  ∀ (s : State) (u : UbFrame),
    let p := u.payload
    let seqs := fun (t : State) => u.vc.val ≠ 0 →
      tget 0 t.ub.rxSeq u.vc.val = (tget 0 s.ub.rxSeq u.vc.val + 1) % 2 ^ 32
    let active := fun (t : State) => t.f fUB_LINK_ROLE = 1 ∧ t.ub.take = none ∧ Flagged t kUB_STAT_TAKEOVER ∧
      ∀ cb < 1024, ∀ ws, tfind s.recs (recKey 3 cb) = some ws → bit (wd ws 0) 31 = true →
        ∃ q ∈ t.pubq, q.cb = cb ∧ q.takeover = true
    (standby s = true → s.ub.take = none → pmState s < 2 → Completes (exec .heartbeatMiss s) (fun t =>
      t.ub.take = some t.now ∧ t.now = max s.now (s.ub.hbLast + s.f fUB_HB_MISS * ubPeriodU s) ∧ standby t = true ∧
      Flagged t kUB_STAT_HBLOSS)) ∧
    (∀ w, s.ub.take = some w → standby s = true → pmState s < 2 → Completes (exec .takeover s) (fun t => active t ∧
      t.now = max s.now (w + takeWaitU s))) ∧
    (UbIn s u 5 → ubActive s = true → Completes (exec (.takeU u) s) (fun t => t.regs = s.regs ∧ ubActive t = true)) ∧
    (∀ w, UbIn s u 5 → ubActive s = false → s.ub.take = some w → s.now < w + ubPeriodU s →
      Completes (exec (.takeU u) s) (fun t => (devIdNat < s.ub.peerId.toNat → active t) ∧
        (s.ub.peerId.toNat ≤ devIdNat → t.f fUB_LINK_ROLE = 0 ∧ Flagged t kUB_STAT_ROLEERR ∧ t.pubq = s.pubq))) ∧
    (∀ w, UbIn s u 6 → s.ub.take = some w → standby s = true → s.now ≤ w + takeWaitU s →
      Completes (exec (.holdU u) s) (fun t => t.ub.take = none ∧ t.ub.hbLast = s.now ∧ t.regs = s.regs)) ∧
    (UbIn s u 2 → Completes (exec (.mirror u) s) (fun t => t.ptq = s.ptq ++ (pieces 32 64 p).map mirrorWrite ∧ seqs t ∧
      t.regs = s.regs)) ∧
    (UbIn s u 4 → Completes (exec (.pubst u) s) (fun t => seqs t ∧ t.regs = s.regs ∧
      ∀ before e rest, pieces 8 256 p = before ++ e :: rest →
        (∀ x ∈ rest, netField x 0 4 % 1024 ≠ netField e 0 4 % 1024) →
        tget 0 t.ub.stm (netField e 0 4 % 1024) = netField e 4 4)) ∧
    (UbIn s u 3 → standby s = true → 8 ≤ p.length → Completes (exec (.ckpt u) s) (fun t => seqs t ∧
      (netField p 0 4 % 256, netField p 4 4, p.drop 8) ∈ t.ub.ckpt ∧ t.tray = s.tray)) ∧
    (∀ (tn : Tenant) (off : Nat) (bs : List Byte), standby s = true → s.ub.ckpt = [(tn.val, off, bs)] →
      ctxBusy s (s.place tn).1 (s.place tn).2 = false → off + bs.length ≤ 16384 → keyless s = false →
      memWf s.tray = true →
      let a := 16384 * (s.place tn).2 + off
      Completes (exec (.checkpointRefog tn) s) (fun t => t.ub.ckpt = [] ∧ trayBytes t (s.place tn).1 a bs.length = bs ∧
        ∀ x, x < trayKey (s.place tn).1 a ∨ trayKey (s.place tn).1 a + bs.length ≤ x → mget t.tray x = mget s.tray x)) ∧
    (UbIn s u 9 → let a := actOf s p
      Completes (exec (.lend u) s) (fun t => seqs t ∧
        t.postq = s.postq ++ (if bit (s.e fUB_LEND_OFFER) ((s.place a.tenant).1 / 4) then [{ a with lent := true, id := s.plan.posts }]
          else []))) ∧
    (∀ a rest, UbIn s u 10 → takeOut (sameAct p) s.ub.lent = some (a, rest) → s.fb fDLM_CTL_EN = true → s.stopped = false →
      s.now + (s.dl a.tenant).e ≤ a.deadline →
      let outs := (pieces 24 64 (p.drop 16)).map outOf
      Completes (exec (.lendout u) s) (fun t => t.ub.lent = rest ∧
        t.ptq.map (·.pt) = s.ptq.map (·.pt) ++ heldPoints outs ∧ t.pubq.map (·.cb) = s.pubq.map (·.cb) ++ heldPubs outs ∧
        t.f fDLM_TN_CNT_DONE a.tenant = (s.f fDLM_TN_CNT_DONE a.tenant + 1) % 2 ^ fDLM_TN_CNT_DONE.w))

-- Every command ------------------------------------------------------------------------------------------------------------------------------------------------------------------------

/-- A step takes the command at the front of the queue and runs it on the rest; without one, a fabric cycle passes (the model's
choice, log entry 1). -/
def Obligations.StepRunsTheCommand : Prop :=
  (∀ (s : State) (c : Instr) (cs : List Instr), s.pending = c :: cs → step s = exec c { s with pending := cs }) ∧
  (∀ s : State, s.pending = [] → ∃ t, step s = .next t ∧ t.clk = s.clk.advance s.cyc ∧ { t with clk := s.clk, pm := s.pm } = s)

/-- R318, R408, R410: whatever a step does, the output pins of the state that it answers follow that state. -/
def Obligations.PinsAlwaysFollow : Prop :=
  ∀ s t : State, PinsFollow s → step s = .next t → PinsFollow t

/-- R437, R439: right after reset the pins follow the state, every memory is in its canonical form, no command waits, start-up
BIST is at slice 0, and every core is held. -/
def Obligations.StateAtReset : Prop :=
  PinsFollow State.reset ∧ MemsCanonical State.reset ∧ State.reset.pending = [] ∧ State.reset.bist.running = true ∧
  State.reset.bist.slice = 0 ∧ (∀ c, (State.reset.core c).held = true) ∧ pmState State.reset = 0 ∧ State.reset.stopped = false ∧
  ∀ r i j, State.reset.reg r i j = r.rst i j
end

