-- ==== Sys2Proof/Laws/Tab.lean ====
section
/-! SUPPORT. Laws of the sparse tables: reading back what was written, leaving every other key alone, and keeping the
canonical form. -/

namespace Sys2Proof.Machine
open Sys2Proof

@[simp] theorem tfind_tput_self {α : Type} (t : Tab α) (k : Nat) (v : α) : tfind (tput t k v) k = some v := by
  induction t with
  | nil => simp [tput, tfind]
  | cons e t ih =>
    obtain ⟨k', v'⟩ := e
    unfold tput
    split
    · simp [tfind]
    · split
      · simp [tfind]
      · rename_i h₁ h₂
        simp [tfind, ih, Ne.symm h₂]

theorem tfind_tput_ne {α : Type} (t : Tab α) {k n : Nat} (v : α) (h : n ≠ k) : tfind (tput t k v) n = tfind t n := by
  induction t with
  | nil => simp [tput, tfind, Ne.symm h]
  | cons e t ih =>
    obtain ⟨k', v'⟩ := e
    unfold tput
    split
    · simp [tfind, Ne.symm h]
    · split
      · rename_i h₁ h₂
        subst h₂
        simp [tfind, Ne.symm h]
      · simp [tfind, ih]

theorem tget_eq {α : Type} (d : α) (t : Tab α) (k : Nat) : tget d t k = (tfind t k).getD d := by
  induction t with
  | nil => rfl
  | cons e t ih =>
    obtain ⟨k', v'⟩ := e
    unfold tget tfind
    split <;> simp [ih]

@[simp] theorem tget_tput_self {α : Type} (d : α) (t : Tab α) (k : Nat) (v : α) : tget d (tput t k v) k = v := by
  simp [tget_eq]

theorem tget_tput_ne {α : Type} (d : α) (t : Tab α) {k n : Nat} (v : α) (h : n ≠ k) :
    tget d (tput t k v) n = tget d t n := by simp [tget_eq, tfind_tput_ne t v h]

-- Keys strictly rising ------------------------------------------------------------------------------------------------------

/-- Every key of the table is at least `m`. -/
def keysFrom {α : Type} (m : Nat) (t : Tab α) : Prop := ∀ e ∈ t, m ≤ e.1

theorem trising_cons {α : Type} (k : Nat) (v : α) (t : Tab α) :
    trising ((k, v) :: t) = true ↔ trising t = true ∧ keysFrom (k + 1) t := by
  induction t generalizing k v with
  | nil => simp [trising, keysFrom]
  | cons e t ih =>
    obtain ⟨k', v'⟩ := e
    have h := ih k' v'
    constructor
    · intro hh
      simp only [trising, Bool.and_eq_true, decide_eq_true_eq] at hh
      refine ⟨hh.2, ?_⟩
      intro e he
      rcases List.mem_cons.mp he with rfl | he
      · exact hh.1
      · have := (h.mp hh.2).2 e he
        omega
    · rintro ⟨h₁, h₂⟩
      simp only [trising, Bool.and_eq_true, decide_eq_true_eq]
      exact ⟨h₂ (k', v') (by simp), h₁⟩

theorem keysFrom_mono {α : Type} {m n : Nat} {t : Tab α} (h : keysFrom n t) (hm : m ≤ n) : keysFrom m t :=
  fun e he => Nat.le_trans hm (h e he)

theorem tdel_sub {α : Type} (t : Tab α) (k : Nat) : ∀ e ∈ tdel t k, e ∈ t := by
  induction t with
  | nil => simp [tdel]
  | cons x t ih =>
    obtain ⟨k', v'⟩ := x
    intro e he
    unfold tdel at he
    split at he
    · exact List.mem_cons_of_mem _ he
    · rcases List.mem_cons.mp he with rfl | he
      · simp
      · exact List.mem_cons_of_mem _ (ih e he)

theorem tput_mem {α : Type} (t : Tab α) (k : Nat) (v : α) : ∀ e ∈ tput t k v, e = (k, v) ∨ e ∈ t := by
  induction t with
  | nil => simp [tput]
  | cons x t ih =>
    obtain ⟨k', v'⟩ := x
    intro e he
    unfold tput at he
    split at he
    · rcases List.mem_cons.mp he with rfl | he
      · simp
      · exact Or.inr he
    · split at he
      · rcases List.mem_cons.mp he with rfl | he
        · simp
        · exact Or.inr (List.mem_cons_of_mem _ he)
      · rcases List.mem_cons.mp he with rfl | he
        · simp
        · rcases ih e he with h | h
          · exact Or.inl h
          · exact Or.inr (List.mem_cons_of_mem _ h)

theorem trising_tdel {α : Type} (t : Tab α) (k : Nat) (h : trising t = true) : trising (tdel t k) = true := by
  induction t with
  | nil => simp [tdel, trising]
  | cons x t ih =>
    obtain ⟨k', v'⟩ := x
    have hc := (trising_cons k' v' t).mp h
    unfold tdel
    split
    · exact hc.1
    · exact (trising_cons _ _ _).mpr ⟨ih hc.1, fun e he => hc.2 e (tdel_sub t k e he)⟩

theorem trising_tput {α : Type} (t : Tab α) (k : Nat) (v : α) (h : trising t = true) : trising (tput t k v) = true := by
  induction t with
  | nil => simp [tput, trising]
  | cons x t ih =>
    obtain ⟨k', v'⟩ := x
    have hc := (trising_cons k' v' t).mp h
    unfold tput
    split
    · rename_i hlt
      refine (trising_cons _ _ _).mpr ⟨h, ?_⟩
      intro e he
      rcases List.mem_cons.mp he with rfl | he
      · exact hlt
      · have := hc.2 e he
        omega
    · split
      · rename_i h₁ h₂
        subst h₂
        exact (trising_cons _ _ _).mpr hc
      · rename_i h₁ h₂
        refine (trising_cons _ _ _).mpr ⟨ih hc.1, ?_⟩
        intro e he
        rcases tput_mem t k v e he with rfl | he
        · show k' + 1 ≤ k
          omega
        · exact hc.2 e he

theorem tfind_none_of_lt {α : Type} (t : Tab α) {k n : Nat} (h : keysFrom n t) (hk : k < n) : tfind t k = none := by
  induction t with
  | nil => rfl
  | cons x t ih =>
    obtain ⟨k', v'⟩ := x
    have h₁ : n ≤ k' := h (k', v') (by simp)
    unfold tfind
    rw [if_neg (by omega)]
    exact ih (fun e he => h e (List.mem_cons_of_mem _ he))

theorem tfind_tdel_self {α : Type} (t : Tab α) (k : Nat) (h : trising t = true) : tfind (tdel t k) k = none := by
  induction t with
  | nil => rfl
  | cons x t ih =>
    obtain ⟨k', v'⟩ := x
    have hc := (trising_cons k' v' t).mp h
    unfold tdel
    split
    · rename_i he
      subst he
      exact tfind_none_of_lt t hc.2 (Nat.lt_succ_self _)
    · rename_i he
      unfold tfind
      rw [if_neg he]
      exact ih hc.1

theorem tfind_tdel_ne {α : Type} (t : Tab α) {k n : Nat} (h : n ≠ k) : tfind (tdel t k) n = tfind t n := by
  induction t with
  | nil => rfl
  | cons x t ih =>
    obtain ⟨k', v'⟩ := x
    unfold tdel
    split
    · rename_i he
      subst he
      simp [tfind, Ne.symm h]
    · simp [tfind, ih]

-- Tables with a default -----------------------------------------------------------------------------------------------------

theorem tget_tset_self {α : Type} [DecidableEq α] (d : α) (t : Tab α) (k : Nat) (v : α) (h : trising t = true) :
    tget d (tset d t k v) k = v := by
  unfold tset
  split
  · rename_i hv
    simp [tget_eq, tfind_tdel_self t k h, hv]
  · simp

theorem tget_tset_ne {α : Type} [DecidableEq α] (d : α) (t : Tab α) {k n : Nat} (v : α) (h : n ≠ k) :
    tget d (tset d t k v) n = tget d t n := by
  unfold tset
  split
  · simp [tget_eq, tfind_tdel_ne t h]
  · exact tget_tput_ne d t v h

theorem trising_tset {α : Type} [DecidableEq α] (d : α) (t : Tab α) (k : Nat) (v : α) (h : trising t = true) :
    trising (tset d t k v) = true := by
  unfold tset
  split
  · exact trising_tdel t k h
  · exact trising_tput t k v h

-- Memories ------------------------------------------------------------------------------------------------------------------

@[simp] theorem memWf_nil : memWf [] = true := rfl

theorem memWf_rising {m : Tab Byte} (h : memWf m = true) : trising m = true := by
  simp only [memWf, Bool.and_eq_true] at h
  exact h.1

/-- Writing a byte keeps a memory in its canonical form. -/
theorem trising_filter {α : Type} (t : Tab α) (p : Nat × α → Bool) (h : trising t = true) :
    trising (t.filter p) = true := by
  induction t with
  | nil => rfl
  | cons x t ih =>
    obtain ⟨k, v⟩ := x
    have hc := (trising_cons k v t).mp h
    rw [List.filter_cons]
    split
    · exact (trising_cons _ _ _).mpr ⟨ih hc.1, fun e he => hc.2 e (List.mem_of_mem_filter he)⟩
    · exact ih hc.1

/-- Dropping entries keeps the canonical form: a memory that loses a bank, and a cleared range. -/
theorem memWf_filter (m : Tab Byte) (p : Nat × Byte → Bool) (h : memWf m = true) : memWf (m.filter p) = true := by
  simp only [memWf, Bool.and_eq_true, List.all_eq_true] at *
  exact ⟨trising_filter m p h.1, fun e he => h.2 e (List.mem_of_mem_filter he)⟩

theorem memWf_tclear (m : Tab Byte) (lo n : Nat) (h : memWf m = true) : memWf (tclear m lo n) = true := memWf_filter m _ h

theorem memWf_mset (m : Tab Byte) (a : Nat) (b : Byte) (h : memWf m = true) : memWf (mset m a b) = true := by
  simp only [memWf, Bool.and_eq_true, List.all_eq_true] at h ⊢
  refine ⟨trising_tset 0 m a b h.1, ?_⟩
  intro e he
  unfold mset tset at he
  split at he
  · exact h.2 e (tdel_sub m a e he)
  · rename_i hb
    rcases tput_mem m a b e he with rfl | he
    · simpa using hb
    · exact h.2 e he

/-- Writing bytes keeps a memory in its canonical form. -/
theorem memWf_mwrite (m : Tab Byte) (a : Nat) (bs : List Byte) (h : memWf m = true) : memWf (mwrite m a bs) = true := by
  induction bs generalizing m a with
  | nil => exact h
  | cons b bs ih => exact ih (mset m a b) (a + 1) (memWf_mset m a b h)

theorem mget_mset_self (m : Tab Byte) (a : Nat) (b : Byte) (h : memWf m = true) : mget (mset m a b) a = b :=
  tget_tset_self 0 m a b (memWf_rising h)

theorem mget_mset_ne (m : Tab Byte) {a x : Nat} (b : Byte) (h : x ≠ a) : mget (mset m a b) x = mget m x :=
  tget_tset_ne 0 m b h

/-- Bytes outside a write read as before. -/
theorem mget_mwrite_out (m : Tab Byte) (a x : Nat) (bs : List Byte) (h : x < a ∨ a + bs.length ≤ x) :
    mget (mwrite m a bs) x = mget m x := by
  induction bs generalizing m a with
  | nil => rfl
  | cons b bs ih =>
    simp only [List.length_cons] at h
    unfold mwrite
    rw [ih (mset m a b) (a + 1) (by omega)]
    exact mget_mset_ne m b (by omega)

/-- A byte inside a write reads as written. -/
theorem mget_mwrite_in (m : Tab Byte) (a i : Nat) (bs : List Byte) (h : memWf m = true) (hi : i < bs.length) :
    mget (mwrite m a bs) (a + i) = bs[i] := by
  induction bs generalizing m a i with
  | nil => simp at hi
  | cons b bs ih =>
    unfold mwrite
    cases i with
    | zero =>
      rw [mget_mwrite_out _ _ _ _ (by omega)]
      exact mget_mset_self m a b h
    | succ i =>
      have e : a + (i + 1) = a + 1 + i := by omega
      rw [e]
      simpa using ih (mset m a b) (a + 1) i (memWf_mset m a b h) (by simpa using hi)

end Sys2Proof.Machine
end

