-- ==== Sys2Proof/Laws/State.lean ====
section
/-! SUPPORT. What each named update of the state leaves alone, field by field, and what reading gives after it. -/

namespace Sys2Proof.Machine
open Sys2Proof

variable (s : State)

@[simp] theorem setReg_clk (r : Reg) (i j : Nat) (v : Word) : (s.setReg r i j v).clk = s.clk := rfl
@[simp] theorem setReg_eff (r : Reg) (i j : Nat) (v : Word) : (s.setReg r i j v).eff = s.eff := rfl
@[simp] theorem setReg_fresh (r : Reg) (i j : Nat) (v : Word) : (s.setReg r i j v).fresh = s.fresh := rfl
@[simp] theorem setReg_newRegs (r : Reg) (i j : Nat) (v : Word) : (s.setReg r i j v).newRegs = s.newRegs := rfl
@[simp] theorem setReg_setAt (r : Reg) (i j : Nat) (v : Word) : (s.setReg r i j v).setAt = s.setAt := rfl
@[simp] theorem setReg_plate (r : Reg) (i j : Nat) (v : Word) : (s.setReg r i j v).plate = s.plate := rfl
@[simp] theorem setReg_tray (r : Reg) (i j : Nat) (v : Word) : (s.setReg r i j v).tray = s.tray := rfl
@[simp] theorem setReg_imem (r : Reg) (i j : Nat) (v : Word) : (s.setReg r i j v).imem = s.imem := rfl
@[simp] theorem setReg_dram (r : Reg) (i j : Nat) (v : Word) : (s.setReg r i j v).dram = s.dram := rfl
@[simp] theorem setReg_vault (r : Reg) (i j : Nat) (v : Word) : (s.setReg r i j v).vault = s.vault := rfl
@[simp] theorem setReg_store (r : Reg) (i j : Nat) (v : Word) : (s.setReg r i j v).store = s.store := rfl
@[simp] theorem setReg_slimg (r : Reg) (i j : Nat) (v : Word) : (s.setReg r i j v).slimg = s.slimg := rfl
@[simp] theorem setReg_host (r : Reg) (i j : Nat) (v : Word) : (s.setReg r i j v).host = s.host := rfl
@[simp] theorem setReg_plateEcc (r : Reg) (i j : Nat) (v : Word) : (s.setReg r i j v).plateEcc = s.plateEcc := rfl
@[simp] theorem setReg_trayEcc (r : Reg) (i j : Nat) (v : Word) : (s.setReg r i j v).trayEcc = s.trayEcc := rfl
@[simp] theorem setReg_dramEcc (r : Reg) (i j : Nat) (v : Word) : (s.setReg r i j v).dramEcc = s.dramEcc := rfl
@[simp] theorem setReg_storeEcc (r : Reg) (i j : Nat) (v : Word) : (s.setReg r i j v).storeEcc = s.storeEcc := rfl
@[simp] theorem setReg_poison (r : Reg) (i j : Nat) (v : Word) : (s.setReg r i j v).poison = s.poison := rfl
@[simp] theorem setReg_cores (r : Reg) (i j : Nat) (v : Word) : (s.setReg r i j v).cores = s.cores := rfl
@[simp] theorem setReg_ctxs (r : Reg) (i j : Nat) (v : Word) : (s.setReg r i j v).ctxs = s.ctxs := rfl
@[simp] theorem setReg_pipes (r : Reg) (i j : Nat) (v : Word) : (s.setReg r i j v).pipes = s.pipes := rfl
@[simp] theorem setReg_vreg (r : Reg) (i j : Nat) (v : Word) : (s.setReg r i j v).vreg = s.vreg := rfl
@[simp] theorem setReg_vcls (r : Reg) (i j : Nat) (v : Word) : (s.setReg r i j v).vcls = s.vcls := rfl
@[simp] theorem setReg_mask (r : Reg) (i j : Nat) (v : Word) : (s.setReg r i j v).mask = s.mask := rfl
@[simp] theorem setReg_tanks (r : Reg) (i j : Nat) (v : Word) : (s.setReg r i j v).tanks = s.tanks := rfl
@[simp] theorem setReg_dlm (r : Reg) (i j : Nat) (v : Word) : (s.setReg r i j v).dlm = s.dlm := rfl
@[simp] theorem setReg_dlmSeq (r : Reg) (i j : Nat) (v : Word) : (s.setReg r i j v).dlmSeq = s.dlmSeq := rfl
@[simp] theorem setReg_vfStr (r : Reg) (i j : Nat) (v : Word) : (s.setReg r i j v).vfStr = s.vfStr := rfl
@[simp] theorem setReg_plan (r : Reg) (i j : Nat) (v : Word) : (s.setReg r i j v).plan = s.plan := rfl
@[simp] theorem setReg_postq (r : Reg) (i j : Nat) (v : Word) : (s.setReg r i j v).postq = s.postq := rfl
@[simp] theorem setReg_lanes (r : Reg) (i j : Nat) (v : Word) : (s.setReg r i j v).lanes = s.lanes := rfl
@[simp] theorem setReg_ports (r : Reg) (i j : Nat) (v : Word) : (s.setReg r i j v).ports = s.ports := rfl
@[simp] theorem setReg_pairs (r : Reg) (i j : Nat) (v : Word) : (s.setReg r i j v).pairs = s.pairs := rfl
@[simp] theorem setReg_points (r : Reg) (i j : Nat) (v : Word) : (s.setReg r i j v).points = s.points := rfl
@[simp] theorem setReg_ptcfg (r : Reg) (i j : Nat) (v : Word) : (s.setReg r i j v).ptcfg = s.ptcfg := rfl
@[simp] theorem setReg_ptq (r : Reg) (i j : Nat) (v : Word) : (s.setReg r i j v).ptq = s.ptq := rfl
@[simp] theorem setReg_evq (r : Reg) (i j : Nat) (v : Word) : (s.setReg r i j v).evq = s.evq := rfl
@[simp] theorem setReg_pubq (r : Reg) (i j : Nat) (v : Word) : (s.setReg r i j v).pubq = s.pubq := rfl
@[simp] theorem setReg_recs (r : Reg) (i j : Nat) (v : Word) : (s.setReg r i j v).recs = s.recs := rfl
@[simp] theorem setReg_tmpls (r : Reg) (i j : Nat) (v : Word) : (s.setReg r i j v).tmpls = s.tmpls := rfl
@[simp] theorem setReg_recst (r : Reg) (i j : Nat) (v : Word) : (s.setReg r i j v).recst = s.recst := rfl
@[simp] theorem setReg_pubst (r : Reg) (i j : Nat) (v : Word) : (s.setReg r i j v).pubst = s.pubst := rfl
@[simp] theorem setReg_latchH (r : Reg) (i j : Nat) (v : Word) : (s.setReg r i j v).latchH = s.latchH := rfl
@[simp] theorem setReg_latchS (r : Reg) (i j : Nat) (v : Word) : (s.setReg r i j v).latchS = s.latchS := rfl
@[simp] theorem setReg_shadow (r : Reg) (i j : Nat) (v : Word) : (s.setReg r i j v).shadow = s.shadow := rfl
@[simp] theorem setReg_newImg (r : Reg) (i j : Nat) (v : Word) : (s.setReg r i j v).newImg = s.newImg := rfl
@[simp] theorem setReg_verify (r : Reg) (i j : Nat) (v : Word) : (s.setReg r i j v).verify = s.verify := rfl
@[simp] theorem setReg_hi (r : Reg) (i j : Nat) (v : Word) : (s.setReg r i j v).hi = s.hi := rfl
@[simp] theorem setReg_tu (r : Reg) (i j : Nat) (v : Word) : (s.setReg r i j v).tu = s.tu := rfl
@[simp] theorem setReg_ks (r : Reg) (i j : Nat) (v : Word) : (s.setReg r i j v).ks = s.ks := rfl
@[simp] theorem setReg_keys (r : Reg) (i j : Nat) (v : Word) : (s.setReg r i j v).keys = s.keys := rfl
@[simp] theorem setReg_pm (r : Reg) (i j : Nat) (v : Word) : (s.setReg r i j v).pm = s.pm := rfl
@[simp] theorem setReg_bist (r : Reg) (i j : Nat) (v : Word) : (s.setReg r i j v).bist = s.bist := rfl
@[simp] theorem setReg_sl (r : Reg) (i j : Nat) (v : Word) : (s.setReg r i j v).sl = s.sl := rfl
@[simp] theorem setReg_ub (r : Reg) (i j : Nat) (v : Word) : (s.setReg r i j v).ub = s.ub := rfl
@[simp] theorem setReg_resp (r : Reg) (i j : Nat) (v : Word) : (s.setReg r i j v).resp = s.resp := rfl
@[simp] theorem setReg_patrol (r : Reg) (i j : Nat) (v : Word) : (s.setReg r i j v).patrol = s.patrol := rfl
@[simp] theorem setReg_ddrHot (r : Reg) (i j : Nat) (v : Word) : (s.setReg r i j v).ddrHot = s.ddrHot := rfl
@[simp] theorem setReg_pending (r : Reg) (i j : Nat) (v : Word) : (s.setReg r i j v).pending = s.pending := rfl

@[simp] theorem setEff_clk (r : Reg) (i j : Nat) (v : Word) : (s.setEff r i j v).clk = s.clk := rfl
@[simp] theorem setEff_regs (r : Reg) (i j : Nat) (v : Word) : (s.setEff r i j v).regs = s.regs := rfl
@[simp] theorem setEff_fresh (r : Reg) (i j : Nat) (v : Word) : (s.setEff r i j v).fresh = s.fresh := rfl
@[simp] theorem setEff_newRegs (r : Reg) (i j : Nat) (v : Word) : (s.setEff r i j v).newRegs = s.newRegs := rfl
@[simp] theorem setEff_setAt (r : Reg) (i j : Nat) (v : Word) : (s.setEff r i j v).setAt = s.setAt := rfl
@[simp] theorem setEff_plate (r : Reg) (i j : Nat) (v : Word) : (s.setEff r i j v).plate = s.plate := rfl
@[simp] theorem setEff_tray (r : Reg) (i j : Nat) (v : Word) : (s.setEff r i j v).tray = s.tray := rfl
@[simp] theorem setEff_imem (r : Reg) (i j : Nat) (v : Word) : (s.setEff r i j v).imem = s.imem := rfl
@[simp] theorem setEff_dram (r : Reg) (i j : Nat) (v : Word) : (s.setEff r i j v).dram = s.dram := rfl
@[simp] theorem setEff_vault (r : Reg) (i j : Nat) (v : Word) : (s.setEff r i j v).vault = s.vault := rfl
@[simp] theorem setEff_store (r : Reg) (i j : Nat) (v : Word) : (s.setEff r i j v).store = s.store := rfl
@[simp] theorem setEff_slimg (r : Reg) (i j : Nat) (v : Word) : (s.setEff r i j v).slimg = s.slimg := rfl
@[simp] theorem setEff_host (r : Reg) (i j : Nat) (v : Word) : (s.setEff r i j v).host = s.host := rfl
@[simp] theorem setEff_plateEcc (r : Reg) (i j : Nat) (v : Word) : (s.setEff r i j v).plateEcc = s.plateEcc := rfl
@[simp] theorem setEff_trayEcc (r : Reg) (i j : Nat) (v : Word) : (s.setEff r i j v).trayEcc = s.trayEcc := rfl
@[simp] theorem setEff_dramEcc (r : Reg) (i j : Nat) (v : Word) : (s.setEff r i j v).dramEcc = s.dramEcc := rfl
@[simp] theorem setEff_storeEcc (r : Reg) (i j : Nat) (v : Word) : (s.setEff r i j v).storeEcc = s.storeEcc := rfl
@[simp] theorem setEff_poison (r : Reg) (i j : Nat) (v : Word) : (s.setEff r i j v).poison = s.poison := rfl
@[simp] theorem setEff_cores (r : Reg) (i j : Nat) (v : Word) : (s.setEff r i j v).cores = s.cores := rfl
@[simp] theorem setEff_ctxs (r : Reg) (i j : Nat) (v : Word) : (s.setEff r i j v).ctxs = s.ctxs := rfl
@[simp] theorem setEff_pipes (r : Reg) (i j : Nat) (v : Word) : (s.setEff r i j v).pipes = s.pipes := rfl
@[simp] theorem setEff_vreg (r : Reg) (i j : Nat) (v : Word) : (s.setEff r i j v).vreg = s.vreg := rfl
@[simp] theorem setEff_vcls (r : Reg) (i j : Nat) (v : Word) : (s.setEff r i j v).vcls = s.vcls := rfl
@[simp] theorem setEff_mask (r : Reg) (i j : Nat) (v : Word) : (s.setEff r i j v).mask = s.mask := rfl
@[simp] theorem setEff_tanks (r : Reg) (i j : Nat) (v : Word) : (s.setEff r i j v).tanks = s.tanks := rfl
@[simp] theorem setEff_dlm (r : Reg) (i j : Nat) (v : Word) : (s.setEff r i j v).dlm = s.dlm := rfl
@[simp] theorem setEff_dlmSeq (r : Reg) (i j : Nat) (v : Word) : (s.setEff r i j v).dlmSeq = s.dlmSeq := rfl
@[simp] theorem setEff_vfStr (r : Reg) (i j : Nat) (v : Word) : (s.setEff r i j v).vfStr = s.vfStr := rfl
@[simp] theorem setEff_plan (r : Reg) (i j : Nat) (v : Word) : (s.setEff r i j v).plan = s.plan := rfl
@[simp] theorem setEff_postq (r : Reg) (i j : Nat) (v : Word) : (s.setEff r i j v).postq = s.postq := rfl
@[simp] theorem setEff_lanes (r : Reg) (i j : Nat) (v : Word) : (s.setEff r i j v).lanes = s.lanes := rfl
@[simp] theorem setEff_ports (r : Reg) (i j : Nat) (v : Word) : (s.setEff r i j v).ports = s.ports := rfl
@[simp] theorem setEff_pairs (r : Reg) (i j : Nat) (v : Word) : (s.setEff r i j v).pairs = s.pairs := rfl
@[simp] theorem setEff_points (r : Reg) (i j : Nat) (v : Word) : (s.setEff r i j v).points = s.points := rfl
@[simp] theorem setEff_ptcfg (r : Reg) (i j : Nat) (v : Word) : (s.setEff r i j v).ptcfg = s.ptcfg := rfl
@[simp] theorem setEff_ptq (r : Reg) (i j : Nat) (v : Word) : (s.setEff r i j v).ptq = s.ptq := rfl
@[simp] theorem setEff_evq (r : Reg) (i j : Nat) (v : Word) : (s.setEff r i j v).evq = s.evq := rfl
@[simp] theorem setEff_pubq (r : Reg) (i j : Nat) (v : Word) : (s.setEff r i j v).pubq = s.pubq := rfl
@[simp] theorem setEff_recs (r : Reg) (i j : Nat) (v : Word) : (s.setEff r i j v).recs = s.recs := rfl
@[simp] theorem setEff_tmpls (r : Reg) (i j : Nat) (v : Word) : (s.setEff r i j v).tmpls = s.tmpls := rfl
@[simp] theorem setEff_recst (r : Reg) (i j : Nat) (v : Word) : (s.setEff r i j v).recst = s.recst := rfl
@[simp] theorem setEff_pubst (r : Reg) (i j : Nat) (v : Word) : (s.setEff r i j v).pubst = s.pubst := rfl
@[simp] theorem setEff_latchH (r : Reg) (i j : Nat) (v : Word) : (s.setEff r i j v).latchH = s.latchH := rfl
@[simp] theorem setEff_latchS (r : Reg) (i j : Nat) (v : Word) : (s.setEff r i j v).latchS = s.latchS := rfl
@[simp] theorem setEff_shadow (r : Reg) (i j : Nat) (v : Word) : (s.setEff r i j v).shadow = s.shadow := rfl
@[simp] theorem setEff_newImg (r : Reg) (i j : Nat) (v : Word) : (s.setEff r i j v).newImg = s.newImg := rfl
@[simp] theorem setEff_verify (r : Reg) (i j : Nat) (v : Word) : (s.setEff r i j v).verify = s.verify := rfl
@[simp] theorem setEff_hi (r : Reg) (i j : Nat) (v : Word) : (s.setEff r i j v).hi = s.hi := rfl
@[simp] theorem setEff_tu (r : Reg) (i j : Nat) (v : Word) : (s.setEff r i j v).tu = s.tu := rfl
@[simp] theorem setEff_ks (r : Reg) (i j : Nat) (v : Word) : (s.setEff r i j v).ks = s.ks := rfl
@[simp] theorem setEff_keys (r : Reg) (i j : Nat) (v : Word) : (s.setEff r i j v).keys = s.keys := rfl
@[simp] theorem setEff_pm (r : Reg) (i j : Nat) (v : Word) : (s.setEff r i j v).pm = s.pm := rfl
@[simp] theorem setEff_bist (r : Reg) (i j : Nat) (v : Word) : (s.setEff r i j v).bist = s.bist := rfl
@[simp] theorem setEff_sl (r : Reg) (i j : Nat) (v : Word) : (s.setEff r i j v).sl = s.sl := rfl
@[simp] theorem setEff_ub (r : Reg) (i j : Nat) (v : Word) : (s.setEff r i j v).ub = s.ub := rfl
@[simp] theorem setEff_resp (r : Reg) (i j : Nat) (v : Word) : (s.setEff r i j v).resp = s.resp := rfl
@[simp] theorem setEff_patrol (r : Reg) (i j : Nat) (v : Word) : (s.setEff r i j v).patrol = s.patrol := rfl
@[simp] theorem setEff_ddrHot (r : Reg) (i j : Nat) (v : Word) : (s.setEff r i j v).ddrHot = s.ddrHot := rfl
@[simp] theorem setEff_pending (r : Reg) (i j : Nat) (v : Word) : (s.setEff r i j v).pending = s.pending := rfl

@[simp] theorem setF_clk (f : Field) (v i j : Nat) : (s.setF f v i j).clk = s.clk := rfl
@[simp] theorem setF_eff (f : Field) (v i j : Nat) : (s.setF f v i j).eff = s.eff := rfl
@[simp] theorem setF_fresh (f : Field) (v i j : Nat) : (s.setF f v i j).fresh = s.fresh := rfl
@[simp] theorem setF_newRegs (f : Field) (v i j : Nat) : (s.setF f v i j).newRegs = s.newRegs := rfl
@[simp] theorem setF_setAt (f : Field) (v i j : Nat) : (s.setF f v i j).setAt = s.setAt := rfl
@[simp] theorem setF_plate (f : Field) (v i j : Nat) : (s.setF f v i j).plate = s.plate := rfl
@[simp] theorem setF_tray (f : Field) (v i j : Nat) : (s.setF f v i j).tray = s.tray := rfl
@[simp] theorem setF_imem (f : Field) (v i j : Nat) : (s.setF f v i j).imem = s.imem := rfl
@[simp] theorem setF_dram (f : Field) (v i j : Nat) : (s.setF f v i j).dram = s.dram := rfl
@[simp] theorem setF_vault (f : Field) (v i j : Nat) : (s.setF f v i j).vault = s.vault := rfl
@[simp] theorem setF_store (f : Field) (v i j : Nat) : (s.setF f v i j).store = s.store := rfl
@[simp] theorem setF_slimg (f : Field) (v i j : Nat) : (s.setF f v i j).slimg = s.slimg := rfl
@[simp] theorem setF_host (f : Field) (v i j : Nat) : (s.setF f v i j).host = s.host := rfl
@[simp] theorem setF_plateEcc (f : Field) (v i j : Nat) : (s.setF f v i j).plateEcc = s.plateEcc := rfl
@[simp] theorem setF_trayEcc (f : Field) (v i j : Nat) : (s.setF f v i j).trayEcc = s.trayEcc := rfl
@[simp] theorem setF_dramEcc (f : Field) (v i j : Nat) : (s.setF f v i j).dramEcc = s.dramEcc := rfl
@[simp] theorem setF_storeEcc (f : Field) (v i j : Nat) : (s.setF f v i j).storeEcc = s.storeEcc := rfl
@[simp] theorem setF_poison (f : Field) (v i j : Nat) : (s.setF f v i j).poison = s.poison := rfl
@[simp] theorem setF_cores (f : Field) (v i j : Nat) : (s.setF f v i j).cores = s.cores := rfl
@[simp] theorem setF_ctxs (f : Field) (v i j : Nat) : (s.setF f v i j).ctxs = s.ctxs := rfl
@[simp] theorem setF_pipes (f : Field) (v i j : Nat) : (s.setF f v i j).pipes = s.pipes := rfl
@[simp] theorem setF_vreg (f : Field) (v i j : Nat) : (s.setF f v i j).vreg = s.vreg := rfl
@[simp] theorem setF_vcls (f : Field) (v i j : Nat) : (s.setF f v i j).vcls = s.vcls := rfl
@[simp] theorem setF_mask (f : Field) (v i j : Nat) : (s.setF f v i j).mask = s.mask := rfl
@[simp] theorem setF_tanks (f : Field) (v i j : Nat) : (s.setF f v i j).tanks = s.tanks := rfl
@[simp] theorem setF_dlm (f : Field) (v i j : Nat) : (s.setF f v i j).dlm = s.dlm := rfl
@[simp] theorem setF_dlmSeq (f : Field) (v i j : Nat) : (s.setF f v i j).dlmSeq = s.dlmSeq := rfl
@[simp] theorem setF_vfStr (f : Field) (v i j : Nat) : (s.setF f v i j).vfStr = s.vfStr := rfl
@[simp] theorem setF_plan (f : Field) (v i j : Nat) : (s.setF f v i j).plan = s.plan := rfl
@[simp] theorem setF_postq (f : Field) (v i j : Nat) : (s.setF f v i j).postq = s.postq := rfl
@[simp] theorem setF_lanes (f : Field) (v i j : Nat) : (s.setF f v i j).lanes = s.lanes := rfl
@[simp] theorem setF_ports (f : Field) (v i j : Nat) : (s.setF f v i j).ports = s.ports := rfl
@[simp] theorem setF_pairs (f : Field) (v i j : Nat) : (s.setF f v i j).pairs = s.pairs := rfl
@[simp] theorem setF_points (f : Field) (v i j : Nat) : (s.setF f v i j).points = s.points := rfl
@[simp] theorem setF_ptcfg (f : Field) (v i j : Nat) : (s.setF f v i j).ptcfg = s.ptcfg := rfl
@[simp] theorem setF_ptq (f : Field) (v i j : Nat) : (s.setF f v i j).ptq = s.ptq := rfl
@[simp] theorem setF_evq (f : Field) (v i j : Nat) : (s.setF f v i j).evq = s.evq := rfl
@[simp] theorem setF_pubq (f : Field) (v i j : Nat) : (s.setF f v i j).pubq = s.pubq := rfl
@[simp] theorem setF_recs (f : Field) (v i j : Nat) : (s.setF f v i j).recs = s.recs := rfl
@[simp] theorem setF_tmpls (f : Field) (v i j : Nat) : (s.setF f v i j).tmpls = s.tmpls := rfl
@[simp] theorem setF_recst (f : Field) (v i j : Nat) : (s.setF f v i j).recst = s.recst := rfl
@[simp] theorem setF_pubst (f : Field) (v i j : Nat) : (s.setF f v i j).pubst = s.pubst := rfl
@[simp] theorem setF_latchH (f : Field) (v i j : Nat) : (s.setF f v i j).latchH = s.latchH := rfl
@[simp] theorem setF_latchS (f : Field) (v i j : Nat) : (s.setF f v i j).latchS = s.latchS := rfl
@[simp] theorem setF_shadow (f : Field) (v i j : Nat) : (s.setF f v i j).shadow = s.shadow := rfl
@[simp] theorem setF_newImg (f : Field) (v i j : Nat) : (s.setF f v i j).newImg = s.newImg := rfl
@[simp] theorem setF_verify (f : Field) (v i j : Nat) : (s.setF f v i j).verify = s.verify := rfl
@[simp] theorem setF_hi (f : Field) (v i j : Nat) : (s.setF f v i j).hi = s.hi := rfl
@[simp] theorem setF_tu (f : Field) (v i j : Nat) : (s.setF f v i j).tu = s.tu := rfl
@[simp] theorem setF_ks (f : Field) (v i j : Nat) : (s.setF f v i j).ks = s.ks := rfl
@[simp] theorem setF_keys (f : Field) (v i j : Nat) : (s.setF f v i j).keys = s.keys := rfl
@[simp] theorem setF_pm (f : Field) (v i j : Nat) : (s.setF f v i j).pm = s.pm := rfl
@[simp] theorem setF_bist (f : Field) (v i j : Nat) : (s.setF f v i j).bist = s.bist := rfl
@[simp] theorem setF_sl (f : Field) (v i j : Nat) : (s.setF f v i j).sl = s.sl := rfl
@[simp] theorem setF_ub (f : Field) (v i j : Nat) : (s.setF f v i j).ub = s.ub := rfl
@[simp] theorem setF_resp (f : Field) (v i j : Nat) : (s.setF f v i j).resp = s.resp := rfl
@[simp] theorem setF_patrol (f : Field) (v i j : Nat) : (s.setF f v i j).patrol = s.patrol := rfl
@[simp] theorem setF_ddrHot (f : Field) (v i j : Nat) : (s.setF f v i j).ddrHot = s.ddrHot := rfl
@[simp] theorem setF_pending (f : Field) (v i j : Nat) : (s.setF f v i j).pending = s.pending := rfl

@[simp] theorem setCore_clk (c : Nat) (k : CoreSt) : (s.setCore c k).clk = s.clk := rfl
@[simp] theorem setCore_regs (c : Nat) (k : CoreSt) : (s.setCore c k).regs = s.regs := rfl
@[simp] theorem setCore_eff (c : Nat) (k : CoreSt) : (s.setCore c k).eff = s.eff := rfl
@[simp] theorem setCore_fresh (c : Nat) (k : CoreSt) : (s.setCore c k).fresh = s.fresh := rfl
@[simp] theorem setCore_newRegs (c : Nat) (k : CoreSt) : (s.setCore c k).newRegs = s.newRegs := rfl
@[simp] theorem setCore_setAt (c : Nat) (k : CoreSt) : (s.setCore c k).setAt = s.setAt := rfl
@[simp] theorem setCore_plate (c : Nat) (k : CoreSt) : (s.setCore c k).plate = s.plate := rfl
@[simp] theorem setCore_tray (c : Nat) (k : CoreSt) : (s.setCore c k).tray = s.tray := rfl
@[simp] theorem setCore_imem (c : Nat) (k : CoreSt) : (s.setCore c k).imem = s.imem := rfl
@[simp] theorem setCore_dram (c : Nat) (k : CoreSt) : (s.setCore c k).dram = s.dram := rfl
@[simp] theorem setCore_vault (c : Nat) (k : CoreSt) : (s.setCore c k).vault = s.vault := rfl
@[simp] theorem setCore_store (c : Nat) (k : CoreSt) : (s.setCore c k).store = s.store := rfl
@[simp] theorem setCore_slimg (c : Nat) (k : CoreSt) : (s.setCore c k).slimg = s.slimg := rfl
@[simp] theorem setCore_host (c : Nat) (k : CoreSt) : (s.setCore c k).host = s.host := rfl
@[simp] theorem setCore_plateEcc (c : Nat) (k : CoreSt) : (s.setCore c k).plateEcc = s.plateEcc := rfl
@[simp] theorem setCore_trayEcc (c : Nat) (k : CoreSt) : (s.setCore c k).trayEcc = s.trayEcc := rfl
@[simp] theorem setCore_dramEcc (c : Nat) (k : CoreSt) : (s.setCore c k).dramEcc = s.dramEcc := rfl
@[simp] theorem setCore_storeEcc (c : Nat) (k : CoreSt) : (s.setCore c k).storeEcc = s.storeEcc := rfl
@[simp] theorem setCore_poison (c : Nat) (k : CoreSt) : (s.setCore c k).poison = s.poison := rfl
@[simp] theorem setCore_ctxs (c : Nat) (k : CoreSt) : (s.setCore c k).ctxs = s.ctxs := rfl
@[simp] theorem setCore_pipes (c : Nat) (k : CoreSt) : (s.setCore c k).pipes = s.pipes := rfl
@[simp] theorem setCore_vreg (c : Nat) (k : CoreSt) : (s.setCore c k).vreg = s.vreg := rfl
@[simp] theorem setCore_vcls (c : Nat) (k : CoreSt) : (s.setCore c k).vcls = s.vcls := rfl
@[simp] theorem setCore_mask (c : Nat) (k : CoreSt) : (s.setCore c k).mask = s.mask := rfl
@[simp] theorem setCore_tanks (c : Nat) (k : CoreSt) : (s.setCore c k).tanks = s.tanks := rfl
@[simp] theorem setCore_dlm (c : Nat) (k : CoreSt) : (s.setCore c k).dlm = s.dlm := rfl
@[simp] theorem setCore_dlmSeq (c : Nat) (k : CoreSt) : (s.setCore c k).dlmSeq = s.dlmSeq := rfl
@[simp] theorem setCore_vfStr (c : Nat) (k : CoreSt) : (s.setCore c k).vfStr = s.vfStr := rfl
@[simp] theorem setCore_plan (c : Nat) (k : CoreSt) : (s.setCore c k).plan = s.plan := rfl
@[simp] theorem setCore_postq (c : Nat) (k : CoreSt) : (s.setCore c k).postq = s.postq := rfl
@[simp] theorem setCore_lanes (c : Nat) (k : CoreSt) : (s.setCore c k).lanes = s.lanes := rfl
@[simp] theorem setCore_ports (c : Nat) (k : CoreSt) : (s.setCore c k).ports = s.ports := rfl
@[simp] theorem setCore_pairs (c : Nat) (k : CoreSt) : (s.setCore c k).pairs = s.pairs := rfl
@[simp] theorem setCore_points (c : Nat) (k : CoreSt) : (s.setCore c k).points = s.points := rfl
@[simp] theorem setCore_ptcfg (c : Nat) (k : CoreSt) : (s.setCore c k).ptcfg = s.ptcfg := rfl
@[simp] theorem setCore_ptq (c : Nat) (k : CoreSt) : (s.setCore c k).ptq = s.ptq := rfl
@[simp] theorem setCore_evq (c : Nat) (k : CoreSt) : (s.setCore c k).evq = s.evq := rfl
@[simp] theorem setCore_pubq (c : Nat) (k : CoreSt) : (s.setCore c k).pubq = s.pubq := rfl
@[simp] theorem setCore_recs (c : Nat) (k : CoreSt) : (s.setCore c k).recs = s.recs := rfl
@[simp] theorem setCore_tmpls (c : Nat) (k : CoreSt) : (s.setCore c k).tmpls = s.tmpls := rfl
@[simp] theorem setCore_recst (c : Nat) (k : CoreSt) : (s.setCore c k).recst = s.recst := rfl
@[simp] theorem setCore_pubst (c : Nat) (k : CoreSt) : (s.setCore c k).pubst = s.pubst := rfl
@[simp] theorem setCore_latchH (c : Nat) (k : CoreSt) : (s.setCore c k).latchH = s.latchH := rfl
@[simp] theorem setCore_latchS (c : Nat) (k : CoreSt) : (s.setCore c k).latchS = s.latchS := rfl
@[simp] theorem setCore_shadow (c : Nat) (k : CoreSt) : (s.setCore c k).shadow = s.shadow := rfl
@[simp] theorem setCore_newImg (c : Nat) (k : CoreSt) : (s.setCore c k).newImg = s.newImg := rfl
@[simp] theorem setCore_verify (c : Nat) (k : CoreSt) : (s.setCore c k).verify = s.verify := rfl
@[simp] theorem setCore_hi (c : Nat) (k : CoreSt) : (s.setCore c k).hi = s.hi := rfl
@[simp] theorem setCore_tu (c : Nat) (k : CoreSt) : (s.setCore c k).tu = s.tu := rfl
@[simp] theorem setCore_ks (c : Nat) (k : CoreSt) : (s.setCore c k).ks = s.ks := rfl
@[simp] theorem setCore_keys (c : Nat) (k : CoreSt) : (s.setCore c k).keys = s.keys := rfl
@[simp] theorem setCore_pm (c : Nat) (k : CoreSt) : (s.setCore c k).pm = s.pm := rfl
@[simp] theorem setCore_bist (c : Nat) (k : CoreSt) : (s.setCore c k).bist = s.bist := rfl
@[simp] theorem setCore_sl (c : Nat) (k : CoreSt) : (s.setCore c k).sl = s.sl := rfl
@[simp] theorem setCore_ub (c : Nat) (k : CoreSt) : (s.setCore c k).ub = s.ub := rfl
@[simp] theorem setCore_resp (c : Nat) (k : CoreSt) : (s.setCore c k).resp = s.resp := rfl
@[simp] theorem setCore_patrol (c : Nat) (k : CoreSt) : (s.setCore c k).patrol = s.patrol := rfl
@[simp] theorem setCore_ddrHot (c : Nat) (k : CoreSt) : (s.setCore c k).ddrHot = s.ddrHot := rfl
@[simp] theorem setCore_pending (c : Nat) (k : CoreSt) : (s.setCore c k).pending = s.pending := rfl

@[simp] theorem setCtx_clk (c q : Nat) (x : Ctx) : (s.setCtx c q x).clk = s.clk := rfl
@[simp] theorem setCtx_regs (c q : Nat) (x : Ctx) : (s.setCtx c q x).regs = s.regs := rfl
@[simp] theorem setCtx_eff (c q : Nat) (x : Ctx) : (s.setCtx c q x).eff = s.eff := rfl
@[simp] theorem setCtx_fresh (c q : Nat) (x : Ctx) : (s.setCtx c q x).fresh = s.fresh := rfl
@[simp] theorem setCtx_newRegs (c q : Nat) (x : Ctx) : (s.setCtx c q x).newRegs = s.newRegs := rfl
@[simp] theorem setCtx_setAt (c q : Nat) (x : Ctx) : (s.setCtx c q x).setAt = s.setAt := rfl
@[simp] theorem setCtx_plate (c q : Nat) (x : Ctx) : (s.setCtx c q x).plate = s.plate := rfl
@[simp] theorem setCtx_tray (c q : Nat) (x : Ctx) : (s.setCtx c q x).tray = s.tray := rfl
@[simp] theorem setCtx_imem (c q : Nat) (x : Ctx) : (s.setCtx c q x).imem = s.imem := rfl
@[simp] theorem setCtx_dram (c q : Nat) (x : Ctx) : (s.setCtx c q x).dram = s.dram := rfl
@[simp] theorem setCtx_vault (c q : Nat) (x : Ctx) : (s.setCtx c q x).vault = s.vault := rfl
@[simp] theorem setCtx_store (c q : Nat) (x : Ctx) : (s.setCtx c q x).store = s.store := rfl
@[simp] theorem setCtx_slimg (c q : Nat) (x : Ctx) : (s.setCtx c q x).slimg = s.slimg := rfl
@[simp] theorem setCtx_host (c q : Nat) (x : Ctx) : (s.setCtx c q x).host = s.host := rfl
@[simp] theorem setCtx_plateEcc (c q : Nat) (x : Ctx) : (s.setCtx c q x).plateEcc = s.plateEcc := rfl
@[simp] theorem setCtx_trayEcc (c q : Nat) (x : Ctx) : (s.setCtx c q x).trayEcc = s.trayEcc := rfl
@[simp] theorem setCtx_dramEcc (c q : Nat) (x : Ctx) : (s.setCtx c q x).dramEcc = s.dramEcc := rfl
@[simp] theorem setCtx_storeEcc (c q : Nat) (x : Ctx) : (s.setCtx c q x).storeEcc = s.storeEcc := rfl
@[simp] theorem setCtx_poison (c q : Nat) (x : Ctx) : (s.setCtx c q x).poison = s.poison := rfl
@[simp] theorem setCtx_cores (c q : Nat) (x : Ctx) : (s.setCtx c q x).cores = s.cores := rfl
@[simp] theorem setCtx_pipes (c q : Nat) (x : Ctx) : (s.setCtx c q x).pipes = s.pipes := rfl
@[simp] theorem setCtx_vreg (c q : Nat) (x : Ctx) : (s.setCtx c q x).vreg = s.vreg := rfl
@[simp] theorem setCtx_vcls (c q : Nat) (x : Ctx) : (s.setCtx c q x).vcls = s.vcls := rfl
@[simp] theorem setCtx_mask (c q : Nat) (x : Ctx) : (s.setCtx c q x).mask = s.mask := rfl
@[simp] theorem setCtx_tanks (c q : Nat) (x : Ctx) : (s.setCtx c q x).tanks = s.tanks := rfl
@[simp] theorem setCtx_dlm (c q : Nat) (x : Ctx) : (s.setCtx c q x).dlm = s.dlm := rfl
@[simp] theorem setCtx_dlmSeq (c q : Nat) (x : Ctx) : (s.setCtx c q x).dlmSeq = s.dlmSeq := rfl
@[simp] theorem setCtx_vfStr (c q : Nat) (x : Ctx) : (s.setCtx c q x).vfStr = s.vfStr := rfl
@[simp] theorem setCtx_plan (c q : Nat) (x : Ctx) : (s.setCtx c q x).plan = s.plan := rfl
@[simp] theorem setCtx_postq (c q : Nat) (x : Ctx) : (s.setCtx c q x).postq = s.postq := rfl
@[simp] theorem setCtx_lanes (c q : Nat) (x : Ctx) : (s.setCtx c q x).lanes = s.lanes := rfl
@[simp] theorem setCtx_ports (c q : Nat) (x : Ctx) : (s.setCtx c q x).ports = s.ports := rfl
@[simp] theorem setCtx_pairs (c q : Nat) (x : Ctx) : (s.setCtx c q x).pairs = s.pairs := rfl
@[simp] theorem setCtx_points (c q : Nat) (x : Ctx) : (s.setCtx c q x).points = s.points := rfl
@[simp] theorem setCtx_ptcfg (c q : Nat) (x : Ctx) : (s.setCtx c q x).ptcfg = s.ptcfg := rfl
@[simp] theorem setCtx_ptq (c q : Nat) (x : Ctx) : (s.setCtx c q x).ptq = s.ptq := rfl
@[simp] theorem setCtx_evq (c q : Nat) (x : Ctx) : (s.setCtx c q x).evq = s.evq := rfl
@[simp] theorem setCtx_pubq (c q : Nat) (x : Ctx) : (s.setCtx c q x).pubq = s.pubq := rfl
@[simp] theorem setCtx_recs (c q : Nat) (x : Ctx) : (s.setCtx c q x).recs = s.recs := rfl
@[simp] theorem setCtx_tmpls (c q : Nat) (x : Ctx) : (s.setCtx c q x).tmpls = s.tmpls := rfl
@[simp] theorem setCtx_recst (c q : Nat) (x : Ctx) : (s.setCtx c q x).recst = s.recst := rfl
@[simp] theorem setCtx_pubst (c q : Nat) (x : Ctx) : (s.setCtx c q x).pubst = s.pubst := rfl
@[simp] theorem setCtx_latchH (c q : Nat) (x : Ctx) : (s.setCtx c q x).latchH = s.latchH := rfl
@[simp] theorem setCtx_latchS (c q : Nat) (x : Ctx) : (s.setCtx c q x).latchS = s.latchS := rfl
@[simp] theorem setCtx_shadow (c q : Nat) (x : Ctx) : (s.setCtx c q x).shadow = s.shadow := rfl
@[simp] theorem setCtx_newImg (c q : Nat) (x : Ctx) : (s.setCtx c q x).newImg = s.newImg := rfl
@[simp] theorem setCtx_verify (c q : Nat) (x : Ctx) : (s.setCtx c q x).verify = s.verify := rfl
@[simp] theorem setCtx_hi (c q : Nat) (x : Ctx) : (s.setCtx c q x).hi = s.hi := rfl
@[simp] theorem setCtx_tu (c q : Nat) (x : Ctx) : (s.setCtx c q x).tu = s.tu := rfl
@[simp] theorem setCtx_ks (c q : Nat) (x : Ctx) : (s.setCtx c q x).ks = s.ks := rfl
@[simp] theorem setCtx_keys (c q : Nat) (x : Ctx) : (s.setCtx c q x).keys = s.keys := rfl
@[simp] theorem setCtx_pm (c q : Nat) (x : Ctx) : (s.setCtx c q x).pm = s.pm := rfl
@[simp] theorem setCtx_bist (c q : Nat) (x : Ctx) : (s.setCtx c q x).bist = s.bist := rfl
@[simp] theorem setCtx_sl (c q : Nat) (x : Ctx) : (s.setCtx c q x).sl = s.sl := rfl
@[simp] theorem setCtx_ub (c q : Nat) (x : Ctx) : (s.setCtx c q x).ub = s.ub := rfl
@[simp] theorem setCtx_resp (c q : Nat) (x : Ctx) : (s.setCtx c q x).resp = s.resp := rfl
@[simp] theorem setCtx_patrol (c q : Nat) (x : Ctx) : (s.setCtx c q x).patrol = s.patrol := rfl
@[simp] theorem setCtx_ddrHot (c q : Nat) (x : Ctx) : (s.setCtx c q x).ddrHot = s.ddrHot := rfl
@[simp] theorem setCtx_pending (c q : Nat) (x : Ctx) : (s.setCtx c q x).pending = s.pending := rfl

@[simp] theorem setPt_clk (p : Nat) (x : Point) : (s.setPt p x).clk = s.clk := rfl
@[simp] theorem setPt_regs (p : Nat) (x : Point) : (s.setPt p x).regs = s.regs := rfl
@[simp] theorem setPt_eff (p : Nat) (x : Point) : (s.setPt p x).eff = s.eff := rfl
@[simp] theorem setPt_fresh (p : Nat) (x : Point) : (s.setPt p x).fresh = s.fresh := rfl
@[simp] theorem setPt_newRegs (p : Nat) (x : Point) : (s.setPt p x).newRegs = s.newRegs := rfl
@[simp] theorem setPt_setAt (p : Nat) (x : Point) : (s.setPt p x).setAt = s.setAt := rfl
@[simp] theorem setPt_plate (p : Nat) (x : Point) : (s.setPt p x).plate = s.plate := rfl
@[simp] theorem setPt_tray (p : Nat) (x : Point) : (s.setPt p x).tray = s.tray := rfl
@[simp] theorem setPt_imem (p : Nat) (x : Point) : (s.setPt p x).imem = s.imem := rfl
@[simp] theorem setPt_dram (p : Nat) (x : Point) : (s.setPt p x).dram = s.dram := rfl
@[simp] theorem setPt_vault (p : Nat) (x : Point) : (s.setPt p x).vault = s.vault := rfl
@[simp] theorem setPt_store (p : Nat) (x : Point) : (s.setPt p x).store = s.store := rfl
@[simp] theorem setPt_slimg (p : Nat) (x : Point) : (s.setPt p x).slimg = s.slimg := rfl
@[simp] theorem setPt_host (p : Nat) (x : Point) : (s.setPt p x).host = s.host := rfl
@[simp] theorem setPt_plateEcc (p : Nat) (x : Point) : (s.setPt p x).plateEcc = s.plateEcc := rfl
@[simp] theorem setPt_trayEcc (p : Nat) (x : Point) : (s.setPt p x).trayEcc = s.trayEcc := rfl
@[simp] theorem setPt_dramEcc (p : Nat) (x : Point) : (s.setPt p x).dramEcc = s.dramEcc := rfl
@[simp] theorem setPt_storeEcc (p : Nat) (x : Point) : (s.setPt p x).storeEcc = s.storeEcc := rfl
@[simp] theorem setPt_poison (p : Nat) (x : Point) : (s.setPt p x).poison = s.poison := rfl
@[simp] theorem setPt_cores (p : Nat) (x : Point) : (s.setPt p x).cores = s.cores := rfl
@[simp] theorem setPt_ctxs (p : Nat) (x : Point) : (s.setPt p x).ctxs = s.ctxs := rfl
@[simp] theorem setPt_pipes (p : Nat) (x : Point) : (s.setPt p x).pipes = s.pipes := rfl
@[simp] theorem setPt_vreg (p : Nat) (x : Point) : (s.setPt p x).vreg = s.vreg := rfl
@[simp] theorem setPt_vcls (p : Nat) (x : Point) : (s.setPt p x).vcls = s.vcls := rfl
@[simp] theorem setPt_mask (p : Nat) (x : Point) : (s.setPt p x).mask = s.mask := rfl
@[simp] theorem setPt_tanks (p : Nat) (x : Point) : (s.setPt p x).tanks = s.tanks := rfl
@[simp] theorem setPt_dlm (p : Nat) (x : Point) : (s.setPt p x).dlm = s.dlm := rfl
@[simp] theorem setPt_dlmSeq (p : Nat) (x : Point) : (s.setPt p x).dlmSeq = s.dlmSeq := rfl
@[simp] theorem setPt_vfStr (p : Nat) (x : Point) : (s.setPt p x).vfStr = s.vfStr := rfl
@[simp] theorem setPt_plan (p : Nat) (x : Point) : (s.setPt p x).plan = s.plan := rfl
@[simp] theorem setPt_postq (p : Nat) (x : Point) : (s.setPt p x).postq = s.postq := rfl
@[simp] theorem setPt_lanes (p : Nat) (x : Point) : (s.setPt p x).lanes = s.lanes := rfl
@[simp] theorem setPt_ports (p : Nat) (x : Point) : (s.setPt p x).ports = s.ports := rfl
@[simp] theorem setPt_pairs (p : Nat) (x : Point) : (s.setPt p x).pairs = s.pairs := rfl
@[simp] theorem setPt_ptcfg (p : Nat) (x : Point) : (s.setPt p x).ptcfg = s.ptcfg := rfl
@[simp] theorem setPt_ptq (p : Nat) (x : Point) : (s.setPt p x).ptq = s.ptq := rfl
@[simp] theorem setPt_evq (p : Nat) (x : Point) : (s.setPt p x).evq = s.evq := rfl
@[simp] theorem setPt_pubq (p : Nat) (x : Point) : (s.setPt p x).pubq = s.pubq := rfl
@[simp] theorem setPt_recs (p : Nat) (x : Point) : (s.setPt p x).recs = s.recs := rfl
@[simp] theorem setPt_tmpls (p : Nat) (x : Point) : (s.setPt p x).tmpls = s.tmpls := rfl
@[simp] theorem setPt_recst (p : Nat) (x : Point) : (s.setPt p x).recst = s.recst := rfl
@[simp] theorem setPt_pubst (p : Nat) (x : Point) : (s.setPt p x).pubst = s.pubst := rfl
@[simp] theorem setPt_latchH (p : Nat) (x : Point) : (s.setPt p x).latchH = s.latchH := rfl
@[simp] theorem setPt_latchS (p : Nat) (x : Point) : (s.setPt p x).latchS = s.latchS := rfl
@[simp] theorem setPt_shadow (p : Nat) (x : Point) : (s.setPt p x).shadow = s.shadow := rfl
@[simp] theorem setPt_newImg (p : Nat) (x : Point) : (s.setPt p x).newImg = s.newImg := rfl
@[simp] theorem setPt_verify (p : Nat) (x : Point) : (s.setPt p x).verify = s.verify := rfl
@[simp] theorem setPt_hi (p : Nat) (x : Point) : (s.setPt p x).hi = s.hi := rfl
@[simp] theorem setPt_tu (p : Nat) (x : Point) : (s.setPt p x).tu = s.tu := rfl
@[simp] theorem setPt_ks (p : Nat) (x : Point) : (s.setPt p x).ks = s.ks := rfl
@[simp] theorem setPt_keys (p : Nat) (x : Point) : (s.setPt p x).keys = s.keys := rfl
@[simp] theorem setPt_pm (p : Nat) (x : Point) : (s.setPt p x).pm = s.pm := rfl
@[simp] theorem setPt_bist (p : Nat) (x : Point) : (s.setPt p x).bist = s.bist := rfl
@[simp] theorem setPt_sl (p : Nat) (x : Point) : (s.setPt p x).sl = s.sl := rfl
@[simp] theorem setPt_ub (p : Nat) (x : Point) : (s.setPt p x).ub = s.ub := rfl
@[simp] theorem setPt_resp (p : Nat) (x : Point) : (s.setPt p x).resp = s.resp := rfl
@[simp] theorem setPt_patrol (p : Nat) (x : Point) : (s.setPt p x).patrol = s.patrol := rfl
@[simp] theorem setPt_ddrHot (p : Nat) (x : Point) : (s.setPt p x).ddrHot = s.ddrHot := rfl
@[simp] theorem setPt_pending (p : Nat) (x : Point) : (s.setPt p x).pending = s.pending := rfl

@[simp] theorem setLane_clk (l : Nat) (x : LaneSt) : (s.setLane l x).clk = s.clk := rfl
@[simp] theorem setLane_regs (l : Nat) (x : LaneSt) : (s.setLane l x).regs = s.regs := rfl
@[simp] theorem setLane_eff (l : Nat) (x : LaneSt) : (s.setLane l x).eff = s.eff := rfl
@[simp] theorem setLane_fresh (l : Nat) (x : LaneSt) : (s.setLane l x).fresh = s.fresh := rfl
@[simp] theorem setLane_newRegs (l : Nat) (x : LaneSt) : (s.setLane l x).newRegs = s.newRegs := rfl
@[simp] theorem setLane_setAt (l : Nat) (x : LaneSt) : (s.setLane l x).setAt = s.setAt := rfl
@[simp] theorem setLane_plate (l : Nat) (x : LaneSt) : (s.setLane l x).plate = s.plate := rfl
@[simp] theorem setLane_tray (l : Nat) (x : LaneSt) : (s.setLane l x).tray = s.tray := rfl
@[simp] theorem setLane_imem (l : Nat) (x : LaneSt) : (s.setLane l x).imem = s.imem := rfl
@[simp] theorem setLane_dram (l : Nat) (x : LaneSt) : (s.setLane l x).dram = s.dram := rfl
@[simp] theorem setLane_vault (l : Nat) (x : LaneSt) : (s.setLane l x).vault = s.vault := rfl
@[simp] theorem setLane_store (l : Nat) (x : LaneSt) : (s.setLane l x).store = s.store := rfl
@[simp] theorem setLane_slimg (l : Nat) (x : LaneSt) : (s.setLane l x).slimg = s.slimg := rfl
@[simp] theorem setLane_host (l : Nat) (x : LaneSt) : (s.setLane l x).host = s.host := rfl
@[simp] theorem setLane_plateEcc (l : Nat) (x : LaneSt) : (s.setLane l x).plateEcc = s.plateEcc := rfl
@[simp] theorem setLane_trayEcc (l : Nat) (x : LaneSt) : (s.setLane l x).trayEcc = s.trayEcc := rfl
@[simp] theorem setLane_dramEcc (l : Nat) (x : LaneSt) : (s.setLane l x).dramEcc = s.dramEcc := rfl
@[simp] theorem setLane_storeEcc (l : Nat) (x : LaneSt) : (s.setLane l x).storeEcc = s.storeEcc := rfl
@[simp] theorem setLane_poison (l : Nat) (x : LaneSt) : (s.setLane l x).poison = s.poison := rfl
@[simp] theorem setLane_cores (l : Nat) (x : LaneSt) : (s.setLane l x).cores = s.cores := rfl
@[simp] theorem setLane_ctxs (l : Nat) (x : LaneSt) : (s.setLane l x).ctxs = s.ctxs := rfl
@[simp] theorem setLane_pipes (l : Nat) (x : LaneSt) : (s.setLane l x).pipes = s.pipes := rfl
@[simp] theorem setLane_vreg (l : Nat) (x : LaneSt) : (s.setLane l x).vreg = s.vreg := rfl
@[simp] theorem setLane_vcls (l : Nat) (x : LaneSt) : (s.setLane l x).vcls = s.vcls := rfl
@[simp] theorem setLane_mask (l : Nat) (x : LaneSt) : (s.setLane l x).mask = s.mask := rfl
@[simp] theorem setLane_tanks (l : Nat) (x : LaneSt) : (s.setLane l x).tanks = s.tanks := rfl
@[simp] theorem setLane_dlm (l : Nat) (x : LaneSt) : (s.setLane l x).dlm = s.dlm := rfl
@[simp] theorem setLane_dlmSeq (l : Nat) (x : LaneSt) : (s.setLane l x).dlmSeq = s.dlmSeq := rfl
@[simp] theorem setLane_vfStr (l : Nat) (x : LaneSt) : (s.setLane l x).vfStr = s.vfStr := rfl
@[simp] theorem setLane_plan (l : Nat) (x : LaneSt) : (s.setLane l x).plan = s.plan := rfl
@[simp] theorem setLane_postq (l : Nat) (x : LaneSt) : (s.setLane l x).postq = s.postq := rfl
@[simp] theorem setLane_ports (l : Nat) (x : LaneSt) : (s.setLane l x).ports = s.ports := rfl
@[simp] theorem setLane_pairs (l : Nat) (x : LaneSt) : (s.setLane l x).pairs = s.pairs := rfl
@[simp] theorem setLane_points (l : Nat) (x : LaneSt) : (s.setLane l x).points = s.points := rfl
@[simp] theorem setLane_ptcfg (l : Nat) (x : LaneSt) : (s.setLane l x).ptcfg = s.ptcfg := rfl
@[simp] theorem setLane_ptq (l : Nat) (x : LaneSt) : (s.setLane l x).ptq = s.ptq := rfl
@[simp] theorem setLane_evq (l : Nat) (x : LaneSt) : (s.setLane l x).evq = s.evq := rfl
@[simp] theorem setLane_pubq (l : Nat) (x : LaneSt) : (s.setLane l x).pubq = s.pubq := rfl
@[simp] theorem setLane_recs (l : Nat) (x : LaneSt) : (s.setLane l x).recs = s.recs := rfl
@[simp] theorem setLane_tmpls (l : Nat) (x : LaneSt) : (s.setLane l x).tmpls = s.tmpls := rfl
@[simp] theorem setLane_recst (l : Nat) (x : LaneSt) : (s.setLane l x).recst = s.recst := rfl
@[simp] theorem setLane_pubst (l : Nat) (x : LaneSt) : (s.setLane l x).pubst = s.pubst := rfl
@[simp] theorem setLane_latchH (l : Nat) (x : LaneSt) : (s.setLane l x).latchH = s.latchH := rfl
@[simp] theorem setLane_latchS (l : Nat) (x : LaneSt) : (s.setLane l x).latchS = s.latchS := rfl
@[simp] theorem setLane_shadow (l : Nat) (x : LaneSt) : (s.setLane l x).shadow = s.shadow := rfl
@[simp] theorem setLane_newImg (l : Nat) (x : LaneSt) : (s.setLane l x).newImg = s.newImg := rfl
@[simp] theorem setLane_verify (l : Nat) (x : LaneSt) : (s.setLane l x).verify = s.verify := rfl
@[simp] theorem setLane_hi (l : Nat) (x : LaneSt) : (s.setLane l x).hi = s.hi := rfl
@[simp] theorem setLane_tu (l : Nat) (x : LaneSt) : (s.setLane l x).tu = s.tu := rfl
@[simp] theorem setLane_ks (l : Nat) (x : LaneSt) : (s.setLane l x).ks = s.ks := rfl
@[simp] theorem setLane_keys (l : Nat) (x : LaneSt) : (s.setLane l x).keys = s.keys := rfl
@[simp] theorem setLane_pm (l : Nat) (x : LaneSt) : (s.setLane l x).pm = s.pm := rfl
@[simp] theorem setLane_bist (l : Nat) (x : LaneSt) : (s.setLane l x).bist = s.bist := rfl
@[simp] theorem setLane_sl (l : Nat) (x : LaneSt) : (s.setLane l x).sl = s.sl := rfl
@[simp] theorem setLane_ub (l : Nat) (x : LaneSt) : (s.setLane l x).ub = s.ub := rfl
@[simp] theorem setLane_resp (l : Nat) (x : LaneSt) : (s.setLane l x).resp = s.resp := rfl
@[simp] theorem setLane_patrol (l : Nat) (x : LaneSt) : (s.setLane l x).patrol = s.patrol := rfl
@[simp] theorem setLane_ddrHot (l : Nat) (x : LaneSt) : (s.setLane l x).ddrHot = s.ddrHot := rfl
@[simp] theorem setLane_pending (l : Nat) (x : LaneSt) : (s.setLane l x).pending = s.pending := rfl

@[simp] theorem setPort_clk (p : Nat) (x : PortSt) : (s.setPort p x).clk = s.clk := rfl
@[simp] theorem setPort_regs (p : Nat) (x : PortSt) : (s.setPort p x).regs = s.regs := rfl
@[simp] theorem setPort_eff (p : Nat) (x : PortSt) : (s.setPort p x).eff = s.eff := rfl
@[simp] theorem setPort_fresh (p : Nat) (x : PortSt) : (s.setPort p x).fresh = s.fresh := rfl
@[simp] theorem setPort_newRegs (p : Nat) (x : PortSt) : (s.setPort p x).newRegs = s.newRegs := rfl
@[simp] theorem setPort_setAt (p : Nat) (x : PortSt) : (s.setPort p x).setAt = s.setAt := rfl
@[simp] theorem setPort_plate (p : Nat) (x : PortSt) : (s.setPort p x).plate = s.plate := rfl
@[simp] theorem setPort_tray (p : Nat) (x : PortSt) : (s.setPort p x).tray = s.tray := rfl
@[simp] theorem setPort_imem (p : Nat) (x : PortSt) : (s.setPort p x).imem = s.imem := rfl
@[simp] theorem setPort_dram (p : Nat) (x : PortSt) : (s.setPort p x).dram = s.dram := rfl
@[simp] theorem setPort_vault (p : Nat) (x : PortSt) : (s.setPort p x).vault = s.vault := rfl
@[simp] theorem setPort_store (p : Nat) (x : PortSt) : (s.setPort p x).store = s.store := rfl
@[simp] theorem setPort_slimg (p : Nat) (x : PortSt) : (s.setPort p x).slimg = s.slimg := rfl
@[simp] theorem setPort_host (p : Nat) (x : PortSt) : (s.setPort p x).host = s.host := rfl
@[simp] theorem setPort_plateEcc (p : Nat) (x : PortSt) : (s.setPort p x).plateEcc = s.plateEcc := rfl
@[simp] theorem setPort_trayEcc (p : Nat) (x : PortSt) : (s.setPort p x).trayEcc = s.trayEcc := rfl
@[simp] theorem setPort_dramEcc (p : Nat) (x : PortSt) : (s.setPort p x).dramEcc = s.dramEcc := rfl
@[simp] theorem setPort_storeEcc (p : Nat) (x : PortSt) : (s.setPort p x).storeEcc = s.storeEcc := rfl
@[simp] theorem setPort_poison (p : Nat) (x : PortSt) : (s.setPort p x).poison = s.poison := rfl
@[simp] theorem setPort_cores (p : Nat) (x : PortSt) : (s.setPort p x).cores = s.cores := rfl
@[simp] theorem setPort_ctxs (p : Nat) (x : PortSt) : (s.setPort p x).ctxs = s.ctxs := rfl
@[simp] theorem setPort_pipes (p : Nat) (x : PortSt) : (s.setPort p x).pipes = s.pipes := rfl
@[simp] theorem setPort_vreg (p : Nat) (x : PortSt) : (s.setPort p x).vreg = s.vreg := rfl
@[simp] theorem setPort_vcls (p : Nat) (x : PortSt) : (s.setPort p x).vcls = s.vcls := rfl
@[simp] theorem setPort_mask (p : Nat) (x : PortSt) : (s.setPort p x).mask = s.mask := rfl
@[simp] theorem setPort_tanks (p : Nat) (x : PortSt) : (s.setPort p x).tanks = s.tanks := rfl
@[simp] theorem setPort_dlm (p : Nat) (x : PortSt) : (s.setPort p x).dlm = s.dlm := rfl
@[simp] theorem setPort_dlmSeq (p : Nat) (x : PortSt) : (s.setPort p x).dlmSeq = s.dlmSeq := rfl
@[simp] theorem setPort_vfStr (p : Nat) (x : PortSt) : (s.setPort p x).vfStr = s.vfStr := rfl
@[simp] theorem setPort_plan (p : Nat) (x : PortSt) : (s.setPort p x).plan = s.plan := rfl
@[simp] theorem setPort_postq (p : Nat) (x : PortSt) : (s.setPort p x).postq = s.postq := rfl
@[simp] theorem setPort_lanes (p : Nat) (x : PortSt) : (s.setPort p x).lanes = s.lanes := rfl
@[simp] theorem setPort_pairs (p : Nat) (x : PortSt) : (s.setPort p x).pairs = s.pairs := rfl
@[simp] theorem setPort_points (p : Nat) (x : PortSt) : (s.setPort p x).points = s.points := rfl
@[simp] theorem setPort_ptcfg (p : Nat) (x : PortSt) : (s.setPort p x).ptcfg = s.ptcfg := rfl
@[simp] theorem setPort_ptq (p : Nat) (x : PortSt) : (s.setPort p x).ptq = s.ptq := rfl
@[simp] theorem setPort_evq (p : Nat) (x : PortSt) : (s.setPort p x).evq = s.evq := rfl
@[simp] theorem setPort_pubq (p : Nat) (x : PortSt) : (s.setPort p x).pubq = s.pubq := rfl
@[simp] theorem setPort_recs (p : Nat) (x : PortSt) : (s.setPort p x).recs = s.recs := rfl
@[simp] theorem setPort_tmpls (p : Nat) (x : PortSt) : (s.setPort p x).tmpls = s.tmpls := rfl
@[simp] theorem setPort_recst (p : Nat) (x : PortSt) : (s.setPort p x).recst = s.recst := rfl
@[simp] theorem setPort_pubst (p : Nat) (x : PortSt) : (s.setPort p x).pubst = s.pubst := rfl
@[simp] theorem setPort_latchH (p : Nat) (x : PortSt) : (s.setPort p x).latchH = s.latchH := rfl
@[simp] theorem setPort_latchS (p : Nat) (x : PortSt) : (s.setPort p x).latchS = s.latchS := rfl
@[simp] theorem setPort_shadow (p : Nat) (x : PortSt) : (s.setPort p x).shadow = s.shadow := rfl
@[simp] theorem setPort_newImg (p : Nat) (x : PortSt) : (s.setPort p x).newImg = s.newImg := rfl
@[simp] theorem setPort_verify (p : Nat) (x : PortSt) : (s.setPort p x).verify = s.verify := rfl
@[simp] theorem setPort_hi (p : Nat) (x : PortSt) : (s.setPort p x).hi = s.hi := rfl
@[simp] theorem setPort_tu (p : Nat) (x : PortSt) : (s.setPort p x).tu = s.tu := rfl
@[simp] theorem setPort_ks (p : Nat) (x : PortSt) : (s.setPort p x).ks = s.ks := rfl
@[simp] theorem setPort_keys (p : Nat) (x : PortSt) : (s.setPort p x).keys = s.keys := rfl
@[simp] theorem setPort_pm (p : Nat) (x : PortSt) : (s.setPort p x).pm = s.pm := rfl
@[simp] theorem setPort_bist (p : Nat) (x : PortSt) : (s.setPort p x).bist = s.bist := rfl
@[simp] theorem setPort_sl (p : Nat) (x : PortSt) : (s.setPort p x).sl = s.sl := rfl
@[simp] theorem setPort_ub (p : Nat) (x : PortSt) : (s.setPort p x).ub = s.ub := rfl
@[simp] theorem setPort_resp (p : Nat) (x : PortSt) : (s.setPort p x).resp = s.resp := rfl
@[simp] theorem setPort_patrol (p : Nat) (x : PortSt) : (s.setPort p x).patrol = s.patrol := rfl
@[simp] theorem setPort_ddrHot (p : Nat) (x : PortSt) : (s.setPort p x).ddrHot = s.ddrHot := rfl
@[simp] theorem setPort_pending (p : Nat) (x : PortSt) : (s.setPort p x).pending = s.pending := rfl

@[simp] theorem advance_regs (d : Nat) : (s.advance d).regs = s.regs := rfl
@[simp] theorem advance_eff (d : Nat) : (s.advance d).eff = s.eff := rfl
@[simp] theorem advance_fresh (d : Nat) : (s.advance d).fresh = s.fresh := rfl
@[simp] theorem advance_newRegs (d : Nat) : (s.advance d).newRegs = s.newRegs := rfl
@[simp] theorem advance_setAt (d : Nat) : (s.advance d).setAt = s.setAt := rfl
@[simp] theorem advance_plate (d : Nat) : (s.advance d).plate = s.plate := rfl
@[simp] theorem advance_tray (d : Nat) : (s.advance d).tray = s.tray := rfl
@[simp] theorem advance_imem (d : Nat) : (s.advance d).imem = s.imem := rfl
@[simp] theorem advance_dram (d : Nat) : (s.advance d).dram = s.dram := rfl
@[simp] theorem advance_vault (d : Nat) : (s.advance d).vault = s.vault := rfl
@[simp] theorem advance_store (d : Nat) : (s.advance d).store = s.store := rfl
@[simp] theorem advance_slimg (d : Nat) : (s.advance d).slimg = s.slimg := rfl
@[simp] theorem advance_host (d : Nat) : (s.advance d).host = s.host := rfl
@[simp] theorem advance_plateEcc (d : Nat) : (s.advance d).plateEcc = s.plateEcc := rfl
@[simp] theorem advance_trayEcc (d : Nat) : (s.advance d).trayEcc = s.trayEcc := rfl
@[simp] theorem advance_dramEcc (d : Nat) : (s.advance d).dramEcc = s.dramEcc := rfl
@[simp] theorem advance_storeEcc (d : Nat) : (s.advance d).storeEcc = s.storeEcc := rfl
@[simp] theorem advance_poison (d : Nat) : (s.advance d).poison = s.poison := rfl
@[simp] theorem advance_cores (d : Nat) : (s.advance d).cores = s.cores := rfl
@[simp] theorem advance_ctxs (d : Nat) : (s.advance d).ctxs = s.ctxs := rfl
@[simp] theorem advance_pipes (d : Nat) : (s.advance d).pipes = s.pipes := rfl
@[simp] theorem advance_vreg (d : Nat) : (s.advance d).vreg = s.vreg := rfl
@[simp] theorem advance_vcls (d : Nat) : (s.advance d).vcls = s.vcls := rfl
@[simp] theorem advance_mask (d : Nat) : (s.advance d).mask = s.mask := rfl
@[simp] theorem advance_tanks (d : Nat) : (s.advance d).tanks = s.tanks := rfl
@[simp] theorem advance_dlm (d : Nat) : (s.advance d).dlm = s.dlm := rfl
@[simp] theorem advance_dlmSeq (d : Nat) : (s.advance d).dlmSeq = s.dlmSeq := rfl
@[simp] theorem advance_vfStr (d : Nat) : (s.advance d).vfStr = s.vfStr := rfl
@[simp] theorem advance_plan (d : Nat) : (s.advance d).plan = s.plan := rfl
@[simp] theorem advance_postq (d : Nat) : (s.advance d).postq = s.postq := rfl
@[simp] theorem advance_lanes (d : Nat) : (s.advance d).lanes = s.lanes := rfl
@[simp] theorem advance_ports (d : Nat) : (s.advance d).ports = s.ports := rfl
@[simp] theorem advance_pairs (d : Nat) : (s.advance d).pairs = s.pairs := rfl
@[simp] theorem advance_points (d : Nat) : (s.advance d).points = s.points := rfl
@[simp] theorem advance_ptcfg (d : Nat) : (s.advance d).ptcfg = s.ptcfg := rfl
@[simp] theorem advance_ptq (d : Nat) : (s.advance d).ptq = s.ptq := rfl
@[simp] theorem advance_evq (d : Nat) : (s.advance d).evq = s.evq := rfl
@[simp] theorem advance_pubq (d : Nat) : (s.advance d).pubq = s.pubq := rfl
@[simp] theorem advance_recs (d : Nat) : (s.advance d).recs = s.recs := rfl
@[simp] theorem advance_tmpls (d : Nat) : (s.advance d).tmpls = s.tmpls := rfl
@[simp] theorem advance_recst (d : Nat) : (s.advance d).recst = s.recst := rfl
@[simp] theorem advance_pubst (d : Nat) : (s.advance d).pubst = s.pubst := rfl
@[simp] theorem advance_latchH (d : Nat) : (s.advance d).latchH = s.latchH := rfl
@[simp] theorem advance_latchS (d : Nat) : (s.advance d).latchS = s.latchS := rfl
@[simp] theorem advance_shadow (d : Nat) : (s.advance d).shadow = s.shadow := rfl
@[simp] theorem advance_newImg (d : Nat) : (s.advance d).newImg = s.newImg := rfl
@[simp] theorem advance_verify (d : Nat) : (s.advance d).verify = s.verify := rfl
@[simp] theorem advance_hi (d : Nat) : (s.advance d).hi = s.hi := rfl
@[simp] theorem advance_tu (d : Nat) : (s.advance d).tu = s.tu := rfl
@[simp] theorem advance_ks (d : Nat) : (s.advance d).ks = s.ks := rfl
@[simp] theorem advance_keys (d : Nat) : (s.advance d).keys = s.keys := rfl
@[simp] theorem advance_pm (d : Nat) : (s.advance d).pm = s.pm := rfl
@[simp] theorem advance_bist (d : Nat) : (s.advance d).bist = s.bist := rfl
@[simp] theorem advance_sl (d : Nat) : (s.advance d).sl = s.sl := rfl
@[simp] theorem advance_ub (d : Nat) : (s.advance d).ub = s.ub := rfl
@[simp] theorem advance_resp (d : Nat) : (s.advance d).resp = s.resp := rfl
@[simp] theorem advance_patrol (d : Nat) : (s.advance d).patrol = s.patrol := rfl
@[simp] theorem advance_ddrHot (d : Nat) : (s.advance d).ddrHot = s.ddrHot := rfl
@[simp] theorem advance_pending (d : Nat) : (s.advance d).pending = s.pending := rfl

@[simp] theorem settle_clk : (settle s).clk = s.clk := rfl
@[simp] theorem settle_regs : (settle s).regs = s.regs := rfl
@[simp] theorem settle_eff : (settle s).eff = s.eff := rfl
@[simp] theorem settle_fresh : (settle s).fresh = s.fresh := rfl
@[simp] theorem settle_newRegs : (settle s).newRegs = s.newRegs := rfl
@[simp] theorem settle_setAt : (settle s).setAt = s.setAt := rfl
@[simp] theorem settle_plate : (settle s).plate = s.plate := rfl
@[simp] theorem settle_tray : (settle s).tray = s.tray := rfl
@[simp] theorem settle_imem : (settle s).imem = s.imem := rfl
@[simp] theorem settle_dram : (settle s).dram = s.dram := rfl
@[simp] theorem settle_vault : (settle s).vault = s.vault := rfl
@[simp] theorem settle_store : (settle s).store = s.store := rfl
@[simp] theorem settle_slimg : (settle s).slimg = s.slimg := rfl
@[simp] theorem settle_host : (settle s).host = s.host := rfl
@[simp] theorem settle_plateEcc : (settle s).plateEcc = s.plateEcc := rfl
@[simp] theorem settle_trayEcc : (settle s).trayEcc = s.trayEcc := rfl
@[simp] theorem settle_dramEcc : (settle s).dramEcc = s.dramEcc := rfl
@[simp] theorem settle_storeEcc : (settle s).storeEcc = s.storeEcc := rfl
@[simp] theorem settle_poison : (settle s).poison = s.poison := rfl
@[simp] theorem settle_cores : (settle s).cores = s.cores := rfl
@[simp] theorem settle_ctxs : (settle s).ctxs = s.ctxs := rfl
@[simp] theorem settle_pipes : (settle s).pipes = s.pipes := rfl
@[simp] theorem settle_vreg : (settle s).vreg = s.vreg := rfl
@[simp] theorem settle_vcls : (settle s).vcls = s.vcls := rfl
@[simp] theorem settle_mask : (settle s).mask = s.mask := rfl
@[simp] theorem settle_tanks : (settle s).tanks = s.tanks := rfl
@[simp] theorem settle_dlm : (settle s).dlm = s.dlm := rfl
@[simp] theorem settle_dlmSeq : (settle s).dlmSeq = s.dlmSeq := rfl
@[simp] theorem settle_vfStr : (settle s).vfStr = s.vfStr := rfl
@[simp] theorem settle_plan : (settle s).plan = s.plan := rfl
@[simp] theorem settle_postq : (settle s).postq = s.postq := rfl
@[simp] theorem settle_lanes : (settle s).lanes = s.lanes := rfl
@[simp] theorem settle_ports : (settle s).ports = s.ports := rfl
@[simp] theorem settle_pairs : (settle s).pairs = s.pairs := rfl
@[simp] theorem settle_points : (settle s).points = s.points := rfl
@[simp] theorem settle_ptcfg : (settle s).ptcfg = s.ptcfg := rfl
@[simp] theorem settle_ptq : (settle s).ptq = s.ptq := rfl
@[simp] theorem settle_evq : (settle s).evq = s.evq := rfl
@[simp] theorem settle_pubq : (settle s).pubq = s.pubq := rfl
@[simp] theorem settle_recs : (settle s).recs = s.recs := rfl
@[simp] theorem settle_tmpls : (settle s).tmpls = s.tmpls := rfl
@[simp] theorem settle_recst : (settle s).recst = s.recst := rfl
@[simp] theorem settle_pubst : (settle s).pubst = s.pubst := rfl
@[simp] theorem settle_latchH : (settle s).latchH = s.latchH := rfl
@[simp] theorem settle_latchS : (settle s).latchS = s.latchS := rfl
@[simp] theorem settle_shadow : (settle s).shadow = s.shadow := rfl
@[simp] theorem settle_newImg : (settle s).newImg = s.newImg := rfl
@[simp] theorem settle_verify : (settle s).verify = s.verify := rfl
@[simp] theorem settle_hi : (settle s).hi = s.hi := rfl
@[simp] theorem settle_tu : (settle s).tu = s.tu := rfl
@[simp] theorem settle_ks : (settle s).ks = s.ks := rfl
@[simp] theorem settle_keys : (settle s).keys = s.keys := rfl
@[simp] theorem settle_bist : (settle s).bist = s.bist := rfl
@[simp] theorem settle_sl : (settle s).sl = s.sl := rfl
@[simp] theorem settle_ub : (settle s).ub = s.ub := rfl
@[simp] theorem settle_resp : (settle s).resp = s.resp := rfl
@[simp] theorem settle_patrol : (settle s).patrol = s.patrol := rfl
@[simp] theorem settle_ddrHot : (settle s).ddrHot = s.ddrHot := rfl
@[simp] theorem settle_pending : (settle s).pending = s.pending := rfl

-- Reading after an update ---------------------------------------------------------------------------------------------------

theorem reg_setReg_self (r : Reg) (i j : Nat) (v : Word) : (s.setReg r i j v).reg r i j = v := by
  simp [State.reg, State.setReg]

theorem reg_setReg_ne (r q : Reg) (i j i' j' : Nat) (v : Word) (h : q.key i' j' ≠ r.key i j) :
    (s.setReg r i j v).reg q i' j' = s.reg q i' j' := by
  simp [State.reg, State.setReg, tfind_tput_ne _ _ h]

theorem f_setReg_ne (r : Reg) (f : Field) (i j i' j' : Nat) (v : Word) (h : f.reg.key i' j' ≠ r.key i j) :
    (s.setReg r i j v).f f i' j' = s.f f i' j' := by
  simp [State.f, reg_setReg_ne s r f.reg i j i' j' v h]

theorem reg_setF_ne (q : Reg) (f : Field) (v i j i' j' : Nat) (h : q.key i' j' ≠ f.reg.key i j) :
    (s.setF f v i j).reg q i' j' = s.reg q i' j' := reg_setReg_ne s f.reg q i j i' j' _ h

theorem f_setF_ne (g f : Field) (v i j i' j' : Nat) (h : g.reg.key i' j' ≠ f.reg.key i j) :
    (s.setF f v i j).f g i' j' = s.f g i' j' := f_setReg_ne s f.reg g i j i' j' _ h

theorem bits_lt (v lo n : Nat) : bits v lo n < 2 ^ n := Nat.mod_lt _ (Nat.two_pow_pos n)

/-- A field reads as what was put into it, cut to its width. -/
theorem bits_ins (f : Field) (w : Word) (v : Nat) (h : f.lo + f.w ≤ 32) : bits (f.ins w v).toNat f.lo f.w = v % 2 ^ f.w := by
  have hx : w.toNat < 2 ^ 32 := w.isLt
  generalize hn : f.w = n at *
  generalize hl : f.lo = l at *
  have e : 2 ^ 32 = 2 ^ l * 2 ^ n * 2 ^ (32 - l - n) := by rw [← Nat.pow_add, ← Nat.pow_add]; congr 1; omega
  have hp : 0 < 2 ^ l := Nat.two_pow_pos l
  have hv : v % 2 ^ n < 2 ^ n := Nat.mod_lt _ (Nat.two_pow_pos n)
  -- x = hi·2^(l+n) + b·2^l + low
  have hd : w.toNat = w.toNat / 2 ^ l / 2 ^ n * (2 ^ l * 2 ^ n) + bits w.toNat l n * 2 ^ l + w.toNat % 2 ^ l := by
    have h₁ := Nat.div_add_mod w.toNat (2 ^ l)
    have h₂ := Nat.div_add_mod (w.toNat / 2 ^ l) (2 ^ n)
    unfold bits
    nlinarith
  have hlow : w.toNat % 2 ^ l < 2 ^ l := Nat.mod_lt _ hp
  have hhi : w.toNat / 2 ^ l / 2 ^ n < 2 ^ (32 - l - n) := by
    rw [Nat.div_div_eq_div_mul]
    apply Nat.div_lt_of_lt_mul
    rw [← e]; exact hx
  have hs : w.toNat - bits w.toNat l n * 2 ^ l + v % 2 ^ n * 2 ^ l =
      w.toNat / 2 ^ l / 2 ^ n * (2 ^ l * 2 ^ n) + v % 2 ^ n * 2 ^ l + w.toNat % 2 ^ l := by omega
  have hb : w.toNat / 2 ^ l / 2 ^ n * (2 ^ l * 2 ^ n) + v % 2 ^ n * 2 ^ l + w.toNat % 2 ^ l < 2 ^ 32 := by
    rw [e]
    have : w.toNat / 2 ^ l / 2 ^ n + 1 ≤ 2 ^ (32 - l - n) := hhi
    have h3 : v % 2 ^ n * 2 ^ l + 2 ^ l ≤ 2 ^ l * 2 ^ n := by nlinarith
    nlinarith [Nat.mul_le_mul_left (2 ^ l * 2 ^ n) this]
  unfold Field.ins
  simp only [hn, hl]
  show bits (BitVec.ofNat 32 (w.toNat - bits w.toNat l n * 2 ^ l + v % 2 ^ n * 2 ^ l)).toNat l n = _
  rw [hs, BitVec.toNat_ofNat, Nat.mod_eq_of_lt hb]
  unfold bits
  have h4 : (w.toNat / 2 ^ l / 2 ^ n * (2 ^ l * 2 ^ n) + v % 2 ^ n * 2 ^ l + w.toNat % 2 ^ l) / 2 ^ l =
      w.toNat / 2 ^ l / 2 ^ n * 2 ^ n + v % 2 ^ n := by
    have : w.toNat / 2 ^ l / 2 ^ n * (2 ^ l * 2 ^ n) + v % 2 ^ n * 2 ^ l + w.toNat % 2 ^ l =
        w.toNat % 2 ^ l + 2 ^ l * (w.toNat / 2 ^ l / 2 ^ n * 2 ^ n + v % 2 ^ n) := by ring
    rw [this, Nat.add_mul_div_left _ _ hp, Nat.div_eq_of_lt hlow, Nat.zero_add]
  rw [h4, Nat.mul_comm, Nat.mul_add_mod, Nat.mod_eq_of_lt hv]

theorem f_setF_self (f : Field) (v i j : Nat) (h : f.lo + f.w ≤ 32) : (s.setF f v i j).f f i j = v % 2 ^ f.w := by
  simp only [State.f, State.setF, reg_setReg_self]
  exact bits_ins f _ v h

@[simp] theorem core_setCore_self (c : Nat) (k : CoreSt) : (s.setCore c k).core c = k := by
  simp [State.core, State.setCore]

theorem core_setCore_ne {c n : Nat} (k : CoreSt) (h : n ≠ c) : (s.setCore c k).core n = s.core n := by
  simp [State.core, State.setCore, tfind_tput_ne _ _ h]

@[simp] theorem core_modCore_self (c : Nat) (f : CoreSt → CoreSt) : (s.modCore c f).core c = f (s.core c) := by
  simp [State.modCore]

@[simp] theorem ctx_setCtx_self (c q : Nat) (x : Ctx) : (s.setCtx c q x).ctx c q = x := by
  simp [State.ctx, State.setCtx]

@[simp] theorem ctx_modCtx_self (c q : Nat) (f : Ctx → Ctx) : (s.modCtx c q f).ctx c q = f (s.ctx c q) := by
  simp [State.modCtx]

@[simp] theorem ctx_setCore (c : Nat) (k : CoreSt) (n q : Nat) : (s.setCore c k).ctx n q = s.ctx n q := rfl
@[simp] theorem core_setCtx (c q : Nat) (x : Ctx) (n : Nat) : (s.setCtx c q x).core n = s.core n := rfl
@[simp] theorem ctx_modCore (c : Nat) (f : CoreSt → CoreSt) (n q : Nat) : (s.modCore c f).ctx n q = s.ctx n q := rfl
@[simp] theorem core_modCtx (c q : Nat) (f : Ctx → Ctx) (n : Nat) : (s.modCtx c q f).core n = s.core n := rfl

@[simp] theorem pt_setPt_self (p : Nat) (x : Point) : (s.setPt p x).pt p = x := by simp [State.pt, State.setPt]

theorem pt_setPt_ne {p n : Nat} (x : Point) (h : n ≠ p) : (s.setPt p x).pt n = s.pt n := by
  simp [State.pt, State.setPt, tfind_tput_ne _ _ h]

@[simp] theorem lane_setLane_self (l : Nat) (x : LaneSt) : (s.setLane l x).lane l = x := by
  simp [State.lane, State.setLane]

@[simp] theorem port_setPort_self (p : Nat) (x : PortSt) : (s.setPort p x).port p = x := by
  simp [State.port, State.setPort]

/-- Settling the output pins twice is settling them once. -/
@[simp] theorem settle_settle : settle (settle s) = settle s := rfl

end Sys2Proof.Machine
end

