-- ==== Sys2Proof/Laws/Issue.lean ====
section
/-! SUPPORT. What issuing an instruction does at a core where nothing earlier is pending, said once. -/

namespace Sys2Proof.Machine
open Sys2Proof

variable (s : State) (c : Nat) (k : Option Nat)

-- Register sets of an issuer ------------------------------------------------------------------------------------------------

@[simp] theorem thr_modThr_self (f : Thr → Thr) : (s.modThr c k f).thr c k = f (s.thr c k) := by
  cases k <;> simp [State.modThr, State.setThr, State.thr]

/-- A core's record apart from its supervisor's register set. -/
@[simp] theorem core_modThr (f : Thr → Thr) :
    { (s.modThr c k f).core c with thr := (s.core c).thr } = s.core c := by
  cases k <;> simp [State.modThr, State.setThr]

theorem core_modThr_field {α : Type} (g : CoreSt → α) (hg : ∀ x t, g { x with thr := t } = g x) (f : Thr → Thr) :
    g ((s.modThr c k f).core c) = g (s.core c) := by
  have h := core_modThr s c k f
  rw [← hg ((s.modThr c k f).core c) (s.core c).thr, h]

theorem curCtx_modThr (f : Thr → Thr) : curCtx (s.modThr c k f) c = curCtx s c := by
  unfold curCtx
  rw [core_modThr_field s c k (fun x => x.sup) (fun _ _ => rfl), core_modThr_field s c k (fun x => x.run) (fun _ _ => rfl)]

theorem issueCyc_modThr (f : Thr → Thr) : issueCyc (s.modThr c k f) c = issueCyc s c := by
  unfold issueCyc
  rw [core_modThr_field s c k (fun x => x.cyc) (fun _ _ => rfl)]
  cases k <;> rfl

/-- What a change of one register set leaves alone. -/
theorem modThr_rest (f : Thr → Thr) : { s.modThr c k f with cores := s.cores, ctxs := s.ctxs } = s := by
  cases k <;> rfl

/-- Counting a retired instruction of a section touches no register set. -/
@[simp] theorem thr_countRetired : (countRetired s c k).thr c k = s.thr c k := by
  cases k with
  | none => rfl
  | some q =>
    unfold countRetired
    simp only
    split <;> simp [modSec, State.thr]

theorem countRetired_rest : { countRetired s c k with ctxs := s.ctxs } = s := by
  cases k with
  | none => rfl
  | some q =>
    unfold countRetired
    simp only
    split <;> rfl

-- Nothing pending: no event, no wait ----------------------------------------------------------------------------------------

variable {s c k}

theorem Ready.thrEvent_own {n : Nat} (h : Ready s c k n) {q : Nat} (hq : (s.core c).run.map (·.ctx) = some q) :
    thrEvent s c (some q) = none := by
  simp [thrEvent, (h.own q hq).pend, (h.own q hq).pwr, picks, sooner]

theorem Ready.nextEvent {n : Nat} (h : Ready s c k n) : nextEvent s c = none := by
  have hs : thrEvent s c none = none := by simp [thrEvent, h.sup.pend, h.sup.pwr, picks, sooner]
  unfold Machine.nextEvent
  split
  · rfl
  simp only [h.jobs, h.br, headStart, h.vq, hs, picks, List.foldl_nil, Option.map_none]
  cases hv : vOwner s c with
  | none => by_cases hf : (s.core c).frozen <;> simp [hf, sooner]
  | some q =>
    simp only [h.thrEvent_own hv]
    by_cases hf : (s.core c).frozen <;> simp [hf, sooner]

theorem Ready.catchUp {n : Nat} (h : Ready s c k n) : catchUp s c = s := by
  unfold Machine.catchUp
  cases eventFuel s c <;> simp [runTo, h.nextEvent]

theorem waitFor_idle {busy : State → Bool} (h : busy s = false) (n : Nat) : waitFor s c busy n = s := by
  cases n <;> simp [waitFor, h]

theorem judgePwr_none (h : (s.thr c k).pwr = none) (n : Nat) : judgePwr s c k n = s := by
  cases n <;> simp [judgePwr, h]

theorem Ready.waitRegs {n : Nat} (h : Ready s c k n) (rs : List Nat) : waitRegs s c k rs = s := by
  apply waitFor_idle
  simp [regBusy, h.calm.pend, h.vq, h.jobs]

theorem Ready.waitFlags {n : Nat} (h : Ready s c k n) : waitFlags s c k = s := by
  unfold Machine.waitFlags
  simp only [judgePwr_none h.calm.pwr]
  exact waitFor_idle (by simp [h.calm.pwr]) _

theorem Ready.waitAll {n : Nat} (h : Ready s c k n) : waitAll s c k = s := by
  unfold Machine.waitAll
  simp only [judgePwr_none h.calm.pwr]
  exact waitFor_idle (by simp [anyBusy, vBusy, h.vq, h.jobs, h.calm.pend, h.calm.pwr]) _

theorem Ready.issueWaits {n : Nat} (h : Ready s c k n) (u : Use) : issueWaits s c k u = s := by
  unfold Machine.issueWaits
  split
  · exact h.waitAll
  · simp only [h.waitRegs, h.waitFlags, ite_self]

theorem Ready.heldDue {n : Nat} (h : Ready s c k n) : heldDue s c k = false := by
  simp [Machine.heldDue, h.calm.held]

-- Issue ---------------------------------------------------------------------------------------------------------------------

/-- The state in which the instruction of `size` bytes at the program counter acts: its program counter and loop
registers have moved on, and an open section counts it. -/
def begun (s : State) (c : Nat) (k : Option Nat) (size : Nat) : State :=
  countRetired
    ((s.modThr c k fun t => { t with dslot := [] }).modThr c k fun t => { t with r := nextPc t.r (pcOf s c k) size }) c k

/-- What an instruction's outcome makes of the core's issue. -/
def concluded (s : State) (c : Nat) (k : Option Nat) (u : Use) (act : State → Option Nat → Nat → Out) : Out → State
  | .wait b => issueGo c k u (pcOf s c k) act 3 (waitFor s c b (eventFuel s c))
  | .ok x n => x.modCore c fun y => { y with cyc := issueCyc s c + n }
  | .flt f => preciseFault s c k f (pcOf s c k)
  | .err e f => preciseFault (e s) c k f (pcOf s c k)
  | .stall w => w s
  | .stop x => x

theorem issueFault_none {u : Use} (h : Ready s c k u.size) (hp : u.supOnly = true → k = none) (hi : u.ill = false)
    (ht : u.tenOnly = true → k ≠ none) (he : u.ends = true → NotAtEnd s c k u.size) :
    issueFault s c k u (pcOf s c k) = none := by
  have hp' : (u.supOnly && k.isSome) = false := by
    cases k <;> simp_all
  have ht' : (u.tenOnly && k.isNone) = false := by
    cases k <;> simp_all
  have he' : (u.ends && [0, 1, 2].any fun l =>
      ((s.thr c k).r.loop l).act && ((s.thr c k).r.loop l).le.toNat == pcOf s c k + u.size - 4) = false := by
    cases hu : u.ends with
    | false => rfl
    | true =>
      have hn := he hu
      simp only [Bool.true_and, List.any_eq_false, Bool.and_eq_true, beq_iff_eq]
      intro l hl
      exact hn l (by simp at hl; omega)
  unfold issueFault
  simp only [h.first, h.last, h.word, hp', hi, ht', Bool.and_self, Bool.not_true, Bool.or_self, Bool.false_eq_true, if_false]
  rw [if_neg (by rw [he']; simp)]

/-- The Loupe leaves an instruction that is ready alone (R225). -/
theorem Ready.loupe {n : Nat} (h : Ready s c k n) : loupeReplay (pastBreak s c) c k = s := by
  have hp : pastBreak s c = s := by simp [pastBreak, h.go]
  rw [hp]
  unfold loupeReplay
  cases k with
  | none => rfl
  | some q =>
    have hl := h.log
    generalize loupeNow s c (some q) = p at hl
    obtain ⟨a, b⟩ := p
    simp only at hl
    subst hl
    rfl

/-- An instruction that may issue here acts at once, and its outcome decides the rest. -/
theorem issueI_ready {u : Use} (act : State → Option Nat → Nat → Out) (h : Ready s c k u.size)
    (hp : u.supOnly = true → k = none) (hi : u.ill = false) (ht : u.tenOnly = true → k ≠ none)
    (he : u.ends = true → NotAtEnd s c k u.size) :
    issueI s c u act = concluded s c k u act (act (begun s c k u.size) k (pcOf s c k)) := by
  have hf := issueFault_none h hp hi ht he
  unfold issueI
  simp only [h.catchUp, h.who, h.up, h.heldDue, h.win, h.brk, h.loupe, hf, h.issueWaits, Bool.not_true,
    Bool.false_eq_true, if_false]
  unfold issueGo
  simp only [h.heldDue, takeSlot, h.calm.slot, landSlot, putRegs, List.filter_nil, List.foldl_nil, ite_self,
    Bool.false_eq_true, if_false]
  have hb : countRetired ((s.modThr c k fun t => { t with dslot := [] }).modThr c k fun t =>
      { t with r := nextPc t.r (pcOf s c k) u.size }) c k = begun s c k u.size := rfl
  rw [hb]
  cases act (begun s c k u.size) k (pcOf s c k) <;> rfl

/-- A fault found before the instruction acts is taken precisely (R177). -/
theorem issueI_fault {u : Use} (act : State → Option Nat → Nat → Out) (h : Ready s c k u.size) {f : FaultRec}
    (hf : issueFault s c k u (pcOf s c k) = some f) :
    issueI s c u act = preciseFault s c k f (pcOf s c k) := by
  unfold issueI
  simp only [h.catchUp, h.who, h.up, h.heldDue, h.win, h.brk, h.loupe, hf, Bool.not_true, Bool.false_eq_true, if_false]

/-- A core that cannot issue does nothing with an instruction. -/
theorem issueI_held {u : Use} (act : State → Option Nat → Nat → Out) (hc : catchUp s c = s)
    (h : canIssue s c = false) : issueI s c u act = s := by
  unfold issueI
  simp [hc, h]

-- The state in which it acts --------------------------------------------------------------------------------------------------

variable (s c k)

theorem begun_thr (n : Nat) : (begun s c k n).thr c k =
    { s.thr c k with dslot := [], r := nextPc (s.thr c k).r (pcOf s c k) n } := by
  simp [begun]

theorem nextPc_s (r : RSet) (pc n : Nat) : (nextPc r pc n).s = r.s := by
  simp only [nextPc, endTest]
  repeat' split
  all_goals simp_all [RSet.setLoop]

theorem nextPc_inv (r : RSet) (pc n : Nat) : (nextPc r pc n).inv = r.inv := by
  simp only [nextPc, endTest]
  repeat' split
  all_goals simp_all [RSet.setLoop]

theorem nextPc_flags (r : RSet) (pc n : Nat) : (nextPc r pc n).flags = r.flags := by
  simp only [nextPc, endTest, RSet.flags]
  repeat' split
  all_goals simp_all [RSet.setLoop]

@[simp] theorem begun_gpr (n m : Nat) : gpr (begun s c k n) c k m = gpr s c k m := by
  simp [gpr, begun_thr, RSet.get, RSet.turn, nextPc_s, nextPc_inv]

@[simp] theorem begun_nzcv (n : Nat) : nzcv (begun s c k n) c k = nzcv s c k := by
  simp [nzcv, begun_thr, nextPc_flags]

theorem begun_rest (n : Nat) : { begun s c k n with cores := s.cores, ctxs := s.ctxs } = s := by
  have h := congrArg (fun x : State => { x with cores := s.cores, ctxs := s.ctxs })
    (countRetired_rest ((s.modThr c k fun t => { t with dslot := [] }).modThr c k fun t =>
      { t with r := nextPc t.r (pcOf s c k) n }) c k)
  refine Eq.trans (Eq.trans ?_ h) ?_
  · rfl
  · cases k <;> rfl

end Sys2Proof.Machine
end

