-- ==== Sys2Proof/Laws/Regs.lean ====
section
/-! SUPPORT. Register fields read back what was put into them, flags that hardware sets stay set, and what setting one
leaves alone, each said once. -/

namespace Sys2Proof.Machine
open Sys2Proof

-- Fields of a word ------------------------------------------------------------------------------------------------------------

/-- A word with a field replaced, as its three parts. -/
theorem ins_toNat (f : Field) (w : Word) (v : Nat) (hl : f.lo ≤ f.hi) (hh : f.hi < 32) :
    (f.ins w v).toNat =
      2 ^ f.lo * (2 ^ f.w * (w.toNat / 2 ^ (f.lo + f.w)) + v % 2 ^ f.w) + w.toNat % 2 ^ f.lo := by
  have hw : f.lo + f.w ≤ 32 := by unfold Field.w; omega
  generalize hx : w.toNat = x
  have hx32 : x < 2 ^ 32 := hx ▸ w.isLt
  have e1 : x = 2 ^ f.lo * (x / 2 ^ f.lo) + x % 2 ^ f.lo := (Nat.div_add_mod x _).symm
  have e2 : x / 2 ^ f.lo = 2 ^ f.w * (x / 2 ^ (f.lo + f.w)) + x / 2 ^ f.lo % 2 ^ f.w := by
    rw [Nat.pow_add, ← Nat.div_div_eq_div_mul]; exact (Nat.div_add_mod _ _).symm
  have hv : v % 2 ^ f.w < 2 ^ f.w := Nat.mod_lt _ (by positivity)
  have hr : x % 2 ^ f.lo < 2 ^ f.lo := Nat.mod_lt _ (by positivity)
  have hq : x / 2 ^ (f.lo + f.w) < 2 ^ (32 - (f.lo + f.w)) := by
    rw [Nat.div_lt_iff_lt_mul (by positivity), ← Nat.pow_add]
    simpa [Nat.sub_add_cancel hw] using hx32
  have key : x - x / 2 ^ f.lo % 2 ^ f.w * 2 ^ f.lo + v % 2 ^ f.w * 2 ^ f.lo =
      2 ^ f.lo * (2 ^ f.w * (x / 2 ^ (f.lo + f.w)) + v % 2 ^ f.w) + x % 2 ^ f.lo := by
    have e3 : x = 2 ^ f.lo * (2 ^ f.w * (x / 2 ^ (f.lo + f.w))) + x / 2 ^ f.lo % 2 ^ f.w * 2 ^ f.lo + x % 2 ^ f.lo := by
      conv_lhs => rw [e1, e2]
      ring
    generalize x / 2 ^ f.lo % 2 ^ f.w * 2 ^ f.lo = b at *
    generalize x % 2 ^ f.lo = r at *
    generalize v % 2 ^ f.w = v' at *
    rw [Nat.mul_add, Nat.mul_comm v']
    generalize 2 ^ f.lo * (2 ^ f.w * (x / 2 ^ (f.lo + f.w))) = q at *
    omega
  have hlt : 2 ^ f.lo * (2 ^ f.w * (x / 2 ^ (f.lo + f.w)) + v % 2 ^ f.w) + x % 2 ^ f.lo < 2 ^ 32 := by
    have a1 : 2 ^ f.w * (x / 2 ^ (f.lo + f.w)) + v % 2 ^ f.w < 2 ^ f.w * 2 ^ (32 - (f.lo + f.w)) := by
      calc _ < 2 ^ f.w * (x / 2 ^ (f.lo + f.w)) + 2 ^ f.w := by omega
        _ = 2 ^ f.w * (x / 2 ^ (f.lo + f.w) + 1) := by ring
        _ ≤ _ := Nat.mul_le_mul_left _ hq
    calc _ < 2 ^ f.lo * (2 ^ f.w * (x / 2 ^ (f.lo + f.w)) + v % 2 ^ f.w) + 2 ^ f.lo := by omega
      _ = 2 ^ f.lo * (2 ^ f.w * (x / 2 ^ (f.lo + f.w)) + v % 2 ^ f.w + 1) := by ring
      _ ≤ 2 ^ f.lo * (2 ^ f.w * 2 ^ (32 - (f.lo + f.w))) := Nat.mul_le_mul_left _ a1
      _ = 2 ^ 32 := by rw [← Nat.pow_add, ← Nat.pow_add]; congr 1; omega
  unfold Field.ins bits
  simp only [hx, key, BitVec.toNat_ofNat, Nat.mod_eq_of_lt hlt]

/-- Bit i of a word with a field replaced. -/
theorem ins_testBit (f : Field) (w : Word) (v i : Nat) (hl : f.lo ≤ f.hi) (hh : f.hi < 32) :
    (f.ins w v).toNat.testBit i = if f.lo ≤ i ∧ i ≤ f.hi then v.testBit (i - f.lo) else w.toNat.testBit i := by
  have hr : w.toNat % 2 ^ f.lo < 2 ^ f.lo := Nat.mod_lt _ (by positivity)
  have hv : v % 2 ^ f.w < 2 ^ f.w := Nat.mod_lt _ (by positivity)
  have hw : f.w = f.hi - f.lo + 1 := rfl
  rw [ins_toNat f w v hl hh, Nat.testBit_two_pow_mul_add _ hr, Nat.testBit_two_pow_mul_add _ hv]
  by_cases h1 : i < f.lo
  · have : ¬(f.lo ≤ i ∧ i ≤ f.hi) := by omega
    simp [h1, this, Nat.testBit_mod_two_pow]
  · by_cases h2 : i - f.lo < f.w
    · have : f.lo ≤ i ∧ i ≤ f.hi := by omega
      simp [h1, h2, this, Nat.testBit_mod_two_pow]
    · have : ¬(f.lo ≤ i ∧ i ≤ f.hi) := by omega
      simp only [h1, h2, this, if_false, Nat.testBit_div_two_pow]
      congr 1
      omega

/-- The other fields of the word keep their values. -/
theorem bits_ins_other (f : Field) (w : Word) (v lo n : Nat) (hl : f.lo ≤ f.hi) (hh : f.hi < 32)
    (h : lo + n ≤ f.lo ∨ f.hi < lo) : bits (f.ins w v).toNat lo n = bits w.toNat lo n := by
  apply Nat.eq_of_testBit_eq
  intro i
  unfold bits
  rw [Nat.testBit_mod_two_pow, Nat.testBit_mod_two_pow, Nat.testBit_div_two_pow, Nat.testBit_div_two_pow,
    ins_testBit f w v _ hl hh]
  by_cases hi : i < n
  · have : ¬(f.lo ≤ i + lo ∧ i + lo ≤ f.hi) := by omega
    simp [hi, this]
  · simp [hi]

-- Fields of the state -----------------------------------------------------------------------------------------------------------

/-- Another field of the same register. -/
theorem f_setF_field (s : State) (f g : Field) (v i j : Nat) (hl : f.lo ≤ f.hi) (hh : f.hi < 32) (hr : g.reg = f.reg)
    (h : g.hi < f.lo ∨ f.hi < g.lo) (hg : g.lo ≤ g.hi) : (s.setF f v i j).f g i j = s.f g i j := by
  simp only [State.f, State.setF, hr, reg_setReg_self]
  exact bits_ins_other f _ _ _ _ hl hh (by unfold Field.w; omega)

-- Flags and notices --------------------------------------------------------------------------------------------------------------

/-- Only registers, the cycles of their sets, interrupt bookkeeping, host memory, the event queue and the stop-bath log
differ. -/
def OnlySignals (s t : State) : Prop :=
  { t with regs := s.regs, setAt := s.setAt, cores := s.cores, hi := s.hi, host := s.host, evq := s.evq, vault := s.vault, sl := s.sl } = s

theorem OnlySignals.trans {s t u : State} (h : OnlySignals s t) (g : OnlySignals t u) : OnlySignals s u := by
  unfold OnlySignals at *
  rw [← h, ← g]

theorem OnlySignals.ite {s a b : State} {p : Prop} [Decidable p] (ha : OnlySignals s a) (hb : OnlySignals s b) :
    OnlySignals s (if p then a else b) := by
  split <;> assumption

theorem onlySignals_flagOn (s : State) (k : Flag) (i j : Nat) : OnlySignals s (flagOn s k i j) := by
  unfold flagOn
  cases k.cnt <;> rfl

theorem onlySignals_foldl {α : Type} (f : State → α → State) (hf : ∀ x a, OnlySignals x (f x a)) (xs : List α) (s : State) :
    OnlySignals s (xs.foldl f s) := by
  induction xs generalizing s with
  | nil => rfl
  | cons a xs ih => exact (hf s a).trans (ih _)

theorem onlySignals_idleRelease (s : State) (c : Nat) : OnlySignals s (idleRelease s c) := by
  unfold idleRelease
  dsimp only
  refine .ite ?_ rfl
  apply onlySignals_foldl
  exact fun _ _ => rfl

theorem onlySignals_countSet (s : State) (c n : Nat) : OnlySignals s (countSet s c n) := by
  have h := onlySignals_idleRelease s c
  unfold countSet
  dsimp only
  generalize idleRelease s c = x at h
  exact h.trans (.ite (.ite rfl rfl) rfl)

theorem onlySignals_sendMsix (s : State) (v : Nat) : OnlySignals s (sendMsix s v) := by
  have h : OnlySignals s (s.setVec v { s.vec v with cnt := 0 }) := rfl
  unfold sendMsix
  dsimp only
  generalize s.setVec v { s.vec v with cnt := 0 } = x at h
  exact h.trans (.ite rfl rfl)

theorem onlySignals_vecSet (s : State) (v : Nat) : OnlySignals s (vecSet s v) := by
  unfold vecSet
  dsimp only
  exact .ite (OnlySignals.trans (by rfl) (onlySignals_sendMsix _ v)) rfl

theorem onlySignals_devSet (s : State) (n : Nat) : OnlySignals s (devSet s n) := by
  have h := onlySignals_countSet s (s.f fIC_ROUTE_CORE (n - 32)) n
  unfold devSet
  dsimp only
  generalize countSet s _ n = x at h
  split
  · refine h.trans (OnlySignals.trans ?_ (onlySignals_vecSet _ _))
    rfl
  · exact h

theorem onlySignals_postRec (s : State) (r : EvRec) : OnlySignals s (postRec s r) := by
  have hl : ∀ x : State, OnlySignals x (logRecord x r.words) := fun x => by
    unfold logRecord
    split <;> rfl
  have hs : OnlySignals s (if r.set == 256 then logRecord s r.words else s) := by
    split
    · exact hl s
    · rfl
  unfold postRec
  dsimp only
  generalize (if r.set == 256 then logRecord s r.words else s) = x at hs
  split
  · exact hs.trans rfl
  · refine (hs.trans ?_).trans (onlySignals_devSet _ 37)
    refine OnlySignals.trans ?_ (onlySignals_flagOn _ _ _ _)
    rfl

theorem onlySignals_notice (s : State) (src fl d4 d5 : Nat) : OnlySignals s (notice s src fl d4 d5) :=
  onlySignals_postRec _ _

/-- Setting a flag changes registers, interrupt bookkeeping, host memory, the event queue and the log, and nothing else. -/
theorem onlySignals_raise (s : State) (k : Flag) (i j : Nat) : OnlySignals s (raise s k i j) := by
  unfold raise
  have h := onlySignals_flagOn s k i j
  dsimp only
  generalize flagOn s k i j = x at h
  cases k.src with
  | dev n =>
    dsimp only
    split
    · exact (h.trans (onlySignals_devSet _ n)).trans (onlySignals_notice _ _ _ _ _)
    · exact h.trans (onlySignals_devSet _ n)
  | port => exact h.trans (onlySignals_devSet _ _)
  | lane => exact h.trans (onlySignals_devSet _ _)
  | core n => exact h.trans (onlySignals_countSet _ _ _)
  | none => exact h.trans (onlySignals_notice _ _ _ _ _)

-- The registers that flags write ----------------------------------------------------------------------------------------------------

/-- Registers that a notice or a message may write beside the flag itself: the pending bits of MSI-X, and the count and the flag
of a record that finds no room. -/
def sideKey (n : Nat) : Prop :=
  (∃ i < 8, n = rMSIX_PBA.key i 0) ∨ n = fCS_EVDROP_CNT_CNT.reg.key 0 0 ∨ n = rCS_STAT.key 0 0 ∨
    ∃ c, kCS_STAT_EVLOST.cnt = some c ∧ n = c.reg.key 0 0

theorem regs_setF (s : State) (f : Field) (v i j n : Nat) (h : n ≠ f.reg.key i j) :
    tfind (s.setF f v i j).regs n = tfind s.regs n := by
  simp [State.setF, State.setReg, tfind_tput_ne _ _ h]

theorem regs_flagOn (s : State) (k : Flag) (i j n : Nat) (h : n ≠ k.f.reg.key i j)
    (hc : ∀ c, k.cnt = some c → n ≠ c.reg.key i j) : tfind (flagOn s k i j).regs n = tfind s.regs n := by
  unfold flagOn
  cases hk : k.cnt with
  | none => exact regs_setF s k.f 1 i j n h
  | some c =>
    dsimp only
    rw [State.bump, regs_setF _ _ _ _ _ _ (hc c hk)]
    exact regs_setF (noteSet s _ _) k.f 1 i j n h

theorem regs_idleRelease (s : State) (c : Nat) : (idleRelease s c).regs = s.regs := by
  have h : ∀ (f : State → Nat × SrcSt → State), (∀ x a, (f x a).regs = x.regs) → ∀ (xs : List (Nat × SrcSt)) (x : State),
      (xs.foldl f x).regs = x.regs := fun f hf xs => by
    induction xs with
    | nil => exact fun _ => rfl
    | cons a xs ih => exact fun x => (ih _).trans (hf x a)
  unfold idleRelease
  dsimp only
  split
  · apply h
    exact fun _ _ => rfl
  · rfl

theorem regs_countSet (s : State) (c n : Nat) : (countSet s c n).regs = s.regs := by
  have h := regs_idleRelease s c
  unfold countSet
  dsimp only
  generalize idleRelease s c = x at h
  rw [apply_ite State.regs, apply_ite State.regs]
  simpa [releaseSrc, State.modCore, State.setCore] using h

theorem regs_sendMsix (s : State) (v n : Nat) (hv : v < 256) (h : ¬sideKey n) :
    tfind (sendMsix s v).regs n = tfind s.regs n := by
  have hn : n ≠ rMSIX_PBA.key (v / 32) 0 := fun e => h (.inl ⟨v / 32, by omega, e⟩)
  have e : (s.setVec v { s.vec v with cnt := 0 }).regs = s.regs := rfl
  unfold sendMsix
  dsimp only
  generalize s.setVec v { s.vec v with cnt := 0 } = x at e
  split
  · simp [State.setReg, tfind_tput_ne _ _ hn, e]
  · exact congrArg (tfind · n) e

theorem regs_vecSet (s : State) (v n : Nat) (hv : v < 256) (h : ¬sideKey n) :
    tfind (vecSet s v).regs n = tfind s.regs n := by
  unfold vecSet
  dsimp only
  refine iteInduction (motive := fun x : State => tfind x.regs n = tfind s.regs n) (fun _ => ?_) (fun _ => rfl)
  rw [regs_sendMsix _ _ _ hv h]
  rfl

theorem regs_devSet (s : State) (d n : Nat) (h : ¬sideKey n) : tfind (devSet s d).regs n = tfind s.regs n := by
  unfold devSet
  dsimp only
  split
  · rw [regs_vecSet _ _ _ _ h]
    · show tfind (countSet s _ d).regs n = _
      rw [regs_countSet]
    · exact bits_lt _ _ _
  · rw [regs_countSet]

theorem regs_postRec (s : State) (r : EvRec) (n : Nat) (h : ¬sideKey n) : tfind (postRec s r).regs n = tfind s.regs n := by
  have hl : (if r.set == 256 then logRecord s r.words else s).regs = s.regs := by
    split
    · unfold logRecord
      split <;> rfl
    · rfl
  unfold postRec
  dsimp only
  generalize (if r.set == 256 then logRecord s r.words else s) = x at hl
  split
  · exact congrArg (tfind · n) hl
  · rw [regs_devSet _ _ _ h, regs_flagOn]
    · unfold State.bump
      rw [regs_setF _ _ _ _ _ _ fun e => h (.inr (.inl e))]
      exact congrArg (tfind · n) hl
    · exact fun e => h (.inr (.inr (.inl e)))
    · exact fun c hc e => h (.inr (.inr (.inr ⟨c, hc, e⟩)))

/-- Setting a flag leaves every register but its own, its counter's and those of `sideKey`. -/
theorem regs_raise (s : State) (k : Flag) (i j n : Nat) (h : n ≠ k.f.reg.key i j)
    (hc : ∀ c, k.cnt = some c → n ≠ c.reg.key i j) (hs : ¬sideKey n) : tfind (raise s k i j).regs n = tfind s.regs n := by
  have e := regs_flagOn s k i j n h hc
  unfold raise
  dsimp only
  generalize flagOn s k i j = x at e
  cases k.src with
  | dev d =>
    dsimp only
    split
    · rw [notice, regs_postRec _ _ _ hs, regs_devSet _ _ _ hs, e]
    · rw [regs_devSet _ _ _ hs, e]
  | port => rw [regs_devSet _ _ _ hs, e]
  | lane => rw [regs_devSet _ _ _ hs, e]
  | core d => rw [regs_countSet, e]
  | none => rw [notice, regs_postRec _ _ _ hs, e]

-- The pins ---------------------------------------------------------------------------------------------------------------------------

/-- A settled state's pins follow it. -/
theorem pinsFollow_settle (s : State) : PinsFollow (settle s) := ⟨rfl, rfl, rfl⟩

end Sys2Proof.Machine
end

