-- ==== Sys2Proof/Laws/Scalar.lean ====
section
/-! SUPPORT. What writing an issuer's registers and flags does, and what it leaves alone. -/

namespace Sys2Proof.Machine
open Sys2Proof

/-- Only the register set of issuer k of core c and what its section records may differ between s and t. -/
structure OwnSet (s t : State) (c : Nat) (k : Option Nat) : Prop where
  rest  : { t with cores := s.cores, ctxs := s.ctxs } = s
  cores : ∀ n, n ≠ c → tfind t.cores n = tfind s.cores n
  ctxs  : ∀ n, k.map (8 * c + ·) ≠ some n → tfind t.ctxs n = tfind s.ctxs n
  core  : { t.core c with thr := (s.core c).thr } = s.core c
  sup   : k ≠ none → (t.core c).thr = (s.core c).thr
  ctx   : ∀ q, k = some q → { t.ctx c q with thr := (s.ctx c q).thr, sec := (s.ctx c q).sec } = s.ctx c q

variable {s t u : State} {c : Nat} {k : Option Nat}

theorem OwnSet.refl (s : State) (c : Nat) (k : Option Nat) : OwnSet s s c k :=
  ⟨rfl, fun _ _ => rfl, fun _ _ => rfl, rfl, fun _ => rfl, fun _ _ => rfl⟩

theorem OwnSet.trans (h : OwnSet s t c k) (g : OwnSet t u c k) : OwnSet s u c k where
  rest := by
    have h1 := h.rest
    have h2 := g.rest
    rw [← h1, ← h2]
  cores n hn := (g.cores n hn).trans (h.cores n hn)
  ctxs n hn := (g.ctxs n hn).trans (h.ctxs n hn)
  core := by
    have h1 := h.core
    have h2 := g.core
    rw [← h1, ← h2]
  sup hk := (g.sup hk).trans (h.sup hk)
  ctx q hq := by
    have h1 := h.ctx q hq
    have h2 := g.ctx q hq
    rw [← h1, ← h2]

theorem ownSet_modThr (s : State) (c : Nat) (k : Option Nat) (f : Thr → Thr) : OwnSet s (s.modThr c k f) c k where
  rest := modThr_rest s c k f
  cores n hn := by
    cases k
    · exact tfind_tput_ne _ _ hn
    · rfl
  ctxs n hn := by
    cases k with
    | none => rfl
    | some q => exact tfind_tput_ne _ _ (by intro h; exact hn (by simp [h]))
  core := core_modThr s c k f
  sup hk := by
    cases k with
    | none => exact absurd rfl hk
    | some q => rfl
  ctx q hq := by
    subst hq
    simp [State.modThr, State.setThr]

theorem ownSet_sign (s : State) (c : Nat) (k : Option Nat) (kind key v : Nat) :
    OwnSet s (sign s c k kind key v) c k := by
  cases k with
  | none => exact OwnSet.refl s c none
  | some q =>
    unfold sign
    simp only
    split
    · exact {
        rest := rfl
        cores := fun _ _ => rfl
        ctxs := fun n hn => tfind_tput_ne _ _ (by intro h; exact hn (by simp [h]))
        core := rfl
        sup := fun _ => rfl
        ctx := fun q' hq => by
          simp only [Option.some.injEq] at hq
          subst hq
          simp [modSec] }
    · exact OwnSet.refl s c _

@[simp] theorem thr_sign (s : State) (c : Nat) (k : Option Nat) (kind key v : Nat) :
    (sign s c k kind key v).thr c k = s.thr c k := by
  cases k with
  | none => rfl
  | some q =>
    unfold sign
    simp only
    split <;> simp [modSec, State.thr]

theorem ownSet_putReg (s : State) (c : Nat) (k : Option Nat) (n : Nat) (v : Word) : OwnSet s (putReg s c k n v) c k := by
  unfold putReg
  split
  · exact OwnSet.refl s c k
  · exact (ownSet_modThr s c k _).trans (ownSet_sign _ c k _ _ _)

theorem ownSet_putFlags (s : State) (c : Nat) (k : Option Nat) (f : Nzcv) : OwnSet s (putFlags s c k f) c k :=
  (ownSet_modThr s c k _).trans (ownSet_sign _ c k _ _ _)

theorem ownSet_countRetired (s : State) (c : Nat) (k : Option Nat) : OwnSet s (countRetired s c k) c k := by
  cases k with
  | none => exact OwnSet.refl s c none
  | some q =>
    unfold countRetired
    simp only
    split
    · exact {
        rest := rfl
        cores := fun _ _ => rfl
        ctxs := fun n hn => tfind_tput_ne _ _ (by intro h; exact hn (by simp [h]))
        core := rfl
        sup := fun _ => rfl
        ctx := fun q' hq => by
          simp only [Option.some.injEq] at hq
          subst hq
          simp [modSec] }
    · exact OwnSet.refl s c _

theorem ownSet_begun (s : State) (c : Nat) (k : Option Nat) (n : Nat) : OwnSet s (begun s c k n) c k :=
  ((ownSet_modThr s c k _).trans (ownSet_modThr _ c k _)).trans (ownSet_countRetired _ c k)

/-- Writing a register: the register set afterwards. -/
theorem thr_putReg (s : State) (c : Nat) (k : Option Nat) (n : Nat) (v : Word) :
    (putReg s c k n v).thr c k = { s.thr c k with r := (s.thr c k).r.put n v } := by
  unfold putReg
  split
  · rename_i h
    simp [RSet.put, h]
  · simp

@[simp] theorem thr_putFlags (s : State) (c : Nat) (k : Option Nat) (f : Nzcv) :
    (putFlags s c k f).thr c k =
      { s.thr c k with r := { (s.thr c k).r with n := f.n, z := f.z, c := f.c, v := f.v } } := by
  simp [putFlags]

/-- Writes to s0 are discarded; another register reads as written, and the others as before (R137). -/
theorem get_put (r : RSet) (n m : Nat) (v : Word) :
    (r.put n v).get m = if m = n ∧ m ≠ 0 then v else r.get m := by
  unfold RSet.put RSet.get
  by_cases hm : m = 0
  · simp [hm]
  · by_cases hn : n = 0
    · simp [hn, hm]
    · simp only [hm, hn, if_false, ne_eq, not_false_eq_true, and_true]
      split
      · rename_i e
        subst e
        cases h : r.inv <;> simp [RSet.turn, h]
      · rename_i e
        simp only [RSet.turn, tget_tput_ne 0 r.s _ e]

-- The end of an instruction ---------------------------------------------------------------------------------------------------

/-- The next issue cycle and the settled pins change no register set. -/
theorem thr_concluded (w : State) (c : Nat) (k : Option Nat) (n : Nat) :
    (settle (w.modCore c fun y => { y with cyc := n })).thr c k = w.thr c k := by
  cases k with
  | none => simp [settle, State.thr, State.modCore, State.core, State.setCore]
  | some q => rfl

theorem core_concluded (w : State) (c n : Nat) :
    (settle (w.modCore c fun y => { y with cyc := n })).core c = { w.core c with cyc := n } := by
  simp only [settle, State.modCore, State.core, State.setCore, tfind_tput_self, Option.getD_some]

theorem took_concluded (s w : State) (c n : Nat) :
    Took s (settle (w.modCore c fun y => { y with cyc := issueCyc s c + n })) c n := by
  simp [Took, core_concluded]

/-- An instruction that changes nothing but its issuer's register set leaves alone what `ScalarFrame` lists. -/
theorem scalarFrame_concluded {s w : State} {c : Nat} {k : Option Nat} {n : Nat} (h : OwnSet s w c k)
    (ht : { w.thr c k with r := (s.thr c k).r } = s.thr c k) :
    ScalarFrame s (settle (w.modCore c fun y => { y with cyc := n })) c k where
  rest := by
    have := h.rest
    rw [← this]
    rfl
  pins := by
    have := h.rest
    rw [← this]
    rfl
  cores m hm := (tfind_tput_ne _ _ hm).trans (h.cores m hm)
  ctxs m hm := h.ctxs m hm
  core := by
    have := h.core
    rw [core_concluded, ← this]
  sup hk := by
    rw [core_concluded]
    exact h.sup hk
  ctx q hq := h.ctx q hq
  thr := by
    rw [thr_concluded]
    exact ht

/-- The outcome of an instruction that writes one register, and the flags where `wf` says so. -/
def wrote (s : State) (c : Nat) (k : Option Nat) (rd : Nat) (v : Word) (wf : Bool) (fl : Nzcv) : State :=
  let w := putReg (begun s c k 4) c k rd v
  if wf then putFlags w c k fl else w

theorem computes_wrote {s : State} {c : Nat} {k : Option Nat} (hr : Ready s c k 4) (rd : Nat) (v : Word) (fl : Nzcv)
    (wf : Bool) (n : Nat) (hfl : wf = false → fl = nzcv s c k) :
    Computes s (settle ((wrote s c k rd v wf fl).modCore c fun y => { y with cyc := issueCyc s c + n })) c k rd v fl n where
  reg m := by
    have e : (RSet.put (nextPc (s.thr c k).r (pcOf s c k) 4) rd v).get m =
        if m = rd ∧ m ≠ 0 then v else gpr s c k m := by
      rw [get_put]
      simp [gpr, RSet.get, RSet.turn, nextPc_s, nextPc_inv]
    show RSet.get (State.thr _ c k).r m = _
    rw [thr_concluded, ← e]
    cases wf
    · simp [wrote, thr_putReg, begun_thr]
    · simp [wrote, thr_putReg, begun_thr, RSet.get, RSet.turn]
  flags := by
    show RSet.flags (State.thr _ c k).r = _
    rw [thr_concluded]
    cases wf
    · have e : (RSet.put (nextPc (s.thr c k).r (pcOf s c k) 4) rd v).flags = (s.thr c k).r.flags := by
        have := nextPc_flags (s.thr c k).r (pcOf s c k) 4
        unfold RSet.put
        split <;> simp_all [RSet.flags]
      simp [wrote, thr_putReg, begun_thr, e, hfl rfl, nzcv]
    · simp [wrote, RSet.flags]
  next := by
    simp only [Advanced, thr_concluded]
    cases wf <;> simp [wrote, thr_putReg, begun_thr, RSet.put] <;> split <;> simp
  took := took_concluded s _ c n
  frame := by
    apply scalarFrame_concluded
    · cases wf
      · exact (ownSet_begun s c k 4).trans (ownSet_putReg _ c k _ _)
      · exact ((ownSet_begun s c k 4).trans (ownSet_putReg _ c k _ _)).trans (ownSet_putFlags _ c k _)
    · cases wf <;> simp [wrote, thr_putReg, begun_thr, ← hr.calm.slot]

end Sys2Proof.Machine
end

