-- ==== Sys2Proof/WellFormed.lean ====
section
/-! DEFINITION. Which operand values a command can carry: checks on the operands whose types are wider than what the
rule of the command allows. A command that fails its check stands for nothing that can reach the device. -/

namespace Sys2Proof

/-- A BAR2 access lies in the 128 MiB window and has some length (R452). -/
def wfBar2 (addr size : Nat) : Bool := decide (addr < 2 ^ 27) && decide (0 < size) && decide (size ≤ 4096)

/-- A narrow or misaligned access is not an aligned word (R9). -/
def wfNarrow (off size : Nat) : Bool := decide (0 < size) && !(size == 4 && off % 4 == 0)

/-- A register is read and written as an aligned word (R9). -/
def wfAligned (off : Nat) : Bool := off % 4 == 0

/-- GOOSE members hold at most 32 bits and 8 octets (R246). -/
def wfMember : GooseMember → Bool
  | .bits n _ => decide (n ≤ 32)
  | .octets n _ => decide (n ≤ 8)
  | .bool _ | .int _ | .uint _ | .f32 _ | .f64 _ | .utc _ => true

/-- A frame's bytes fit into its length (R233). -/
def wfFrame (f : Frame) : Bool :=
  decide (f.bytes.length + 4 ≤ f.len) &&
  (match f.body with
   | .goose _ g => g.members.all wfMember
   | .sv _ _ _ _ | .ptp _ | .supervision | .pause | .raw => true)

/-- The time unit sends as two-step master and as peer-delay requester and responder (R309). -/
def wfPtp (m : PtpMsg) : Bool :=
  match m.kind with
  | .sync | .followUp | .announce | .pdelayReq | .pdelayResp | .pdelayRespFollowUp => true
  | .management => false

/-- Day and second of an IRIG-B frame (R308). -/
def wfIrig (g : IrigFrame) : Bool := decide (1 ≤ g.day) && decide (g.day ≤ 366) && decide (g.secOfDay ≤ 86400)

/-- The speeds that SGMII negotiates, Mb/s (R229). -/
def wfSgmii (n : Nat) : Bool := n == 10 || n == 100 || n == 1000

/-- Width and generation that a PCIe link can negotiate (R319). -/
def wfPcie (width gen : Nat) : Bool := [1, 2, 4, 8].contains width && decide (1 ≤ gen) && decide (gen ≤ 4)

/-- The interrupt sources of the table (R193). -/
def wfSource (n : Nat) : Bool :=
  (decide (1 ≤ n) && decide (n ≤ 19)) || (decide (32 ≤ n) && decide (n ≤ 48)) || (decide (64 ≤ n) && decide (n ≤ 87))

/-- The unit of an online slice (R404): a pipe, a Tray slice, or a Plate bank of 33 groups of 32. -/
def wfSlice (k : SliceKind) (unit : Nat) : Bool :=
  match k with
  | .pipe | .neg => decide (unit < 32)
  | .tray => decide (unit < 256)
  | .plate => decide (unit < 1056)

/-- Readings of the 8 sensors (R447). -/
def wfTemps (ts : List Int) : Bool := ts.length == 8 && ts.all fun t => decide (-128 ≤ t) && decide (t ≤ 127)

/-- Bytes that a transmit descriptor names (R260). -/
def wfTxBytes (d : List Byte) : Bool := decide (d.length ≤ 65536)

/-- Read data in one completion (R340). -/
def wfHostResp : HostResp → Bool
  | .data bs => decide (bs.length ≤ 2 ^ 20)
  | .ur | .ca | .poisoned => true

/-- The direct operation that a BI_DIRECT row names (R406): OP, bits [11:8]. -/
def wfDirect (op : Nat) (v : Word) : Bool := v.toNat / 2 ^ 8 % 2 ^ 4 == op

/-- Credits for four channels, and a payload of whole 8-byte units within 2,048 bytes (R418). -/
def wfUb (u : UbFrame) : Bool :=
  u.credits.length == 4 && decide (u.payload.length ≤ 2048) && u.payload.length % 8 == 0

/-- The operands of a command are ones that it can carry. -/
def Instr.wf : Instr → Bool
  | .activationPost | .dispatch .. | .planBoundary | .slotStart | .spanFormation .. | .deadlineMiss ..
  | .fixedRelease .. | .heldWriteRetry | .migration .. | .shmOwner .. | .handoverComplete .. | .scrub ..
  | .vectorStart .. | .countExpiry .. | .verdict .. | .vmov .. | .vldff .. | .vlds .. | .vsts .. | .vcvt ..
  | .vadd .. | .vsub .. | .vmul .. | .vfma .. | .vmin .. | .vmax .. | .vabs .. | .vneg .. | .vand .. | .vor ..
  | .vxor .. | .vshl .. | .vshr .. | .vdiv .. | .vsqrt .. | .vcmp .. | .vmulw .. | .vfmaw .. | .vdot ..
  | .vcmul .. | .vredadd .. | .vredmin .. | .vredmax .. | .vprefix .. | .vdadd .. | .vdsub .. | .vaddShort ..
  | .vsubShort .. | .vmulShort .. | .vfmaShort .. | .vminShort .. | .vmaxShort .. | .vandShort ..
  | .vorShort .. | .vxorShort .. | .vshli .. | .vshrai .. | .vshrli .. | .vcmpeq .. | .vcmplt .. | .vcmple ..
  | .vsel .. | .vsplat .. | .vcvtShort .. | .vredaddShort .. | .vredminShort .. | .vredmaxShort ..
  | .vredadd2 .. | .vcmulShort .. | .vdaddShort .. | .vdsubShort .. | .vmovs .. | .mand .. | .mor ..
  | .mxor .. | .mnot .. | .mpop .. | .vsetn .. | .vgrp .. | .add .. | .sub .. | .adc .. | .sbc .. | .andR ..
  | .orR .. | .xorR .. | .andn .. | .shl .. | .shrl .. | .shra .. | .ror .. | .shli .. | .shrli .. | .shrai ..
  | .rori .. | .mul .. | .mulh .. | .mulhu .. | .mull .. | .mullu .. | .div .. | .divu .. | .rem .. | .remu ..
  | .cmp .. | .tst .. | .minS .. | .maxS .. | .minu .. | .maxu .. | .clz .. | .csel .. | .sextb .. | .sexth ..
  | .addi .. | .addis .. | .andi .. | .ori .. | .xori .. | .lui .. | .cmpi .. | .ldb .. | .ldbu .. | .ldh ..
  | .ldhu .. | .ldw .. | .ldd .. | .stb .. | .sth .. | .stw .. | .std .. | .bCond .. | .jal .. | .jalr ..
  | .loopR .. | .loopi .. | .inp .. | .out .. | .prd .. | .pwr .. | .pwrJudgement .. | .pub .. | .vcount ..
  | .tnowNs .. | .xaflags .. | .sioPage .. | .bar0Window .. | .icClaim .. | .icEoi .. | .trap .. | .nop ..
  | .sync .. | .endA .. | .wait .. | .rfe .. | .resume .. | .negBegin .. | .checkN .. | .negWindowExpiry ..
  | .restart .. | .longOperationRetire .. | .exceptionEntry .. | .interruptEntry .. | .icSwi .. | .icSrc ..
  | .msixRelease .. | .msixUnmask .. | .ezCtl .. | .ezIdata .. | .ezXcfgQrel .. | .schCapReturn ..
  | .ingressRoutineStart .. | .svFrame .. | .gooseFrame .. | .burstSvFrame .. | .ptpEventFrame ..
  | .proofBeacon .. | .egressRoutineStart .. | .publicationRequest | .transmitStart .. | .transmitEnd ..
  | .retransmission .. | .talExpiry .. | .supervisionSend .. | .duplicateForget .. | .linkDown .. | .epnCtl ..
  | .keyChangeover .. | .feNop .. | .movi .. | .movhi .. | .feAddi .. | .feAdd .. | .feSub .. | .feAnd ..
  | .feOr .. | .feXor .. | .feAndi .. | .feShli .. | .shri .. | .feCmpi .. | .feCmp .. | .getF .. | .peek ..
  | .skipF .. | .seekF .. | .berlen .. | .crcs .. | .crcr .. | .look .. | .rrec .. | .tagchk .. | .plw ..
  | .plh .. | .ptv .. | .ptq .. | .pts .. | .ptwr .. | .ptwrJudged .. | .plateWriteAck .. | .tagOutcome ..
  | .crcDone .. | .lookDone .. | .postF .. | .cnt .. | .ebeg .. | .eput .. | .esend .. | .tsfwd .. | .dropF ..
  | .hostF .. | .feEnd .. | .commit .. | .br .. | .feWait .. | .callF .. | .retF .. | .wdog .. | .feLoadGo ..
  | .verificationEnd | .feCtlRun .. | .pointWrite .. | .timeUnitRetry | .eventDrain | .directWindowRead ..
  | .directWindowWrite .. | .ppsEdge .. | .referenceExcursion | .announceTimeout | .freerun | .leapSecond
  | .replicaCorrection .. | .tuSetsec .. | .timePointUpdate | .ppsOut | .poll | .hostReadTimeout
  | .completionWrite .. | .cmdNop .. | .plateRd .. | .plateWr .. | .trayRd .. | .trayWr .. | .dramRd ..
  | .dramWr .. | .pointWr .. | .pointCfg .. | .actCfg .. | .svSub .. | .gooseSub .. | .goosePub ..
  | .bsvSub .. | .recStat .. | .imemWr .. | .planLoad .. | .keyLoadKey .. | .keyLoadFuse ..
  | .keyLoadRevoke .. | .hiTnCtlRestart .. | .flr | .pcieLinkLoss | .perstN .. | .tnCtlAdv ..
  | .epochAdvance .. | .ksVdata .. | .lcReqGo .. | .requestVerdict | .wipe | .tamper .. | .proofDigestDone
  | .beaconSend | .silent .. | .loupeRequest .. | .refresh | .patrolScrub | .ddrCtlInit .. | .trainingEnd ..
  | .pmReqGo .. | .sleepEntry | .entryComplete | .wake .. | .idleEntry | .domainGate .. | .demandWake ..
  | .rampStep .. | .domainOn .. | .switchOpen .. | .pmDomClrflt .. | .vbatTakeover .. | .constantVoltage
  | .chargeDone | .recharge .. | .vbatSample .. | .cellRemoved .. | .probe .. | .powerOnReset .. | .resetN ..
  | .bistSliceEnd .. | .sliceOverrun .. | .onlineSliceEnd .. | .watchdogExpiry | .slWdkickKick .. | .stopN
  | .slStopGo .. | .stopBath | .safeStateBuild .. | .safeStateRetransmission .. | .seal | .slCtlLogrearm ..
  | .slImgdata .. | .spiTransfer .. | .ubLinkUp .. | .ubLinkDown | .heartbeatSend | .heartbeatMiss | .takeover
  | .checkpointRefog .. | .creditReturn | .undecodedAccess .. | .ppsEdgeMissing | .referenceQualified
  | .temphi .. | .mirrorRetry | .narrowWriteRetire .. => true
  | .bar2Access _ a n _ => wfBar2 a n
  | .requestLine _ n => wfSource n
  | .moderationRelease _ n => wfSource n
  | .frameReceive _ f => wfFrame f
  | .linkUp _ n => wfSgmii n
  | .transmitDescriptor _ d => wfTxBytes d
  | .irigBFrame _ g => wfIrig g
  | .hostReadCompletion r => wfHostResp r
  | .onlineSlice k u => wfSlice k u
  | .biDirectScanDump v _ => wfDirect 1 v
  | .biDirectMarch v _ => wfDirect 2 v
  | .biDirectLbist v _ => wfDirect 3 v
  | .biDirectLoopback v _ => wfDirect 4 v
  | .heartbeat u => wfUb u
  | .mirror u => wfUb u
  | .ckpt u => wfUb u
  | .pubst u => wfUb u
  | .takeU u => wfUb u
  | .holdU u => wfUb u
  | .nak u => wfUb u
  | .idleU u => wfUb u
  | .lend u => wfUb u
  | .lendout u => wfUb u
  | .narrowAccess _ o n => wfNarrow o.toNat n
  | .registerWrite _ o _ => wfAligned o.toNat
  | .rcRead _ o => wfAligned o.toNat
  | .ptpTransmit _ m => wfPtp m
  | .pcieLinkUp w g => wfPcie w g
  | .glTempUpdate ts => wfTemps ts
  | .cutThrough _ f => wfFrame f

end Sys2Proof
end

