-- ==== Sys2Proof/Tests/Slice0.lean ====
section
/-! SUPPORT. The author's own checks: operands that no command can carry are refused, worked examples of the manual, single
steps on small states, and for each statement with hypotheses a state and operands that meet them. -/

-- The theorems below are elaborated one after another: as tasks of their own they would each hold a thread.
set_option Elab.async false

namespace Sys2Proof.Tests
open Sys2Proof Sys2Proof.Machine

-- Operands that no command can carry ------------------------------------------------------------------------------------

def frame0 : Frame := ⟨0x010CCD010001, 0x02AA00000001, [], 0x88B8, 64, true, none, false, .raw, none, []⟩
def goose0 : GooseBody := ⟨1, 2, 3, 5, 0, false, false, 2000, [.bool true], false, false, [], 0⟩
def ub0 : UbFrame := ⟨1, false, 0, [0, 0, 0, 0], 0, 0, true, []⟩
def ptp0 : PtpMsg := ⟨.announce, 0, 0, true, 0, 0, 128, 248, 128, 0, 37, true, false, false, 0, 0xFE, 0, 0, 0, 0, false⟩

theorem wf_bar2 : (Instr.bar2Access false (2 ^ 27) 4 0).wf = false := by decide +kernel
theorem wf_narrow : (Instr.narrowAccess .host 0 4).wf = false := by decide +kernel
theorem wf_aligned : (Instr.registerWrite .host 2 0).wf = false := by decide +kernel
theorem wf_member : (Instr.frameReceive 0 { frame0 with body := .goose 1 { goose0 with members := [.octets 9 0] } }).wf = false := by
  decide +kernel
theorem wf_frame : (Instr.frameReceive 0 { frame0 with len := 3 }).wf = false := by decide +kernel
theorem wf_cut : (Instr.cutThrough 0 { frame0 with len := 3 }).wf = false := by decide +kernel
theorem wf_ptp : (Instr.ptpTransmit 0 { ptp0 with kind := .management }).wf = false := by decide +kernel
theorem wf_irig : (Instr.irigBFrame false ⟨0, true, none, 0, 0, 0, false, false⟩).wf = false := by decide +kernel
theorem wf_sgmii : (Instr.linkUp 0 2500).wf = false := by decide +kernel
theorem wf_pcie : (Instr.pcieLinkUp 3 4).wf = false := by decide +kernel
theorem wf_source : (Instr.requestLine 0 20).wf = false := by decide +kernel
theorem wf_slice : (Instr.onlineSlice .pipe 32).wf = false := by decide +kernel
theorem wf_temps : (Instr.glTempUpdate [25, 25, 25, 25, 25, 25, 25]).wf = false := by decide +kernel
theorem wf_response (bs : List Byte) (h : 2 ^ 20 < bs.length) : (Instr.hostReadCompletion (.data bs)).wf = false := by
  exact decide_eq_false (p := bs.length ≤ 2 ^ 20) (by omega)
theorem wf_descriptor (bs : List Byte) (h : 65536 < bs.length) : (Instr.transmitDescriptor 0 bs).wf = false := by
  exact decide_eq_false (p := bs.length ≤ 65536) (by omega)
theorem wf_direct : (Instr.biDirectMarch 0x80000100 true).wf = false := by decide +kernel
theorem wf_ubeolyn : (Instr.heartbeat { ub0 with payload := [0] }).wf = false := by decide +kernel
theorem wf_good : [Instr.bar2Access false 0 8 0, .narrowAccess .host 2 4, .registerWrite .host 4 0, .frameReceive 0 frame0,
    .ptpTransmit 0 ptp0, .linkUp 0 1000, .pcieLinkUp 8 4, .requestLine 0 87, .onlineSlice .plate 1055,
    .glTempUpdate [1, 2, 3, 4, 5, 6, 7, -128], .biDirectMarch 0x80000200 true, .heartbeat ub0].all Instr.wf = true := by
  decide +kernel

-- Worked examples of the manual --------------------------------------------------------------------------------------------

/-- The example of R10: tenant 203 lives on EC25.ctx3. -/
theorem example_placement : State.reset.place 203 = (25, 3) := by decide +kernel
/-- The matrix column behind R60: the banks of rows 0 to 3 at low bits 291, and a refused stride's bank 0. -/
theorem example_matrix_column : [0, 1, 2, 3].map (fun r => bankOf (1024 * r + 291)) = [291, 258, 353, 320] ∧
    (List.range 32).map (fun j => bankOf (1057 * j)) = List.replicate 32 0 := by decide +kernel
/-- R60: a word stride of 1,057 is refused, one of 1,024 words is not. -/
theorem example_strides : strideOk 8456 8 true = false ∧ strideOk 8192 8 true = true := by decide +kernel
/-- The example of R61: A = 0x04_2318 through an entry for sheet 57 is physical word 0x1C_8463, in bank 66. -/
theorem example_sheet_map : plateResolve ((State.reset.setEff rSHM_MAP 18 1 (0x80000000 + 57)).setF fSHM_OWNER_OWNER 18 57)
    18 0x042318 false = .ok 0x1C8463 ∧ bankOf 0x1C8463 = 66 := by decide +kernel
/-- The holdover table of R314: E at 60, 120, 300 and 600 s, and the instant it passes ERRMAX. -/
theorem example_holdover : [0, 60, 120, 300, 600].map (fun t => holdE 40 100 5 (t * 10 ^ 9) / holdUnit) = [40, 55, 88, 295, 1000] ∧
    holdSpan 40 100 5 1000 62 0 = 600 * 10 ^ 9 := by decide +kernel
/-- The deadband example of R297: 403.0, 404.9, 405.5 against 400.0, then 401.0 and 400.5 against 405.5, DEADBAND 5.0. -/
theorem example_deadband :
    [0x43C98000, 0x43CA7333, 0x43CAC000].map (fun v => valueChange 6 v 0x43C80000 0x40A00000) = [false, false, true] ∧
    [0x43C88000, 0x43C84000].map (fun v => valueChange 6 v 0x43CAC000 0x40A00000) = [false, false] := by decide +kernel
/-- The ring depth example behind R323: PI 0x0001 and CI 0xFFFE are 3 entries. -/
theorem example_ring_depth : ringDepth 1 0xFFFE = 3 := by decide +kernel
/-- The window example of R453: DLM_STAT is page 0x010, port 0xA001; word 0 of point 20,600 is page 0x085, port 0x83C0. -/
theorem example_window : barOff (State.reset.modCore 3 fun k => { k with sio := 0x010 }) 3 0xA001 = 0x208004 ∧
    barOff (State.reset.modCore 3 fun k => { k with sio := 0x085 }) 3 0x83C0 = 0x010A0F00 := by decide +kernel

/-- Words written out from the encodings of R146–R149, R111, R116 and R268. 0xDDC007FF
0x30CC0310 is VDOT.i16 v12, v0, v16, and 0xF2303180 VREDADD.i64 v12, v12. -/
theorem decodes_easel :
    easelWord 0 0x04430007 0 = some (.addi 0 2 3 7) ∧ easelWord 0 0x00432400 0 = some (.add 0 2 3 4 true) ∧
    easelWord 0 0x60641234 0 = some (.stb 0 3 4 0x1234) ∧ easelWord 0 0x83BFFFFF 0 = some (.bCond 0 14 0x3FFFFF) ∧
    easelWord 0 0x94030005 0 = some (.loopi 0 3 5) ∧ easelWord 0 0xB4000002 0 = some (.endA 0) ∧
    easelWord 0 0xDDC007FF 0x30CC0310 = some (.vdot 0 ⟨0, 0, 1, 0x3FF, 0, 780, 768, 784, false⟩) ∧
    easelWord 0 0xF2303180 0 = some (.vredaddShort 0 ⟨3, 0, 0, 12, 12, 0, false⟩) ∧
    easelWord 0 0xBC000000 0 = none ∧ easelWord 0 0x00000030 0 = none ∧ easelWord 0 0xB4200000 0 = none := by decide +kernel
/-- 0x4C00000E is SEEK x0, 14, the first word of the chapter's customer routine. -/
theorem decodes_lane : feWord 0 false 0x4C00000E = some (.seekF 0 false 0 0 14) ∧
    feWord 0 false 0x40200002 = some (.getF 0 false 1 0 2) ∧ feWord 0 false 0x9CA00000 = some (.ptwr 0 false 5 0 0) ∧
    feWord 0 false 0xF2203818 = some (.br 0 false 17 0x3818) ∧ feWord 0 false 0xF8000000 = some (.callF 0 false 0 0 0) ∧
    feWord 0 false 0xE4000000 = none := by decide +kernel

-- States for tests --------------------------------------------------------------------------------------------------------------

/-- Start-up BIST is over. -/
def base : State := { State.reset with bist := { BistSt.init with running := false } }
/-- Registers, with the program counter at the start of instruction RAM. -/
def regs0 : RSet := { RSet.init with pc := 0x10000 }
def core0 : CoreSt := { CoreSt.init with held := false, thr := { Thr.init with r := regs0 } }
/-- EC0 is out of reset, in supervisor mode. -/
def supAt (c : CoreSt) : State := { base with cores := [(0, c)] }
def sup0 : State := supAt core0
def act0 : Act := ⟨0, 4, 0, 0, 1000, 10 ^ 12, false, false, 0⟩
def run0 : Run := ⟨act0, 0, 0, false, false⟩
def ctx0 : Ctx := { Ctx.init 0 0 with thr := { Thr.init with r := regs0 } }
/-- Tenant 0 runs on EC0.ctx0, with an instruction window over the whole instruction RAM. -/
def tenAt (x : Ctx) : State :=
  { base with cores := [(0, { core0 with sup := false, run := some run0 })], ctxs := [(0, x)],
              eff := [(rEZ_IWIN.key 0 0, 0x3F0000)] }
def ten0 : State := tenAt ctx0
/-- The words at the start of EC0's instruction RAM. -/
def prog (ws : List Word) (s : State) : State := { s with imem := mwrite s.imem 0 (ws.flatMap fun w => leBytes 4 w.toNat) }

def calmB (t : Thr) : Bool := t.pend.isEmpty && t.pwr.isNone && t.dslot.isEmpty && t.held.isEmpty
theorem calm_of (t : Thr) (h : calmB t = true) : ThrCalm t := by
  simp only [calmB, Bool.and_eq_true, List.isEmpty_iff, Option.isNone_iff_eq_none] at h
  exact ⟨h.1.1.1, h.1.1.2, h.1.2, h.2⟩

/-- The conditions of `Ready`, as a check that the kernel evaluates. -/
def readyB (s : State) (c : Nat) (k : Option Nat) (n : Nat) : Bool :=
  decide (curCtx s c = k) && k.getD 0 < 8 && canIssue s c && (s.core c).jobs.isEmpty && (s.core c).vq.isEmpty && (s.core c).br.isNone &&
  calmB (s.thr c k) && calmB (s.thr c none) &&
  (match (s.core c).run with | none => true | some r => calmB (s.thr c (some r.ctx))) && !windowOver s c k &&
  !atBreak s c k && !(s.core c).loupe.go && (loupeNow s c k).1.isEmpty &&
  fetchOk s c k (pcOf s c k) && fetchOk s c k (pcOf s c k + n - 4) && !fetchBad s c (pcOf s c k)

theorem ready_of (s : State) (c : Nat) (k : Option Nat) (n : Nat) (h : readyB s c k n = true) : Ready s c k n := by
  simp only [readyB, Bool.and_eq_true, decide_eq_true_eq, List.isEmpty_iff, Option.isNone_iff_eq_none,
    Bool.not_eq_true'] at h
  obtain ⟨⟨⟨⟨⟨⟨⟨⟨⟨⟨⟨⟨⟨⟨⟨h1, h0⟩, h2⟩, h3⟩, h4⟩, h5⟩, h6⟩, h7⟩, h8⟩, h9⟩, h10⟩, h11⟩, h12⟩, h13⟩, h14⟩, h15⟩ := h
  refine ⟨h1, fun q hq => by subst hq; exact h0, h2, h3, h4, h5, calm_of _ h6, calm_of _ h7, ?_, h9, h10, h11, h12, h13, h14, h15⟩
  intro q hq
  cases hr : (s.core c).run with
  | none => rw [hr] at hq; cases hq
  | some r => rw [hr] at hq h8; cases hq; exact calm_of _ h8

theorem sup_ready : Ready sup0 0 none 4 := ready_of _ _ _ _ (by decide +kernel)
theorem ten_ready : Ready ten0 0 (some 0) 4 := ready_of _ _ _ _ (by decide +kernel)
theorem sup_ready_long : Ready sup0 0 none 8 := ready_of _ _ _ _ (by decide +kernel)

-- Words that a core fetches -----------------------------------------------------------------------------------------------------

/-- A word by the fields of R146, op, rd, ra and the low 16 bits, and a register operation with its func. -/
def immW (op rd ra low : Nat) : Word := BitVec.ofNat 32 (op * 2 ^ 26 + rd * 2 ^ 21 + ra * 2 ^ 16 + low)
def aluW (func rd ra rb s : Nat) (cond : Nat := 0) : Word := immW 0 rd ra (rb * 2 ^ 11 + s * 2 ^ 10 + cond * 2 ^ 6 + func)
/-- Issuer k of EC0 is ready at the words of each program, and fetches the instruction beside it there; p holds too. -/
def spelt (s : State) (k : Option Nat) (xs : List (List Word × Instr)) (p : State → Bool := fun _ => true) : Bool :=
  xs.all fun (ws, i) => fetched (prog ws s) 0 i && readyB (prog ws s) 0 k (4 * ws.length) && p (prog ws s)
/-- A program changes instruction RAM and nothing else. -/
theorem prog_rest (ws : List Word) (s : State) : { prog ws s with imem := s.imem } = s := rfl

/-- R148: AddAndSubtract, LogicShiftMultiply, PlainResults, Compares, DivideResults. -/
theorem words_registers : spelt ten0 (some 0) [
    ([aluW 0 2 3 4 1], .add 0 2 3 4 true), ([aluW 1 2 3 4 1], .sub 0 2 3 4 true), ([aluW 2 2 3 4 1], .adc 0 2 3 4 true),
    ([aluW 3 2 3 4 1], .sbc 0 2 3 4 true), ([aluW 4 2 3 4 1], .andR 0 2 3 4 true), ([aluW 5 2 3 4 1], .orR 0 2 3 4 true),
    ([aluW 6 2 3 4 1], .xorR 0 2 3 4 true), ([aluW 7 2 3 4 1], .andn 0 2 3 4 true), ([aluW 8 2 3 4 1], .shl 0 2 3 4 true),
    ([aluW 9 2 3 4 1], .shrl 0 2 3 4 true), ([aluW 10 2 3 4 1], .shra 0 2 3 4 true), ([aluW 11 2 3 4 1], .ror 0 2 3 4 true),
    ([aluW 16 2 3 4 1], .mul 0 2 3 4 true), ([aluW 17 2 3 4 0], .mulh 0 2 3 4 false),
    ([aluW 18 2 3 4 0], .mulhu 0 2 3 4 false), ([aluW 19 2 3 4 0], .mull 0 2 3 4 false),
    ([aluW 20 2 3 4 0], .mullu 0 2 3 4 false), ([aluW 24 2 3 4 0], .div 0 2 3 4 false),
    ([aluW 25 2 3 4 0], .divu 0 2 3 4 false), ([aluW 26 2 3 4 0], .rem 0 2 3 4 false),
    ([aluW 27 2 3 4 0], .remu 0 2 3 4 false), ([aluW 34 2 3 4 0], .minS 0 2 3 4 false),
    ([aluW 35 2 3 4 0], .maxS 0 2 3 4 false), ([aluW 36 2 3 4 0], .minu 0 2 3 4 false),
    ([aluW 37 2 3 4 0], .maxu 0 2 3 4 false), ([aluW 12 2 3 31 1], .shli 0 2 3 31 true),
    ([aluW 13 2 3 31 1], .shrli 0 2 3 31 true), ([aluW 14 2 3 31 1], .shrai 0 2 3 31 true),
    ([aluW 15 2 3 31 1], .rori 0 2 3 31 true), ([aluW 32 0 3 4 1], .cmp 0 0 3 4 true), ([aluW 33 0 3 4 1], .tst 0 0 3 4 true),
    ([aluW 38 2 3 0 0], .clz 0 2 3 false), ([aluW 40 2 3 0 0], .sextb 0 2 3 false), ([aluW 41 2 3 0 0], .sexth 0 2 3 false),
    ([aluW 39 2 3 4 0 11], .csel 0 11 2 3 4 false)] (fun s => !strictOf s 0 (some 0)) = true := by decide +kernel
/-- R147: the immediate instructions, loads, stores, branches and loops. -/
theorem words_immediate : spelt ten0 (some 0) [
    ([immW 1 2 3 0x8001], .addi 0 2 3 0x8001), ([immW 2 2 3 0x8001], .addis 0 2 3 0x8001),
    ([immW 3 2 3 0x8001], .andi 0 2 3 0x8001), ([immW 4 2 3 0x8001], .ori 0 2 3 0x8001),
    ([immW 5 2 3 0x8001], .xori 0 2 3 0x8001), ([immW 6 2 0 0x8001], .lui 0 2 0x8001), ([immW 7 0 3 0x8001], .cmpi 0 3 0x8001),
    ([immW 16 2 0 1], .ldb 0 2 0 1), ([immW 17 2 0 1], .ldbu 0 2 0 1), ([immW 18 2 0 2], .ldh 0 2 0 2),
    ([immW 19 2 0 2], .ldhu 0 2 0 2), ([immW 20 2 0 4], .ldw 0 2 0 4), ([immW 21 2 0 8], .ldd 0 2 0 8),
    ([immW 24 2 0 1], .stb 0 2 0 1), ([immW 25 2 0 2], .sth 0 2 0 2), ([immW 26 2 0 4], .stw 0 2 0 4),
    ([immW 27 2 0 8], .std 0 2 0 8), ([immW 32 7 31 0xFFFE], .bCond 0 3 0x3FFFFE), ([immW 34 1 0 2], .jal 0 0x200002),
    ([immW 35 2 3 4], .jalr 0 2 3 4), ([immW 36 0 3 2], .loopR 0 3 2), ([immW 37 0 5 2], .loopi 0 5 2)] (fun s => tget 0 s.trayEcc (trayKey 0 8 / 8) == 0) = true := by
  decide +kernel
/-- R149: SystemInstructions of a tenant and of the supervisor, LoadDelaySlot, and NegativePass. -/
theorem words_system : spelt ten0 (some 0) [
    ([immW 45 0 0 0], .nop 0), ([immW 45 0 0 1], .sync 0), ([immW 44 0 0 0x35], .trap 0 0 0 0x35),
    ([immW 45 0 0 8], .negBegin 0)] = true ∧
    spelt sup0 none [([immW 45 0 0 0], .nop 0), ([immW 45 0 0 1], .sync 0), ([immW 45 0 0 3], .wait 0)] = true := by decide +kernel
/-- A divide of issuer k is pending. -/
def busy (k : Option Nat) (s : State) : State :=
  s.modThr 0 k fun t => { t with pend := [⟨.divide, [(5, 9)], issueCyc s 0 + 18, 0, none, none, none⟩] }
/-- SyncWaits and WrongMode. -/
theorem words_wrong_mode : fetched (busy (some 0) (prog [immW 45 0 0 1] ten0)) 0 (.sync 0) = true ∧
    fetched (busy none (prog [immW 45 0 0 1] sup0)) 0 (.sync 0) = true ∧
    spelt ten0 (some 0) [([immW 45 0 0 3], .wait 0), ([immW 45 0 0 4], .rfe 0), ([immW 45 0 0 5], .resume 0)]
      (fun s => (secOf s 0 (some 0)).isNone && decide (mlOf s 0 (some 0) < 7)) = true ∧
    spelt sup0 none [([immW 44 0 0 0x35], .trap 0 0 0 0x35), ([immW 45 0 0 2], .endA 0), ([immW 45 0 0 8], .negBegin 0),
      ([immW 45 0 0 9], .checkN 0)] (fun s => (secOf s 0 none).isNone && decide (mlOf s 0 none < 7)) = true := by decide +kernel
/-- IllegalEncodings. -/
theorem words_illegal : spelt ten0 (some 0) [
    ([aluW 17 2 3 4 1], .mulh 0 2 3 4 true), ([aluW 34 2 3 4 1], .minS 0 2 3 4 true), ([aluW 24 2 3 4 1], .div 0 2 3 4 true),
    ([aluW 18 2 3 4 1], .mulhu 0 2 3 4 true), ([aluW 19 2 3 4 1], .mull 0 2 3 4 true), ([aluW 20 2 3 4 1], .mullu 0 2 3 4 true),
    ([aluW 25 2 3 4 1], .divu 0 2 3 4 true), ([aluW 26 2 3 4 1], .rem 0 2 3 4 true), ([aluW 27 2 3 4 1], .remu 0 2 3 4 true),
    ([aluW 35 2 3 4 1], .maxS 0 2 3 4 true), ([aluW 36 2 3 4 1], .minu 0 2 3 4 true), ([aluW 37 2 3 4 1], .maxu 0 2 3 4 true),
    ([aluW 38 2 3 0 1], .clz 0 2 3 true), ([aluW 39 2 3 4 1 11], .csel 0 11 2 3 4 true), ([aluW 40 2 3 0 1], .sextb 0 2 3 true),
    ([aluW 41 2 3 0 1], .sexth 0 2 3 true), ([aluW 20 3 3 4 0], .mullu 0 3 3 4 false), ([aluW 33 3 3 4 0], .tst 0 3 3 4 false),
    ([aluW 19 3 3 4 0], .mull 0 3 3 4 false), ([immW 21 3 3 0], .ldd 0 3 3 0), ([immW 27 3 3 0], .std 0 3 3 0),
    ([aluW 32 3 3 4 0], .cmp 0 3 3 4 false), ([immW 44 3 3 0], .trap 0 3 3 0), ([immW 44 0 3 0], .trap 0 0 3 0)] (fun s =>
    (secOf s 0 (some 0)).isNone && decide (mlOf s 0 (some 0) < 7)) = true := by decide +kernel

-- Single steps ----------------------------------------------------------------------------------------------------------------------

/-- What a command leaves, where it completes. -/
def after (i : Instr) (s : State) (p : State → Bool) : Bool :=
  match exec i s with | .next t => p t | .fault _ => false | .refused _ => false

/-- The supervisor of EC0 with the given registers. -/
def supReg (rs : Tab Word) : State := supAt { core0 with thr := { Thr.init with r := { regs0 with s := rs } } }

/-- R138, R164: 0x7FFFFFFF + 1 is negative and overflows without a carry. -/
theorem test_add_flags : after (.add 0 3 1 2 true) (prog [0x00611400] (supReg [(1, 0x7FFFFFFF), (2, 1)])) (fun t =>
    gpr t 0 none 3 == 0x80000000 && nzcv t 0 none == ⟨true, false, false, true⟩ && pcOf t 0 none == 0x10004) = true := by decide +kernel
/-- R138: 5 − 5 is zero with no borrow; 4 − 5 borrows. -/
theorem test_sub_borrow : after (.sub 0 3 1 1 true) (prog [0x00610C01] (supReg [(1, 5)])) (fun t => nzcv t 0 none == ⟨false, true, true, false⟩) = true ∧
    after (.cmpi 0 1 5) (prog [0x1C010005] (supReg [(1, 4)])) (fun t => nzcv t 0 none == ⟨true, false, false, false⟩) = true := by decide +kernel
/-- R137: a write of s0 is discarded. -/
theorem test_zero_register : after (.addi 0 0 0 7) (prog [0x04000007] sup0) (fun t =>
    gpr t 0 none 0 == 0 && pcOf t 0 none == 0x10004) = true := by decide +kernel
/-- R147, log entry 8: a command that the core does not fetch changes nothing. -/
theorem test_other_word : after (.addi 0 3 0 7) (prog [0x04600008] sup0) (fun t => gpr t 0 none 3 == 0 && pcOf t 0 none == 0x10000) = true := by
  decide +kernel
/-- R166: 7 / 0 is all ones, and −8 rem 3 is −2; the result is not written before it is ready. -/
theorem test_divide : after (.div 0 3 1 0 false) (prog [0x00610018] (supReg [(1, 7)])) (fun t =>
      (t.thr 0 none).pend.map (·.res) == [[(3, 0xFFFFFFFF)]] && gpr t 0 none 3 == 0) = true ∧
    after (.rem 0 3 1 2 false) (prog [0x0061101A] (supReg [(1, 0xFFFFFFF8), (2, 3)])) (fun t =>
      (t.thr 0 none).pend.map (·.res) == [[(3, 0xFFFFFFFE)]]) = true := by decide +kernel
/-- R141, R184: a word load at an odd address raises ALIGN (0x30) at level 4, with the address in XINFO. -/
theorem test_align : after (.ldw 0 3 0 2) (prog [0x50600002] ten0) (fun t => (t.core 0).sup && (t.core 0).ml == 4 &&
    bits (tget Bank.init (t.core 0).banks 4).cause.toNat 0 8 == 0x30 && (tget Bank.init (t.core 0).banks 4).info == 2 &&
    (tget Bank.init (t.core 0).banks 4).pc == 0x10000) = true := by decide +kernel
/-- R147: TRAP's number is in XCAUSE, and it returns behind itself. -/
theorem test_trap : after (.trap 0 0 0 0x35) (prog [0xB0000035] ten0) (fun t => (tget Bank.init (t.core 0).banks 1).pc == 0x10004 &&
    bits (tget Bank.init (t.core 0).banks 1).cause.toNat 24 8 == 0x35 && (t.core 0).cyc == 14) = true := by decide +kernel
/-- R153: a taken branch goes to PC + 4·offset. -/
theorem test_branch : after (.bCond 0 0 0x3FFFFF) (prog [0x803FFFFF] { ten0 with ctxs := [(0, { ctx0 with thr := { ctx0.thr with
    r := { ctx0.thr.r with z := true } } })] }) (fun t => pcOf t 0 (some 0) == 0xFFFC) = true := by decide +kernel
/-- R154: LOOPI with count 0 goes on behind the body. -/
theorem test_loop_zero : after (.loopi 0 0 3) (prog [0x94000003] ten0) (fun t => pcOf t 0 (some 0) == 0x10010) = true := by decide +kernel
/-- R147, R150: JAL links PC + 4 in s31. -/
theorem test_jal : after (.jal 0 0x10) (prog [0x88000010] ten0) (fun t => gpr t 0 (some 0) 31 == 0x10004 && pcOf t 0 (some 0) == 0x10040) = true := by
  decide +kernel
/-- R151: a Tray load leaves its register alone for one instruction. -/
theorem test_delay_slot : after (.nop 0) (prog [0xB4000000] (sup0.modThr 0 none fun t => { t with dslot := [(5, 9)] })) (fun t =>
    gpr t 0 none 5 == 9) = true := by decide +kernel
/-- R122: 0x7F + 1 in i8 wraps, or saturates. -/
theorem test_saturate : intOp .add 8 false true 0x7F 1 0 = 0x80 ∧ intOp .add 8 true true 0x7F 1 0 = 0x7F ∧
    intOp .neg 8 true true 0x80 0 0 = 0x7F := by decide +kernel
/-- The example of R173: 0x9999999999998000 + 0x2750 in packed decimal is 0x0750 with an overflow. -/
theorem test_decimal : (decOp false 0x9999999999998000 0x2750).v = 0x750 ∧ (decOp false 0x9999999999998000 0x2750).fl ≠ [] := by
  decide +kernel
/-- IEEE 754 in f32: 1.5 + 2.25 = 3.75, 1.5 · 2.25 = 3.375, and 2^24 + 1 rounds to even. -/
theorem test_f32 : (f32.add .near 0x3FC00000 0x40100000).1 = 0x40700000 ∧ (f32.mul .near 0x3FC00000 0x40100000).1 = 0x40580000 ∧
    (f32.add .near 0x4B800000 0x3F800000).1 = 0x4B800000 := by decide +kernel
/-- The allowance of the busbar example behind R93: n = 4,096 on a width-8 span. -/
theorem test_allowance : allowance 8 4096 = 4 := by decide +kernel
/-- R410: a stop drives ALARM_N low in the same step. -/
theorem test_stop : after .stopBath { base with sl := { SlSt.init with trig := [(1, 0)] } } (fun t =>
    !t.pm.alarmN && t.f fSL_CAUSE_CAUSE == 2 && t.stopped) = true := by decide +kernel
/-- R204: a status flag is cleared by writing 1 to it, and by nothing else. -/
theorem test_w1c : after (.registerWrite .host (BitVec.ofNat 26 rSL_STAT.base) 1) (base.setReg rSL_STAT 0 0 3) (fun t =>
    t.reg rSL_STAT 0 0 == 2) = true := by decide +kernel
/-- R9: an access that is not one aligned word is answered with an error. -/
theorem test_narrow : after (.narrowAccess .host 2 4) base (fun t => t.resp == .err) = true := by decide +kernel
/-- R66: a refused owner leaves its reason. -/
theorem test_owner : after (.shmOwner 7 0x180) base (fun t => t.f fSHM_LASTREF_REASON == 3 && t.f fSHM_LASTREF_SHEET == 7) = true := by
  decide +kernel

-- States that meet the hypotheses of the statements: scalar instructions -----------------------------------------------------------

/-- Two issuers that are ready: AddAndSubtract, LogicShiftMultiply, PlainResults, Compares, SystemInstructions. -/
theorem witness_ready : Ready sup0 0 none 4 ∧ Ready ten0 0 (some 0) 4 ∧ (2 : Reg5).val % 2 = 0 := ⟨sup_ready, ten_ready, rfl⟩

/-- Tenant 0 in strict mode, with s5 = 5 and the arithmetic traps of x enabled. -/
def tenStrict (x : Word) : State := (tenAt { ctx0 with strict := true, thr := { ctx0.thr with r := { regs0 with s := [(5, 5)] } } }).setEff
  rEZ_XCFG 0 0 x
/-- DivideResults: outside strict mode, and in it with no exception, with one, and with one that traps. -/
theorem witness_divide : Ready ten0 0 (some 0) 4 ∧ strictOf ten0 0 (some 0) = false ∧
    strictOf (tenStrict 0) 0 (some 0) = true ∧ bit (trapEn (tenStrict 0) 0 (some 0)) 1 = false ∧
    strictOf (tenStrict 2) 0 (some 0) = true ∧ bit (trapEn (tenStrict 2) 0 (some 0)) 1 = true ∧
    secOf (tenStrict 2) 0 (some 0) = none ∧ mlOf (tenStrict 2) 0 (some 0) < 7 ∧
    gpr (tenStrict 2) 0 (some 0) 4 = 0 ∧ gpr (tenStrict 2) 0 (some 0) 5 = 5 := ⟨ten_ready, by decide +kernel⟩
theorem words_strict : ([0, 2].all fun x => spelt (tenStrict x) (some 0) [
    ([aluW 24 2 3 4 0], .div 0 2 3 4 false), ([aluW 25 2 3 4 0], .divu 0 2 3 4 false), ([aluW 26 2 3 5 0], .rem 0 2 3 5 false),
    ([aluW 27 2 3 5 0], .remu 0 2 3 5 false)]) = true := by decide +kernel

/-- IllegalEncodings and the first clause of DataFaults. -/
theorem witness_illegal : Ready ten0 0 (some 0) 4 ∧ secOf ten0 0 (some 0) = none ∧ mlOf ten0 0 (some 0) < 7 ∧
    (3 : Reg5).val % 2 = 1 ∧ (3 : Reg5).val ≠ 0 ∧ fetchBad { ten0 with imem := [(2, 0x30), (3, 0xBF)] } 0 0x10000 = true :=
  ⟨ten_ready, by decide +kernel, by decide +kernel, rfl, by decide, by decide +kernel⟩

/-- Tray accesses at the ends of the slice and of the supervisor's 128 KiB, in every width. -/
theorem witness_tray : Ready ten0 0 (some 0) 4 ∧ Ready sup0 0 none 4 ∧ InTray (some 0) (dataAddr ten0 0 (some 0) 0 0x3EFF) 1 0x3EFF ∧
    InTray (some 0) (dataAddr ten0 0 (some 0) 0 0x3EFE) 2 0x3EFE ∧ InTray (some 0) (dataAddr ten0 0 (some 0) 0 0x3EF8) 8 0x3EF8 ∧
    InTray none (dataAddr sup0 0 none 0 0) 4 0 ∧ TrayClean ten0 0 0x3EF8 ∧ TrayClean sup0 0 0 ∧ memWf ten0.tray = true ∧
    keyless ten0 = false ∧ memWf sup0.tray = true ∧ keyless sup0 = false := by
  refine ⟨ten_ready, sup_ready, ?_, ?_, ?_, ?_, ?_⟩
  all_goals first | (unfold InTray; decide +kernel) | (unfold TrayClean; decide +kernel)

/-- DataFaults: a misaligned address, one in no space at each end of the hole, and a DRAM address under DL. -/
def tenDram : State := tenAt { ctx0 with dl := true, thr := { ctx0.thr with r := { ctx0.thr.r with s := [(1, 0x80000000)] } } }
def tenHole : State := tenAt { ctx0 with thr := { ctx0.thr with r := { ctx0.thr.r with s := [(1, 0x00FFFFF0)] } } }
theorem witness_data_faults : Ready tenDram 0 (some 0) 4 ∧ secOf tenDram 0 (some 0) = none ∧ mlOf tenDram 0 (some 0) < 7 ∧
    0x80000000 ≤ dataAddr tenDram 0 (some 0) 1 0 ∧ (tenDram.ctx 0 0).dl = true ∧ dataAddr ten0 0 (some 0) 0 2 % 4 ≠ 0 ∧
    dataAddr ten0 0 (some 0) 0 2 < 0x80000000 ∧ dataAddr ten0 0 (some 0) 0 0x3F00 = 0x3F00 ∧
    Ready tenHole 0 (some 0) 4 ∧ secOf tenHole 0 (some 0) = none ∧ mlOf tenHole 0 (some 0) < 7 ∧
    dataAddr tenHole 0 (some 0) 1 0xC = 0xFFFFFC := by
  refine ⟨ready_of _ _ _ _ (by decide +kernel), ?_, ?_, ?_, ?_, ?_, ?_, ?_, ready_of _ _ _ _ (by decide +kernel), ?_⟩
  all_goals decide +kernel
def dataForms (ra : Reg5) (o : Nat) : List (List Word × Instr) := let x := BitVec.ofNat 16 o
  [([immW 16 2 ra o], .ldb 0 2 ra x), ([immW 17 2 ra o], .ldbu 0 2 ra x), ([immW 18 2 ra o], .ldh 0 2 ra x),
   ([immW 19 2 ra o], .ldhu 0 2 ra x), ([immW 20 2 ra o], .ldw 0 2 ra x), ([immW 21 2 ra o], .ldd 0 2 ra x),
   ([immW 24 2 ra o], .stb 0 2 ra x), ([immW 25 2 ra o], .sth 0 2 ra x), ([immW 26 2 ra o], .stw 0 2 ra x),
   ([immW 27 2 ra o], .std 0 2 ra x)]
theorem words_data_faults : spelt tenDram (some 0) (dataForms 1 0) = true ∧
    ([1, 0x3F00].all fun o => spelt ten0 (some 0) (dataForms 0 o)) = true ∧ spelt tenHole (some 0) (dataForms 1 8) = true := by
  decide +kernel

/-- LongLoads and LongStores: s1 points into the Plate space, where sheet 0 stands, or into the DRAM window. -/
def tenFar (a : Word) : State :=
  ((((tenAt { ctx0 with thr := { ctx0.thr with r := { regs0 with s := [(1, a)] } } }).setEff rSHM_MAP 0 0 0x80000000).setF
    fSHM_OWNER_OWNER 0 0).setF fDDR_STATE_STATE 2).setEff rTN_DRAM 0 0 0x80010000
theorem witness_far : let s := tenFar 0x01000000
    let d := tenFar 0x80000000
    Ready s 0 (some 0) 4 ∧ (∀ n ∈ [1, 2, 4, 8], InPlate (dataAddr s 0 (some 0) 1 8) n 8) ∧
    plateResolve s 0 8 false = .ok 1 ∧ plateResolve s 0 8 true = .ok 1 ∧ s.plateEcc = [] ∧ s.poison = [] ∧ keyless s = false ∧
    memWf s.plate = true ∧ memWf s.dram = true ∧ Ready d 0 (some 0) 4 ∧
    (∀ n ∈ [1, 2, 4, 8], InDram d 0 (some 0) (dataAddr d 0 (some 0) 1 8) n 8) ∧ keyless d = false ∧ memWf d.plate = true ∧
    memWf d.dram = true := by
  refine ⟨ready_of _ _ _ _ (by decide +kernel), ?_, by decide +kernel, by decide +kernel, rfl, rfl, by decide +kernel, rfl, rfl,
    ready_of _ _ _ _ (by decide +kernel), ?_, by decide +kernel, rfl, rfl⟩
  · unfold InPlate; decide +kernel
  · unfold InDram; decide +kernel
theorem words_far : ([0x01000000, 0x80000000].all fun a => spelt (tenFar a) (some 0) (dataForms 1 8)) = true := by decide +kernel

theorem witness_branch : Ready ten0 0 (some 0) 4 ∧ NotAtEnd ten0 0 (some 0) 4 ∧ ctOf ten0 0 (some 0) = false := by
  refine ⟨ten_ready, ?_, ?_⟩
  · unfold NotAtEnd; decide +kernel
  · decide +kernel

def tenLoop (a b d : Loop) : State := tenAt { ctx0 with thr := { ctx0.thr with r := { ctx0.thr.r with l0 := a, l1 := b, l2 := d } } }
/-- Loop setup at level 0 and, with two loops around it, at level 2. -/
theorem witness_loop_setup :
    (NotAtEnd ten0 0 (some 0) 4 ∧ (∀ j < 3, 0 ≤ j → ((ten0.thr 0 (some 0)).r.loop j).act = false)) ∧
    (let s := tenLoop ⟨0x10000, 0x10100, 2, true⟩ ⟨0x10000, 0x10004, 2, true⟩ Loop.init
     Ready s 0 (some 0) 4 ∧ NotAtEnd s 0 (some 0) 4 ∧ ctOf s 0 (some 0) = false ∧ (1 : BitVec 16) ≠ 0 ∧
     (∀ j < 2, ((s.thr 0 (some 0)).r.loop j).act = true) ∧
     (∀ j < 3, 2 ≤ j → ((s.thr 0 (some 0)).r.loop j).act = false) ∧
     (∀ j < 2, pcOf s 0 (some 0) + 4 * (1 : BitVec 16).toNat ≤ ((s.thr 0 (some 0)).r.loop j).le.toNat) ∧
     pcOf s 0 (some 0) + 4 * (1 : BitVec 16).toNat < 2 ^ 32) := by
  refine ⟨⟨?_, by decide +kernel⟩, ready_of _ _ _ _ (by decide +kernel), ?_, ?_⟩
  · unfold NotAtEnd; decide +kernel
  · unfold NotAtEnd; decide +kernel
  · decide +kernel
theorem words_loops : spelt (tenLoop ⟨0x10000, 0x10100, 2, true⟩ ⟨0x10000, 0x10004, 2, true⟩ Loop.init) (some 0)
      [([immW 36 0 3 1], .loopR 0 3 1), ([immW 37 0 5 1], .loopi 0 5 1)] = true ∧
    ([1, 2].all fun n => spelt (tenLoop ⟨0x10000, 0x10000, n, true⟩ Loop.init Loop.init) (some 0) [([immW 45 0 0 0], .nop 0)]) = true := by
  decide +kernel

/-- No free level, an end offset of 0, an end beyond the enclosing level, and a LOOP that ends a body. -/
def tenFull : State := tenLoop ⟨0x10000, 0x10100, 2, true⟩ ⟨0x10000, 0x10100, 2, true⟩ ⟨0x10000, 0x10100, 2, true⟩
theorem witness_loop_errors :
    (NotAtEnd tenFull 0 (some 0) 4 ∧ ∀ j < 3, ((tenFull.thr 0 (some 0)).r.loop j).act = true) ∧
    (let s := tenLoop ⟨0x10000, 0x10004, 2, true⟩ Loop.init Loop.init
     NotAtEnd s 0 (some 0) 4 ∧ (∃ j < 3, ((s.thr 0 (some 0)).r.loop j).act = false) ∧
     ((s.thr 0 (some 0)).r.loop 0).act = true ∧ ((s.thr 0 (some 0)).r.loop 1).act = false ∧
     ((s.thr 0 (some 0)).r.loop 2).act = false ∧ ((s.thr 0 (some 0)).r.loop 0).le.toNat < pcOf s 0 (some 0) + 4 * 5) ∧
    ¬NotAtEnd (tenLoop ⟨0x10000, 0x10000, 2, true⟩ Loop.init Loop.init) 0 (some 0) 4 := by
  unfold NotAtEnd
  exact ⟨by decide +kernel, by decide +kernel, by decide +kernel⟩
theorem words_loop_errors :
    (let ok := fun (s : State) => (secOf s 0 (some 0)).isNone && decide (mlOf s 0 (some 0) < 7)
     spelt tenFull (some 0) [([immW 36 0 3 1], .loopR 0 3 1), ([immW 37 0 5 1], .loopi 0 5 1)] ok &&
     spelt (tenLoop ⟨0x10000, 0x10004, 2, true⟩ Loop.init Loop.init) (some 0)
       [([immW 36 0 3 0], .loopR 0 3 0), ([immW 37 0 5 5], .loopi 0 5 5)] ok &&
     spelt (tenLoop ⟨0x10000, 0x10000, 2, true⟩ Loop.init Loop.init) (some 0)
       [([immW 36 0 3 1], .loopR 0 3 1), ([immW 37 0 5 1], .loopi 0 5 1)] ok) = true := by decide +kernel

/-- The end of a body with a count of 2 and with a count of 1. -/
theorem witness_loop_end : ∀ n ∈ [(1 : Word), 2], let x : Loop := ⟨0x10000, 0x10000, n, true⟩
    let s := tenLoop x Loop.init Loop.init
    Ready s 0 (some 0) 4 ∧ (s.thr 0 (some 0)).r.l0 = x ∧ x.act = true ∧ x.le.toNat = pcOf s 0 (some 0) ∧
    (s.thr 0 (some 0)).r.l1.act = false ∧ (s.thr 0 (some 0)).r.l2.act = false := by
  intro n hn
  simp only [List.mem_cons, List.not_mem_nil, or_false] at hn
  rcases hn with rfl | rfl <;> exact ⟨ready_of _ _ _ _ (by decide +kernel), by decide +kernel⟩

theorem witness_system : NotAtEnd ten0 0 (some 0) 4 ∧ secOf ten0 0 (some 0) = none ∧ mlOf ten0 0 (some 0) < 7 ∧
    NotAtEnd sup0 0 none 4 ∧ sup0.fb fIC_CTL_EN 0 = false := by
  refine ⟨?_, ?_, ?_, ?_, ?_⟩
  all_goals first | (unfold NotAtEnd; decide +kernel) | decide +kernel

def tenEnd : State := ten0.setF fDLM_CTL_EN 1
theorem witness_end : Ready tenEnd 0 (some 0) 4 ∧ NotAtEnd tenEnd 0 (some 0) 4 ∧ secOf tenEnd 0 (some 0) = none ∧
    (tenEnd.core 0).run = some run0 ∧ run0.ctx = 0 ∧ run0.mism = false ∧ run0.act.lent = false ∧
    (tenEnd.ctx 0 0).waitRel = [] ∧ tenEnd.ks.trans = none ∧ tenEnd.fb fDLM_CTL_EN = true ∧
    max tenEnd.now (issueCyc tenEnd 0 * tenEnd.cyc) + (tenEnd.dl 0).e ≤ run0.act.deadline := by
  refine ⟨ready_of _ _ _ _ (by decide +kernel), ?_, ?_⟩
  · unfold NotAtEnd; decide +kernel
  · decide +kernel
theorem words_end : spelt tenEnd (some 0) [([immW 45 0 0 2], .endA 0)] = true := by decide +kernel

/-- A handler at level 1 over supervisor mode, and one over ctx0 with a fault record that RESUME takes back. -/
def supRet : State := supAt { core0 with ml := 1, banks := [(1, { Bank.init with rsup := true })] }
def tenRet : State := ({ supAt { core0 with ml := 1, banks := [(1, { Bank.init with pc := 0x10000 })], run := some run0 } with
  ctxs := [(0, ctx0)] }).setF fVF_CAUSE_VALID 1 0
theorem witness_returns : Ready supRet 0 none 4 ∧ NotAtEnd supRet 0 none 4 ∧ (supRet.core 0).ml ≠ 0 ∧
    (tget Bank.init (supRet.core 0).banks 1).disp = 0 ∧ (tget Bank.init (supRet.core 0).banks 1).rsup = true ∧
    Ready tenRet 0 none 4 ∧ NotAtEnd tenRet 0 none 4 ∧ (tenRet.core 0).ml = 1 ∧
    (tget Bank.init (tenRet.core 0).banks 1).disp = 0 ∧ (tget Bank.init (tenRet.core 0).banks 1).rsup = false ∧
    (tenRet.core 0).run = some run0 ∧ run0.ctx = (tget Bank.init (tenRet.core 0).banks 1).ctx ∧
    tenRet.fb fVF_CAUSE_VALID (tenRet.ctx 0 0).tenant = true := by
  refine ⟨ready_of _ _ _ _ (by decide +kernel), ?_, by decide +kernel, by decide +kernel, by decide +kernel,
    ready_of _ _ _ _ (by decide +kernel), ?_, by decide +kernel⟩ <;> (unfold NotAtEnd; decide +kernel)
theorem words_returns : spelt supRet none [([immW 45 0 0 4], .rfe 0)] = true ∧
    spelt tenRet none [([immW 45 0 0 4], .rfe 0), ([immW 45 0 0 5], .resume 0)] = true := by decide +kernel

/-- A held fault at both ends of the level range, and a software interrupt source that is pending and enabled. -/
def irqReady : State := (((sup0.setF fIC_CTL_EN 1 0).setReg rIC_SWI 0 0 2).setReg rIC_SRC 0 1 0x80000003).modCore 0 fun k =>
  { k with ic := { Ic.init with srcs := [(1, ⟨0, 0, true, 0, none, 0, none, none⟩)] } }
theorem witness_exception_entry : Ready ten0 0 (some 0) 4 ∧ secOf ten0 0 (some 0) = none ∧ mlOf ten0 0 (some 0) < 7 ∧
    Ready irqReady 0 none 4 ∧ lineHigh irqReady 0 = true ∧ mayInterrupt irqReady 0 = true ∧ pipeTested irqReady 0 = false :=
  ⟨ten_ready, by decide +kernel, by decide +kernel, ready_of _ _ _ _ (by decide +kernel), by decide +kernel, by decide +kernel,
    by decide +kernel⟩

-- The Negative pass, ports and vectors ------------------------------------------------------------------------------------------------

def shadow0 : Shadow := ⟨{ regs0 with pc := 0x10004 }, 0, 0, 1, [], [], []⟩
def sec0 (neg : Bool) (n : Nat) : Sec := ⟨neg, 0x10000, shadow0, 7, 9, [], [], [], 0, n, 0, 0, []⟩
def tenSec (x : Sec) : State := tenAt { ctx0 with sec := some x }
theorem sec_ready : Ready (tenSec (sec0 false 0)) 0 (some 0) 4 ∧ NotAtEnd (tenSec (sec0 false 0)) 0 (some 0) 4 := by
  refine ⟨ready_of _ _ _ _ (by decide +kernel), ?_⟩
  unfold NotAtEnd; decide +kernel

/-- NegativePass: no section, a section in its first pass, and one in its Negative pass with equal signatures. -/
theorem witness_negative : tanksFull ten0 0 = false ∧ secOf ten0 0 (some 0) = none ∧ NotAtEnd ten0 0 (some 0) 4 ∧
    (∀ x ∈ [sec0 false 0, { sec0 true 0 with sigMain := 7 }], secOf (tenSec x) 0 (some 0) = some x ∧
      ((tenSec x).core 0).run = some run0 ∧ ((tenSec x).thr 0 (some 0)).r.loopact = x.shadow.r.loopact ∧ x.held = x.heldMain) ∧
    ((tenSec (sec0 true 0)).dl 0).cfg.getLsbD 2 = false ∧ run0.act.lent = false := by
  refine ⟨by decide +kernel, by decide +kernel, ?_, by decide +kernel, by decide +kernel, rfl⟩
  unfold NotAtEnd; decide +kernel
/-- The section in its Negative pass is ready. -/
theorem witness_negative_ready : Ready (tenSec { sec0 true 0 with sigMain := 7 }) 0 (some 0) 4 := ready_of _ _ _ _ (by decide +kernel)

/-- NegativeFailures: a restart that NEG_TN_CFG allows, and unequal signatures in the Negative pass. -/
def tenNeg : State := (tenSec (sec0 true 0)).setEff rNEG_TN_CFG 0 0 0x13FF
theorem witness_negative_failures : Ready tenNeg 0 (some 0) 4 ∧ secOf tenNeg 0 (some 0) = some (sec0 true 0) ∧
    (tenNeg.core 0).run = some run0 ∧ run0.ctx = 0 ∧
    (sec0 true 0).restarts < bits (tenNeg.effReg rNEG_TN_CFG (tenNeg.ctx 0 0).tenant 0).toNat 12 2 ∧
    (sec0 true 0).sig ≠ (sec0 true 0).sigMain ∧ (tenNeg.thr 0 (some 0)).r.loopact = (sec0 true 0).shadow.r.loopact :=
  ⟨ready_of _ _ _ _ (by decide +kernel), by decide +kernel⟩
theorem words_check : ∀ s ∈ [tenSec (sec0 false 0), tenSec { sec0 true 0 with sigMain := 7 }, tenNeg],
    spelt s (some 0) [([immW 45 0 0 9], .checkN 0)] = true := by decide +kernel

/-- PortReads and PortWrites: each port, a readable point, VCOUNT at its limit, and a control block that is valid. -/
def tenPorts : State := 
  { ten0 with points := [(0, { Point.init with ty := 1, owner := 0 })],
              recs := [(recKey 3 5, [0x80000000])],
              ctxs := [(0, { ctx0 with thr := { ctx0.thr with r := { ctx0.thr.r with s := [(1, 0x100000), (2, 5)] } } })] }
theorem witness_ports : Ready tenPorts 0 (some 0) 4 ∧ secOf tenPorts 0 (some 0) = none ∧
    portOf (tenPorts.thr 0 (some 0)).r 0 0 = 0 ∧ portOf (tenPorts.thr 0 (some 0)).r 0 0x210 = 0x210 ∧
    readAllowed (tenPorts.pt 0) (pointOwner tenPorts 0 (some 0)) = true ∧
    (gpr tenPorts 0 (some 0) 1).toNat ≤ 0x100000 ∧ bit (wd (tenPorts.recw 3 5) 0) 31 = true ∧
    (∀ t, pointOwner tenPorts 0 (some 0) = some t → bits (wd (tenPorts.recw 3 5) 0) 16 8 = t) ∧
    (gpr tenPorts 0 (some 0) 2).toNat % 1024 = 5 := by
  refine ⟨ready_of _ _ _ _ (by decide +kernel), by decide +kernel, by decide +kernel, by decide +kernel, by decide +kernel,
    by decide +kernel, by decide +kernel, ?_, by decide +kernel⟩
  intro t h; cases h; decide +kernel
theorem words_ports : spelt tenPorts (some 0) [([immW 40 3 0 0], .inp 0 3 0 0), ([immW 40 3 0 1], .inp 0 3 0 1),
      ([immW 40 3 0 0x30], .tnowNs 0 3 0 0x30), ([immW 40 3 0 0x100], .prd 0 3 0 0x100), ([immW 41 1 0 0], .vcount 0 1 0 0),
      ([immW 41 1 0 6], .out 0 1 0 6), ([immW 41 2 0 0x210], .pub 0 2 0 0x210)] = true ∧
    spelt sup0 none [([immW 41 1 0 0x7FFF], .sioPage 0 1 0 0x7FFF)] = true := by decide +kernel

/-- PointWritePort: a write block of zeros in the Tray, stored under its fog, names point 0 with value 0 and quality 0. -/
def supBlock : State := 
  { sup0 with points := [(0, { Point.init with ty := 1 })],
              tray := (List.range 16).map fun i => (i, BitVec.ofNat 8 (trayFog sup0 0 i)) }
theorem block_byte (i : Nat) (h : i < 16) : trayByte supBlock 0 i = 0 := by
  have e : mget supBlock.tray (trayKey 0 i) = BitVec.ofNat 8 (trayFog sup0 0 i) := by interval_cases i <;> rfl
  have f : trayFog supBlock 0 i = trayFog sup0 0 i := rfl
  have b : trayFog sup0 0 i < 256 := Nat.mod_lt _ (by decide)
  unfold trayByte
  rw [e, f, BitVec.toNat_ofNat, Nat.mod_eq_of_lt b]
  exact Nat.xor_self _
theorem witness_write_block : Ready supBlock 0 none 4 ∧ portOf (supBlock.thr 0 none).r 0 0x108 = 0x108 ∧ keyless supBlock = false ∧
    leVal (trayBytes supBlock 0 (blockAddr none 0) 4) = 0 ∧ leVal (trayBytes supBlock 0 (blockAddr none 0 + 4) 2) < 2 ^ 13 ∧
    (supBlock.pt 0).ty ≠ 0 ∧ TrayClean supBlock 0 (blockAddr none 0) ∧ TrayClean supBlock 0 (blockAddr none 0 + 8) := by
  refine ⟨ready_of _ _ _ _ (by decide +kernel), by decide +kernel, by decide +kernel, ?_, ?_, by decide +kernel, ?_, ?_⟩
  · simp [blockAddr, trayBytes, block_byte, leVal]
  · simp [blockAddr, trayBytes, block_byte, leVal]
  · unfold TrayClean; decide +kernel
  · unfold TrayClean; decide +kernel
theorem words_write_block : spelt supBlock none [([immW 41 0 0 0x108], .pwr 0 0 0 0x108)] = true := by decide +kernel

/-- SupervisorPorts: handlers with a bank, a pending device source, a claimed source, and the window's register. -/
def supBank : State := supAt { core0 with ml := 1, banks := [(1, { Bank.init with rsup := true })] }
def supSrc : State := ((((sup0.setF fIC_CTL_EN 1 0).setReg rIC_SRC 0 16 0x80000003).setReg rEZ_STAT 0 0 1).modCore 0 fun k =>
  { k with ic := { Ic.init with srcs := [(16, ⟨0, 0, true, 0, none, 0, none, none⟩)], stack := [(1, 5)] },
           thr := { k.thr with r := { k.thr.r with s := [(1, 5)] } } }).advanceTo 100
def supWindow : State := sup0.modCore 0 fun k => { k with sio := rTU_PPSDLY.base / 2 ^ 17 }
def ppsPort : BitVec 16 := BitVec.ofNat 16 (0x8000 + rTU_PPSDLY.base % 2 ^ 17 / 4)
theorem witness_claims : bestSrc (toIssue supSrc 0) 0 = some (3, 16) ∧ bestSrc (toIssue (irqReady.advanceTo 100) 0) 0 = some (3, 1) ∧
    bestSrc (toIssue sup0 0) 0 = none ∧ (sup0.core 0).ml = 0 ∧
    (tget Bank.init (({ sup0 with cores := tmod core0 sup0.cores 0 fun k => { k with ml := 1 } } : State).core 0).banks 1).rsup = false ∧
    (match (busRead (toIssue supWindow 0) .supervisor rTU_PPSDLY.base).resp with | .data bs => bs.length == 4 | _ => false) = true ∧
    (match (busWrite (toIssue supWindow 0) rTU_PPSDLY.base 5).resp with | .data _ => true | _ => false) = true := by decide +kernel
theorem witness_supervisor_ports : Ready supBank 0 none 4 ∧ (supBank.core 0).ml ≠ 0 ∧
    (tget Bank.init (supBank.core 0).banks 1).rsup = true ∧ Ready supSrc 0 none 4 ∧ bestSrc supSrc 0 = some (3, 16) ∧
    (supSrc.core 0).ic.stack = [(1, 5)] ∧ (gpr supSrc 0 none 1).toNat % 1024 = 5 ∧ Ready supWindow 0 none 4 ∧
    0x8000 ≤ portOf (supWindow.thr 0 none).r 0 ppsPort ∧
    barOff supWindow 0 (portOf (supWindow.thr 0 none).r 0 ppsPort) = rTU_PPSDLY.base ∧ pmState supWindow < 2 ∧
    supWindow.bist.running = false :=
  ⟨ready_of _ _ _ _ (by decide +kernel), by decide +kernel, by decide +kernel, ready_of _ _ _ _ (by decide +kernel),
    by decide +kernel, by decide +kernel, by decide +kernel, ready_of _ _ _ _ (by decide +kernel), by decide +kernel⟩
theorem words_supervisor_ports : spelt supBank none [([immW 41 1 0 0x406], .xaflags 0 1 0 0x406)] = true ∧
    spelt sup0 none [([immW 41 1 0 0x406], .xaflags 0 1 0 0x406), ([immW 40 3 0 0x410], .icClaim 0 3 0 0x410)] = true ∧
    spelt supSrc none [([immW 40 3 0 0x410], .icClaim 0 3 0 0x410), ([immW 41 1 0 0x411], .icEoi 0 1 0 0x411)] = true ∧
    spelt irqReady none [([immW 40 3 0 0x410], .icClaim 0 3 0 0x410)] = true ∧
    spelt supWindow none [([immW 40 3 0 ppsPort.toNat], .bar0Window 0 false 3 0 ppsPort),
      ([immW 41 1 0 ppsPort.toNat], .bar0Window 0 true 1 0 ppsPort)] = true := by decide +kernel

/-- A legal form of each stream operation: (OP of R120, command, operation, TY, C, D, A, B). -/
abbrev StreamForm := Nat × (Core → StreamArgs → Instr) × SOp × Nat × Nat × Nat × Nat × Nat
def streamUnary : List (Nat × (Core → StreamArgs → Instr) × SOp) :=
  [(0, .vmov, .mov), (1, .vldff, .ldff), (2, .vlds, .lds), (3, .vsts, .sts), (14, .vabs, .abs), (15, .vneg, .neg)]
def streamBinary : List (Nat × (Core → StreamArgs → Instr) × SOp) :=
  [(8, .vadd, .add), (9, .vsub, .sub), (10, .vmul, .mul), (11, .vfma, .fma), (12, .vmin, .min), (13, .vmax, .max), (16, .vand, .and),
   (17, .vor, .or), (18, .vxor, .xor), (19, .vshl, .shl), (20, .vshr, .shr), (24, .vcmp, .cmp)]
def streamReduce : List (Nat × (Core → StreamArgs → Instr) × SOp) :=
  [(36, .vredadd, .redadd), (37, .vredmin, .redmin), (38, .vredmax, .redmax)]
def streamOther : List StreamForm :=
  [(4, .vcvt, .cvt, 0, 833, 768, 256, 1023), (21, .vdiv, .div, 4, 1023, 256, 256, 256), (22, .vsqrt, .sqrt, 5, 1023, 256, 256, 1023),
   (26, .vmulw, .mulw, 1, 1023, 256, 256, 256), (27, .vfmaw, .fmaw, 5, 768, 256, 256, 256), (28, .vdot, .dot, 0, 1023, 768, 256, 256),
   (32, .vcmul, .cmul, 7, 1023, 256, 256, 256), (39, .vprefix, .psum, 0, 1023, 256, 256, 1023),
   (40, .vdadd, .dadd, 10, 1023, 256, 256, 256), (41, .vdsub, .dsub, 10, 1023, 256, 256, 256)]
def streamForms : List StreamForm :=
  List.append (streamUnary.map fun (n, i, o) => (n, i, o, 0, 1023, 256, 256, 1023)) (List.append
    (streamBinary.map fun (n, i, o) => (n, i, o, 0, 1023, 256, 256, 256)) (List.append
    (streamReduce.map fun (n, i, o) => (n, i, o, 0, 1023, 768, 256, 1023)) streamOther))
def streamArgs (t c d a b : Nat) : StreamArgs :=
  ⟨0, 0, BitVec.ofNat 4 t, BitVec.ofNat 10 c, 0, BitVec.ofNat 10 d, BitVec.ofNat 10 a, BitVec.ofNat 10 b, false⟩
/-- The two words of R111, with H, MOD and S of 0. -/
def streamW (n t c d a b : Nat) : List Word :=
  [BitVec.ofNat 32 (0x37 * 2 ^ 26 + n * 2 ^ 20 + t * 2 ^ 10 + c), BitVec.ofNat 32 (d * 2 ^ 20 + a * 2 ^ 10 + b)]
/-- A legal form of each short-vector operation: (OP of R132 and R134, command, operation, TY, vb). -/
abbrev ShortForm := Nat × (Core → ShortArgs → Instr) × HOp × Nat × Nat
def shortPlain : List (Nat × (Core → ShortArgs → Instr) × HOp) :=
  [(0, .vaddShort, .add), (1, .vsubShort, .sub), (2, .vmulShort, .mul), (3, .vfmaShort, .fma), (4, .vminShort, .min),
   (5, .vmaxShort, .max), (6, .vandShort, .and), (7, .vorShort, .or), (8, .vxorShort, .xor), (9, .vshli, .shli),
   (10, .vshrai, .shrai), (11, .vshrli, .shrli), (15, .vsel, .sel), (16, .vsplat, .splat), (18, .vredaddShort, .redadd),
   (19, .vredminShort, .redmin), (20, .vredmaxShort, .redmax), (25, .vmovs, .movs), (26, .mand, .mand), (27, .mor, .mor),
   (28, .mxor, .mxor), (29, .mnot, .mnot), (30, .mpop, .mpop), (31, .vsetn, .setn)]
def shortOther : List ShortForm :=
  [(12, .vcmpeq, .cmpeq, 2, 0), (13, .vcmplt, .cmplt, 2, 0), (14, .vcmple, .cmple, 2, 0), (17, .vcvtShort, .cvt, 0, 1),
   (21, .vredadd2, .redadd2, 2, 0), (22, .vcmulShort, .cmul, 8, 0), (23, .vdaddShort, .dadd, 10, 0), (24, .vdsubShort, .dsub, 10, 0),
   (31, .vgrp, .grp, 0, 1)]
def shortForms : List ShortForm := List.append (shortPlain.map fun (n, i, o) => (n, i, o, 0, 0)) shortOther
def shortArgs (t b : Nat) : ShortArgs := ⟨BitVec.ofNat 4 t, 0, 0, 2, 4, BitVec.ofNat 5 b, false⟩
/-- The word of R116, with VD 2 and VA 4. -/
def shortW (n t b : Nat) : List Word := [BitVec.ofNat 32 (7 * 2 ^ 29 + n * 2 ^ 24 + t * 2 ^ 20 + 2 * 2 ^ 10 + 4 * 2 ^ 5 + b)]
/-- VectorIssue: an issuer that is ready for 8 and for 4 bytes, with a legal form of all 31 stream and 33 short operations. -/
theorem witness_vectors : Ready sup0 0 none 8 ∧ Ready sup0 0 none 4 ∧ strictOf sup0 0 none = false ∧ spanOwner sup0 0 = true ∧
    (sup0.core 0).run = none ∧ streamForms.length = 31 ∧ shortForms.length = 33 ∧
    (streamForms.all fun (_, _, o, t, c, d, a, b) => let x := streamArgs t c d a b
      vLegal (.str o x) && !vShad (.str o x)) = true ∧
    (shortForms.all fun (_, _, o, t, b) => let x := shortArgs t b
      vLegal (.sht o x) && !vShad (.sht o x)) = true :=
  ⟨sup_ready_long, sup_ready, by decide +kernel⟩
theorem words_streams : spelt sup0 none (streamForms.map fun (n, i, _, t, c, d, a, b) => (streamW n t c d a b, i 0 (streamArgs t c d a b)))
    (fun s => !strictOf s 0 none && spanOwner s 0) = true := by decide +kernel
theorem words_shorts : spelt sup0 none (shortForms.map fun (n, i, _, t, b) => (shortW n t b, i 0 (shortArgs t b)))
    (fun s => !strictOf s 0 none && spanOwner s 0) = true := by decide +kernel

/-- SpanEngine: an entry from its start, jobs with one write each, a branch verdict, and pending operations. -/
def job0 (w : VWrite) : VJob := ⟨[], 0, 0, 9, false, [w], [], none, [], [], true, true⟩
theorem witness_span : Ready sup0 0 none 4 ∧ (⟨.sht .add ⟨0, 0, 0, 0, 0, 0, false⟩, 0, [], 0, false, false, 0, none, 0, none, 1, none⟩ : VEnt).first = 0 ∧
    (job0 (.sreg 3 1)).h = 0 ∧ (job0 (.sreg 3 1)).fault = none ∧ (job0 (.sreg 3 1)).writes = [.sreg 3 1] ∧
    memWf sup0.vreg = true ∧ (⟨3, true, false, 0x10004⟩ : Branch).due < (job0 (.vreg 0 0 [1] 0)).fin ∧ (job0 (.vreg 0 0 [1] 0)).chain = false ∧
    (⟨.store, [], 5, 0, none, none, none⟩ : LongOp).fault = none ∧ (∀ q, q < 8 → (sup0.thr 0 (some q)).pend = []) :=
  ⟨sup_ready, by decide +kernel⟩

theorem witness_elements : 0 < 8 ∧ 0x80 < 2 ^ 8 ∧ (0x80 : Nat) = 2 ^ (8 - 1) := by decide

-- Memories, points, interrupts and the scheduler --------------------------------------------------------------------------------------

/-- PlateReadAfterWrite: a map entry for sheet 0, a whole word, a byte of a clean word, and a byte of a poisoned one. -/
def platAt (ps : List Nat) : State := { base.setEff rSHM_MAP 0 0 0x80000000 with poison := ps }
theorem witness_plate : (∀ n ∈ [1, 2, 4, 8], n ∈ [1, 2, 4, 8] ∧ 8 % n = 0) ∧ keyless (platAt []) = false ∧
    memWf (platAt []).plate = true ∧ trising (platAt []).plateEcc = true ∧ plateResolve (platAt []) 0 8 true = .ok 1 ∧
    (platAt []).poison.contains 1 = false ∧ tget 0 (platAt []).plateEcc 1 = 0 ∧
    plateResolve (platAt [1]) 0 8 true = .ok 1 ∧ (platAt [1]).poison.contains 1 = true := by decide +kernel

/-- DramReadAfterWrite: the last four bytes of a unit. -/
theorem witness_dram : 60 % 64 + 4 ≤ 64 ∧ keyless base = false ∧ memWf base.dram = true ∧ tget 0 base.dramEcc (60 / 64) = 0 ∧
    trising base.dramEcc = true := by decide +kernel

def wr0 (src : PtSrc) (back : PtBack) (lost : Nat) : PtWrite := ⟨src, 0, some 1, none, none, none, none, back, lost, none, 0, none⟩
def ptAt (ws : List PtWrite) : State :=
  { sup0.setF fCS_CTL_EVEN 1 with points := [(0, { Point.init with ty := 4, owner := 0, flags := 3 })], ptq := ws }
/-- PointWriteLands: a change of a point with EVT and WATCH, and a write that is no change. -/
theorem witness_point_write : let w := wr0 .ez .none 0
    writeAllowed ((ptAt [w]).pt 0) w = true ∧ changes ((ptAt [w]).pt 0) w = true ∧ bit ((ptAt [w]).pt 0).flags 1 = true ∧
    bit ((ptAt [w]).pt 0).flags 0 = true ∧ (ptAt [w]).fb fCS_CTL_EVEN = true ∧ ((ptAt [w]).pt 0).owner < 256 ∧
    (ptAt [w]).evq.length < 1024 ∧ changes ((ptAt [w]).pt 0) { w with val := some 0 } = false := by decide +kernel
/-- PointCollision: lane 0 and the supervisor of EC0 write point 0 in one cycle. -/
theorem witness_collision : let a := wr0 (.fe 0) (.lane 0 false 1) 0
    let b := wr0 .ez (.pwr 0 none) 0
    let s := (ptAt [a, b]).modThr 0 none fun t => { t with pwr := some none }
    s.ptq = [a, b] ∧ a.pt = b.pt ∧ writeAllowed (s.pt a.pt) a = true ∧ writeAllowed (s.pt b.pt) b = true ∧
    (s.thr 0 none).pwr = some none := by decide +kernel
/-- RetriesLand: a write of each of the three sources that has lost once. -/
theorem witness_retries : ∀ w ∈ [wr0 .tu .none 1, wr0 .ez (.held 0 0) 1, wr0 .host .mirror 1],
    (ptAt [w]).ptq = [w] ∧ w.lost ≠ 0 ∧ writeAllowed ((ptAt [w]).pt w.pt) w = true := by decide +kernel

/-- InterruptSources: source 1 enabled at priority 3 without moderation, counted sets, and a line that is due. -/
theorem witness_sources : (irqReady.fb fIC_SRC_EN 0 1 = true ∧ irqReady.fb fIC_SRC_PRIO 0 1 = true ∧ irqReady.f fIC_SRC_MTIME 0 1 = 0 ∧
    (2 : Word).getLsbD 1 = true ∧ ((irqReady.core 0).src 1).lastSet ≠ some irqReady.nowCyc) ∧ srcPending irqReady 0 1 = true ∧ pmState irqReady ≠ 1 ∧
    lineHigh (irqReady.advanceTo ((irqReady.core 0).src 1).line) 0 = true ∧
    mayInterrupt (irqReady.advanceTo ((irqReady.core 0).src 1).line) 0 = true ∧
    (let s := irqReady.modCore 0 fun k => { k with ml := 1 }
     mayInterrupt (s.advanceTo ((s.core 0).src 1).line) 0 = false ∧ srcPending s 0 1 = true ∧
       lineHigh (s.advanceTo ((s.core 0).src 1).line) 0 = true) ∧
    (((sup0.modCore 0 fun k => { k with ic := { Ic.init with srcs := [(1, ⟨2, 0, false, 0, none, 0, none, none⟩)] } }).core 0).src 1).cnt ≠ 0 := by
  decide +kernel

/-- MsixMessages: vector 0 with a counted set, unmasked, masked, and with its pending bit. -/
def vecAt (cnt : Nat) (ctl pba : Word) : State :=
  { (base.setReg rMSIX_TABLE 3 0 ctl).setReg rMSIX_PBA 0 0 pba with
    hi := { HostSt.init with vecs := [(0, { VecSt.init with cnt := cnt })] } }
theorem witness_msix : memWf (vecAt 1 0 0).host = true ∧ ((tfind (vecAt 1 0 0).hi.vecs 0).getD VecSt.init).cnt ≠ 0 ∧
    ¬((vecAt 1 0 0).reg rMSIX_TABLE 3 0).toNat % 2 = 1 ∧ ((vecAt 1 1 0).reg rMSIX_TABLE 3 0).toNat % 2 = 1 ∧
    bit ((vecAt 0 1 1).reg rMSIX_PBA 0 0).toNat 0 = true ∧ bit ((vecAt 0 1 0).reg rMSIX_PBA 0 0).toNat 0 = false := by
  decide +kernel

/-- CoreRegisters: LOCK 0 and 1, a free and a busy word of instruction RAM, and both sides of MAINTENANCE. -/
def maint0 : State := { base with ks := { KsSt.init with maint := true } }
theorem witness_core_registers : base.fb fEZ_CTL_LOCK 0 = false ∧ (base.setF fEZ_CTL_LOCK 1 0).fb fEZ_CTL_LOCK 0 = true ∧
    memWf base.imem = true ∧ imemBusy base 0 (base.f fEZ_IADDR_WORD 0) = false ∧ imemBusy ten0 0 (ten0.f fEZ_IADDR_WORD 0) = true ∧
    maint0.maint = true ∧ base.maint = false := by decide +kernel

def slot0 : PlanSlot := ⟨1000, [(0, 1)], [(0, 2), (1, 1)], [0]⟩
def plan0 : Plan := ⟨0, 0, 1000000, [slot0], [], 0, [], []⟩
def image0 : PlanImage := ⟨7, [], [plan0], [], [], [], []⟩
/-- A plan in effect, in its slot, with dispatch enabled. -/
def planned (s : State) (inslot : Bool) : State :=
  { s.setF fSCH_CTL_EN 1 with plan := { PlanSt.init with img := some image0, inslot := inslot } }
def queued (as : List Act) : State := planned (supAt { core0 with queue := as }) true

/-- Posting: with dispatch on, with it off, and with eight activations of the tenant in the queue. -/
theorem witness_posting : (∀ as ∈ [[], List.replicate 8 act0], let s := { (queued as).setF fDLM_CTL_EN 1 with postq := [act0] }
      s.postq = [act0] ∧ s.stopped = false ∧ standby s = false ∧ pmState s = 0 ∧ s.fb fSCH_CTL_EN = true ∧ s.plan.img.isSome = true ∧
      (s.ctx 0 0).quar = false ∧ lendOut s 0 = false ∧ coreLost s 0 = false ∧ s.place 0 = (0, 0) ∧ (s.core 0).queue = as ∧
      as.length < 64 ∧ s.fb fDLM_CTL_EN = true) ∧
    bits (({ queued [] with dlm := [(0, { Dlm.init with cfg := 0 })] } : State).dl 0).cfg.toNat 0 2 = 0 ∧
    ((List.replicate 8 act0).filter fun b => b.tenant == act0.tenant).length = 8 ∧ base.fb fSCH_CTL_EN = false := by
  decide +kernel

theorem slots0 : slotsOf plan0 = [slot0] := by simp [slotsOf, plan0]
theorem cur0 (as : List Act) : curSlot (queued as) = some slot0 := by
  show (some plan0).bind (fun p => (slotsOf p)[0]?) = _
  simp [slots0]
theorem rank0 (as : List Act) : rankOf (queued as) 0 = some 2 := by
  unfold rankOf; rw [cur0]; rfl
theorem may0 (as : List Act) : mayRun (queued as) 0 act0 = some (2, act0) := by
  unfold mayRun; rw [show act0.tenant = 0 from rfl, rank0]; rfl
theorem next0 : nextAct (queued [act0]) 0 = some act0 := by
  unfold nextAct
  rw [show ((queued [act0]).core 0).queue = [act0] from rfl]
  simp [may0]

/-- DispatchOrder and DispatchStarts: EC0 is free, and act0 of rank 2 waits; tenant 2 has no rank. -/
theorem witness_dispatch : nextAct (queued [act0]) 0 = some act0 ∧ rankOf (queued [act0]) 2 = none ∧
    ((ten0.core 0).run.isSome = true) ∧ dispatchOn (queued [act0]) = true ∧ (queued [act0]).ks.trans = none ∧
    coreFree (queued [act0]) 0 = true ∧ ThrCalm ((queued [act0]).thr 0 none) ∧ ((queued [act0]).core 0).jobs = [] ∧
    ((queued [act0]).core 0).vq = [] ∧ ((queued [act0]).core 0).cyc ≠ ((queued [act0]).core 0).freed + 24 ∧
    nextAct (queued []) 0 = none := by
  refine ⟨next0, ?_, by decide +kernel, by decide +kernel, by decide +kernel, by decide +kernel, calm_of _ (by decide +kernel),
    by decide +kernel, by decide +kernel, by decide +kernel, by decide +kernel⟩
  unfold rankOf; rw [cur0]; rfl

/-- DeadlineMisses and FixedReleases: act0 runs on EC0.ctx0, under COUNT and under FALLBACK, with an output that waits. -/
def dueAt (cfg : Word) : State := { ten0.setF fDLM_CTL_EN 1 with dlm := [(0, { Dlm.init with cfg := cfg })] }
def heldAt : State := tenAt { ctx0 with waitRel := [.point 3 false false 0 1 0, .pub 2] }
theorem witness_deadlines (v : Word) : let s := dueAt v
    s.fb fDLM_CTL_EN = true ∧ s.stopped = false ∧ runOf s 0 = some (0, run0) ∧ (s.core 0).run = some run0 ∧ run0.ended = false ∧
    run0.act.missed = false ∧ run0.act.lent = false ∧ (s.core (s.place 0).1).queue = [] ∧ s.ub.lent = [] ∧ s.ks.trans = none ∧
    s.dl 0 = { Dlm.init with cfg := v } := by
  refine ⟨?_, ?_, rfl, rfl, rfl, rfl, rfl, rfl, rfl, rfl, rfl⟩
  · exact (by decide +kernel : (ten0.setF fDLM_CTL_EN 1).fb fDLM_CTL_EN = true)
  · exact (by decide +kernel : (ten0.setF fDLM_CTL_EN 1).stopped = false)
theorem witness_fixed_release : runOf heldAt 0 = some (0, run0) ∧ run0.ctx = 0 ∧
    run0.act.lent = false ∧ run0.ended = false ∧ heldAt.stopped = false ∧ (heldAt.ctx 0 0).waitRel ≠ [] := by decide +kernel

/-- SlotsAndSpans: the first slot ahead, and a span that waits while no member runs, or while one does. -/
def before0 : State := planned base false
def waitAt (s : State) : State := { s with pipes := [(0, { PipeSt.init 0 with wait := some (0, 1) })] }
theorem witness_slots : curPlan before0 = some plan0 ∧ (slotsOf plan0)[nextSlot before0]? = some slot0 ∧ before0.stopped = false ∧
    max (before0.plan.beganM + slot0.offset * nsU) before0.now < before0.plan.beganM + before0.plan.period * nsU ∧
    ((waitAt base).pipe 0).wait = some (0, 1) ∧ ¬(∃ i < 2 ^ 1, pipeRuns (waitAt base) (0 + i) = true) ∧
    (layoutOf slot0 0).1 = 0 ∧ ((waitAt ten0).pipe 0).wait = some (0, 1) ∧ (∃ i < 2 ^ 1, pipeRuns (waitAt ten0) (0 + i) = true) ∧
    ¬((ten0.pipe 0).base = 0 ∧ (ten0.pipe 0).wlog = (layoutOf slot0 0).2) := by
  refine ⟨by decide +kernel, by rw [slots0]; rfl, by decide +kernel⟩

def moving : State := { base with plan := { PlanSt.init with mig := [(0, 0, 9)] } }
theorem witness_migration : (0 : Fin 256) ≠ 9 ∧ moving.plan.mig = [((0 : Tenant).val, (0 : Fin 256).val, (9 : Fin 256).val)] ∧
    (moving.core 0).run = none ∧ keyless moving = false ∧ memWf moving.tray = true := by decide +kernel

/-- PlanBoundaries: no plan waits, and one deadband does. -/
def cfgAt : State := { base with ptcfg := [⟨3, some 7, none, none⟩] }
theorem witness_boundary : cfgAt.stopped = false ∧ pmState cfgAt < 2 ∧ -(2 ^ 32) < cfgAt.clk.corr ∧ cfgAt.fb fKS_PSTAT_BUSY = false ∧
    cfgAt.plan.waiting = none ∧ cfgAt.ptcfg = [⟨3, some 7, none, none⟩] ∧
    ((cfgAt.pt 3).owner ≤ 0x100 ∨ (cfgAt.pt 3).owner = 0x1FF) ∧ (cfgAt.pt 3).ty ≤ 12 := by decide +kernel

-- The Frame Engine and the station bus ----------------------------------------------------------------------------------------------------

/-- The conditions of `FeReady` but for the register widths, as a check. -/
def feReadyB (s : State) (l : Nat) (e : Bool) (k : FeCls) : Bool :=
  (feThr s l e).run && lanesRun s l && decide ((feThr s l e).cyc < (feThr s l e).bound) &&
  decide (tget 0 s.storeEcc (storeWord (feThr s l e)) = 0) && !wordBad s (feThr s l e) && !(feThr s l e).perr &&
  (feThr s l e).acks.all (fun w => decide ((feThr s l e).cyc < w.due)) &&
  (!k.egress || e) && (!k.vendor || !customerWord (feThr s l e).pc) && (!k.post || (feThr s l e).commit)
theorem fe_ready_of (s : State) (l : Nat) (e : Bool) (k : FeCls) (h : feReadyB s l e k = true) (hw : ∀ n, lreg s l e n < 2 ^ 32) :
    FeReady s l e k := by
  simp only [feReadyB, Bool.and_eq_true, Bool.or_eq_true, decide_eq_true_eq, Bool.not_eq_true'] at h
  obtain ⟨⟨⟨⟨⟨⟨⟨⟨⟨h1, h2⟩, h3⟩, h4⟩, h5⟩, h6⟩, h7⟩, h8⟩, h9⟩, h10⟩ := h
  exact ⟨h1, h2, h3, h4, h5, h6, by simpa using h7, fun h => h8.resolve_left (by simp [h]), fun h => h9.resolve_left (by simp [h]),
    fun h => h10.resolve_left (by simp [h]), hw⟩

def tx0 : TxFrame := ⟨frame0, 1, none, none, none, none, 0⟩
def thr0 : FeThr := { FeThr.init with run := true, bound := 100, commit := true, look := some (0, some 0), crc := some (0, 5), ptwr := some 6,
                                      acks := [⟨9, 0, 2, leBytes 4 0, none⟩], stk := [9], efrm := some [], build := some tx0 }
def q0 (f : Frame) : QFrame := ⟨f, 1000, some true, 0, 0⟩
def bytes0 : Frame := { frame0 with bytes := [0x05, 0x81, 0x90, 0x82, 1, 2, 0x83, 0, 0, 0, 0, 0, 0, 0] }
/-- Lane 0 runs, with the frame q at its head. -/
def laneAt (t : FeThr) (q : QFrame) : State :=
  { (base.setF fFE_CTL_RUN 1).setF fEP_LINK_UP 1 0 with
    lanes := [(0, ⟨t, t, [], 0⟩)], ports := [(0, { PortSt.init with ing := [q] })],
    recs := [(recKey 1 0, [0xC0004000, 0, 0x00010000, 0x01000000, 0, 0x12C00001, 1, 0, 0, 0])] }
theorem lane_words (t : FeThr) (f : Frame) (e : Bool) (hf : f.bytes.length < 2 ^ 32 := by decide) (ht : f.tags = [] := by rfl)
    (hl : t.look = some (0, some 0) := by rfl) (n : Nat) :
    lreg (laneAt t (q0 f)) 0 e n < 2 ^ 32 := by
  have h : feThr (laneAt t (q0 f)) 0 e = t := by cases e <;> rfl
  have hh : headFrame (laneAt t (q0 f)) 0 = some (q0 f) := rfl
  unfold lreg feReg
  rw [h, hh]
  split
  · decide
  split
  · exact (tget 0 t.x n).isLt
  split
  · decide
  dsimp only [q0]
  split
  · exact hf
  · exact lt_of_lt_of_le f.etype.isLt (by decide)
  · show (match f.tags with | [] => 0 | tg :: _ => _) < _
    rw [ht]; decide
  · decide
  · rw [hl]; decide
  · rw [hl]
    exact lt_of_lt_of_le (Nat.mod_lt _ (by decide) : _ < 2 ^ 8) (by decide)
  · exact lt_trans (Nat.mod_lt _ (by decide) : _ < 1000000000) (by decide)

/-- Every class of microword is ready somewhere: LaneArithmetic, LaneFrameReads, LaneEngines, LaneOutputs, LaneControl, LaneRoutines. -/
theorem witness_lanes : (∀ e, ∀ k ∈ [fePlain, fePost, feVendor, fePostVendor], FeReady (laneAt thr0 (q0 bytes0)) 0 e k) ∧
    FeReady (laneAt thr0 (q0 bytes0)) 0 true feEgress := by
  refine ⟨?_, fe_ready_of _ _ _ _ (by decide +kernel) (lane_words _ _ _)⟩
  intro e k hk
  simp only [List.mem_cons, List.not_mem_nil, or_false] at hk
  cases e <;> rcases hk with rfl | rfl | rfl | rfl <;> exact fe_ready_of _ _ _ _ (by decide +kernel) (lane_words _ _ _)

/-- LaneFrameReads and LaneEngines: reads inside the frame, the three forms of a length, a CRC and a lookup under way. -/
theorem witness_frame_reads : headFrame (laneAt thr0 (q0 bytes0)) 0 = some (q0 bytes0) ∧ (5 : Reg5).val < 24 ∧ (5 : Reg5).val ≠ 0 ∧
    (feThr (laneAt thr0 (q0 bytes0)) 0 false).cur + 4 ≤ (q0 bytes0).f.bytes.length ∧
    (bytes0.bytes.drop 0 = 0x05 :: bytes0.bytes.drop 1 ∧ (0x05 : Byte).toNat < 0x80) ∧
    bytes0.bytes.drop 1 = 0x81 :: 0x90 :: bytes0.bytes.drop 3 ∧ bytes0.bytes.drop 3 = 0x82 :: 1 :: 2 :: bytes0.bytes.drop 6 ∧
    (bytes0.bytes.drop 6 = 0x83 :: bytes0.bytes.drop 7 ∧ 0x82 < (0x83 : Byte).toNat) ∧
    (feThr (laneAt thr0 (q0 bytes0)) 0 false).crc = some (0, 5) ∧ 0 ≤ (feThr (laneAt thr0 (q0 bytes0)) 0 false).cyc ∧
    (feThr (laneAt thr0 (q0 bytes0)) 0 false).look = some (0, some 0) ∧ (q0 bytes0).tag.isSome = true := by
  decide +kernel

/-- LaneEngines: a frame without a tag, one with a 62351-6 tag, and a tagged beacon are at the head of a queue. -/
theorem witness_tags :
    let untagged := q0 bytes0
    let tagged := q0 { bytes0 with tag := some ⟨5, List.replicate 16 0⟩ }
    let beacon := q0 { frame0 with etype := 0x88B5, bytes := List.replicate 14 0 ++ [2, 1, 4] ++ List.replicate 60 0 }
    ([untagged, tagged, beacon].map fun q => ((laneAt thr0 q).port 0).ing[0]? == some q) = [true, true, true] ∧
    tagPresent untagged.f = false ∧ tagged.f.tag = some ⟨5, List.replicate 16 0⟩ ∧ beacon.f.tag = none ∧
    tagPresent beacon.f = true := by decide +kernel

/-- The clauses of LaneFrameReads and LaneEngines that wait or meet the end of the frame. -/
theorem witness_stalls : (feBytes (laneAt thr0 (q0 bytes0)) 0 true).length < 0 + 1 ∧
    (feThr (laneAt { thr0 with crc := some (9, 5), look := none } (q0 bytes0)) 0 false).crc = some (9, 5) ∧
    (feThr (laneAt { thr0 with crc := some (9, 5), look := none } (q0 bytes0)) 0 false).cyc < 9 ∧
    (feThr (laneAt { thr0 with crc := none, look := none } (q0 bytes0)) 0 false).look = none ∧
    (q0 bytes0).tag.isSome = true ∧ (feThr (laneAt { thr0 with run := false } (q0 bytes0)) 0 false).run = false := by decide +kernel

/-- LaneOutputs: vendor and customer words, a point that its table entry owns and one that it does not, Plate writes that land and that
fail, a judgement and an acknowledgement that are out. -/
def custAt (o : Nat) : State := { laneAt { thr0 with pc := 0x3800, cust := some o } (q0 bytes0) with
                                  points := [(0, { Point.init with owner := 4 })] }
/-- Tenant 0 owns sheet 0 and maps it. -/
def ownSheet (s : State) : State := (s.setEff rSHM_MAP 0 0 0x80000000).setF fSHM_OWNER_OWNER 0 0
def ringAt : State := ownSheet (laneAt thr0 (q0 bytes0))
theorem witness_lane_outputs : customerWord (feThr (laneAt thr0 (q0 bytes0)) 0 false).pc = false ∧
    (∀ o ∈ [4, 5], customerWord (feThr (custAt o) 0 false).pc = true ∧ (feThr (custAt o) 0 false).cust = some o) ∧
    ((custAt 4).pt 0).owner = 4 ∧ ((custAt 5).pt 0).owner ≠ 5 ∧
    lreg ringAt 0 false 30 % 256 = 0 ∧ (feWrite ringAt 0 2 (leBytes 4 0)).1 = 0 ∧
    (feWrite (laneAt thr0 (q0 bytes0)) 0 2 (leBytes 4 0)).1 = 1 ∧ (feWrite { ringAt with poison := [0] } 0 2 (leBytes 4 0)).1 = 3 ∧
    recPoints ringAt (feThr ringAt 0 false) = [0] ∧ (feThr ringAt 0 false).run = true ∧
    (feThr ringAt 0 false).ptwr = some (5 + 1) ∧ (feThr ringAt 0 false).acks = [⟨9, 0, 2, leBytes 4 0, none⟩] := by
  decide +kernel

-- Words that a thread of a lane fetches

/-- A microword by the fields of R268. -/
def laneW (op dst src imm : Nat) : Word := immW op dst src imm
/-- The word w stands where the thread of lane 0 is. -/
def progL (e : Bool) (w : Word) (s : State) : State := { s with store := mwrite s.store (4 * (feThr s 0 e).pc) (leBytes 4 w.toNat) }
/-- The thread fetches each instruction where its word stands, and meets the class of the instruction. -/
def speltL (s : State) (e : Bool) (k : FeCls) (xs : List (Word × Instr)) : Bool :=
  xs.all fun (w, i) => feFetched (progL e w s) 0 e i && feReadyB (progL e w s) 0 e k
theorem progL_rest (e : Bool) (w : Word) (s : State) : { progL e w s with store := s.store } = s := rfl
abbrev LaneOp := Nat × (Lane → Bool → Reg5 → Reg5 → BitVec 16 → Instr)
/-- An instruction of an operation with dst 5, src 6 and imm 3, and its word. -/
def laneForms (e : Bool) (ops : List LaneOp) : List (Word × Instr) := ops.map fun (n, i) => (laneW n 5 6 3, i 0 e 5 6 3)
def lanePlain : List LaneOp :=
  [(0, .feNop), (1, .movi), (2, .movhi), (3, .feAddi), (4, .feAdd), (5, .feSub), (6, .feAnd), (7, .feOr), (8, .feXor), (9, .feAndi),
   (10, .feShli), (11, .shri), (12, .feCmpi), (13, .feCmp), (16, .getF), (17, .peek), (18, .skipF), (19, .seekF), (20, .berlen),
   (0x24, .ptv), (0x25, .ptq), (0x26, .pts), (0x34, .dropF), (0x35, .hostF), (0x3E, .callF), (0x3F, .retF)]
def laneVendor : List LaneOp := [(0x18, .crcs), (0x19, .crcr), (0x1A, .look), (0x1B, .rrec), (0x1C, .tagchk), (0x20, .plw), (0x21, .plh), (0x30, .tsfwd)]
def lanePost : List LaneOp := [(0x27, .ptwr), (0x29, .cnt), (0x36, .feEnd)]
def laneEgress : List LaneOp := [(0x2C, .ebeg), (0x2D, .eput), (0x2E, .esend)]
/-- LaneArithmetic, LaneFrameReads, LaneEngines, LaneOutputs, LaneFlow and LaneRoutines on both threads. -/
theorem words_lanes : ([false, true].all fun e => speltL ringAt e fePlain (laneForms e lanePlain) &&
      speltL ringAt e fePlain [(laneW 0x3C 17 0 5, .br 0 e 17 5), (laneW 0x3D 17 0 0, .feWait 0 e 17 0)] &&
      speltL ringAt e feVendor (laneForms e laneVendor) && speltL ringAt e fePost (laneForms e lanePost)) = true ∧
    speltL ringAt false fePostVendor (laneForms false [(0x28, .postF)]) = true ∧
    speltL ringAt true feEgress (laneForms true laneEgress) = true ∧
    speltL (laneAt { thr0 with commit := false } (q0 bytes0)) false fePlain (laneForms false [(0x37, .commit)]) = true := by decide +kernel
/-- The forms that wait, or meet no record, and the counts of bytes at their limits. -/
theorem words_lane_forms : speltL (laneAt { thr0 with crc := some (9, 5), look := none } (q0 bytes0)) false feVendor
      (laneForms false laneVendor) = true ∧
    speltL (laneAt { thr0 with crc := none, look := none } (q0 bytes0)) false feVendor (laneForms false laneVendor) = true ∧
    speltL ringAt false fePlain [(laneW 16 5 6 0, .getF 0 false 5 6 0), (laneW 16 5 6 4, .getF 0 false 5 6 4),
      (laneW 16 5 6 5, .getF 0 false 5 6 5), (laneW 17 5 6 0x14, .peek 0 false 5 6 0x14)] = true ∧
    speltL ringAt false feVendor [(laneW 0x1A 5 6 0, .look 0 false 5 6 0), (laneW 0x1A 5 6 3, .look 0 false 5 6 3)] = true := by
  decide +kernel
/-- LaneAbandonments: customer words, and vendor words before and after COMMIT. -/
theorem words_lane_ends : speltL (custAt 4) false fePlain (laneForms false (List.append laneVendor (List.append lanePost (List.append laneEgress
      [(0x28, .postF), (0x37, .commit), (0x3E, .callF), (0x3F, .retF), (0x13, .seekF)])))) = true ∧
    speltL (custAt 4) false fePlain [(laneW 0x3C 0 0 5, .br 0 false 0 5)] = true ∧
    speltL (laneAt { thr0 with commit := false } (q0 bytes0)) false fePlain
      (laneForms false (List.append lanePost (List.append laneEgress [(0x28, .postF)]))) = true ∧
    ([0, 4].all fun n => speltL (laneAt { thr0 with stk := List.replicate n 9 } (q0 bytes0)) false fePlain
      (laneForms false [(0x3E, .callF), (0x3F, .retF)])) = true := by decide +kernel

/-- LaneControl: a branch target, a return, and a COMMIT that is still to come. -/
theorem witness_lane_control : badTarget (feThr ringAt 0 false) 5 = false ∧ (feThr ringAt 0 false).stk.length < 4 ∧
    (feThr ringAt 0 false).stk = [9] ∧ (feThr ringAt 0 false).hookRet = none ∧
    customerWord (feThr ringAt 0 false).pc = customerWord 9 ∧
    (feThr (laneAt { thr0 with commit := false } (q0 bytes0)) 0 false).commit = false ∧
    FeReady (laneAt { thr0 with commit := false } (q0 bytes0)) 0 false fePlain ∧ headFrame ringAt 0 ≠ none := by
  refine ⟨by decide +kernel, by decide +kernel, by decide +kernel, by decide +kernel, by decide +kernel, by decide +kernel,
    fe_ready_of _ _ _ _ (by decide +kernel) (lane_words _ _ _), by decide +kernel⟩

/-- LaneAbandonments: a customer word with a vendor return address, a full stack, an empty one, the bound, a register of bad parity,
an uncorrectable word, and one that spells nothing. -/
theorem witness_abandonments : FeReady (custAt 4) 0 false fePlain ∧ customerWord (feThr (custAt 4) 0 false).pc = true ∧
    (feThr (custAt 4) 0 false).stk = [9] ∧ customerWord 9 = false ∧ (feThr (custAt 4) 0 false).hookRet ≠ some 9 ∧
    badTarget (feThr (custAt 4) 0 false) 5 = true ∧ feCond (custAt 4) 0 false (feThr (custAt 4) 0 false) 0 = true ∧
    (∀ n ∈ [0, 4], FeReady (laneAt { thr0 with stk := List.replicate n 9 } (q0 bytes0)) 0 false fePlain) ∧
    (let s := laneAt { thr0 with cyc := 100, acks := [] } (q0 bytes0)
     (feThr s 0 false).run = true ∧ lanesRun s 0 = true ∧ (feThr s 0 false).bound ≤ (feThr s 0 false).cyc) ∧
    (feThr (laneAt { thr0 with perr := true } (q0 bytes0)) 0 false).perr = true ∧
    2 ≤ tget 0 ({ laneAt thr0 (q0 bytes0) with storeEcc := [(0, 2)] } : State).storeEcc (storeWord thr0) ∧
    wordBad { laneAt thr0 (q0 bytes0) with store := [(3, 0xE4)] } thr0 = true := by
  refine ⟨fe_ready_of _ _ _ _ (by decide +kernel) ?_, by decide +kernel, by decide +kernel, by decide +kernel, by decide +kernel,
    by decide +kernel, by decide +kernel, ?_, by decide +kernel⟩
  · intro n
    exact lane_words { thr0 with pc := 0x3800, cust := some 4 } bytes0 false (by decide) rfl rfl n
  · intro n hn
    simp only [List.mem_cons, List.not_mem_nil, or_false] at hn
    rcases hn with rfl | rfl <;> exact fe_ready_of _ _ _ _ (by decide +kernel) (lane_words _ _ _)

/-- LaneRoutines: a posting record, a head frame without a routine, a frame to build, and the egress thread's frame. -/
def idleLane : State := { laneAt FeThr.init (q0 bytes0) with
                          lanes := [(0, ⟨FeThr.init, FeThr.init, [tx0], 0⟩)] }
theorem witness_routines : (feThr ringAt 0 false).look = some (0, some 0) ∧ (feThr ringAt 0 false).lookTab = 0 ∧
    bit (wd (ringAt.recw 1 0) 0) 30 = true ∧ headFrame idleLane 0 = some (q0 bytes0) ∧ (idleLane.lane 0).ing.run = false ∧
    lanesRun idleLane 0 = true ∧ hookEntry idleLane false 1 = none ∧
    nextBuild (idleLane.lane 0).build = some (tx0, []) ∧ (idleLane.lane 0).eg.run = false ∧
    (feThr ringAt 0 true).efrm = some [] ∧ (feThr ringAt 0 true).build = some tx0 ∧
    classDepth ringAt 0 1 < 32 ∧ linkUp ringAt 0 = true ∧ ringAt.fb fEP_EG_DEC 0 = false := by decide +kernel

/-- MicrocodeLoading: GO at rest and while one runs, an image that fails, and the lock of FE_CTL. Whether an image passes rests on
ECDSA, which the model leaves opaque. -/
theorem witness_microcode : bit (0x80000000 : Word).toNat 31 = true ∧ base.f fFE_LOAD_STATE = 0 ∧
    (base.setF fFE_LOAD_STATE 1).f fFE_LOAD_STATE ≠ 0 ∧ imageReason (base.setF fFE_LOAD_STATE 0) (stagedImage base) ≠ 0 ∧
    base.fb fFE_CTL_LOCK = false ∧ (base.setF fFE_CTL_LOCK 1).fb fFE_CTL_LOCK = true := by decide +kernel

/-- FrameReception: a port with its link up, a good and a bad frame, a PAUSE frame, and the second copy on a PRP pair. -/
def portUp : State := ((base.setF fFE_CTL_RUN 1).setF fEP_LINK_UP 1 0).setReg rEP_CTL 0 0 0xB
def pairUp : State := { ((portUp.setReg rEP_CTL 1 0 0xB).setF fEP_LINK_UP 1 1).setEff rEP_RDCFG 0 0 0x07D01901 with
                        pairs := [(0, ⟨[(0x02AA00000001, 7, 0, 0)], 3⟩)] }
def tiedUp : State := { pairUp with pairs := [(0, ⟨[(0x02AA00000001, 7, 0, 1)], 3⟩)] }
theorem witness_tie : (tiedUp.pair 0).dup = [(0x02AA00000001, 7, 0, 1)] ∧ 0 / nsU = tiedUp.now / nsU ∧ (0 : Port).val < 1 ∧
    linkUp tiedUp 0 = true ∧ portEn tiedUp 0 = true ∧ pairRed tiedUp 0 ≠ 0 ∧ tiedUp.fb fFE_CTL_RUN = true ∧ tiedUp.stopped = false ∧
    (tiedUp.port 0).ing.length < 64 ∧ (∀ y ∈ (pairUp.pair 0).dup, y.2.2.2 ≤ (0 : Port).val) := by decide +kernel
theorem witness_reception : linkUp portUp 0 = true ∧ portEn portUp 0 = true ∧ portPower portUp 0 = true ∧ portPower pairUp 0 = true ∧ frame0.fcsOk = true ∧
    64 ≤ frame0.len ∧ frame0.len ≤ 1522 ∧ pairRed portUp 0 = 0 ∧ frame0.body ≠ .pause ∧ frame0.body ≠ .supervision ∧
    portUp.fb fFE_CTL_RUN = true ∧ portUp.stopped = false ∧ (portUp.port 0).ing.length < 64 ∧
    ((portUp.port 0).ing.map fun x => ingBytes x.f).sum + ingBytes frame0 ≤ 32768 ∧ pairRed pairUp 0 ≠ 0 ∧ linkUp pairUp 0 = true ∧
    (pairUp.pair 0).dup = [(0x02AA00000001, 7, 0, 0)] ∧ frame0.smac = 0x02AA00000001 ∧ pairUp.now < 0 + forgetU pairUp 0 ∧
    { frame0 with fcsOk := false }.fcsOk = false := by decide +kernel

/-- SampledValues: a frame of one ASDU with one channel that record 0 takes into tenant 0's ring. -/
def asdu0 : Asdu := ⟨0, 2, 0, 0, [⟨7, 0⟩]⟩
def svQ : QFrame := q0 { frame0 with dmac := 0, body := .sv 0x4000 false [asdu0] false }
def svAt : State := ownSheet (laneAt FeThr.init svQ)
theorem witness_sv :
    let due := frameStart svAt 0 svQ + (60 + [asdu0].length * (12 + 3 * max (svSelCount svAt 0 svQ 0x4000 [asdu0]) 8) + slowNs svAt 5) * nsU
    headFrame svAt 0 = some svQ ∧ lanesRun svAt 0 = true ∧ (svAt.lane 0).ing.commit = false ∧
    svQ.f.body = .sv 0x4000 false [asdu0] false ∧ findRec svAt 1 (fun ws => svMatch ws 0x4000 [asdu0] svQ.f 0) = some 0 ∧
    bit (wd (svAt.recw 1 0) 0) 29 = false ∧ asdu0.chans.length = bits (wd (svAt.recw 1 0) 3) 24 5 ∧
    asdu0.smpCnt < bits (wd (svAt.recw 1 0) 5) 16 16 ∧
    tagPass (bits (wd (svAt.recw 1 0) 0) 27 2) (bits (wd (svAt.recw 1 0) 7) 21 11) (tagKeyId svQ.f) svQ = some true ∧
    (ringWrites (svAt.advanceTo due) (bits (wd (svAt.recw 1 0) 0) 16 8) ([asdu0].flatMap (svWrites (svAt.recw 1 0)))).1 = 0 := by
  decide +kernel

/-- A Burst SV frame of one block of 16 samples that record 0 takes. -/
def block0 : List Byte := [2, 1, 0, 16] ++ List.replicate 48 0
def bsvBytes : List Byte := List.replicate 14 0 ++ [1, 1, 0, 1, 0, 9, 0, 0, 0, 0, 0, 0] ++ block0 ++ beBytes 4 (crc32 block0)
def bsvQ : QFrame := q0 { frame0 with etype := 0x88B5, len := 120, bytes := bsvBytes }
def bsvAt : State := { ownSheet (laneAt FeThr.init bsvQ) with
                       recs := [(recKey 4 0, [0x80000009, 2, 0x00010000, 0, 16, 0, 0, 0])] }
theorem witness_burst_sv :
    let due := frameStart bsvAt 0 bsvQ + (40 + (12 + netField (payload bsvQ.f) 14 2 / 4) + slowNs bsvAt 5) * nsU
    headFrame bsvAt 0 = some bsvQ ∧ lanesRun bsvAt 0 = true ∧ (bsvAt.lane 0).ing.commit = false ∧
    bsvQ.f.etype = 0x88B5 ∧ netField (payload bsvQ.f) 0 1 = 1 ∧ netField (payload bsvQ.f) 1 1 = 1 ∧ netField (payload bsvQ.f) 3 1 = 1 ∧
    bsvBlocks (payload bsvQ.f) 1 12 = ([block0 ++ beBytes 4 (crc32 block0)], true) ∧
    findRec bsvAt 4 (fun ws => bsvMatch ws 0 (netField (payload bsvQ.f) 4 2) (netField (payload bsvQ.f) 8 4) 2 0) = some 0 ∧
    netField (block0 ++ beBytes 4 (crc32 block0)) 52 4 = crc32 ((block0 ++ beBytes 4 (crc32 block0)).take 52) ∧
    bit (wd (bsvAt.recw 4 0) 0) 29 = bit (netField (payload bsvQ.f) 2 1) 0 ∧
    tagPass (bits (wd (bsvAt.recw 4 0) 0) 27 2) 0 0 bsvQ = some true ∧
    (ringWrites (bsvAt.advanceTo due) 0 ((List.range 16).map fun j => (2 * j, leBytes 2 0))).1 = 0 := by decide +kernel

/-- GooseSubscriptions: one member for a Boolean point, as a new stNum and as the last one; a running timeAllowedtoLive. -/
def gooseQ : QFrame := q0 { frame0 with dmac := 0, body := .goose 0x4000 goose0 }
def gooseAt (r : RecSt) : State :=
  { ((laneAt FeThr.init gooseQ).setEff rCS_DSDIR 0 0 0x80010000).setEff rCS_DSMEM 0 0 5 with
    recs := [(recKey 2 0, [0x80004000, 0, 0x00010000, 0, 1, 2, 3, 0, 0])], recst := [(recKey 2 0, r)],
    points := [(5, { Point.init with ty := 1, owner := 0 })] }
theorem witness_goose : (∀ r ∈ [RecSt.init, { RecSt.init with seen := true, last := 5, tal := some 9 }],
      headFrame (gooseAt r) 0 = some gooseQ ∧ lanesRun (gooseAt r) 0 = true ∧ ((gooseAt r).lane 0).ing.commit = false ∧
      findRec (gooseAt r) 2 (fun ws => recMatch 2 ws 0x4000 gooseQ.f 0 && goose0.refCrc.toNat == wd ws 4 &&
        goose0.dsCrc.toNat == wd ws 5 && goose0.confRev.toNat == wd ws 6) = some 0 ∧
      tagPass (bits (wd ((gooseAt r).recw 2 0) 0) 27 2) 0 0 gooseQ = some true ∧
      bit (wd ((gooseAt r).recw 2 0) 0) 29 = goose0.sim ∧ (gooseAt r).rst 2 0 = r ∧
      membersTake (gooseAt r) (dsMembers (gooseAt r) 0) goose0.members = some [(5, some 1, none)]) ∧
    goose0.unsup = false ∧ goose0.members ≠ [] ∧ goose0.members.length ≤ 64 ∧ goose0.ndsCom = false ∧
    ¬(RecSt.init.seen = true ∧ RecSt.init.last = goose0.stNum.toNat) ∧ goose0.stNum.toNat = 5 ∧
    gooseDue { gooseAt { RecSt.init with tal := some 9 } with lanes := [] } 0 9 = false := by decide +kernel

-- Beacons, publications, the wire and time ----------------------------------------------------------------------------------------------------

/-- BeaconsAndPtp: an Announce, an untagged beacon of one of two devices, one of which is another than this (KS_DEVID is opaque), and
an entry that can fall silent. -/
def ptpQ : QFrame := q0 { frame0 with body := .ptp ptp0 }
def beaconBytes (d : Byte) : List Byte := List.replicate 14 0 ++ [2, 1, 0, 0, 0, 0, 0, 0, 0, 0, 0, d] ++ List.replicate 30 0
def beaconQ (d : Byte) : QFrame := q0 { frame0 with dmac := 0x034E56000002, etype := 0x88B5, bytes := beaconBytes d }
def beaconAt (d : Byte) : State := ((((laneAt FeThr.init (beaconQ d)).setF fKS_CTL_CHK 1).setEff rKS_EXP0 0 0 (w32 d.toNat)).setEff
  rKS_EXP4 0 0 0x80010005)
theorem witness_beacons : headFrame (laneAt FeThr.init ptpQ) 0 = some ptpQ ∧ lanesRun (laneAt FeThr.init ptpQ) 0 = true ∧
    ptpQ.f.body = .ptp ptp0 ∧ ptp0.kind ≠ .management ∧
    (∀ d ∈ [(1 : Byte), 2], let bs := payload (beaconQ d).f
      headFrame (beaconAt d) 0 = some (beaconQ d) ∧ lanesRun (beaconAt d) 0 = true ∧ ((beaconAt d).lane 0).ing.commit = false ∧
      (beaconQ d).f.etype = 0x88B5 ∧ netField bs 0 1 = 2 ∧ netField bs 1 1 = 1 ∧ (beaconQ d).f.dmac = 0x034E56000002 ∧
      netField bs 4 8 = d.toNat ∧
      tagPass 1 (netField bs 38 4 % 2048) (netField bs 38 4) (beaconQ d) = some true ∧
      (beaconAt d).fb fKS_CTL_CHK = true ∧
      (List.range 64).find? (fun x => bit (expWord (beaconAt d) x 4) 31 && bit (expWord (beaconAt d) x 4) (16 + 0) &&
        expWord (beaconAt d) x 0 + 2 ^ 32 * expWord (beaconAt d) x 1 == netField bs 4 8) = some 0) ∧
    tuOn (beaconAt 1) = true ∧ bit (expWord (beaconAt 1) 0 4) 31 = true ∧ expWord (beaconAt 1) 0 4 % 256 ≠ 0 ∧ expState (beaconAt 1) 0 ≠ 3 := by
  decide +kernel
theorem witness_other_device : (1 : Byte).toNat ≠ devIdNat ∨ (2 : Byte).toNat ≠ devIdNat := by
  rcases eq_or_ne (1 : Byte).toNat devIdNat with h | h
  · exact Or.inr (by rw [← h]; decide)
  · exact Or.inl h

/-- Publications: a first request, a request whose members are as last sent, and a retransmission that is due. -/
def pubAt (x : PubSt) : State :=
  { ((base.setF fEP_LINK_UP 1 0).setEff rCS_DSDIR 0 0 0x80010000).setEff rCS_DSMEM 0 0 5 with
    recs := [(recKey 3 0, [0x80000000, 0, 0x00010000, 0, 0, 0x03E80002, 0, 0])], pubst := [(0, x)],
    pubq := [⟨0, false, none, false, none, 0⟩], points := [(5, { Point.init with ty := 1, owner := 0 })] }
def sentOnce : PubSt := { PubSt.init with st := 1, last := some [.bool false], iv := 2000, due := some 7 }
theorem witness_publications : (∀ x ∈ [PubSt.init, sentOnce], standby (pubAt x) = false ∧ (pubAt x).stopped = false ∧
      bit (wd ((pubAt x).recw 3 0) 0) 31 = true ∧ fabricOn (pubAt x) = true ∧ (pubAt x).pubq = [⟨0, false, none, false, none, 0⟩] ∧ (pubAt x).ptq = [] ∧
      (pubAt x).fb fUB_CTL_EN = false ∧ (pubMembers (pubAt x) ((pubAt x).recw 3 0) false).2 = [.bool false] ∧ (pubAt x).pub 0 = x) ∧
    PubSt.init.last = none ∧ sentOnce.last = some [.bool false] ∧ sentOnce.due = some 7 ∧
    eventDue { pubAt sentOnce with pubq := [] } 0 7 = false ∧
    bit (wd ((pubAt PubSt.init).recw 3 0) 2) 16 = true := by decide +kernel

/-- Wire: a frame that may start, one on the wire, a ring pair, a pair that sends supervision, a port down, and the port's lock. -/
def sending : State := { portUp with ports := [(0, { PortSt.init with egq := [tx0] }), (1, { PortSt.init with tx := some tx0 })] }
def ringUp : State := pairUp.setEff rEP_RDCFG 0 0 0x07D01902
theorem witness_wire : linkUp sending 0 = true ∧ portEn sending 0 = true ∧ portPower sending 0 = true ∧ portPower ringUp 0 = true ∧ (sending.port 0).tx = none ∧
    nextTx (untilBuilt sending 0) 0 = some (tx0, []) ∧ (sending.port 1).tx ≠ none ∧ 2 ≤ pairRed ringUp 0 ∧ linkUp ringUp 0 = true ∧
    linkUp ringUp 1 = true ∧ ringUp.stopped = false ∧ frame0.dmac ≠ portMac ringUp 0 ∧ frame0.smac ≠ portMac ringUp 0 ∧
    frame0.smac ≠ portMac ringUp 1 ∧ (ringUp.port 1).tx = none ∧
    (∀ i < 2, linkUp ringUp (2 * 0 + i) = true ∧ ringUp.fb fEP_EG_DEC (2 * 0 + i) = false ∧ classDepth ringUp (2 * 0 + i) 1 < 32) ∧
    (let down := base.setReg rEP_CTL 0 0 0xB
     linkUp down 0 = false ∧ portReady down 0 = true) ∧
    base.fb fEP_CTL_LOCK 0 = false ∧ portEn base 0 = false ∧ bit (unitBad base fBI_UNUSABLE_PORTS) 0 = false ∧
    (base.setF fEP_CTL_LOCK 1 0).fb fEP_CTL_LOCK 0 = true := by decide +kernel

/-- TimeSources: every source ranked, a 1PPS run, an IRIG-B run of two frames, and a grandmaster. -/
def timed : State := { base.setReg rTU_SRCCFG 0 0 0x12345 with
                       tu := { TuSt.init with set := true, ppsRun := 3, irig := [(2, (2, 0, 0))], ptpGm := some ptp0, ptpErb := [(0, ptp0)], ptpAnn := [(0, 7, 0)] } }
def irig0 : IrigFrame := ⟨0, true, some 1970, 1, 1, 0, false, false⟩
theorem witness_time_sources : tuOn timed = true ∧ (∀ i < 5, srcRank timed i ≠ 0) ∧ timed.tu.ppsRun = 3 ∧ timed.tu.set = true ∧
    timed.stopped = false ∧ (0 : Int).natAbs ≤ 1000 ∧ ¬((2000 : Int).natAbs ≤ 1000) ∧
    (timed.advanceTai ((timed.tu.ppsLast : Int) + sec + 0).toNat).tai ≤ timed.tu.ppsLast + sec + 1000 ∧
    tget (0, 0, 0) timed.tu.irig 2 = (2, 0, 0) ∧ irig0.valid = true ∧ irigTai (timed.advanceTai ((0 : Int) + sec + irig0.err).toNat) irig0 = 0 + 1 ∧
    ¬(timed.tu.ppsRun = 0 ∧ timed.tu.ppsLast = 0) ∧ timed.tu.ptpGm ≠ none ∧ timed.tu.setsec = none ∧
    annFirst timed = some (0, 7, 0) ∧ timed.tu.ptpPort = 0 := by decide +kernel

/-- TimeServices: holdover past ERRMAX, a leap each way, a running clock, the time points, and a PTP master port. -/
def holding : State := { base.setF fTU_SEL_STATE 3 with tu := { TuSt.init with holdE0 := 2000, leap := 1 } }
def mastering : State := ((((portUp.setF fTU_PTPROLE_ROLE 2).setReg rTU_PTBASE 0 0 0x80000000)))
theorem witness_time_services : tuOn holding = true ∧ -(2 ^ 32) < holding.clk.corr ∧ holding.f fTU_SEL_STATE = 3 ∧
    holding.f fTU_HOLD_ERRMAX < holding.tu.holdE0 ∧ holding.tu.leap = 1 ∧ -32768 < sval 16 (holding.f fTU_UTCOFF_OFF) ∧
    sval 16 (holding.f fTU_UTCOFF_OFF) < 32767 ∧ holding.tu.setsec = none ∧ tuOn mastering = true ∧ ptpRole mastering 0 = 2 ∧
    mastering.tu.ptpGm = none ∧ mastering.stopped = false ∧ tfind mastering.tu.ptpErb 0 = none ∧
    tfind ({ mastering with tu := { mastering.tu with syncTx := [(0, (4, 5))] } } : State).tu.syncTx 0 = some (4, 5) ∧
    mastering.fb fTU_PTBASE_EN = true ∧
    (({ mastering with points := [(3, { Point.init with ty := 4 })] } : State).pt ((mastering.f fTU_PTBASE_BASE + 3) % 131072)).ty = 4 := by
  decide +kernel
/-- A seconds value that waits for the next second. -/
def setting : State := { base with tu := { TuSt.init with setsec := some (9, (base.tai / sec + 1) * sec) } }
theorem witness_setsec : tuOn setting = true ∧ setting.tu.setsec = some (9, (setting.tai / sec + 1) * sec) ∧
    setting.tai < (setting.tai / sec + 1) * sec ∧ -(2 ^ 32) < setting.clk.corr ∧ setting.clk.corr ≤ 2 ^ 32 := by decide +kernel
/-- HoldoverSpan: a bound at its limit. -/
theorem witness_holdover_span : 1000 ≤ 1000 ∧ holdSpan 1000 100 5 1000 62 0 + 1 < 2 ^ 62 := by decide +kernel

-- The host ---------------------------------------------------------------------------------------------------------------------------------------

/-- A command of `op` at the head of the supervisor's set, or of tenant 0's, with the data that it reads. -/
def cmd0 (op len arg : Nat) (d : Option HostResp) : HCmd :=
  ⟨[w32 op, 0, 0x1000, 0, w32 len, w32 arg, 0, 0, 0, 0, 0, 0, 0, 0, 0, 0], 3, d, false, 0⟩
def hostAt (set : Nat) (c : HCmd) : State :=
  { ((base.setF fHI_TN_CTL_EN 1 set).setF fHI_LINK_UP 1).setReg rHI_TN_SIZE set 0 0x4444 with hi := { HostSt.init with sets := [(set, { HSet.init with cmds := [c] })] } }
theorem host_turn (set : Nat) (c : HCmd) (op : Nat)
    (h : (decide (((hostAt set c).hset set).cmds.head? = some c) && decide (cmdOp c = op) && setLive (hostAt set c) set &&
      ((hostAt set c).hset set).cpls.isEmpty &&
      !ringFull (hostAt set c) set 1 ((hostAt set c).hset set).cplPI ((hostAt set c).hset set).cplCI && ((hostAt set c).hi.waits.filter fun w => w.set == set).isEmpty &&
      !(hostAt set c).ks.adv.contains (cmdTarget set c) && myTurn (hostAt set c) set &&
      (opDomain (hostAt set c) set c).all (fun d => domOn (hostAt set c) d) && decide (c.put = 0)) = true) : HostTurn (hostAt set c) set c op := by
  simp only [Bool.and_eq_true, decide_eq_true_eq, List.isEmpty_iff, Bool.not_eq_true'] at h
  obtain ⟨⟨⟨⟨⟨⟨⟨⟨⟨h1, h2⟩, h3⟩, h4⟩, h5⟩, h6⟩, h7⟩, h8⟩, h9⟩, h10⟩ := h
  exact ⟨h1, h2, h3, h4, h5, h6, h7, h8, fun d hd => by rw [hd] at h9; exact h9, h10⟩

/-- Every operation has its turn, in the supervisor's set and in a tenant's. -/
theorem witness_turns : ∀ op ∈ [0, 1, 2, 3, 4, 5, 6, 8, 9, 10, 0x0B, 0x10, 0x11, 0x12, 0x13, 0x14, 0x18, 0x20, 0x21], ∀ set ∈ [0, 256],
    HostTurn (hostAt set (cmd0 op 8 0 none)) set (cmd0 op 8 0 none) op := by
  intro op ho set hs
  simp only [List.mem_cons, List.not_mem_nil, or_false] at ho hs
  rcases hs with rfl | rfl <;>
    rcases ho with rfl | rfl | rfl | rfl | rfl | rfl | rfl | rfl | rfl | rfl | rfl | rfl | rfl | rfl | rfl | rfl | rfl | rfl | rfl <;>
    exact host_turn _ _ _ (by decide +kernel)

/-- HostMemoryCommands: legal Plate, Tray and DRAM moves of 8 bytes with their data, and a PLATE_WR whose data is still to be read. -/
def data0 : HostResp := .data (List.replicate 8 0)
theorem witness_host_memory : let s := hostAt 0 (cmd0 2 8 0 (some data0))
    memWf s.host = true ∧ memWf s.tray = true ∧ keyless s = false ∧ plateBad 0 s (cmd0 2 8 0 none) = none ∧
    trayBad 0 s (cmd0 4 8 0x3EF8 none) = none ∧ dramBad 0 s (cmd0 6 8 0 none) = none ∧ cmdLen (cmd0 2 8 0 none) = 8 ∧
    (cmd0 2 8 0 (some data0)).data = some (.data (List.replicate 8 0)) ∧ (List.replicate 8 (0 : Byte)).length = 8 ∧
    (cmd0 2 8 0 none).data = none ∧ (cmd0 2 8 0 none).asked = false ∧ pmState s ≠ 1 ∧ bit (wd (cmd0 2 8 0 none).w 0) 9 = false ∧
    s.fb fHI_LINK_UP = true ∧ s.tai < s.plan.next ∧ s.stopped = false ∧
    (let due := { s with plan := { s.plan with next := 0 } }
     due.plan.next ≤ due.tai ∧ due.stopped = false) := by decide +kernel

/-- HostRecordCommands: an own record and another's, the record's data under the own tenant and under another, REC_STAT's index. -/
def recAt (own : Bool) (c : HCmd) : State := { hostAt 0 c with recs := [(recKey 1 0, [if own then 0x80000000 else 0x80070000])] }
def recData (t : Byte) : List Byte := [0, 0, t, 0x80] ++ List.replicate 44 0
theorem witness_host_records : let c := fun t => cmd0 0x10 48 0 (some (.data (recData t)))
    cmdArg (c 0) < recCount 1 ∧ cmdAddr (c 0) % 8 = 0 ∧ recMine (recAt true (c 0)) 0 1 0 = true ∧
    recMine (recAt false (c 0)) 0 1 0 = false ∧ (recData 0).length = recBytes 1 ∧
    bits (wd (wordsOf (recData 0) (recWords 1)) 0) 16 8 = 0 ∧ bits (wd (wordsOf (recData 7) (recWords 1)) 0) 16 8 ≠ 0 ∧
    bits (inl (cmd0 8 0 0 none) 1) 13 3 = 0 ∧ inl (cmd0 8 0 0 none) 4 < sec ∧
    cmdArg (cmd0 10 0 0x100001FF none) % 2 ^ 17 < srcCount (bits (cmdArg (cmd0 10 0 0x100001FF none)) 28 4) ∧
    srcCount (bits (cmdArg (cmd0 10 0 0x10000200 none)) 28 4) ≤ cmdArg (cmd0 10 0 0x10000200 none) % 2 ^ 17 ∧
    bits (cmdArg (cmd0 0x14 0 0x10000000 none)) 28 4 = 1 ∧ cmdArg (cmd0 0x14 0 0x10000000 none) % 65536 < recCount 1 := by decide +kernel

/-- HostControlCommands: instruction words in a free and in a busy window, a plan that is refused, and key loads. Whether a plan passes
rests on ECDSA, which the model leaves opaque. -/
def blob0 : List Byte := [0, 1, 16, 0] ++ List.replicate 60 0
def lcAt (n slots : Nat) : State :=
  { hostAt 256 (cmd0 0x21 64 0 none) with ks := { KsSt.init with fuse := if n = 4 then 3 else n, maint := n == 4, cprog := slots } }
theorem witness_host_control : let c := cmd0 0x18 8 0 (some data0)
    memWf (hostAt 256 c).imem = true ∧ cmdLen c % 4 = 0 ∧ 4 * bits (cmdArg c) 2 14 + cmdLen c ≤ 65536 ∧ cmdAddr c % 8 = 0 ∧
    (imemWords c).any (imemBusy (hostAt 256 c) 0) = false ∧ (imemWords c).any (imemBusy ten0 0) = true ∧
    (imemWords c).all (ownWindow ten0 0 0) = true ∧ planReason (hostAt 256 c) [] image0 ≠ 0 ∧ (lcAt 3 1).ks.wipe = none ∧ (lcAt 3 1).lc = 3 ∧
    blob0.length = 64 ∧ blobOk blob0 = true ∧ blobOk (List.replicate 64 0xFF) = false ∧ (lcAt 2 1).lc = 2 ∧
    (List.range 4).find? (fun i => !bit (lcAt 2 1).ks.cprog i) = some 1 ∧ (List.range 4).find? (fun i => !bit (lcAt 2 15).ks.cprog i) = none ∧
    (lcAt 4 3).lc = 4 ∧ ((List.range 4).any fun j => j != 0 && bit (lcAt 4 3).ks.cprog j && !bit (lcAt 4 3).ks.crev j) = true ∧
    ((List.range 4).any fun j => j != 0 && bit (lcAt 4 1).ks.cprog j && !bit (lcAt 4 1).ks.crev j) = false ∧
    bits (cmdArg (cmd0 0x21 0 0x30000000 none)) 28 4 = 3 := by decide +kernel

/-- HostEngine: a poll that may start, each kind of read at the front, a waiting completion, and a halted set. -/
def reading (k : HReadKind) (h : HSet) : State :=
  { ((base.setF fHI_CTL_EN 1).setF fHI_TN_CTL_EN 1 0).setF fHI_LINK_UP 1 with
    hi := { HostSt.init with sets := [(0, h)], reads := [⟨k, 0, 64, 0⟩] } }
def engine0 (h : HSet) : State := { reading .summary h with hi := { HostSt.init with sets := [(0, h)] } }
theorem witness_host_engine : (engine0 HSet.init).fb fHI_CTL_EN = true ∧ (engine0 HSet.init).fb fHI_LINK_UP = true ∧
    polling (engine0 HSet.init) = false ∧ pmState (engine0 HSet.init) < 2 ∧
    (∀ k ∈ [HReadKind.summary, .doorbell 0, .cmd 0 1], (reading k HSet.init).hi.reads = [⟨k, 0, 64, 0⟩]) ∧
    ((reading (.doorbell 0) { HSet.init with halt := true }).hset 0).halt = true ∧
    ringN (reading (.doorbell 0) HSet.init) 0 0 ≤ ringDepth (imgVal [1, 0] 0 2) 0 ∧
    (let s := (engine0 { HSet.init with cpls := [⟨0, 0, 0, 0⟩] }).setReg rHI_TN_SIZE 0 0 0x4444
     (s.hset 0).cpls = [⟨0, 0, 0, 0⟩] ∧ setLive s 0 = true ∧ ringFull s 0 1 0 0 = false) ∧
    ((engine0 { HSet.init with halt := true }).hset 0).halt = true ∧ (engine0 HSet.init).fb fHI_TN_CTL_EN 0 = true := by decide +kernel

/-- HostRingEntries: an event record with room and without, a frame that may leave and one that may not. -/
def rec0 : EvRec := ⟨0, List.replicate 8 0, true, true⟩
def ring0 (size : Word) : State := { (engine0 HSet.init).setReg rHI_TN_SIZE 0 0 size with evq := [rec0] }
def sendAt (own : Nat) : State :=
  { (((engine0 { HSet.init with txq := [[0, 0, 14, 0]] }).setF fEP_HF_OWNER own 0).setF fEP_HF_ANYSA 1 0).setF fEP_LINK_UP 1 0 with evq := [] }
theorem witness_ring_entries : (ring0 0x4444).evq = [rec0] ∧ setLive (ring0 0x4444) 0 = true ∧ (ring0 0x4444).fb fHI_LINK_UP = true ∧
    ringFull (ring0 0x4444) 0 2 0 0 = false ∧ ringFull (ring0 0) 0 2 0 0 = true ∧
    (∀ o ∈ [0, 1], ((sendAt o).hset 0).txq = [[0, 0, 14, 0]] ∧ setLive (sendAt o) 0 = true ∧ (sendAt o).stopped = false) ∧
    hostFrameOk (sendAt 0) 0 0 14 (List.replicate 14 0) = true ∧ hostFrameOk (sendAt 1) 0 0 14 (List.replicate 14 0) = false := by
  decide +kernel

/-- PcieLink: a link that is up, and training within the device's lanes. -/
def perst0 : State := { base with hi := { HostSt.init with perst := true } }
theorem witness_pcie : (engine0 HSet.init).fb fHI_LINK_UP = true ∧ 8 ∈ [1, 2, 4, 8] ∧ 8 ≤ perst0.bist.pcie ∧
    1 + perst0.f fGL_STRAP_PCIEGEN ≤ 4 ∧ perst0.hi.perst = true ∧ perst0.bist.running = false ∧ pmState perst0 < 3 := by decide +kernel

-- Sheets, DRAM, keys and power -----------------------------------------------------------------------------------------------------------------------

/-- SheetOwnership: a free sheet, one that is mapped, one in HANDOVER, one at the last epoch; owners at the ends of their ranges. -/
def handing : State := base.setF fSHM_OWNER_STATE 1 0
theorem witness_sheets : (∀ o ∈ [0x101, 0x1FE], 0x100 < o ∧ o < 0x1FF) ∧ base.fb fSHM_OWNER_STATE 0 = false ∧ handing.fb fSHM_OWNER_STATE 0 = true ∧
    (base.reg rSHM_EPOCH 0 0).toNat < 2 ^ 32 - 1 ∧ ((base.setReg rSHM_EPOCH 0 0 0xFFFFFFFF).reg rSHM_EPOCH 0 0).toNat = 2 ^ 32 - 1 ∧
    sheetMapped base 0 = false ∧ sheetMapped (platAt []) 0 = true ∧
    (let w := handing.advance (96 * handing.cyc)
     let u := sampleDue w w.nowCyc
     trising u.ks.seed = true ∧ (u.reg rSHM_EPOCH 0 0).toNat < 2 ^ 32 - 1) := by decide +kernel

/-- ScrubAndDebug: a bank's word in each state, the window on both sides of MAINTENANCE, DRAM that is ready. -/
def eccAt (n : Nat) (ps : List Nat) : State := { base.setF fPLT_CTL_SCRUB 1 with plateEcc := [(bankWord 5 7, n)], poison := ps }
def owned : State := maint0.setF fSHM_OWNER_OWNER 3 0
def dramOn (n : Nat) : State := { (base.setReg rDDR_STATE 0 0 0x00010002).setF fDDR_CTL_SCRUBEN 1 with dramEcc := if n = 0 then [] else [(0, n)] }
theorem witness_scrub : (∀ n ∈ [0, 1, 2], trising (eccAt n []).plateEcc = true ∧ (eccAt n []).fb fPLT_CTL_SCRUB = true ∧
      (eccAt n []).poison.contains (bankWord 5 7) = false ∧ tget 0 (eccAt n []).plateEcc (bankWord 5 7) = n) ∧
    (eccAt 0 [bankWord 5 7]).poison.contains (bankWord 5 7) = true ∧ base.maint = false ∧ owned.maint = true ∧
    domOn (eccAt 0 []) (8 + 5 / 256) = true ∧ pmState base < 2 ∧ quadFailed owned 0 = false ∧ domOn (dramOn 0) 16 = true ∧
    owned.f fSHM_OWNER_OWNER 0 ≠ 0x1FF ∧ sheetHeld owned 0 = false ∧ owned.poison.contains 0 = false ∧
    tget 0 owned.plateEcc 0 = 0 ∧ memWf owned.plate = true ∧
    (∀ n ∈ [0, 1, 2], trising (dramOn n).dramEcc = true ∧ dramReady (dramOn n) = true ∧ (dramOn n).fb fDDR_CTL_SCRUBEN = true ∧
      tget 0 (dramOn n).dramEcc (dramOn n).patrol = n) := by decide +kernel
/-- The Loupe: offered in MAINTENANCE and not in OPERATIONAL, and a section with room in its log and without. -/
def loupeAt (n : Nat) : State := { tenSec { sec0 false 0 with llog := List.replicate n (0, .reg 1 2) } with ks := maint0.ks }
theorem witness_loupe : maint0.lc = 4 ∧ loupeOpen base = false ∧ domOn maint0 19 = true ∧
    (∀ w ∈ [0, 32767], domOn maint0 (8 + bankOf w / 256) = true) ∧ sheetHeld maint0 0 = false ∧
    sheetHeld (maint0.setF fSHM_OWNER_STATE 1 0) 0 = true ∧ vOwner (loupeAt 0) 0 = some 0 ∧
    tySize (2 : BitVec 4).toNat * (15 + 1) ≤ 64 * 2 ^ spanLog (loupeAt 0) 0 ∧ memWf maint0.plate = true ∧
    nextEvent maint0 0 = none ∧ (∀ n ∈ [0, 64], (loupeAt n).lc = 4 ∧ nextEvent (loupeAt n) 0 = none ∧
      ((loupeAt n).ctx 0 0).sec = some { sec0 false 0 with llog := List.replicate n (0, .reg 1 2) }) := by decide +kernel
theorem witness_dram_control : base.fb fDDR_CTL_LOCK = false ∧ (base.setF fDDR_CTL_LOCK 1).fb fDDR_CTL_LOCK = true ∧
    (base.setF fDDR_STATE_STATE 1).f fDDR_STATE_STATE = 1 ∧ base.ddrHot = false := by decide +kernel

/-- KeyService: an advance whose owner is idle, a pair with a next key, open and closed words of the Vault, and a beacon that leaves. -/
def keyAt : State :=
  { (base.setF fKS_VADDR_WORD 0x7000).setReg rKS_BCN 0 0 0x80010000 with
    ks := { KsSt.init with adv := [5] }, keys := [(3, { KeyPair.init with nxt := some (1, [9]) })] }
theorem witness_keys : keyAt.ks.adv.contains (5 : Fin 257).val = true ∧ ownerRuns keyAt 5 = false ∧ trising keyAt.ks.seed = true ∧
    (keyAt.key 3).nxt = some (1, [9]) ∧ -(2 ^ 32) < keyAt.clk.corr ∧ keyAt.ks.wipe = none ∧ memWf keyAt.vault = true ∧
    vaultReadable (8 * keyAt.f fKS_VADDR_WORD) = true ∧ vaultWritable (8 * keyAt.f fKS_VADDR_WORD) = true ∧
    vaultReadable (8 * base.f fKS_VADDR_WORD) = false ∧ vaultWritable (8 * base.f fKS_VADDR_WORD) = false ∧
    keyAt.fb fKS_BCN_EN = true ∧ keyAt.stopped = false ∧ pmState keyAt < 2 ∧ bit (keyAt.f fKS_BCN_PORTS) 0 = true ∧
    bit (keyAt.f fKS_BCN_PORTS) 1 = false := by decide +kernel

/-- Lifecycle: no request and one in check, a target that no edge leads to, a wipe under way, a tamper that is enabled and one that is
not, and Off. -/
def lcReq : State := { base with ks := { KsSt.init with req := some (0, 0, []), wipe := some (5, some 4) } }
def offAt : State := base.setF fPM_STATE_STATE 4
theorem witness_lifecycle : base.ks.pend = none ∧ base.ks.trans = none ∧ lcReq.ks.req = some (0, 0, []) ∧ transitionBy base.lc 0 = none ∧
    lcReq.ks.wipe = some (5, some 4) ∧ lcReq.ks.trans = none ∧ (∀ x, some 4 = some x → x ≤ 5) ∧
    tamperOn base ⟨0, true, 255⟩ = true ∧ tamperOn base ⟨4, true, 255⟩ = false ∧ pmState base ≠ 4 ∧ pmState offAt = 4 ∧
    tamperOn offAt ⟨0, true, 255⟩ = true := by
  refine ⟨by decide +kernel, by decide +kernel, by decide +kernel, by decide +kernel, by decide +kernel, by decide +kernel, ?_,
    by decide +kernel⟩
  intro x h; cases h; decide

/-- DeviceStates: requests at both ends of the target range, an entry before and after the sleep-request cycle, Idle, and wakes. -/
def entryAt (g due : Nat) : State := { base with pm := { PmSt.init with entry := some (g, due) } }
def quiet : State := { base.setF fPM_CTL_IDLEEN 1 with cores := (List.range 32).map fun c => (c, { core0 with waiting := true }) }
def slept (g : Nat) : State := { base.setF fPM_STATE_STATE g with pm := { PmSt.init with pwren := decide (g ≠ 4) } }
theorem witness_states : base.fb fSCH_CTL_EN = false ∧ base.stopped = false ∧ base.pm.entry = none ∧ (∀ g ∈ [2, 3, 4], 2 ≤ g ∧ g ≤ 4 ∧
      (entryAt g 0).pm.entry = some (g, 0) ∧ allWaiting (entryAt g 0) = true ∧ (entryAt g 9).pm.entry = some (g, 9)) ∧
    quiet.fb fPM_CTL_IDLEEN = true ∧ pmState quiet = 0 ∧ quiet.stopped = false ∧ quiet.postq = [] ∧
    (∀ c < 32, coreUp quiet c = true → (quiet.core c).idle = true ∧ (quiet.core c).queue = []) ∧
    bit (base.f fPM_WAKECFG_EN) 0 = true ∧ bit (base.f fPM_WAKECFG_EN) 2 = false ∧ pmState (slept 2) = 2 ∧ pmState (slept 3) = 3 ∧
    pmState (slept 4) = 4 ∧ (slept 4).pm.pwren = false ∧ (slept 3).fb fPM_PLATE_RET_RET = false ∧
    ((slept 3).setF fPM_PLATE_RET_RET 1).fb fPM_PLATE_RET_RET = true := by decide +kernel

/-- PowerDomains: a domain in each STATE, an AUTO domain that may gate, and a ramp before and at its last step. -/
def domAt (d st n : Nat) : State := { base.setF fPM_DOM_STATE st d with pm := { PmSt.init with ramp := [(d, n)] } }
theorem witness_domains : (∀ st ∈ [0, 1, 2, 4], (domAt 19 st 7).f fPM_DOM_STATE 19 = st) ∧ tget 0 (domAt 19 2 7).pm.ramp 19 < 8 ∧
    tget 0 (domAt 19 2 8).pm.ramp 19 = 8 ∧ (base.setF fPM_DOM_AUTO 1 19).fb fPM_DOM_AUTO 19 = true ∧
    pinned (base.setF fPM_DOM_AUTO 1 19) 19 = false ∧ gateable (base.setF fPM_DOM_AUTO 1 19) 19 = true ∧ gateable base 12 = false ∧
    pmState base < 3 ∧ pmState (domAt 19 2 7) < 3 ∧
    (let s := { domAt 15 2 8 with pm := { (domAt 15 2 8).pm with stall := [⟨15, .host, rUB_CTL.base, none⟩] } }
     s.f fPM_DOM_STATE 15 = 2 ∧ tget 0 s.pm.ramp 15 = 8 ∧ s.pm.stall = [⟨15, .host, rUB_CTL.base, none⟩]) := by decide +kernel
/-- BackupCell: each charger phase, and a sample on each side of the recharge and the probe limits. -/
theorem witness_cell : (∀ n ∈ [0, 1, 2, 3, 4], (base.setF fBT_STATE_CHG n).f fBT_STATE_CHG = n ∧ pmState (base.setF fBT_STATE_CHG n) ≠ 4) ∧
    (vcvMv base - 100) + 100 ≤ vcvMv base ∧ vcvMv base < (vcvMv base - 99) + 100 ∧ (1999 : Nat) < 2000 := by decide +kernel

theorem witness_resets : pmState base ≠ 4 ∧ pmState offAt = 4 ∧ base.ks.offTamp = none := by decide +kernel

-- Self-test, Safelight, registers and Ubeolyn ------------------------------------------------------------------------------------------------------------

/-- StartUpTest: the first and the last slice, within their budgets and over them. -/
def bistAt (i : Nat) : State := { State.reset with bist := { BistSt.init with slice := i } }
theorem witness_start_up : (∀ i ∈ [0, 2, 3, 4, 5, 6, 10], (bistAt i).bist.running = true ∧ (bistAt i).stopped = false ∧ pmState (bistAt i) ≠ 4 ∧
      (bistAt i).bist.slice = i ∧ sliceU (bistAt i) i ≤ budgetU (bistAt i) i) ∧
    budgetU ((bistAt 0).setF fBI_BUDGET_US 1 0) 0 < sliceU ((bistAt 0).setF fBI_BUDGET_US 1 0) 0 ∧
    bit (unitBad (bistAt 2) fBI_UNUSABLE_CL) (5 / 4) = false ∧ (bistAt 3).f fPLT_BG_STAT_SPARE_FAIL 1 = 0 ∧
    (bistAt 3).f fPLT_BG_STAT_SPARE_USED 1 = 0 ∧ ((bistAt 3).setF fPLT_BG_STAT_SPARE_USED 1 1).f fPLT_BG_STAT_SPARE_USED 1 = 1 := by
  decide +kernel

/-- OnlineAndDirectTests: a gap, a slice under way, both sides of the lifecycle for a direct test, and eight readings. -/
def gapAt : State :=
  { base.setF fBI_CTL_ONLINE 1 with plan := { PlanSt.init with img := some { image0 with plans := [{ plan0 with gaps := [0] }] }, inslot := true } }
def onAt : State := { base with bist := { BistSt.init with running := false, online := some (.pipe, 3, 0), gapTo := 10 ^ 9 } }
theorem witness_online : gapAt.lc = 3 ∧ gapAt.fb fBI_CTL_ONLINE = true ∧ inGap gapAt = true ∧ gapAt.bist.online = none ∧
    unitFree gapAt .pipe 31 = true ∧ gapAt.stopped = false ∧ gapAt.bist.running = false ∧ onAt.bist.online = some (.pipe, 3, 0) ∧
    domOn gapAt 19 = true ∧ fabricOn gapAt = true ∧ domOn base 19 = true ∧ coreLost onAt (4 * (3 / 4)) = false ∧
    onlineUnit .pipe 3 3 = true ∧ 0 + onlineCyc onAt .pipe 3 * onAt.cyc ≤ onAt.bist.gapTo ∧
    (0 : Nat) < 0 + onlineCyc onAt .pipe 3 * onAt.cyc ∧ maint0.lc = 4 ∧ base.lc = 3 ∧
    bit (0x80000100 : Word).toNat 31 = true ∧ ([1, 9, 9, 0, 0, 0, 0, 0] : List Int)[1]? = some 9 ∧ bit base.bist.sensors 1 = false ∧
    (∀ j < 8, ∀ y ∈ ([1, 9, 9, 0, 0, 0, 0, 0] : List Int)[j]?, y < 9 ∨ y = 9 ∧ 1 ≤ j) := by decide +kernel

/-- StopBath: a watchdog in time, late and too early, and triggers that wait. -/
def kicked (real : Bool) (min : Nat) : State :=
  { (base.setF fSL_WDOG_EN 1).setF fSL_WDOG_MIN min with sl := { SlSt.init with kick := some (0, real) } }
def lateKick : State := { kicked true 0 with clk := { Clock.init with mono := 10 ^ 12 } }
theorem witness_stop : (kicked true 1).sl.kick = some (0, true) ∧ (kicked true 1).fb fSL_WDOG_EN = true ∧ (kicked true 1).stopped = false ∧
    crossed (kicked false 0).now slU 3 < watchdogDue (kicked false 0) 0 ∧ crossed (kicked true 1).now slU 3 < 0 + (kicked true 1).f fSL_WDOG_MIN * 1000000 * nsU ∧
    watchdogDue lateKick 0 ≤ crossed lateKick.now slU 3 ∧ (∀ n ∈ [0, 4], n < 5) ∧ pmState base ≠ 4 ∧
    (∀ c < 32, nextEvent (base.advanceTo (30 * nsU)) c = none) := by decide +kernel

/-- SafeStateFrames: a slot that builds, one that is sent again, a seal that is due, and both sides of the lock. -/
def bath : State := { base.setF fSL_STATE_STOPBATH 1 with sl := { SlSt.init with build := [(0, 5)], due := [(1, 6)], sealAt := some 7 } }
theorem witness_safe_state : tfind bath.sl.build 0 = some 5 ∧ bath.stopped = true ∧ tfind bath.sl.due 1 = some 6 ∧ bath.sl.sealAt = some 7 ∧
    bath.ks.wipe = none ∧ memWf bath.vault = true ∧ memWf bath.slimg = true ∧ bath.fb fSL_CTL_LOCK = false ∧
    (bath.setF fSL_CTL_LOCK 1).fb fSL_CTL_LOCK = true ∧ bath.f fSL_STATE_LOG = 0 ∧ (bath.setF fSL_STATE_LOG 1).f fSL_STATE_LOG ≠ 0 := by
  decide +kernel

/-- RegisterAccess: a plain register, a deferred one on both sides of its lock, the clock, an offset in no block, and the SPI's states. -/
theorem witness_registers : findReg rTU_PPSDLY.base = some (rTU_PPSDLY, 0, 0) ∧ rTU_PPSDLY.base % 4 = 0 ∧ busError base rTU_PPSDLY.base = none ∧
    (regDomain rTU_PPSDLY.base).any (domStalls base) = false ∧ windowOff rTU_PPSDLY.base = false ∧ base.tu.setsec = none ∧
    regDomain rUB_CTL.base = some 15 ∧ busError (domAt 15 1 0) rUB_CTL.base = none ∧ (domAt 15 1 0).f fPM_DOM_STATE 15 = 1 ∧ (specialWrite { base with resp := .data [] } rTU_PPSDLY 0 0 5).isNone = true ∧
    rTU_PPSDLY.defer = false ∧ findReg rSHM_MAP.base = some (rSHM_MAP, 0, 0) ∧ rSHM_MAP.defer = true ∧
    (specialWrite { base with resp := .data [] } rSHM_MAP 0 0 5).isNone = true ∧ regLocked base rSHM_MAP 0 = false ∧
    findReg rTU_NOW_NS.base = some (rTU_NOW_NS, 0, 0) ∧ findReg rMX_WAIT.base = some (rMX_WAIT, 0, 0) ∧ busError base rTU_NOW_NS.base = none ∧
    findReg rEZ_IWIN.base = some (rEZ_IWIN, 0, 0) ∧ rEZ_IWIN.defer = true ∧
    regLocked (base.setF fEZ_CTL_LOCK 1 0) rEZ_IWIN 0 = true ∧ decoded 0x3FFFFFC = false ∧ pmState base ≠ 4 ∧ pmState offAt = 4 := by
  decide +kernel

/-- UbeolynLink and UbeolynPartner: a link that can train, one that is up with a known session, and frames of each type. -/
def linkOff : State := base.setF fUB_CTL_EN 1
def linkOn (u : UbSt) : State := { (base.setF fUB_CTL_EN 1).setF fUB_LINK_UP 1 with ub := { u with peer := some 1 } }
def frameOf (ty : Byte) (vc : Fin 4) (n : Nat) : UbFrame := ⟨ty, true, 0, [1, 2, 3, 4], vc, 0, true, List.replicate n 0⟩
theorem ub_in (s : State) (u : UbFrame) (ty : Nat)
    (h : (s.fb fUB_LINK_UP && decide (pmState s < 2) && u.good && decide (u.ty.toNat = ty) && decide (ubChannel ty = some u.vc.val) &&
      decide (u.payload.length ≤ 2048) && decide (u.payload.length % 8 = 0) && u.enc && s.ub.peer.isSome &&
      decide (u.seq.toNat = tget 0 s.ub.rxSeq u.vc.val) && s.ub.out.isEmpty) = true) : UbIn s u ty := by
  simp only [Bool.and_eq_true, decide_eq_true_eq, List.isEmpty_iff] at h
  obtain ⟨⟨⟨⟨⟨⟨⟨⟨⟨⟨h1, h2⟩, h3⟩, h4⟩, h5⟩, h6⟩, h7⟩, h8⟩, h9⟩, h10⟩, h11⟩ := h
  exact ⟨h1, h2, h3, h4, h5, ⟨h6, h7⟩, fun _ => ⟨h8, by intro e; simp [e] at h9, h10⟩, h11⟩
theorem witness_ub_frames : ∀ x ∈ ([(1, 0, 48), (2, 1, 32), (3, 2, 16), (4, 1, 8), (5, 0, 0), (6, 0, 0), (7, 0, 8), (8, 0, 0), (9, 3, 16),
    (10, 3, 16)] : List (Byte × Fin 4 × Nat)), UbIn (linkOn UbSt.init) (frameOf x.1 x.2.1 x.2.2) x.1.toNat := by
  intro x hx
  apply ub_in
  revert x; decide +kernel
theorem witness_ub_link : linkOff.fb fUB_CTL_EN = true ∧ unitBad linkOff fBI_UNUSABLE_UB = 0 ∧ linkOff.fb fUB_LINK_UP = false ∧ (3 : Fin 4) ≠ 0 ∧
    linkOff.f fPM_DOM_STATE 15 = 0 ∧ pmState linkOff < 2 ∧ (linkOn UbSt.init).fb fUB_LINK_UP = true ∧
    ubActive ((linkOn UbSt.init).setF fUB_LINK_ROLE 1) = true ∧
    (∀ q ∈ [(9 : Nat), 5], ((linkOn { UbSt.init with replay := [⟨2, true, 5, [0, 0, 0, 0], 1, 0, true, []⟩] }).ub.replay.any fun f =>
      f.vc.val == 1 && f.seq.toNat == q) = decide (q = 5) ∧ q ≠ tget 0 (linkOn UbSt.init).ub.txSeq 1) ∧
    (linkOn { UbSt.init with owed := [(1, 300)] }).ub.out = [] ∧ trising (linkOn { UbSt.init with owed := [(1, 300)] }).ub.owed = true ∧
    tget 0 (linkOn { UbSt.init with owed := [(1, 300)] }).ub.owed 1 ≠ 0 := by decide +kernel
def asking : State := linkOn { UbSt.init with take := some 0 }
def lentAct : Act := { act0 with budget := 1000, trig := 2000000003 }
def lentAt : State := (linkOn { UbSt.init with lent := [lentAct] }).setF fDLM_CTL_EN 1
def lentBytes : List Byte := (List.range 4).flatMap fun i => beBytes 4 (actWord lentAct i).toNat
theorem witness_ub_partner : standby (linkOn UbSt.init) = true ∧ (linkOn UbSt.init).ub.take = none ∧ pmState (linkOn UbSt.init) < 2 ∧
    asking.ub.take = some 0 ∧ standby asking = true ∧ ubActive asking = false ∧ asking.now < 0 + ubPeriodU asking ∧
    asking.now ≤ 0 + takeWaitU asking ∧
    (let s := linkOn { UbSt.init with ckpt := [(0, 0, List.replicate 8 0)] }
     standby s = true ∧ ctxBusy s 0 0 = false ∧ 0 + 8 ≤ 16384 ∧ keyless s = false ∧ memWf s.tray = true) ∧
    takeOut (sameAct lentBytes) lentAt.ub.lent = some (lentAct, []) ∧ lentAt.fb fDLM_CTL_EN = true ∧ lentAt.stopped = false ∧
    lentAt.now + (lentAt.dl 0).e ≤ lentAct.deadline := by decide +kernel

/-- PinsAlwaysFollow: reset meets the premise, and a step from it answers a next state. -/
theorem witness_pins : PinsFollow State.reset ∧ (match step State.reset with | .next _ => true | _ => false) = true := by
  refine ⟨?_, by decide +kernel⟩
  unfold PinsFollow; decide +kernel
/-- StepRunsTheCommand: a queue with a command, and an empty one. -/
theorem witness_step : ({ base with pending := [.nop 0] } : State).pending = [.nop 0] ∧ base.pending = [] := by decide +kernel

end Sys2Proof.Tests
end

section
/-! PROOFS. Register access over BAR0 and the management SPI (R7–R9, R389, R413, R451): what each kind of access does, and
the statement RegisterAccess assembled from it. -/

namespace Sys2Proof.Machine
open Sys2Proof

-- Outcomes and fields ---------------------------------------------------------------------------------------------------------

/-- A command that ends in `done` completes with what the settled state satisfies. -/
theorem completes_done {s : State} {P : State → Prop} (h : P (settle s)) : Completes (done s) P := ⟨settle s, rfl, h⟩

/-- A value that fits reads back from the field it was put into. -/
theorem bits_ins_fits (r : Reg) {hi lo : Nat} (w : Word) {x : Nat} (hl : lo ≤ hi) (hh : hi < 32) (hx : x < 2 ^ (hi - lo + 1)) :
    bits (Field.ins ⟨r, hi, lo⟩ w x).toNat lo (hi - lo + 1) = x := by
  have h := bits_ins ⟨r, hi, lo⟩ w x (by simp only [Field.w]; omega)
  exact h.trans (Nat.mod_eq_of_lt hx)

/-- A word with the fields of `fs` that satisfy `p` replaced by what `val` gives for each. -/
def insFields (r : Reg) (p : Fld → Bool) (val : Fld → Nat) (fs : List Fld) (w : Word) : Word :=
  fs.foldl (fun w f => if p f then Field.ins ⟨r, f.hi, f.lo⟩ w (val f) else w) w

theorem insFields_cons (r : Reg) (p : Fld → Bool) (val : Fld → Nat) (f : Fld) (fs : List Fld) (w : Word) :
    insFields r p val (f :: fs) w = insFields r p val fs (if p f then Field.ins ⟨r, f.hi, f.lo⟩ w (val f) else w) := rfl

theorem insFields_none (r : Reg) {p : Fld → Bool} (val : Fld → Nat) {fs : List Fld} (w : Word) (h : ∀ f ∈ fs, p f = false) :
    insFields r p val fs w = w := by
  induction fs with
  | nil => rfl
  | cons f fs ih =>
    obtain ⟨hf, hfs⟩ := List.forall_mem_cons.mp h
    simpa [insFields_cons, hf] using ih hfs

/-- Bits that no field of the list covers keep their values. -/
theorem bits_insFields_other (r : Reg) (p : Fld → Bool) (val : Fld → Nat) {fs : List Fld} (w : Word) {lo n : Nat}
    (hok : ∀ f ∈ fs, f.lo ≤ f.hi ∧ f.hi < 32) (hne : ∀ f ∈ fs, lo + n ≤ f.lo ∨ f.hi < lo) :
    bits (insFields r p val fs w).toNat lo n = bits w.toNat lo n := by
  induction fs generalizing w with
  | nil => rfl
  | cons f fs ih =>
    obtain ⟨⟨hl, hh⟩, hok⟩ := List.forall_mem_cons.mp hok
    obtain ⟨hf, hne⟩ := List.forall_mem_cons.mp hne
    rw [insFields_cons, ih _ hok hne]
    cases p f with
    | true => exact bits_ins_other ⟨r, f.hi, f.lo⟩ w _ lo n hl hh hf
    | false => rfl

/-- A field of a list of disjoint fields holds its new value where it is replaced, and its old one elsewhere. -/
theorem bits_insFields (r : Reg) (p : Fld → Bool) (val : Fld → Nat) {fs : List Fld} (w : Word)
    (hok : ∀ f ∈ fs, f.lo ≤ f.hi ∧ f.hi < 32) (hdis : fs.Pairwise fun f g => f.hi < g.lo ∨ g.hi < f.lo)
    (hval : ∀ f ∈ fs, val f < 2 ^ (f.hi - f.lo + 1)) {f : Fld} (hf : f ∈ fs) :
    bits (insFields r p val fs w).toNat f.lo (f.hi - f.lo + 1) =
      if p f then val f else bits w.toNat f.lo (f.hi - f.lo + 1) := by
  induction fs generalizing w with
  | nil => simp at hf
  | cons g fs ih =>
    obtain ⟨hg, hdis'⟩ := List.pairwise_cons.mp hdis
    obtain ⟨⟨hl, hh⟩, hok'⟩ := List.forall_mem_cons.mp hok
    obtain ⟨hv, hval'⟩ := List.forall_mem_cons.mp hval
    rw [insFields_cons]
    rcases List.mem_cons.mp hf with rfl | hf
    · have hafter : ∀ g ∈ fs, f.lo + (f.hi - f.lo + 1) ≤ g.lo ∨ g.hi < f.lo := fun g hm => by
        rcases hg g hm with h | h <;> omega
      rw [bits_insFields_other r p val _ hok' hafter]
      cases p f with
      | true => exact bits_ins_fits r w hl hh hv
      | false => rfl
    · have hlf := (hok' f hf).1
      have hbefore : f.lo + (f.hi - f.lo + 1) ≤ g.lo ∨ g.hi < f.lo := by
        rcases hg f hf with h | h <;> omega
      rw [ih _ hok' hdis' hval' hf]
      cases p g with
      | true => simp only [if_true, bits_ins_other ⟨r, g.hi, g.lo⟩ w _ _ _ hl hh hbefore]
      | false => rfl

theorem OnlySignals.resp {s t : State} (h : OnlySignals s t) : t.resp = s.resp := by
  unfold OnlySignals at h
  rw [← h]

theorem OnlySignals.eff {s t : State} (h : OnlySignals s t) : t.eff = s.eff := by
  unfold OnlySignals at h
  rw [← h]

theorem OnlySignals.plate {s t : State} (h : OnlySignals s t) : t.plate = s.plate := by
  unfold OnlySignals at h
  rw [← h]

/-- A flag that hardware sets reads 1, where it is one bit and neither its counter nor a notice writes its register. -/
theorem flagged_raise (s : State) (k : Flag) (i j : Nat) (hb : k.f.hi = k.f.lo) (hw : k.f.lo < 32)
    (hc : ∀ c, k.cnt = some c → k.f.reg.key i j ≠ c.reg.key i j) (hs : ¬sideKey (k.f.reg.key i j)) :
    Flagged (raise s k i j) k i j := by
  have hon : (flagOn s k i j).f k.f i j = 1 := by
    have h1 : ∀ x : State, (x.setF k.f 1 i j).f k.f i j = 1 := fun x => by
      rw [f_setF_self x k.f 1 i j (by simp only [Field.w]; omega)]
      simp [Field.w, hb]
    unfold flagOn
    cases hk : k.cnt with
    | none => exact h1 _
    | some c => exact (f_setF_ne (noteSet ((noteSet s _ _).setF k.f 1 i j) _ _) k.f c _ i j i j (hc c hk)).trans (h1 _)
  have keep : ∀ t : State, tfind t.regs (k.f.reg.key i j) = tfind (flagOn s k i j).regs (k.f.reg.key i j) →
      Flagged t k i j := fun t h => by
    simpa only [Flagged, State.f, State.reg, h] using hon
  apply keep
  unfold raise
  cases k.src with
  | dev n =>
    dsimp only
    split
    · rw [notice, regs_postRec _ _ _ hs, regs_devSet _ _ _ hs]
    · exact regs_devSet _ _ _ hs
  | port => exact regs_devSet _ _ _ hs
  | lane => exact regs_devSet _ _ _ hs
  | core n => exact congrArg (tfind · _) (regs_countSet _ _ _)
  | none => exact regs_postRec _ _ _ hs

theorem flagged_raise_decerr (s : State) : Flagged (raise s kMX_STAT_DECERR) kMX_STAT_DECERR := by
  refine flagged_raise s kMX_STAT_DECERR 0 0 rfl (by decide) (fun c hc => ?_) ?_
  · obtain rfl : fMX_SETCNT_DECERR_N = c := Option.some.inj hc
    decide
  · rintro (⟨i, hi, h⟩ | h | h | ⟨c, hc, h⟩)
    · simp [Reg.key, kMX_STAT_DECERR, fMX_STAT_DECERR, rMX_STAT, rMSIX_PBA] at h
      omega
    · exact absurd h (by decide)
    · exact absurd h (by decide)
    · obtain rfl : fCS_SETCNT_EVLOST_N = c := Option.some.inj hc
      exact absurd h (by decide)

-- How an access reaches its register (R389, R451) --------------------------------------------------------------------------------

/-- Reaching a domain notes its use, and changes nothing else. -/
theorem reached_eq (s : State) (o : Nat) : ∃ p, reached s o = { s with pm := p } := by
  unfold reached
  cases regDomain o with
  | none => exact ⟨s.pm, rfl⟩
  | some d =>
    dsimp only [domUsed]
    split
    · exact ⟨_, rfl⟩
    · exact ⟨s.pm, rfl⟩

/-- The state in which a write to a register at offset `o` takes place: it has been answered. -/
def writing (s : State) (o : Nat) : State := { reached s o with resp := .data [] }

@[simp] theorem writing_regs (s : State) (o : Nat) : (writing s o).regs = s.regs := by
  obtain ⟨p, hp⟩ := reached_eq s o
  simp [writing, hp]

@[simp] theorem writing_eff (s : State) (o : Nat) : (writing s o).eff = s.eff := by
  obtain ⟨p, hp⟩ := reached_eq s o
  simp [writing, hp]

@[simp] theorem writing_newRegs (s : State) (o : Nat) : (writing s o).newRegs = s.newRegs := by
  obtain ⟨p, hp⟩ := reached_eq s o
  simp [writing, hp]

@[simp] theorem writing_plate (s : State) (o : Nat) : (writing s o).plate = s.plate := by
  obtain ⟨p, hp⟩ := reached_eq s o
  simp [writing, hp]

/-- An aligned access to offset `o` reaches element (i, j) of register `r`: the bus answers no error, its domain is on, and no
window of the Contact sheet lies there. -/
structure Reaches (s : State) (o : Nat) (r : Reg) (i j : Nat) : Prop where
  aligned : o % 4 = 0
  noError : busError s o = none
  on      : (regDomain o).any (domStalls s) = false
  noWin   : windowOff o = false
  found   : findReg o = some (r, i, j)

section
variable {s : State} {o : Nat} {r : Reg} {i j : Nat}

theorem Reaches.busRead (h : Reaches s o r i j) (rdr : Reader) : busRead s rdr o = readReg (reached s o) rdr r i j := by
  simp [Machine.busRead, busReach, h.noError, h.on, h.noWin, h.found]

theorem Reaches.busWrite (h : Reaches s o r i j) {v : Word}
    (hv : specialWrite (writing s o) r i j v = none) :
    busWrite s o v = plainWrite (writing s o) r i j v := by
  have hw : Machine.busWrite s o v = (specialWrite (writing s o) r i j v).getD (plainWrite (writing s o) r i j v) := by
    simp [Machine.busWrite, busReach, writing, h.noError, h.on, h.noWin, h.found]
  rw [hw, hv, Option.getD_none]

end

/-- An access to a gated domain starts its ramp, counts its wake and stalls. -/
theorem busReach_gated {s : State} {o d : Nat} (hd : regDomain o = some d) (hg : s.f fPM_DOM_STATE d = 1) (act : State → State) :
    busReach s o act = { (startRamp s d).bump fPM_DWAKE_CNT_CNT d with resp := .stalled } := by
  have hs : domStalls s d = true := by simp [domStalls, hg]
  simp [busReach, hd, hs, demandWake, hg, raiseIf]

/-- What an access to a gated domain leaves: it waits, last of those that wait, and its domain ramps (R389, R391). -/
theorem gated_access {s : State} {o d : Nat} (hd : regDomain o = some d) (hg : s.f fPM_DOM_STATE d = 1) (rdr : Reader)
    (x : Option Word) (act : State → State) :
    Completes (done (stallFor rdr o x (busReach s o act))) (fun t => t.resp = .stalled ∧ t.f fPM_DOM_STATE d = 2 ∧
      Counted s t fPM_DWAKE_CNT_CNT d ∧ t.pm.stall = s.pm.stall ++ [⟨d, rdr, o, x⟩]) := by
  have hk : fPM_DWAKE_CNT_CNT.reg.key d 0 ≠ fPM_DOM_STATE.reg.key d 0 := by
    simp only [Reg.key, fPM_DWAKE_CNT_CNT, fPM_DOM_STATE, rPM_DWAKE_CNT, rPM_DOM]
    omega
  have hdom : ((startRamp s d).bump fPM_DWAKE_CNT_CNT d).f fPM_DOM_STATE d = 2 :=
    (f_setF_ne _ _ _ _ _ _ _ _ hk.symm).trans (f_setF_self s fPM_DOM_STATE 2 d 0 (by decide))
  have hcnt : Counted s ((startRamp s d).bump fPM_DWAKE_CNT_CNT d) fPM_DWAKE_CNT_CNT d := by
    have hf : (startRamp s d).f fPM_DWAKE_CNT_CNT d = s.f fPM_DWAKE_CNT_CNT d := f_setF_ne s _ _ _ _ _ _ _ hk
    unfold Counted State.bump
    rw [f_setF_self _ _ _ _ _ (by decide), hf]
    exact Nat.mod_eq_of_lt (Nat.lt_of_le_of_lt (Nat.min_le_right _ _) (by decide))
  have hw : ((regDomain o).getD 0) = d := by rw [hd]; rfl
  rw [busReach_gated hd hg, stallFor, hw]
  exact completes_done ⟨rfl, hdom, hcnt, rfl⟩

-- The commands of an access -----------------------------------------------------------------------------------------------------

theorem wordAccess_iff (o size : Nat) : wordAccess o size = true ↔ size = 4 ∧ o % 4 = 0 := by simp [wordAccess]

theorem stallFor_answered {s : State} (rdr : Reader) (o : Nat) (x : Option Word) (h : s.resp ≠ .stalled) :
    stallFor rdr o x s = s := by
  simp [stallFor, h]

section
variable {off : BitVec 26} (h : off.toNat % 4 = 0)
include h

theorem exec_registerWrite_aligned (rdr : Reader) (v : Word) (s : State) :
    exec (.registerWrite rdr off v) s = done (stallFor rdr off.toNat (some v) (busWrite s off.toNat v)) :=
  congrArg done (if_pos ((wordAccess_iff _ _).mpr ⟨rfl, h⟩))

theorem exec_rcRead_aligned (rdr : Reader) (s : State) :
    exec (.rcRead rdr off) s = done (stallFor rdr off.toNat none (busRead s rdr off.toNat)) :=
  congrArg done (if_pos ((wordAccess_iff _ _).mpr ⟨rfl, h⟩))

theorem gated_registerWrite {s : State} {d : Nat} (he : busError s off.toNat = none) (hd : regDomain off.toNat = some d)
    (hg : s.f fPM_DOM_STATE d = 1) (rdr : Reader) (v : Word) :
    Completes (exec (.registerWrite rdr off v) s) (fun t => t.resp = .stalled ∧ t.f fPM_DOM_STATE d = 2 ∧
      Counted s t fPM_DWAKE_CNT_CNT d ∧ t.pm.stall = s.pm.stall ++ [⟨d, rdr, off.toNat, some v⟩]) := by
  rw [exec_registerWrite_aligned h, busWrite, he]
  exact gated_access hd hg rdr (some v) _

theorem gated_rcRead {s : State} {d : Nat} (he : busError s off.toNat = none) (hd : regDomain off.toNat = some d)
    (hg : s.f fPM_DOM_STATE d = 1) (rdr : Reader) :
    Completes (exec (.rcRead rdr off) s) (fun t => t.resp = .stalled ∧ t.f fPM_DOM_STATE d = 2 ∧
      Counted s t fPM_DWAKE_CNT_CNT d ∧ t.pm.stall = s.pm.stall ++ [⟨d, rdr, off.toNat, none⟩]) := by
  rw [exec_rcRead_aligned h, busRead, he]
  exact gated_access hd hg rdr none _

end

-- Writes (R7, R8, R36, R195, R204) -------------------------------------------------------------------------------------------------

/-- The word that a write of `v` by the access codes alone leaves in element (i, j) of a register. -/
def plainWord (s : State) (r : Reg) (i j : Nat) (v : Word) : Word :=
  writtenWord (regLocked s r i) r.flds (s.reg r i j) (v &&& ~~~w32 (setBits s r i j))

/-- A write that does not wait stores its word, and may withdraw an interrupt source at the cores. -/
theorem plainWrite_now {s : State} {r : Reg} (hd : r.defer = false) (i j : Nat) (v : Word) :
    ∃ cs, plainWrite s r i j v = { s.setReg r i j (plainWord s r i j v) with cores := cs } := by
  unfold plainWrite
  rw [hd]
  dsimp only
  cases statusSource r i with
  | none => exact ⟨s.cores, rfl⟩
  | some n => exact ⟨_, rfl⟩

theorem plainWrite_deferred {s : State} {r : Reg} {i : Nat} (hd : r.defer = true) (hl : regLocked s r i = false) (j : Nat) (v : Word) :
    plainWrite s r i j v = deferWrite s r i j (plainWord s r i j v) := by
  simp [plainWrite, plainWord, hd, hl]

theorem plainWrite_locked {s : State} {r : Reg} {i : Nat} (hd : r.defer = true) (hl : regLocked s r i = true) (j : Nat) (v : Word) :
    plainWrite s r i j v = s := by
  simp [plainWrite, hd, hl]

/-- A write that waits reads back at once, is noted for the boundary, and leaves the value in effect; the digests that cover
it may turn unfinished. -/
theorem deferWrite_spec (s : State) (r : Reg) (i j : Nat) (w : Word) :
    let t := deferWrite s r i j w
    t.resp = s.resp ∧ t.eff = s.eff ∧ r.key i j ∈ t.newRegs ∧ (r.key i j ≠ rKS_PSTAT.key 0 0 → t.reg r i j = w) := by
  intro t
  have ht : t = deferWrite s r i j w := rfl
  unfold deferWrite at ht
  dsimp only at ht
  split at ht
  · rw [ht]
    exact ⟨rfl, rfl, by simp, fun _ => reg_setReg_self s r i j w⟩
  · rw [ht]
    exact ⟨rfl, rfl, by simp [digestBusy], fun hk => (reg_setF_ne _ r fKS_PSTAT_BUSY 1 0 0 i j hk).trans (reg_setReg_self s r i j w)⟩

section
variable {s : State} {off : BitVec 26} {r : Reg} {i j : Nat} {v : Word}
variable (h : Reaches s off.toNat r i j) (hv : specialWrite (writing s off.toNat) r i j v = none)
include h hv

theorem exec_registerWrite_plain (rdr : Reader) (ha : (plainWrite (writing s off.toNat) r i j v).resp = .data []) :
    exec (.registerWrite rdr off v) s = done (plainWrite (writing s off.toNat) r i j v) := by
  rw [exec_registerWrite_aligned h.aligned, h.busWrite hv, stallFor_answered _ _ _ (by simp [ha])]

theorem registerWrite_now (hd : r.defer = false) (rdr : Reader) :
    Completes (exec (.registerWrite rdr off v) s) (fun t => t.resp = .data [] ∧
      t.reg r i j = plainWord (writing s off.toNat) r i j v ∧
      (∀ n, n ≠ r.key i j → tfind t.regs n = tfind s.regs n) ∧ t.eff = s.eff ∧ t.plate = s.plate) := by
  obtain ⟨cs, hw⟩ := plainWrite_now (s := writing s off.toNat) hd i j v
  rw [exec_registerWrite_plain h hv rdr (by rw [hw]; rfl), hw]
  refine completes_done ⟨rfl, reg_setReg_self _ r i j _, fun n hn => ?_, ?_, ?_⟩
  · exact (tfind_tput_ne _ _ hn).trans (by rw [writing_regs])
  · exact writing_eff s _
  · exact writing_plate s _

theorem registerWrite_deferred (hd : r.defer = true) (hl : regLocked (writing s off.toNat) r i = false) (rdr : Reader) :
    Completes (exec (.registerWrite rdr off v) s) (fun t => t.resp = .data [] ∧ t.eff = s.eff ∧ r.key i j ∈ t.newRegs ∧
      (r.key i j ≠ rKS_PSTAT.key 0 0 → t.reg r i j = plainWord (writing s off.toNat) r i j v)) := by
  obtain ⟨hresp, heff, hnew, hreg⟩ := deferWrite_spec (writing s off.toNat) r i j (plainWord (writing s off.toNat) r i j v)
  have hw := plainWrite_deferred hd hl j v
  rw [exec_registerWrite_plain h hv rdr (by rw [hw]; exact hresp), hw]
  exact completes_done ⟨hresp, heff.trans (writing_eff s _), hnew, hreg⟩

theorem registerWrite_locked (hd : r.defer = true) (hl : regLocked (writing s off.toNat) r i = true) (rdr : Reader) :
    Completes (exec (.registerWrite rdr off v) s) (fun t => t.resp = .data [] ∧ t.regs = s.regs ∧ t.newRegs = s.newRegs) := by
  have hw := plainWrite_locked hd hl j v
  rw [exec_registerWrite_plain h hv rdr (by rw [hw]; rfl), hw]
  exact completes_done ⟨rfl, writing_regs s _, writing_newRegs s _⟩

end

/-- A write that reaches a register without effects of its own leaves each field as its access code says: at once, from the next
boundary on, or not at all while a deferred register is locked. In the statement RegisterAccess this clause stands in front of an
arrow, so that it is a premise there; here it is proved. -/
theorem registerWrite_follows_codes {s : State} {off : BitVec 26} {r : Reg} {i j : Nat} (h : Reaches s off.toNat r i j)
    (rdr : Reader) (v : Word) :
    let u := reached s off.toNat
    specialWrite { u with resp := .data [] } r i j v = none →
      let w := writtenWord (regLocked u r i) r.flds (u.reg r i j) (v &&& ~~~w32 (setBits u r i j))
      (r.defer = false → Completes (exec (.registerWrite rdr off v) s) (fun t => t.resp = .data [] ∧ t.reg r i j = w ∧
        (∀ n, n ≠ r.key i j → tfind t.regs n = tfind s.regs n) ∧ t.eff = s.eff ∧ t.plate = s.plate)) ∧
      (r.defer = true → regLocked u r i = false → Completes (exec (.registerWrite rdr off v) s) (fun t =>
        t.resp = .data [] ∧ t.eff = s.eff ∧ r.key i j ∈ t.newRegs ∧ (r.key i j ≠ rKS_PSTAT.key 0 0 → t.reg r i j = w))) ∧
      (r.defer = true → regLocked u r i = true → Completes (exec (.registerWrite rdr off v) s) (fun t =>
        t.resp = .data [] ∧ t.regs = s.regs ∧ t.newRegs = s.newRegs)) :=
  fun hv => ⟨fun hd => registerWrite_now h hv hd rdr, fun hd hl => registerWrite_deferred h hv hd hl rdr,
    fun hd hl => registerWrite_locked h hv hd hl rdr⟩

/-- PM_WAKECFG is reached right after reset, while start-up BIST runs. -/
theorem reaches_wakecfg_at_reset : Reaches State.reset (BitVec.ofNat 26 rPM_WAKECFG.base).toNat rPM_WAKECFG 0 0 where
  aligned := by decide
  noError := Option.isNone_iff_eq_none.mp (by decide +kernel)
  on      := by decide +kernel
  noWin   := by decide
  found   := by decide +kernel

/-- A write of PM_WAKECFG right after reset lands. -/
theorem registerWrite_wakecfg_at_reset :
    Completes (exec (.registerWrite .host (BitVec.ofNat 26 rPM_WAKECFG.base) 5) State.reset) (fun t =>
      t.resp = .data [] ∧ t.reg rPM_WAKECFG 0 0 = 5) := by
  have hv : specialWrite (writing State.reset (BitVec.ofNat 26 rPM_WAKECFG.base).toNat) rPM_WAKECFG 0 0 5 = none :=
    Option.isNone_iff_eq_none.mp (by decide +kernel)
  obtain ⟨t, ht, hresp, hreg, -⟩ := (registerWrite_follows_codes reaches_wakecfg_at_reset .host 5 hv).1 rfl
  exact ⟨t, ht, hresp, hreg.trans (by decide +kernel)⟩

-- Reads (R7, R205, R304, R381) -----------------------------------------------------------------------------------------------------

/-- A seconds value whose boundary has not come waits on (R318). -/
theorem applySetsec_waits {s : State} (h : ∀ v b, s.tu.setsec = some (v, b) → s.tai < b) : applySetsec s = s := by
  unfold applySetsec
  cases hs : s.tu.setsec with
  | none => rfl
  | some x =>
    obtain ⟨v, b⟩ := x
    exact if_neg (Nat.not_le.mpr (h v b hs))

/-- What a read leaves in an RC field fits the field. -/
theorem rcLeft_lt (s : State) (r : Reg) (i j : Nat) (f : Fld) : rcLeft s r i j f < 2 ^ (f.hi - f.lo + 1) := by
  have h1 : 1 < 2 ^ (f.hi - f.lo + 1) := Nat.one_lt_two_pow (by omega)
  have hb := bits_lt (s.reg r i j).toNat f.lo (f.hi - f.lo + 1)
  unfold rcLeft
  split <;> omega

/-- Clearing RC fields leaves the answer and the Plate alone. -/
theorem clearRc_frame (s : State) (r : Reg) (i j : Nat) :
    (clearRc s r i j).resp = s.resp ∧ (clearRc s r i j).plate = s.plate := by
  unfold clearRc
  split <;> exact ⟨rfl, rfl⟩

theorem clearRc_none {s : State} {r : Reg} (h : ∀ f ∈ r.flds, f.acc ≠ .rc) (i j : Nat) : clearRc s r i j = s := by
  have : (r.flds.any fun f => f.acc == .rc) = false := by simpa using h
  simp [clearRc, this]

/-- What clearing leaves in the register, with or without RC fields. -/
theorem reg_clearRc (s : State) (r : Reg) (i j : Nat) :
    (clearRc s r i j).reg r i j = insFields r (fun f => f.acc == .rc) (rcLeft s r i j) r.flds (s.reg r i j) := by
  unfold clearRc
  split
  · exact reg_setReg_self s r i j _
  · rename_i h
    exact (insFields_none r _ _ (by simpa using h)).symm

/-- A latched time of day answers, and leaves the registers alone. -/
theorem setLatch_answer (s : State) (rdr : Reader) (v : Word) (n : Nat) :
    (setLatch (answer s v) rdr n).resp = .data (leBytes 4 v.toNat) ∧ timeLatch (setLatch (answer s v) rdr n) rdr = n ∧
      (setLatch (answer s v) rdr n).regs = s.regs := by
  cases rdr <;> exact ⟨rfl, rfl, rfl⟩

section
variable {s : State} (h : ∀ v b, s.tu.setsec = some (v, b) → s.tai < b)
include h

theorem readReg_nowNs (rdr : Reader) {r : Reg} (hr : r.base = rTU_NOW_NS.base) (i j : Nat) :
    readReg s rdr r i j = setLatch (answer s (w32 (taiNs s.tai))) rdr (taiSec s.tai) := by
  simp [readReg, hr, applySetsec_waits h]

theorem readReg_plain (rdr : Reader) {r : Reg}
    (hr : r.base ∉ [rTU_NOW_NS.base, rTU_NOW_SLO.base, rTU_NOW_SHI.base, rKS_VDATA.base, rMX_WAIT.base]) (i j : Nat) :
    readReg s rdr r i j = clearRc (answer s (readView s r i j)) r i j := by
  simp only [List.mem_cons, List.not_mem_nil, or_false, not_or] at hr
  obtain ⟨hns, hslo, hshi, hvault, hwait⟩ := hr
  simp only [readReg, applySetsec_waits h, ite_self, if_neg hns, if_neg hslo, if_neg hshi, if_neg hvault, if_neg hwait]

end

/-- A read of an arbiter's greatest age answers an open value of ten bits, and 0 where no time has passed. -/
theorem readReg_wait (s : State) (rdr : Reader) {r : Reg} (hr : r.base = rMX_WAIT.base) (i j : Nat) :
    ∃ m f, ∃ n < 1024, (s.now ≤ tget 0 s.mxRead i → n = 0) ∧
      readReg s rdr r i j = { s with mxRead := m, fresh := f, resp := .data (leBytes 4 n) } := by
  by_cases hw : s.now ≤ tget 0 s.mxRead i
  · refine ⟨tput s.mxRead i s.now, s.fresh, 0, by omega, fun _ => rfl, ?_⟩
    simp [readReg, hr, hw, answer, rMX_WAIT, rTU_NOW_NS, rTU_NOW_SLO, rTU_NOW_SHI, rKS_VDATA]
  · refine ⟨tput s.mxRead i s.now, s.fresh + 1, (Config.freeValue s.fresh).toNat % 1024, by omega, fun h => absurd h hw, ?_⟩
    have hn : (w32 ((Config.freeValue s.fresh).toNat % 1024)).toNat = (Config.freeValue s.fresh).toNat % 1024 := by
      simp only [w32, BitVec.toNat_ofNat]
      omega
    simp [readReg, hr, hw, hn, answer, rMX_WAIT, rTU_NOW_NS, rTU_NOW_SLO, rTU_NOW_SHI, rKS_VDATA, State.draw]

section
variable {s : State} {off : BitVec 26} {r : Reg} {i j : Nat}
variable (h : Reaches s off.toNat r i j)
include h

theorem exec_rcRead_register {rdr : Reader} (ha : (readReg (reached s off.toNat) rdr r i j).resp ≠ .stalled) :
    exec (.rcRead rdr off) s = done (readReg (reached s off.toNat) rdr r i j) := by
  rw [exec_rcRead_aligned h.aligned, h.busRead, stallFor_answered _ _ _ ha]

theorem rcRead_wait (hr : r.base = rMX_WAIT.base) (rdr : Reader) :
    Completes (exec (.rcRead rdr off) s) (fun t => t.regs = s.regs ∧
      (s.now ≤ tget 0 s.mxRead i → t.resp = .data (leBytes 4 0)) ∧ ∃ n < 1024, t.resp = .data (leBytes 4 n)) := by
  obtain ⟨p, hp⟩ := reached_eq s off.toNat
  obtain ⟨m, f, n, hn, hzero, hread⟩ := readReg_wait (reached s off.toNat) rdr hr i j
  rw [exec_rcRead_register h (by simp [hread]), hread]
  rw [hp] at hzero ⊢
  exact completes_done ⟨rfl, fun hw => congrArg (fun n => Resp.data (leBytes 4 n)) (hzero hw), n, hn, rfl⟩

variable (hset : ∀ v b, s.tu.setsec = some (v, b) → s.tai < b)
include hset

theorem rcRead_nowNs (hr : r.base = rTU_NOW_NS.base) (rdr : Reader) :
    Completes (exec (.rcRead rdr off) s) (fun t =>
      t.resp = .data (leBytes 4 (taiNs s.tai)) ∧ timeLatch t rdr = taiSec s.tai ∧ t.regs = s.regs) := by
  obtain ⟨p, hp⟩ := reached_eq s off.toNat
  have hread := readReg_nowNs (s := { s with pm := p }) hset rdr hr i j
  have hns : (w32 (taiNs s.tai)).toNat = taiNs s.tai := by
    simp only [w32, BitVec.toNat_ofNat, taiNs]
    omega
  obtain ⟨hresp, hlatch, hregs⟩ := setLatch_answer { s with pm := p } rdr (w32 (taiNs s.tai)) (taiSec s.tai)
  rw [hns] at hresp
  have he : (readReg (reached s off.toNat) rdr r i j).resp = .data (leBytes 4 (taiNs s.tai)) := by
    rw [hp, hread]
    exact hresp
  rw [exec_rcRead_register h (by rw [he]; exact Resp.noConfusion), hp, hread]
  exact completes_done ⟨hresp, hlatch, hregs⟩

theorem rcRead_plain (hr : r.base ∉ [rTU_NOW_NS.base, rTU_NOW_SLO.base, rTU_NOW_SHI.base, rKS_VDATA.base, rMX_WAIT.base])
    (rdr : Reader) :
    Completes (exec (.rcRead rdr off) s) (fun t => t.resp = .data (leBytes 4 (readView (reached s off.toNat) r i j).toNat) ∧
      ((∀ f ∈ r.flds, f.acc ≠ .rc) → t.regs = s.regs) ∧ t.plate = s.plate ∧
      ((∀ f ∈ r.flds, f.lo ≤ f.hi ∧ f.hi < 32) → r.flds.Pairwise (fun f g => f.hi < g.lo ∨ g.hi < f.lo) →
        ∀ f ∈ r.flds, bits (t.reg r i j).toNat f.lo (f.hi - f.lo + 1) =
          if f.acc = .rc then rcLeft (reached s off.toNat) r i j f else bits (s.reg r i j).toNat f.lo (f.hi - f.lo + 1))) := by
  obtain ⟨p, hp⟩ := reached_eq s off.toNat
  rw [hp]
  have hread := readReg_plain (s := { s with pm := p }) hset rdr hr i j
  obtain ⟨hresp, hplate⟩ := clearRc_frame (answer { s with pm := p } (readView { s with pm := p } r i j)) r i j
  rw [exec_rcRead_register h (by rw [hp, hread, hresp]; exact nofun), hp, hread]
  refine completes_done ⟨hresp, fun hn => ?_, hplate, fun hok hdis f hf => ?_⟩
  · rw [clearRc_none hn]
    rfl
  · have hreg := reg_clearRc (answer { s with pm := p } (readView { s with pm := p } r i j)) r i j
    refine (congrArg (fun w => bits (BitVec.toNat w) f.lo (f.hi - f.lo + 1)) hreg).trans ?_
    rw [bits_insFields r _ _ _ hok hdis (fun g _ => rcLeft_lt _ r i j g) hf]
    simp only [beq_iff_eq]
    rfl

end

-- Access codes (R7) ---------------------------------------------------------------------------------------------------------------

/-- What a write of `x` leaves in a field of `n` bits that held `was`, under the field's access code. -/
theorem bits_writtenWord_field (lk : Bool) {hi lo : Nat} (rst : Nat) (a : Acc) (old v : Word) (hl : lo ≤ hi) (hh : hi < 32) :
    let n := hi - lo + 1
    let x := bits v.toNat lo n
    let was := bits old.toNat lo n
    bits (writtenWord lk [⟨hi, lo, a, rst⟩] old v).toNat lo n = (match a with
      | .rw | .wo => x
      | .rwl => if lk then was else x
      | .w1c => was - Nat.land was x
      | .w1s => Nat.lor was x
      | .ro | .rc => was) := by
  have hx := bits_lt v.toNat lo (hi - lo + 1)
  have hwas := bits_lt old.toNat lo (hi - lo + 1)
  cases a with
  | rw => exact bits_ins_fits _ _ hl hh hx
  | wo => exact bits_ins_fits _ _ hl hh hx
  | rwl => cases lk with
    | true => exact bits_ins_fits _ _ hl hh hwas
    | false => exact bits_ins_fits _ _ hl hh hx
  | w1c => exact bits_ins_fits _ _ hl hh (Nat.lt_of_le_of_lt (Nat.sub_le _ _) hwas)
  | w1s => exact bits_ins_fits _ _ hl hh (Nat.or_lt_two_pow hwas hx)
  | ro => exact bits_ins_fits _ _ hl hh hwas
  | rc => exact bits_ins_fits _ _ hl hh hwas

-- Bad accesses and the SPI (R9, R413, R451) ------------------------------------------------------------------------------------------

/-- An access of R9 or R451 answers an error; inside the block ranges it does nothing else, and outside them it sets DECERR
while the fabric runs. -/
theorem narrowAccess_spec (s : State) (o : Nat) :
    let t := narrowAccess s o
    t.resp = .err ∧ (decoded o = true → t = { s with resp := .err }) ∧
      (decoded o = false → pmState s < 2 → Flagged t kMX_STAT_DECERR) ∧ t.plate = s.plate ∧ t.eff = s.eff := by
  intro t
  have ht : t = if 2 ≤ pmState s then { s with resp := .err } else if decoded o then { s with resp := .err }
    else raise { s with resp := .err } kMX_STAT_DECERR := rfl
  by_cases hp : 2 ≤ pmState s
  · rw [if_pos hp] at ht
    rw [ht]
    exact ⟨rfl, fun _ => rfl, fun _ h => absurd hp (Nat.not_le.mpr h), rfl, rfl⟩
  · rw [if_neg hp] at ht
    cases hd : decoded o with
    | true =>
      rw [if_pos hd] at ht
      rw [ht]
      exact ⟨rfl, fun _ => rfl, nofun, rfl, rfl⟩
    | false =>
      rw [if_neg (by simp [hd])] at ht
      have hs := onlySignals_raise { s with resp := .err } kMX_STAT_DECERR 0 0
      rw [ht]
      exact ⟨hs.resp, nofun, fun _ _ => flagged_raise_decerr _, hs.plate, hs.eff⟩

theorem exec_narrowAccess {off : BitVec 26} {size : Nat} (h : ¬(size = 4 ∧ off.toNat % 4 = 0)) (rdr : Reader) (s : State) :
    exec (.narrowAccess rdr off size) s = done (narrowAccess s off.toNat) :=
  congrArg done (if_neg (fun hw => h ((wordAccess_iff _ _).mp hw)))

theorem exec_undecodedAccess {off : BitVec 26} (h : decoded off.toNat = false) (rdr : Reader) (size : Nat) (s : State) :
    exec (.undecodedAccess rdr off size) s = done (narrowAccess s off.toNat) :=
  congrArg done (if_neg (by simp [h]))

theorem narrowAccess_completes {off : BitVec 26} {size : Nat} (h : ¬(size = 4 ∧ off.toNat % 4 = 0)) (rdr : Reader) (s : State) :
    Completes (exec (.narrowAccess rdr off size) s) (fun t => t.resp = .err ∧
      (decoded off.toNat = true → { t with resp := s.resp, pm := s.pm } = s) ∧
      (decoded off.toNat = false → pmState s < 2 → Flagged t kMX_STAT_DECERR) ∧ t.plate = s.plate ∧ t.eff = s.eff) := by
  obtain ⟨hresp, hsame, hflag, hplate, heff⟩ := narrowAccess_spec s off.toNat
  rw [exec_narrowAccess h]
  exact completes_done ⟨hresp, fun hd => by rw [hsame hd]; rfl, hflag, hplate, heff⟩

theorem undecodedAccess_completes {off : BitVec 26} (h : decoded off.toNat = false) (rdr : Reader) (size : Nat) (s : State) :
    Completes (exec (.undecodedAccess rdr off size) s) (fun t => t.resp = .err ∧
      (pmState s < 2 → Flagged t kMX_STAT_DECERR) ∧ t.plate = s.plate ∧ t.eff = s.eff) := by
  obtain ⟨hresp, -, hflag, hplate, heff⟩ := narrowAccess_spec s off.toNat
  rw [exec_undecodedAccess h]
  exact completes_done ⟨hresp, hflag h, hplate, heff⟩

/-- The log area of the Vault as the SPI shows it. -/
theorem spiByte_log (s : State) {a : Nat} (h : 0x10000 ≤ a ∧ a < 0x20000) : spiByte s a = mget s.vault (a + 0x10000) := by
  have hn : ¬a < 0x1000 := by omega
  simp [spiByte, hn, h]

theorem spiTransfer_reads {s : State} (hs : pmState s ≠ 4) (addr : BitVec 24) (n : Nat) :
    Completes (exec (.spiTransfer 3 addr n) s) (fun t => { t with resp := s.resp, pm := s.pm } = s ∧
      ∃ bs, t.resp = .data bs ∧ bs.length = n ∧ ∀ i < n, 0x10000 ≤ addr.toNat → addr.toNat + i < 0x20000 →
        bs[i]? = some (mget s.vault (addr.toNat + i + 0x10000))) := by
  have hx : spiTransfer s 3 addr.toNat n =
      { s with resp := .data ((List.range n).map fun i => spiByte s ((addr.toNat + i) % 2 ^ 24)) } :=
    if_neg (by simp [hs])
  refine ⟨settle (spiTransfer s 3 addr.toNat n), rfl, ?_⟩
  rw [hx]
  refine ⟨rfl, _, rfl, by simp, fun i hi hlo hhi => ?_⟩
  have ha : (addr.toNat + i) % 2 ^ 24 = addr.toNat + i := Nat.mod_eq_of_lt (by omega)
  rw [List.getElem?_map, List.getElem?_range hi, Option.map_some, ha, spiByte_log s ⟨by omega, hhi⟩]

theorem spiTransfer_ignored {s : State} {cmd : Byte} (h : cmd ≠ 3 ∨ pmState s = 4) (addr : BitVec 24) (n : Nat) :
    Completes (exec (.spiTransfer cmd addr n) s) (Same s) := by
  have hc : (cmd.toNat != 3 || decide (pmState s = 4)) = true := by
    rcases h with h | h
    · have : cmd.toNat ≠ 3 := fun e => h (BitVec.eq_of_toNat_eq e)
      simp [this]
    · simp [h]
  have hx : spiTransfer s cmd.toNat addr.toNat n = s := if_pos (by simpa using hc)
  exact ⟨settle (spiTransfer s cmd.toNat addr.toNat n), rfl, congrArg settle hx⟩

/-- Settles O55, each clause by the lemma about its kind of access. The premise of the clause on reads holds what
`registerWrite_follows_codes` proves of writes, beside the condition on TU_SETSEC; only the condition is used. -/
theorem registerAccess : Obligations.RegisterAccess := by
  unfold Obligations.RegisterAccess
  intro s rdr off v size o aligned
  refine ⟨fun r i j ha he hon hwin hfind => ?_, fun d ha he hd hg => ?_, fun hi lo rst a lk old hl hh => ?_,
    fun hbad => narrowAccess_completes hbad rdr s, fun hdec => undecodedAccess_completes hdec rdr size s, fun cmd addr n => ?_⟩
  · have h : Reaches s off.toNat r i j := ⟨ha, he, hon, hwin, hfind⟩
    rintro u ⟨-, hset⟩
    exact ⟨fun hr => rcRead_nowNs h hset hr rdr, fun hr => rcRead_wait h hr rdr, fun hr => rcRead_plain h hset hr rdr⟩
  · exact ⟨gated_registerWrite ha he hd hg rdr v, gated_rcRead ha he hd hg rdr⟩
  · exact bits_writtenWord_field lk rst a old v hl hh
  · exact ⟨fun hc hs => hc ▸ spiTransfer_reads hs addr n, fun h => spiTransfer_ignored h addr n⟩

end Sys2Proof.Machine
end

section
/-! PROOFS. Frames at a port (R229–R241): what reception and duplicate discard do, and the statement FrameReception assembled
from it. -/

namespace Sys2Proof.Machine
open Sys2Proof

-- Counters and entries of the tables -----------------------------------------------------------------------------------------------

theorem reg_bump_ne (s : State) {f : Field} {i j n : Nat} {r : Reg} {i' j' : Nat} (h : r.key i' j' ≠ f.reg.key i j) :
    (s.bump f i j n).reg r i' j' = s.reg r i' j' := reg_setF_ne s r f _ i j i' j' h

/-- A counter that saturates counts once more. -/
theorem counted_bump (s : State) (f : Field) (i j : Nat) (h : f.lo + f.w ≤ 32) : Counted s (s.bump f i j) f i j := by
  have hlt : min (s.f f i j + 1) (2 ^ f.w - 1) < 2 ^ f.w :=
    Nat.lt_of_le_of_lt (Nat.min_le_right _ _) (Nat.sub_lt (Nat.two_pow_pos _) Nat.one_pos)
  exact (f_setF_self s f _ i j h).trans (Nat.mod_eq_of_lt hlt)

theorem port_setPort_ne (s : State) {p n : Nat} (x : PortSt) (h : n ≠ p) : (s.setPort p x).port n = s.port n := by
  simp [State.port, State.setPort, tfind_tput_ne _ _ h]

@[simp] theorem port_modPort_self (s : State) (p : Nat) (g : PortSt → PortSt) : (s.modPort p g).port p = g (s.port p) :=
  port_setPort_self s p _

theorem port_modPort_ne (s : State) {p n : Nat} (g : PortSt → PortSt) (h : n ≠ p) : (s.modPort p g).port n = s.port n :=
  port_setPort_ne s _ h

@[simp] theorem pair_setPair_self (s : State) (q : Nat) (x : PairSt) : (s.setPair q x).pair q = x := by
  simp [State.pair, State.setPair]

@[simp] theorem pair_advanceTo (s : State) (m q : Nat) : (s.advanceTo m).pair q = s.pair q := rfl

@[simp] theorem pair_settle (s : State) (q : Nat) : (settle s).pair q = s.pair q := rfl
@[simp] theorem port_settle (s : State) (p : Nat) : (settle s).port p = s.port p := rfl
@[simp] theorem now_settle (s : State) : (settle s).now = s.now := rfl
@[simp] theorem now_setPair (s : State) (q : Nat) (x : PairSt) : (s.setPair q x).now = s.now := rfl
@[simp] theorem f_settle (s : State) (f : Field) (i j : Nat) : (settle s).f f i j = s.f f i j := rfl
@[simp] theorem f_setPort (s : State) (p : Nat) (x : PortSt) (f : Field) (i j : Nat) : (s.setPort p x).f f i j = s.f f i j := rfl

/-- Time passes until an instant that is to come, and stands at one that has passed. -/
theorem advanceTo_now (s : State) (m : Nat) : (s.advanceTo m).now = max s.now m := by
  show s.clk.mono + (m - s.clk.mono) = max s.clk.mono m
  omega

-- Frames passed on (R241, R256) -------------------------------------------------------------------------------------------------------

/-- The counter of frames lost or refused at some port. -/
def txCounter (k : Nat) : Prop := ∃ n, k = fEP_TXLOST_CNT_CNT.reg.key n 0 ∨ k = fEP_TXREF_CNT_CNT.reg.key n 0

/-- Only egress queues, their counters and the sequence numbers of pairs may differ between s and t. -/
structure PassedOn (s t : State) : Prop where
  rest : { t with ports := s.ports, regs := s.regs, pairs := s.pairs } = s
  ing  : ∀ n, (t.port n).ing = (s.port n).ing
  regs : ∀ k, ¬txCounter k → tfind t.regs k = tfind s.regs k

theorem PassedOn.refl (s : State) : PassedOn s s := ⟨rfl, fun _ => rfl, fun _ _ => rfl⟩

theorem PassedOn.trans {s t u : State} (h : PassedOn s t) (g : PassedOn t u) : PassedOn s u where
  rest := by rw [← h.rest, ← g.rest]
  ing n := (g.ing n).trans (h.ing n)
  regs k hk := (g.regs k hk).trans (h.regs k hk)

theorem passedOn_bump (s : State) (f : Field) (p : Nat) (hf : txCounter (f.reg.key p 0)) : PassedOn s (s.bump f p) where
  rest := rfl
  ing _ := rfl
  regs k hk := regs_setF s f _ p 0 k (fun e => hk (e ▸ hf))

theorem passedOn_modPort (s : State) (p : Nat) (g : PortSt → PortSt) (hg : ∀ x, (g x).ing = x.ing) :
    PassedOn s (s.modPort p g) where
  rest := rfl
  ing n := by
    by_cases h : n = p
    · rw [h, port_modPort_self, hg]
    · rw [port_modPort_ne s g h]
  regs _ _ := rfl

theorem passedOn_enqueue (s : State) (p : Nat) (t : TxFrame) : PassedOn s (enqueue s p t) := by
  have lost : PassedOn s (s.bump fEP_TXLOST_CNT_CNT p) := passedOn_bump s _ p ⟨p, .inl rfl⟩
  have refused (x : State) : PassedOn x (x.bump fEP_TXREF_CNT_CNT p) := passedOn_bump x _ p ⟨p, .inr rfl⟩
  unfold enqueue
  split
  · exact .refl s
  split
  · exact lost
  split
  · exact refused s
  dsimp only
  split
  · refine .trans (t := s.modPort p fun x => { x with lateEg := _ }) ?_ (refused _)
    exact passedOn_modPort s p _ fun _ => rfl
  · exact passedOn_modPort s p _ fun _ => rfl

theorem passedOn_redboxForward (s : State) (p : Nat) (f : Frame) : PassedOn s (redboxForward s p f) := by
  unfold redboxForward
  split
  · split
    · exact .refl s
    · exact passedOn_enqueue s _ _
  · split
    · have numbered (q : Nat) (x : PairSt) : PassedOn s (s.setPair q x) := ⟨rfl, fun _ => rfl, fun _ _ => rfl⟩
      exact ((numbered _ _).trans (passedOn_enqueue _ _ _)).trans (passedOn_enqueue _ _ _)
    · exact .refl s

/-- A register of the ports' block at another offset than the egress counters is none of them. -/
theorem not_txCounter {k : Nat} (h : k % 4096 ≠ 0x118 ∧ k % 4096 ≠ 0x11c) : ¬txCounter k := by
  rintro ⟨n, e | e⟩ <;> simp only [Reg.key, fEP_TXLOST_CNT_CNT, fEP_TXREF_CNT_CNT, rEP_TXLOST_CNT, rEP_TXREF_CNT] at e <;> omega

theorem PassedOn.f_eq {s t : State} (h : PassedOn s t) (f : Field) (i j : Nat)
    (hk : f.reg.key i j % 4096 ≠ 0x118 ∧ f.reg.key i j % 4096 ≠ 0x11c) : t.f f i j = s.f f i j := by
  simp only [State.f, State.reg, h.regs _ (not_txCounter hk)]

-- The ingress queue (R229, R235, R237) ----------------------------------------------------------------------------------------------------

/-- What a port's ingress queue holds of a frame whose last bit arrives now. -/
def arrival (s : State) (p : Nat) (f : Frame) : QFrame :=
  ⟨f, replicaTime s (portIsl p), none, s.now + modeIngress (portMode s p) * nsU, s.now⟩

/-- A frame enters the ingress queue of port p: the Frame Engine runs, and the queue has room for it. -/
structure Takes (s : State) (p : Nat) (f : Frame) : Prop where
  run   : s.fb fFE_CTL_RUN = true
  on    : s.stopped = false
  depth : (s.port p).ing.length < 64
  bytes : ((s.port p).ing.map fun x => ingBytes x.f).sum + ingBytes f ≤ 32768

theorem Takes.pushIngress {s : State} {p : Nat} {f : Frame} (h : Takes s p f) :
    pushIngress s p f = s.setPort p { s.port p with ing := (s.port p).ing ++ [arrival s p f] } := by
  have hfit : ingFits (s.port p) f = true := by simp [ingFits, h.depth, h.bytes]
  simp [Machine.pushIngress, arrival, h.run, h.on, hfit]

/-- What the ingress queue of port p makes of a frame reads the clock and the replicas, the port's mode and two mode bits. -/
structure IngressSame (s t : State) (p : Nat) : Prop where
  clk  : t.clk = s.clk
  tu   : t.tu = s.tu
  ing  : (t.port p).ing = (s.port p).ing
  mode : t.f fEP_CTL_MODE p = s.f fEP_CTL_MODE p
  run  : t.f fFE_CTL_RUN = s.f fFE_CTL_RUN
  stop : t.f fSL_STATE_STOPBATH = s.f fSL_STATE_STOPBATH

theorem IngressSame.trans {s t u : State} {p : Nat} (h : IngressSame s t p) (g : IngressSame t u p) : IngressSame s u p :=
  ⟨g.clk.trans h.clk, g.tu.trans h.tu, g.ing.trans h.ing, g.mode.trans h.mode, g.run.trans h.run, g.stop.trans h.stop⟩

theorem IngressSame.arrival {s t : State} {p : Nat} (h : IngressSame s t p) (f : Frame) : arrival t p f = arrival s p f := by
  simp only [Machine.arrival, replicaTime, State.tai, State.now, portMode, h.clk, h.tu, h.mode]

theorem IngressSame.takes {s t : State} {p : Nat} {f : Frame} (h : IngressSame s t p) (g : Takes s p f) : Takes t p f where
  run   := by simpa only [State.fb, h.run] using g.run
  on    := by simpa only [State.stopped, State.fb, h.stop] using g.on
  depth := by simpa only [h.ing] using g.depth
  bytes := by simpa only [h.ing] using g.bytes

theorem PassedOn.ingressSame {s t : State} (h : PassedOn s t) (p : Nat) : IngressSame s t p where
  clk  := by rw [← h.rest]
  tu   := by rw [← h.rest]
  ing  := h.ing p
  mode := h.f_eq _ p 0 (by simp only [Reg.key, fEP_CTL_MODE, rEP_CTL]; omega)
  run  := h.f_eq _ 0 0 (by decide)
  stop := h.f_eq _ 0 0 (by decide)

-- Reception (R233, R237) ----------------------------------------------------------------------------------------------------------

/-- The state in which a good frame has been counted at its port. -/
def counted (s : State) (p : Nat) : State := s.bump fEP_RXOK_CNT_CNT p

theorem ingressSame_counted (s : State) (p : Nat) : IngressSame s (counted s p) p where
  clk  := rfl
  tu   := rfl
  ing  := rfl
  mode := f_setF_ne s _ _ _ _ _ _ _ (by simp only [Reg.key, fEP_CTL_MODE, rEP_CTL, fEP_RXOK_CNT_CNT, rEP_RXOK_CNT]; omega)
  run  := f_setF_ne s _ _ _ _ _ _ _ (by simp only [Reg.key, fFE_CTL_RUN, rFE_CTL, fEP_RXOK_CNT_CNT, rEP_RXOK_CNT]; omega)
  stop := f_setF_ne s _ _ _ _ _ _ _ (by simp only [Reg.key, fSL_STATE_STOPBATH, rSL_STATE, fEP_RXOK_CNT_CNT, rEP_RXOK_CNT]; omega)

theorem pairRed_counted (s : State) (p q : Nat) : pairRed (counted s p) q = pairRed s q := by
  have hr : ∀ n, (counted s p).reg rEP_CTL n 0 = s.reg rEP_CTL n 0 := fun n =>
    reg_bump_ne s (by simp only [Reg.key, rEP_CTL, fEP_RXOK_CNT_CNT, rEP_RXOK_CNT]; omega)
  have he : ∀ n, (counted s p).f fEP_CTL_EN n = s.f fEP_CTL_EN n := fun n => by simp only [State.f, fEP_CTL_EN, hr]
  have hm : ∀ n, (counted s p).f fEP_CTL_MODE n = s.f fEP_CTL_MODE n := fun n => by simp only [State.f, fEP_CTL_MODE, hr]
  unfold pairRed portEn portMode State.fb
  rw [he (2 * q), he (2 * q + 1), hm (2 * q), hm (2 * q + 1)]
  rfl

/-- The port receives: its link is up, it is enabled, and it has power. -/
structure Listens (s : State) (p : Nat) : Prop where
  link  : linkUp s p = true
  en    : portEn s p = true
  power : portPower s p = true

/-- A frame without an error, of a length that its port takes (R233). -/
def goodFrame (s : State) (p : Nat) (f : Frame) : Prop :=
  f.fcsOk = true ∧ 64 ≤ f.len ∧ f.len ≤ (if pairRed s (p / 2) = 0 then 1522 else 1528)

section
variable {s : State} {p : Nat} {f : Frame} (h : Listens s p)
include h

theorem frameReceive_bad (hb : ¬goodFrame s p f) : frameReceive s p f = s.bump fEP_RXERR_CNT_CNT p := by
  have hbad : (!f.fcsOk || decide (f.len < 64) || decide ((if pairRed s (p / 2) = 0 then 1522 else 1528) < f.len)) = true := by
    by_contra hc
    simp only [Bool.or_eq_true, Bool.not_eq_true', decide_eq_true_eq, not_or, Bool.not_eq_false] at hc
    obtain ⟨⟨hfcs, hmin⟩, hmax⟩ := hc
    exact hb ⟨hfcs, by omega, by omega⟩
  unfold frameReceive
  simp only [h.link, h.en, h.power, Bool.not_true, Bool.or_self, Bool.false_eq_true, if_false]
  exact if_pos hbad

theorem frameReceive_good (hg : goodFrame s p f) :
    frameReceive s p f = match f.body with
      | .pause => s.bump fEP_RXCTL_CNT_CNT p
      | _ =>
        if pairRed (counted s p) (p / 2) = 0 then pushIngress (redboxForward (counted s p) p f) p f
        else match dupSwap (counted s p) p f with
          | some s => pushIngress s p f
          | none =>
            let (first, s) := dupFirst (counted s p) p f
            if first then pushIngress (redboxForward s p f) p f else s := by
  obtain ⟨hfcs, hmin, hmax⟩ := hg
  unfold frameReceive
  simp only [h.link, h.en, h.power, hfcs, Nat.not_lt.mpr hmin, Nat.not_lt.mpr hmax, decide_false, Bool.not_true, Bool.or_self,
    Bool.false_eq_true, if_false]
  rfl

theorem frameReceive_pause (hg : goodFrame s p f) (hb : f.body = .pause) : frameReceive s p f = s.bump fEP_RXCTL_CNT_CNT p := by
  rw [frameReceive_good h hg, hb]

/-- On a plain port a good frame is counted, offered to the ring that has this port as its interlink, and queued. -/
theorem frameReceive_plain (hg : goodFrame s p f) (hb : f.body ≠ .pause) (hr : pairRed s (p / 2) = 0) :
    frameReceive s p f = pushIngress (redboxForward (counted s p) p f) p f := by
  rw [frameReceive_good h hg]
  split
  · contradiction
  · rw [pairRed_counted, if_pos hr]

/-- On a redundant port the second copy that came in the same cycle is judged first, then the duplicate table. -/
theorem frameReceive_redundant (hg : goodFrame s p f) (hb : f.body ≠ .pause) (hr : pairRed s (p / 2) ≠ 0) :
    frameReceive s p f = match dupSwap (counted s p) p f with
      | some s => pushIngress s p f
      | none =>
        let (first, s) := dupFirst (counted s p) p f
        if first then pushIngress (redboxForward s p f) p f else s := by
  rw [frameReceive_good h hg]
  split
  · contradiction
  · rw [pairRed_counted, if_neg hr]

end

-- Duplicates (R23, R239) --------------------------------------------------------------------------------------------------------------------

/-- An entry of a duplicate table: source, sequence number, arrival of the first copy, and its port. -/
abbrev DupEntry := BitVec 48 × BitVec 16 × Nat × Nat

theorem dupIs_iff {f : Frame} {n : BitVec 16} (hn : f.red = some n) (e : DupEntry) : dupIs f e = true ↔ e.1 = f.smac ∧ e.2.1 = n := by
  simp [dupIs, hn]

/-- No copy arrived in this cycle at a port of a higher number: nothing is exchanged. -/
theorem dupSwap_none {s : State} {p : Nat} {f : Frame}
    (h : ∀ e ∈ (s.pair (p / 2)).dup, dupIs f e = true → e.2.2.1 / nsU = s.now / nsU → e.2.2.2 ≤ p) : dupSwap s p f = none := by
  have hf : ((s.pair (p / 2)).dup.find? fun e => dupIs f e && e.2.2.1 / nsU == s.now / nsU && p < e.2.2.2) = none := by
    rw [List.find?_eq_none]
    intro e he hc
    simp only [Bool.and_eq_true, beq_iff_eq, decide_eq_true_eq] at hc
    obtain ⟨⟨hd, hns⟩, hlt⟩ := hc
    have := h e he hd hns
    omega
  simp only [dupSwap, hf]

/-- The copy that came at a port of a higher number in this cycle leaves that port's queue, and this one takes its entry. -/
theorem dupSwap_some {s : State} {p : Nat} {f : Frame} {e : DupEntry} (hone : (s.pair (p / 2)).dup = [e]) (hd : dupIs f e = true)
    (hns : e.2.2.1 / nsU = s.now / nsU) (hlt : p < e.2.2.2) :
    dupSwap s p f = some ((s.setPair (p / 2) { s.pair (p / 2) with dup := [(e.1, e.2.1, e.2.2.1, p)] }).modPort e.2.2.2
      fun y => { y with ing := y.ing.filter fun q => !(dupIs q.f e && q.arr == e.2.2.1) }) := by
  have hf : [e].find? (fun e => dupIs f e && e.2.2.1 / nsU == s.now / nsU && decide (p < e.2.2.2)) = some e := by
    simp [hd, hns, hlt]
  simp [dupSwap, hone, hf]

/-- A frame whose entry is still in the table is not the first copy. -/
theorem dupFirst_second {s : State} {p : Nat} {f : Frame} {n : BitVec 16} {e : DupEntry} (hn : f.red = some n)
    (he : e ∈ (s.pair (p / 2)).dup) (hd : dupIs f e = true) (hlive : s.now < e.2.2.1 + forgetU s (p / 2)) :
    ∃ x, dupFirst s p f = (false, s.setPair (p / 2) x) := by
  have hany : (((s.pair (p / 2)).dup.filter fun e => s.now < e.2.2.1 + forgetU s (p / 2)).any (dupIs f)) = true :=
    List.any_eq_true.mpr ⟨e, List.mem_filter.mpr ⟨he, decide_eq_true hlive⟩, hd⟩
  refine ⟨{ s.pair (p / 2) with dup := (s.pair (p / 2)).dup.filter fun e => s.now < e.2.2.1 + forgetU s (p / 2) }, ?_⟩
  simp only [dupFirst, hn, hany, if_true]

-- The clauses ---------------------------------------------------------------------------------------------------------------------------

section
variable {s : State} {p : Port} {f : Frame} (h : Listens s p)
include h

theorem frameReceive_counts_bad (hb : ¬goodFrame s p f) :
    Completes (exec (.frameReceive p f) s) (fun t => t.ports = s.ports ∧ Counted s t fEP_RXERR_CNT_CNT p) := by
  refine completes_done ?_
  rw [frameReceive_bad h hb]
  exact ⟨rfl, counted_bump s _ _ _ (by decide)⟩

theorem frameReceive_counts_pause (hg : goodFrame s p f) (hb : f.body = .pause) :
    Completes (exec (.frameReceive p f) s) (fun t => t.ports = s.ports ∧ Counted s t fEP_RXCTL_CNT_CNT p) := by
  refine completes_done ?_
  rw [frameReceive_pause h hg hb]
  exact ⟨rfl, counted_bump s _ _ _ (by decide)⟩

theorem frameReceive_queues (hg : goodFrame s p f) (hb : f.body ≠ .pause) (hr : pairRed s (p / 2) = 0) (ht : Takes s p f) :
    Completes (exec (.frameReceive p f) s) (fun t => Counted s t fEP_RXOK_CNT_CNT p ∧
      (t.port p).ing = (s.port p).ing ++ [arrival s p f]) := by
  have hfwd := passedOn_redboxForward (counted s p) p f
  have hsame := (ingressSame_counted s p).trans (hfwd.ingressSame p)
  refine completes_done ?_
  rw [frameReceive_plain h hg hb hr, (hsame.takes ht).pushIngress]
  refine ⟨?_, ?_⟩
  · have hkey : fEP_RXOK_CNT_CNT.reg.key p 0 % 4096 ≠ 0x118 ∧ fEP_RXOK_CNT_CNT.reg.key p 0 % 4096 ≠ 0x11c := by
      simp only [Reg.key, fEP_RXOK_CNT_CNT, rEP_RXOK_CNT]
      omega
    rw [Counted, f_settle, f_setPort, hfwd.f_eq _ _ _ hkey]
    exact counted_bump s fEP_RXOK_CNT_CNT p 0 (by decide)
  · rw [port_settle, port_setPort_self, hsame.ing, hsame.arrival]

variable {e : DupEntry} (hg : goodFrame s p f) (hb : f.body ≠ .pause) (hr : pairRed s (p / 2) ≠ 0) (hd : dupIs f e = true)
include hg hb hr hd

theorem frameReceive_drops_second {n : BitVec 16} (hn : f.red = some n) (he : e ∈ (s.pair (p / 2)).dup) (hlive : s.now < e.2.2.1 + forgetU s (p / 2))
    (hfirst : ∀ y ∈ (s.pair (p / 2)).dup, dupIs f y = true → y.2.2.1 / nsU = s.now / nsU → y.2.2.2 ≤ p) :
    Completes (exec (.frameReceive p f) s) (fun t => t.ports = s.ports ∧ t.lanes = s.lanes) := by
  obtain ⟨x, hx⟩ := dupFirst_second (s := counted s p) hn he hd hlive
  have hswap : dupSwap (counted s p) p f = none := dupSwap_none hfirst
  refine completes_done ?_
  rw [frameReceive_redundant h hg hb hr, hswap]
  simp only [hx, Bool.false_eq_true, if_false]
  exact ⟨rfl, rfl⟩

theorem frameReceive_keeps_lower (hone : (s.pair (p / 2)).dup = [e]) (hns : e.2.2.1 / nsU = s.now / nsU) (hlt : p.val < e.2.2.2)
    (ht : Takes s p f) :
    Completes (exec (.frameReceive p f) s) (fun t => (t.port p).ing = (s.port p).ing ++ [arrival s p f] ∧
      (t.port e.2.2.2).ing = (s.port e.2.2.2).ing.filter fun x => !(dupIs x.f e && x.arr == e.2.2.1)) := by
  have hne : p.val ≠ e.2.2.2 := by omega
  generalize hs : (counted s p).setPair (p / 2) { (counted s p).pair (p / 2) with dup := [(e.1, e.2.1, e.2.2.1, p.val)] } = s₁
  generalize hs' : (fun y : PortSt => { y with ing := y.ing.filter fun q => !(dupIs q.f e && q.arr == e.2.2.1) }) = g
  have hswap : dupSwap (counted s p) p f = some (s₁.modPort e.2.2.2 g) := hs ▸ hs' ▸ dupSwap_some hone hd hns hlt
  have hkept : IngressSame (counted s p) (s₁.modPort e.2.2.2 g) p := by
    subst hs
    exact ⟨rfl, rfl, congrArg PortSt.ing (port_modPort_ne _ g hne), rfl, rfl, rfl⟩
  have hsame := (ingressSame_counted s p).trans hkept
  refine completes_done ?_
  rw [frameReceive_redundant h hg hb hr, hswap]
  simp only
  rw [(hsame.takes ht).pushIngress]
  refine ⟨?_, ?_⟩
  · rw [port_settle, port_setPort_self, hsame.ing, hsame.arrival]
  · rw [port_settle, port_setPort_ne _ _ hne.symm, port_modPort_self, ← hs', ← hs]
    rfl

end

/-- FORGET takes the entry out of the table at its instant. -/
theorem execDuplicateForget_found {s : State} {r : Fin 6} {mac : BitVec 48} {seq : BitVec 16} {e : DupEntry}
    (hfind : ((s.pair r).dup.find? fun x => x.1 == mac && x.2.1 == seq) = some e) :
    execDuplicateForget r mac seq s = done ((s.advanceTo (e.2.2.1 + forgetU s r)).setPair r
      { (s.advanceTo (e.2.2.1 + forgetU s r)).pair r with
        dup := ((s.advanceTo (e.2.2.1 + forgetU s r)).pair r).dup.filter fun x => !(x.1 == mac && x.2.1 == seq) }) := by
  unfold execDuplicateForget
  rw [hfind]

theorem duplicateForget_empties {s : State} {r : Fin 6} {e : DupEntry} (hone : (s.pair r).dup = [e]) :
    Completes (exec (.duplicateForget r e.1 e.2.1) s) (fun t =>
      (t.pair r).dup = [] ∧ t.now = max s.now (e.2.2.1 + forgetU s r)) := by
  have hexec : exec (.duplicateForget r e.1 e.2.1) s = execDuplicateForget r e.1 e.2.1 s := rfl
  have hfind : ((s.pair r).dup.find? fun x => x.1 == e.1 && x.2.1 == e.2.1) = some e := by simp [hone]
  rw [hexec, execDuplicateForget_found hfind]
  generalize e.2.2.1 + forgetU s r = m
  refine completes_done ⟨?_, ?_⟩
  · rw [pair_settle, pair_setPair_self, pair_advanceTo]
    simp [hone]
  · rw [now_settle, now_setPair, advanceTo_now]

/-- Settles O34: reception by the kind of frame and of port, then the two ways in which a redundant pair meets a second copy,
and FORGET. -/
theorem frameReception : Obligations.FrameReception := by
  unfold Obligations.FrameReception
  intro s p f hlink hen hpower q good
  have h : Listens s p := ⟨hlink, hen, hpower⟩
  refine ⟨frameReceive_counts_bad h, frameReceive_counts_pause h, fun hg hb _ hr hrun hon hdepth hbytes =>
    frameReceive_queues h hg hb hr ⟨hrun, hon, hdepth, hbytes⟩, fun n e hg hb hr hn he hmac hseq => ?_,
    fun r e hone => duplicateForget_empties hone⟩
  have hd : dupIs f e = true := (dupIs_iff hn e).mpr ⟨hmac, hseq⟩
  refine ⟨fun hlive hfirst => ?_, fun hone hns hlt hrun hon hdepth hbytes =>
    frameReceive_keeps_lower h hg hb hr hd hone hns hlt ⟨hrun, hon, hdepth, hbytes⟩⟩
  refine frameReceive_drops_second h hg hb hr hd hn he hlive fun y hy hdy hns => ?_
  obtain ⟨hymac, hyseq⟩ := (dupIs_iff hn y).mp hdy
  exact hfirst y hy hymac hyseq hns

end Sys2Proof.Machine
end

section
/-! PROOFS. Frame Engine lanes (R264–R280): how a microword of a ready thread runs, how routines start, count, post and build
frames, how microcode is loaded, and the statement RoutinesAndMicrocode assembled from it. -/

namespace Sys2Proof.Machine
open Sys2Proof

-- Flags and fields --------------------------------------------------------------------------------------------------------------------

/-- The registers that a notice or a message may write lie at the Contact sheet's status and in the MSI-X pending array. -/
theorem not_sideKey {n : Nat} (h : n < 0x700004 ∨ 0x700010 < n ∧ n < 0x941000 ∨ 0x941020 ≤ n) : ¬sideKey n := by
  rintro (⟨i, hi, e⟩ | e | e | ⟨c, hc, e⟩)
  · simp only [Reg.key, rMSIX_PBA] at e
    omega
  · simp only [Reg.key, fCS_EVDROP_CNT_CNT, rCS_EVDROP_CNT] at e
    omega
  · simp only [Reg.key, rCS_STAT] at e
    omega
  · obtain rfl : fCS_SETCNT_EVLOST_N = c := Option.some.inj hc
    simp only [Reg.key, fCS_SETCNT_EVLOST_N, rCS_SETCNT] at e
    omega

/-- Setting a flag leaves the fields of every register but the flag's, its counter's and those of `sideKey`. -/
theorem f_raise_ne (s : State) {k : Flag} {i j : Nat} {g : Field} {i' j' : Nat} (h : g.reg.key i' j' ≠ k.f.reg.key i j)
    (hc : ∀ c, k.cnt = some c → g.reg.key i' j' ≠ c.reg.key i j) (hs : ¬sideKey (g.reg.key i' j')) :
    (raise s k i j).f g i' j' = s.f g i' j' := by
  simp only [State.f, State.reg, regs_raise s k i j _ h hc hs]

theorem OnlySignals.lanes {s t : State} (h : OnlySignals s t) : t.lanes = s.lanes := by
  unfold OnlySignals at h
  rw [← h]

theorem OnlySignals.verify {s t : State} (h : OnlySignals s t) : t.verify = s.verify := by
  unfold OnlySignals at h
  rw [← h]

theorem OnlySignals.store {s t : State} (h : OnlySignals s t) : t.store = s.store := by
  unfold OnlySignals at h
  rw [← h]

theorem OnlySignals.newImg {s t : State} (h : OnlySignals s t) : t.newImg = s.newImg := by
  unfold OnlySignals at h
  rw [← h]

/-- A counter of the lanes with the lanes' status flag that counts beside it (R263). -/
structure LaneCounter (f : Field) (k : Flag) : Prop where
  word : f.lo + f.w ≤ 32
  key  : ∃ o, 8 ≤ o ∧ o < 4096 ∧ ∀ l, f.reg.key l 0 = 0x510000 + o + 4096 * l
  flag : k.f.reg = rFE_LSTAT ∧ k.f.hi = k.f.lo ∧ k.f.lo < 32
  cnt  : ∀ c, k.cnt = some c → c.reg = rFE_LSETCNT

theorem laneCounter_authfail : LaneCounter fFE_AUTHFAIL_CNT_CNT kFE_LSTAT_AUTHFAIL where
  word := by decide
  key  := ⟨0x10, by decide, by decide, fun l => by simp only [Reg.key, fFE_AUTHFAIL_CNT_CNT, rFE_AUTHFAIL_CNT]; omega⟩
  flag := ⟨rfl, rfl, by decide⟩
  cnt c hc := Option.some.inj hc ▸ rfl

theorem laneCounter_nomatch : LaneCounter fFE_NOMATCH_CNT_CNT kFE_LSTAT_NOMATCH where
  word := by decide
  key  := ⟨0x14, by decide, by decide, fun l => by simp only [Reg.key, fFE_NOMATCH_CNT_CNT, rFE_NOMATCH_CNT]; omega⟩
  flag := ⟨rfl, rfl, by decide⟩
  cnt c hc := Option.some.inj hc ▸ rfl

theorem laneCounter_ringdrop : LaneCounter fFE_RINGDROP_CNT_CNT kFE_LSTAT_RINGDROP where
  word := by decide
  key  := ⟨0x18, by decide, by decide, fun l => by simp only [Reg.key, fFE_RINGDROP_CNT_CNT, rFE_RINGDROP_CNT]; omega⟩
  flag := ⟨rfl, rfl, by decide⟩
  cnt c hc := Option.some.inj hc ▸ rfl

theorem laneCounter_malform : LaneCounter fFE_MALFORM_CNT_CNT kFE_LSTAT_MALFORM where
  word := by decide
  key  := ⟨0x1c, by decide, by decide, fun l => by simp only [Reg.key, fFE_MALFORM_CNT_CNT, rFE_MALFORM_CNT]; omega⟩
  flag := ⟨rfl, rfl, by decide⟩
  cnt c hc := Option.some.inj hc ▸ rfl

/-- A lane's counter counts and its flag is set; the lanes themselves stand. -/
theorem laneCount_spec (s : State) (l : Lane) {f : Field} {k : Flag} (h : LaneCounter f k) :
    Counted s (laneCount s l f k) f l ∧ Flagged (laneCount s l f k) k l ∧ (laneCount s l f k).lanes = s.lanes := by
  obtain ⟨o, hlo, hhi, hkey⟩ := h.key
  obtain ⟨hreg, hbit, hlt⟩ := h.flag
  have hflag : k.f.reg.key l 0 = 0x510000 + 4096 * l := by
    simp only [hreg, Reg.key, rFE_LSTAT]
    omega
  have hset : ∀ c, k.cnt = some c → c.reg.key l 0 = 0x510004 + 4096 * l := fun c hc => by
    simp only [h.cnt c hc, Reg.key, rFE_LSETCNT]
    omega
  have hl := l.isLt
  have hraise : (raise (s.bump f l) k l).f f l = (s.bump f l).f f l := by
    refine f_raise_ne _ ?_ (fun c hc => ?_) (not_sideKey ?_)
    · rw [hkey, hflag]
      omega
    · rw [hkey, hset c hc]
      omega
    · rw [hkey]
      omega
  refine ⟨hraise.trans (counted_bump s f l 0 h.word), ?_, (onlySignals_raise _ k l 0).lanes⟩
  refine flagged_raise _ k l 0 hbit hlt (fun c hc => ?_) (not_sideKey ?_)
  · rw [hflag, hset c hc]
    omega
  · rw [hflag]
    omega

-- Threads of a lane (R264, R267) ---------------------------------------------------------------------------------------------------------

@[simp] theorem lane_settle (s : State) (l : Nat) : (settle s).lane l = s.lane l := rfl
@[simp] theorem feThr_settle (s : State) (l : Nat) (e : Bool) : feThr (settle s) l e = feThr s l e := rfl

theorem lane_setLane_ne (s : State) {l n : Nat} (x : LaneSt) (h : n ≠ l) : (s.setLane l x).lane n = s.lane n := by
  simp [State.lane, State.setLane, tfind_tput_ne _ _ h]

/-- A lane with one thread replaced. -/
def LaneSt.withThr (x : LaneSt) (e : Bool) (t : FeThr) : LaneSt := if e then { x with eg := t } else { x with ing := t }

theorem setFeThr_eq (s : State) (l : Nat) (e : Bool) (t : FeThr) : setFeThr s l e t = s.setLane l ((s.lane l).withThr e t) := rfl

@[simp] theorem lane_setFeThr_self (s : State) (l : Nat) (e : Bool) (t : FeThr) :
    (setFeThr s l e t).lane l = (s.lane l).withThr e t := by
  rw [setFeThr_eq, lane_setLane_self]

theorem lane_setFeThr_ne (s : State) {l n : Nat} (e : Bool) (t : FeThr) (h : n ≠ l) : (setFeThr s l e t).lane n = s.lane n :=
  lane_setLane_ne s _ h

@[simp] theorem feThr_setFeThr_self (s : State) (l : Nat) (e : Bool) (t : FeThr) : feThr (setFeThr s l e t) l e = t := by
  cases e <;> simp [feThr, LaneSt.withThr]

@[simp] theorem feThr_setFeThr_other (s : State) (l : Nat) (e : Bool) (t : FeThr) : feThr (setFeThr s l e t) l (!e) = feThr s l (!e) := by
  cases e <;> simp [feThr, LaneSt.withThr]

theorem feThr_lanes {s u : State} (h : u.lanes = s.lanes) (l : Nat) (e : Bool) : feThr u l e = feThr s l e := by
  simp only [feThr, State.lane, h]

theorem lane_lanes {s u : State} (h : u.lanes = s.lanes) (l : Nat) : u.lane l = s.lane l := by simp only [State.lane, h]

theorem onlyLanes_withLanes (s : State) (x : Tab LaneSt) : OnlyLanes s (settle { s with lanes := x }) := rfl

/-- Only the lanes differ after a thread has been replaced. -/
theorem onlyLanes_setFeThr (s : State) (l : Nat) (e : Bool) (t : FeThr) : OnlyLanes s (settle (setFeThr s l e t)) :=
  onlyLanes_withLanes s _

-- Microwords (R268, R271) -------------------------------------------------------------------------------------------------------------------

/-- Thread e of lane l of state u goes on as `t`, at the word behind that of its present one in s, n cycles later. -/
def wentOn (s u : State) (l : Nat) (e : Bool) (t : FeThr) (n : Nat) : State :=
  setFeThr u l e { t with pc := ((feThr s l e).pc + 1) % 16384, cyc := (feThr s l e).cyc + n }

/-- What the outcome of a microword makes of its thread. -/
def ranWord (s : State) (l : Nat) (e : Bool) : FeRes → State
  | .go u t n => wentOn s u l e t n
  | .jump u t p n => setFeThr u l e { t with pc := p % 16384, cyc := (feThr s l e).cyc + n }
  | .stall => setFeThr s l e { feThr s l e with cyc := (feThr s l e).cyc + 1 }
  | .fin u => feFin u l e
  | .abort u c => abandon u l e c

theorem feLand_none {s : State} {l : Nat} {e : Bool} {n : Nat} (h : ∀ w ∈ (feThr s l e).acks, n < w.due) :
    feLand s l e n = (true, s) := by
  have hdue : ((feThr s l e).acks.filter fun w => w.due ≤ n) = [] := by
    rw [List.filter_eq_nil_iff]
    intro w hw hle
    exact absurd (h w hw) (Nat.not_lt.mpr (of_decide_eq_true hle))
  unfold feLand
  simp only [List.partition_eq_filter_filter, hdue, List.isEmpty_nil, if_true]

section
variable {s : State} {l : Lane} {e : Bool} {k : FeCls} (h : FeReady s l e k)
include h

/-- A thread that is ready runs its word, and the word's outcome decides the rest. -/
theorem FeReady.feOp (act : State → FeThr → FeRes) : feOp s l e k act = ranWord s l e (act s (feThr s l e)) := by
  have hvendor : (k.vendor && customerWord (feThr s l e).pc) = false := by
    cases hk : k.vendor with
    | true => simp [h.region hk]
    | false => rfl
  have hegress : (k.egress && !e) = false := by
    cases hk : k.egress with
    | true => simp [h.egress hk]
    | false => rfl
  have hpost : (k.post && !(feThr s l e).commit) = false := by
    cases hk : k.post with
    | true => simp [h.order hk]
    | false => rfl
  have hfetch : feFetch s (storeWord (feThr s l e)) = (true, s) := by simp only [feFetch, h.word]
  unfold Machine.feOp
  simp only [h.run, h.up, Nat.not_le.mpr h.bound, h.parity, hfetch, h.spells, hvendor, hegress, hpost, feLand_none h.landed,
    Bool.not_true, Bool.or_self, Bool.false_eq_true, if_false]
  cases act s (feThr s l e) with
  | stall => simp only [ranWord, h.run, h.parity]
  | _ => rfl

/-- A microword that a ready thread fetches completes with its outcome. -/
theorem FeReady.runs {i : Instr} {act : State → FeThr → FeRes} {P : State → Prop}
    (hexec : exec i s = feRuns s l e i (Machine.feOp s l e k act))
    (hP : P (settle (ranWord s l e (act s (feThr s l e))))) : LaneRuns s l e i P := by
  intro hf
  rw [hexec, feRuns, if_pos hf, h.feOp]
  exact completes_done hP

end

theorem port_wentOn (s u : State) (l : Nat) (e : Bool) (t : FeThr) (n p : Nat) : (wentOn s u l e t n).port p = u.port p := rfl

/-- A thread that goes on, in a state whose lanes are those of s. -/
theorem feNext_wentOn {s u : State} {l : Nat} {e : Bool} {t : FeThr} (hl : u.lanes = s.lanes) (hrun : t.run = true) (n : Nat) :
    FeNext s (settle (wentOn s u l e t n)) l e n where
  pc    := by simp [wentOn]
  cyc   := by simp [wentOn]
  run   := by simp [wentOn, hrun]
  other := by simp [wentOn, feThr_lanes hl]
  lanes m hm := by rw [lane_settle, wentOn, lane_setFeThr_ne _ _ _ hm, lane_lanes hl]

-- Counting and posting (R19, R263, R270) -------------------------------------------------------------------------------------------------------

/-- CNT of a counter: the counter counts, its flag is set, and the thread goes on. -/
theorem cnt_counts {s : State} {l : Lane} {dst src : Reg5} {imm : BitVec 16} (h : FeReady s l false fePost) {f : Field} {k : Flag}
    (hk : LaneCounter f k) (hn : feCount s l (imm.toNat % 4) = laneCount s l f k) :
    LaneRuns s l false (.cnt l false dst src imm) (fun t => Counted s t f l ∧ Flagged t k l ∧ FeNext s t l false 1) := by
  obtain ⟨hcount, hflag, hlanes⟩ := laneCount_spec s l hk
  refine h.runs rfl ?_
  rw [hn]
  generalize laneCount s l f k = u at hcount hflag hlanes ⊢
  exact ⟨hcount, hflag, feNext_wentOn hlanes h.run 1⟩

/-- Raising holds touches the ports alone. -/
theorem raiseHolds_rest (s : State) (a : Act) : { raiseHolds s a with ports := s.ports } = s := by
  unfold raiseHolds
  generalize List.range 12 = ps
  induction ps generalizing s with
  | nil => rfl
  | cons p ps ih =>
    rw [List.foldl_cons]
    split
    · exact congrArg (fun u : State => { u with ports := s.ports }) (ih (s.modPort p fun x => { x with holds := x.holds ++ [a.id] }))
    · exact ih s

/-- The activation that a post hands to the scheduler. -/
def posted (s : State) (t kind idx trig trigM budget : Nat) : Act :=
  { mkAct t kind idx trig trigM budget with id := s.plan.posts }

/-- A post appends its activation, and touches the ports and the number of posts besides. -/
theorem post_rest (s : State) (t kind idx trig trigM budget : Nat) :
    { post s t kind idx trig trigM budget with ports := s.ports } =
      { s with postq := s.postq ++ [posted s t kind idx trig trigM budget], plan := { s.plan with posts := s.plan.posts + 1 } } :=
  raiseHolds_rest _ _

theorem post_lanes (s : State) (t kind idx trig trigM budget : Nat) : (post s t kind idx trig trigM budget).lanes = s.lanes := by
  have h := congrArg State.lanes (post_rest s t kind idx trig trigM budget)
  exact h

theorem post_postq (s : State) (t kind idx trig trigM budget : Nat) :
    (post s t kind idx trig trigM budget).postq = s.postq ++ [posted s t kind idx trig trigM budget] := by
  have h := congrArg State.postq (post_rest s t kind idx trig trigM budget)
  exact h

/-- POST of a record that was found: its activation is posted where its ACT enables one. -/
theorem postF_posts {s : State} {l : Lane} {dst src : Reg5} {imm : BitVec 16} (h : FeReady s l false fePostVendor) {d r : Nat}
    (hlook : (feThr s l false).look = some (d, some r)) (htab : (feThr s l false).lookTab = 0)
    (hact : bit (wd (s.recw 1 r) 0) 30 = true) :
    LaneRuns s l false (.postF l false dst src imm) (fun t => FeNext s t l false 1 ∧ ∃ a : Act, t.postq = s.postq ++ [a] ∧
      a.tenant = bits (wd (s.recw 1 r) 0) 16 8 ∧ a.kind = 1 ∧ a.idx = r ∧ a.trig = feStamp s l ∧
      a.budget = wd (s.recw 1 r) 10) := by
  have hkind : lookKind 0 = 1 := rfl
  have hlanes := post_lanes s (bits (wd (s.recw 1 r) 0) 16 8) 1 r (feStamp s l) (feArr s l) (wd (s.recw 1 r) 10)
  have hpostq := post_postq s (bits (wd (s.recw 1 r) 0) 16 8) 1 r (feStamp s l) (feArr s l) (wd (s.recw 1 r) 10)
  have ha : ∀ t k i g m b, (posted s t k i g m b).tenant = t ∧ (posted s t k i g m b).kind = k ∧ (posted s t k i g m b).idx = i ∧
      (posted s t k i g m b).trig = g ∧ (posted s t k i g m b).budget = b := fun _ _ _ _ _ _ => ⟨rfl, rfl, rfl, rfl, rfl⟩
  refine h.runs rfl ?_
  simp only [hlook, htab, hkind]
  rw [if_pos (by simp [hact]), if_neg (by decide), if_neg (by decide)]
  generalize post s _ 1 r _ _ _ = u at hlanes hpostq ⊢
  exact ⟨feNext_wentOn hlanes h.run 1, _, hpostq, ha _ _ _ _ _ _⟩

-- Routine starts (R266, R272, R274) ----------------------------------------------------------------------------------------------------------------

/-- A thread at the start of an ingress routine: its registers are 0, and 4 cycles of dispatch have passed. -/
def startThr (ptN pc bound : Nat) (cust : Option Nat) (stk : List Nat) (hookRet : Option Nat) : FeThr :=
  { FeThr.init with run := true, cyc := 4, ptN := ptN, pc := pc, bound := bound, cust := cust, stk := stk, hookRet := hookRet }

theorem lreg_cleared {s : State} {l : Nat} {e : Bool} (h : (feThr s l e).x = []) {n : Nat} (hn : n < 25) : lreg s l e n = 0 := by
  simp [lreg, h, feReg, hn, tget]

/-- The thread that an ingress routine for EtherType `et` starts as: at the routine, or at a loaded PRE hook that returns to
it. -/
def ingressThr (s : State) (l et : Nat) : FeThr :=
  let r := routineFor s false et
  match hookEntry s false 1 with
  | some h => startThr (feThr s l false).ptN h.entry (effBound s h + effBound s r) (some h.tenant) [r.entry] (some r.entry)
  | none => startThr (feThr s l false).ptN r.entry (effBound s r) (some r.tenant) [] none

section
variable {s : State} {l : Lane} {q : QFrame} (hq : headFrame s l = some q) (hrun : (s.lane l).ing.run = false)
  (hup : lanesRun s l = true)
include hq hrun hup

theorem ingressStart_eq : ingressStart s l = setFeThr ((s.advanceTo (laneStart s l q)).setLane l
    { s.lane l with free := laneStart s l q }) l false (ingressThr s l q.f.etype.toNat) := by
  have hptN : (feThr ((s.advanceTo (laneStart s l q)).setLane l { s.lane l with free := laneStart s l q }) l false).ptN =
      (feThr s l false).ptN := by
    simp [feThr]
  have hhook : ∀ u : State, u.ks = s.ks → hookEntry u false 1 = hookEntry s false 1 := fun u hu => by
    simp only [hookEntry, custEntries, hu]
  unfold ingressStart
  simp only [hq, hrun, hup, Bool.not_true, Bool.or_self, Bool.false_eq_true, if_false]
  unfold ingressThr
  rw [hhook ((s.advanceTo (laneStart s l q)).setLane l { s.lane l with free := laneStart s l q }) rfl]
  cases hookEntry s false 1 with
  | none => simp only [hptN]; rfl
  | some h => simp only [hptN]; rfl

/-- A start at the head frame: the thread runs from its instant on, and the ports stand. -/
theorem ingressRoutineStart_starts {P : FeThr → Prop} (hP : P (ingressThr s l q.f.etype.toNat)) :
    Completes (exec (.ingressRoutineStart l) s) (fun t => (feThr t l false).run = true ∧
      (feThr t l false).cyc = 4 ∧ (feThr t l false).commit = false ∧ (∀ n < 25, lreg t l false n = 0) ∧
      t.now = max s.now (max q.ready (s.lane l).free) ∧ t.ports = s.ports ∧ P (feThr t l false)) := by
  refine completes_done ?_
  rw [ingressStart_eq hq hrun hup]
  obtain ⟨ptN, pc, bound, cust, stk, hookRet, hthr⟩ : ∃ ptN pc bound cust stk hookRet,
      ingressThr s l q.f.etype.toNat = startThr ptN pc bound cust stk hookRet := by
    unfold ingressThr
    cases hookEntry s false 1 with
    | none => exact ⟨_, _, _, _, _, _, rfl⟩
    | some h => exact ⟨_, _, _, _, _, _, rfl⟩
  rw [hthr] at hP ⊢
  simp only [feThr_settle, feThr_setFeThr_self]
  exact ⟨rfl, rfl, rfl, fun n hn => lreg_cleared (by simp [startThr, FeThr.init]) hn, advanceTo_now s _, rfl, hP⟩

end

/-- A start on a frame to build that no publication holds: it leaves the list. -/
theorem egressRoutineStart_starts {s : State} {l : Lane} {b : TxFrame} {rest : List TxFrame}
    (hnext : nextBuild (s.lane l).build = some (b, rest)) (hcb : b.cb = none) (hrun : (s.lane l).eg.run = false)
    (hup : lanesRun s l = true) :
    Completes (exec (.egressRoutineStart l) s) (fun t => (feThr t l true).run = true ∧
      (feThr t l true).build = some b ∧ (t.lane l).build = rest ∧ (t.lane l).ing = (s.lane l).ing ∧ OnlyLanes s t) := by
  have hstart : ∃ th : FeThr, th.run = true ∧ th.build = some b ∧
      egressStart s l = setFeThr (s.setLane l { s.lane l with build := rest }) l true th := by
    unfold egressStart
    simp only [hrun, hup, hnext, hcb, Bool.not_true, Bool.or_self, Bool.false_eq_true, if_false]
    refine ⟨_, ?_, ?_, rfl⟩
    · rfl
    · rfl
  obtain ⟨th, htrun, htbuild, hth⟩ := hstart
  refine completes_done ?_
  rw [hth]
  simp only [feThr_settle, feThr_setFeThr_self, lane_settle, lane_setFeThr_self, lane_setLane_self]
  exact ⟨htrun, htbuild, rfl, rfl, onlyLanes_withLanes s _⟩

-- Building a frame (R256, R274) -----------------------------------------------------------------------------------------------------------------

section
variable {s : State} {l : Lane} {dst src : Reg5} {imm : BitVec 16} (h : FeReady s l true feEgress)
include h

theorem ebeg_begins : LaneRuns s l true (.ebeg l true dst src imm) (fun t => FeNext s t l true 1 ∧ OnlyLanes s t ∧
    (feThr t l true).efrm = some []) := by
  refine h.runs rfl ⟨feNext_wentOn rfl (by exact h.run) 1, onlyLanes_setFeThr _ _ _ _, ?_⟩
  simp [ranWord, wentOn]

theorem eput_appends {bs : List Byte} (hbs : (feThr s l true).efrm = some bs) (hlo : 1 ≤ imm.toNat % 8) (hhi : imm.toNat % 8 ≤ 4) :
    LaneRuns s l true (.eput l true dst src imm) (fun t => FeNext s t l true 1 ∧ OnlyLanes s t ∧
      (feThr t l true).efrm = some (bs ++ beBytes (imm.toNat % 8) (lreg s l true src))) := by
  have hn : (imm.toNat % 8 = 0 || 4 < imm.toNat % 8 : Bool) = false := by
    simp only [Bool.or_eq_false_iff, decide_eq_false_iff_not]
    omega
  refine h.runs rfl ?_
  simp only [hn, Bool.false_eq_true, if_false]
  refine ⟨feNext_wentOn rfl (by exact h.run) 1, onlyLanes_setFeThr _ _ _ _, ?_⟩
  simp [ranWord, wentOn, hbs, lreg]

end

/-- A frame that its class queue has room for, on a port that neither lost its link nor decides, enters the queue. -/
theorem enqueue_enters {s : State} {p : Nat} {t : TxFrame} (hon : s.stopped = false) (hlink : linkUp s p = true)
    (hdec : s.fb fEP_EG_DEC p = false) (hroom : classDepth s p t.cls < 32) :
    ∃ n, enqueue s p t = s.modPort p fun x => { x with egq := x.egq ++ [{ t with rdy := n }] } := by
  have hmax : overDmax s p t = false := by simp [overDmax, hdec]
  refine ⟨max t.rdy ((s.now / nsU + 1) * nsU), ?_⟩
  unfold enqueue
  simp only [hon, hlink, hmax, Bool.not_true, Bool.false_eq_true, if_false]
  exact if_neg (Nat.not_le.mpr hroom)

theorem lanesRun_on {s : State} {l : Nat} (h : lanesRun s l = true) : s.stopped = false := by
  simp only [lanesRun, Bool.and_eq_true, Bool.not_eq_true'] at h
  exact h.2

/-- The frame that ESEND queues of the frame `f`, whose bytes have been put: with a tag where a key is in effect (R252). -/
def sentFrame (key : Option (Nat × Nat × List Byte)) (f : Frame) : Frame :=
  match key with
  | some (pair, k) => { f with tag := some (makeTag pair k f) }
  | none => f

/-- ESEND of a frame that its class queue has room for: the frame is tagged and placed, and the thread goes on past its commit
point. -/
theorem feEsend_sends {s : State} {l : Lane} (h : FeReady s l true feEgress) {b : TxFrame} {bs : List Byte}
    (hb : (feThr s l true).build = some b) (hbs : (feThr s l true).efrm = some bs) (hroom : classDepth s l b.cls < 32) :
    let f := sentFrame (feThr s l true).ekey { b.f with bytes := bs }
    feEsend s l true = wentOn s (enqueue s l { b with f := { f with len := builtLen f } }) l true
      { feThr s l true with build := none, efrm := none, commit := true } 1 := by
  intro f
  unfold feEsend
  rw [h.feOp]
  simp only [hb, hbs]
  rw [if_neg (Nat.not_le.mpr hroom)]
  simp only [f, sentFrame]
  cases (feThr s l true).ekey <;> rfl

theorem esend_queues {s : State} {l : Lane} {dst src : Reg5} {imm : BitVec 16} (h : FeReady s l true feEgress) {b : TxFrame}
    {bs : List Byte} (hb : (feThr s l true).build = some b) (hbs : (feThr s l true).efrm = some bs)
    (hroom : classDepth s l b.cls < 32) (hlink : linkUp s l = true) (hdec : s.fb fEP_EG_DEC l = false) {f : Frame}
    (hf : sentFrame (feThr s l true).ekey { b.f with bytes := bs } = f) :
    LaneRuns s l true (.esend l true dst src imm) (fun t => FeNext s t l true 1 ∧ (feThr t l true).build = none ∧
      (feThr t l true).commit = true ∧
      (∃ n, (t.port l).egq = (s.port l).egq ++ [{ b with f := { f with len := builtLen f }, rdy := n }]) ∧
      (t.port l).ing = (s.port l).ing) := by
  obtain ⟨n, hn⟩ := enqueue_enters (t := { b with f := { f with len := builtLen f } }) (lanesRun_on h.up) hlink hdec hroom
  have hexec : exec (.esend l true dst src imm) s = feRuns s l true (.esend l true dst src imm) (feEsend s l true) := rfl
  have hsends := feEsend_sends h hb hbs hroom
  simp only [hf, hn] at hsends
  intro hfetched
  rw [hexec, feRuns, if_pos hfetched, hsends]
  generalize hu : (s.modPort l fun x => { x with egq := x.egq ++ [{ b with f := { f with len := builtLen f }, rdy := n }] }) = u
  have hlanes : u.lanes = s.lanes := by rw [← hu]; rfl
  have hport : u.port l = { s.port l with egq := (s.port l).egq ++ [{ b with f := { f with len := builtLen f }, rdy := n }] } := by
    rw [← hu, port_modPort_self]
  refine completes_done ⟨feNext_wentOn hlanes (by exact h.run) 1, ?_, ?_, ⟨n, ?_⟩, ?_⟩
  · simp [wentOn]
  · simp [wentOn]
  · rw [port_settle, port_wentOn, hport]
  · rw [port_settle, port_wentOn, hport]

-- Loading microcode (R278–R280) -----------------------------------------------------------------------------------------------------------------

/-- Image words lie outside FE_LOAD: what is staged does not depend on it. -/
theorem stagedImage_load (s : State) (v : Nat) : stagedImage (s.setF fFE_LOAD_STATE v) = stagedImage s := by
  have hw : ∀ i, (s.setF fFE_LOAD_STATE v).reg rFE_STAGE i 0 = s.reg rFE_STAGE i 0 := fun i =>
    reg_setF_ne s rFE_STAGE _ _ _ _ _ _ (by simp only [Reg.key, rFE_STAGE, fFE_LOAD_STATE, rFE_LOAD]; omega)
  simp only [stagedImage, stagedLen, hw]

/-- A flag of FE_USTAT: it is one bit, and its counter is one of the two set counters beside it (R283). -/
structure UnitFlag (k : Flag) : Prop where
  reg : k.f.reg = rFE_USTAT
  bit : k.f.hi = k.f.lo ∧ k.f.lo < 32
  cnt : ∀ c, k.cnt = some c → c.reg = rFE_USETCNT0 ∨ c.reg = rFE_USETCNT1

theorem unitFlag_loadref : UnitFlag kFE_USTAT_LOADREF := ⟨rfl, by decide, fun _ hc => .inl (Option.some.inj hc ▸ rfl)⟩
theorem unitFlag_loadok : UnitFlag kFE_USTAT_LOADOK := ⟨rfl, by decide, fun _ hc => .inl (Option.some.inj hc ▸ rfl)⟩

/-- A flag of FE_USTAT is set, and FE_LOAD stands. -/
theorem UnitFlag.raise {k : Flag} (h : UnitFlag k) (s : State) :
    Flagged (raise s k) k ∧ ∀ f : Field, f.reg = rFE_LOAD → (raise s k).f f = s.f f := by
  have hkey : ∀ c, k.cnt = some c → c.reg.key 0 0 = 0x520008 ∨ c.reg.key 0 0 = 0x52000c := fun c hc =>
    (h.cnt c hc).imp (fun e => by rw [e]; rfl) (fun e => by rw [e]; rfl)
  have hflag : k.f.reg.key 0 0 = 0x520004 := by rw [h.reg]; rfl
  have hload : rFE_LOAD.key 0 0 = 0x520014 := rfl
  refine ⟨flagged_raise s k 0 0 h.bit.1 h.bit.2 (fun c hc => ?_) (not_sideKey (.inl (by rw [hflag]; decide))), fun f hf => ?_⟩
  · have := hkey c hc
    omega
  · refine f_raise_ne s ?_ (fun c hc => ?_) (not_sideKey (.inl ?_))
    · rw [hf]
      omega
    · have := hkey c hc
      rw [hf]
      omega
    · rw [hf, hload]
      decide

/-- A refused image: the reason is on record and its flag is set, and STATE, the check and the stores stand. -/
theorem loadRefuse_spec (s : State) {r : Nat} (hr : r < 16) :
    (loadRefuse s r).f fFE_LOAD_REASON = r ∧ (loadRefuse s r).f fFE_LOAD_STATE = s.f fFE_LOAD_STATE ∧
    Flagged (loadRefuse s r) kFE_USTAT_LOADREF ∧ OnlySignals (s.setF fFE_LOAD_REASON r) (loadRefuse s r) := by
  obtain ⟨hflag, hload⟩ := unitFlag_loadref.raise (s.setF fFE_LOAD_REASON r)
  refine ⟨?_, ?_, hflag, onlySignals_raise _ _ _ _⟩
  · rw [loadRefuse, hload _ rfl, f_setF_self _ _ _ _ _ (by decide)]
    exact Nat.mod_eq_of_lt hr
  · rw [loadRefuse, hload _ rfl]
    exact f_setF_field s _ _ _ _ _ (by decide) (by decide) rfl (by decide) (by decide)

theorem feLoadGo_starts {s : State} {v : Word} (hgo : bit v.toNat 31 = true) (hidle : s.f fFE_LOAD_STATE = 0) :
    Completes (exec (.feLoadGo v) s) (fun t => t.f fFE_LOAD_STATE = 1 ∧ t.verify = some s.now ∧ t.store = s.store ∧
      t.newImg = s.newImg) := by
  have hx : feLoadGo s v = { s.setF fFE_LOAD_STATE 1 with verify := some s.now } := by
    simp [feLoadGo, hgo, hidle]
  refine completes_done ?_
  rw [hx]
  refine ⟨?_, rfl, rfl, rfl⟩
  exact f_setF_self s fFE_LOAD_STATE 1 0 0 (by decide)

theorem feLoadGo_refused {s : State} {v : Word} (hgo : bit v.toNat 31 = true) (hbusy : s.f fFE_LOAD_STATE ≠ 0) :
    Completes (exec (.feLoadGo v) s) (fun t => t.f fFE_LOAD_REASON = 8 ∧ Flagged t kFE_USTAT_LOADREF ∧ t.verify = s.verify ∧
      t.store = s.store) := by
  have hx : feLoadGo s v = loadRefuse s 8 := by simp [feLoadGo, hgo, hbusy]
  obtain ⟨hreason, -, hflag, hrest⟩ := loadRefuse_spec s (r := 8) (by decide)
  refine completes_done ?_
  rw [hx]
  generalize loadRefuse s 8 = u at hreason hflag hrest ⊢
  exact ⟨hreason, hflag, hrest.verify, hrest.store⟩

/-- The state in which the staged image's check has ended, and its verdict is to be drawn. -/
def checked (s : State) : State := { s.setF fFE_LOAD_STATE 0 with verify := none }

theorem stagedImage_checked (s : State) : stagedImage (checked s) = stagedImage s := stagedImage_load s 0

theorem checked_idle (s : State) : (checked s).f fFE_LOAD_STATE = 0 := f_setF_self s fFE_LOAD_STATE 0 0 0 (by decide)

theorem imageReason_lt (s : State) (img : List Byte) : imageReason s img < 16 := by
  unfold imageReason
  dsimp only
  repeat' refine iteInduction (motive := (· < 16)) (fun _ => by decide) fun _ => ?_
  decide

/-- The state in which an image that passed waits for the boundary. -/
def passed (s : State) (img : List Byte) : State :=
  let cust := imgVal img 5 1
  let s := { s with newImg := s.newImg.filter (fun x => x.1 != cust) ++ [(cust, img)] }
  if cust = 1 then { s.setF fFE_LOAD_STATE 2 with shadow := mwrite s.shadow 0 (imageWords img 2048) } else s

/-- The verdict on an image whose check has ended. -/
def judged (s : State) (img : List Byte) : State :=
  if imageReason s img != 0 then loadRefuse s (imageReason s img) else raise (passed s img) kFE_USTAT_LOADOK

theorem verificationEnd_eq {s : State} {n : Nat} (hv : s.verify = some n) :
    verificationEnd s = judged (checked s) (stagedImage s) := by
  have hx : verificationEnd s = match s.verify with
    | none => s
    | some _ => judged (checked s) (stagedImage (checked s)) := rfl
  rw [hx, hv, stagedImage_checked]

theorem judged_passes {s : State} {img : List Byte} (hr : imageReason s img = 0) :
    judged s img = raise (passed s img) kFE_USTAT_LOADOK := by simp [judged, hr]

theorem judged_fails {s : State} {img : List Byte} (hr : imageReason s img ≠ 0) : judged s img = loadRefuse s (imageReason s img) := by
  simp [judged, hr]

/-- What waits for the boundary: STATE is 2 for a customer image, and no store changes. -/
theorem passed_spec (s : State) (img : List Byte) (hidle : s.f fFE_LOAD_STATE = 0) :
    (passed s img).f fFE_LOAD_STATE = (if imgVal img 5 1 = 1 then 2 else 0) ∧ (passed s img).verify = s.verify ∧
    (passed s img).store = s.store ∧ (imgVal img 5 1, img) ∈ (passed s img).newImg := by
  unfold passed
  dsimp only
  split
  · exact ⟨f_setF_self _ fFE_LOAD_STATE 2 0 0 (by decide), rfl, rfl, by simp⟩
  · exact ⟨hidle, rfl, rfl, by simp⟩

theorem verificationEnd_passes {s : State} {n : Nat} (hv : s.verify = some n)
    (hr : imageReason (s.setF fFE_LOAD_STATE 0) (stagedImage s) = 0) :
    Completes (exec .verificationEnd s) (fun t => Flagged t kFE_USTAT_LOADOK ∧ t.verify = none ∧ t.store = s.store ∧
      (imgVal (stagedImage s) 5 1, stagedImage s) ∈ t.newImg ∧
      t.f fFE_LOAD_STATE = if imgVal (stagedImage s) 5 1 = 1 then 2 else 0) := by
  obtain ⟨hstate, hverify, hstore, hmem⟩ := passed_spec (checked s) (stagedImage s) (checked_idle s)
  generalize hp : passed (checked s) (stagedImage s) = p at hstate hverify hstore hmem
  obtain ⟨hflag, hload⟩ := unitFlag_loadok.raise p
  have hrest := onlySignals_raise p kFE_USTAT_LOADOK 0 0
  refine completes_done ?_
  rw [verificationEnd_eq hv, judged_passes (s := checked s) hr, hp]
  generalize raise p kFE_USTAT_LOADOK = u at hflag hload hrest ⊢
  exact ⟨hflag, hrest.verify.trans hverify, hrest.store.trans hstore, hrest.newImg ▸ hmem, (hload _ rfl).trans hstate⟩

theorem verificationEnd_fails {s : State} {n : Nat} (hv : s.verify = some n)
    (hr : imageReason (s.setF fFE_LOAD_STATE 0) (stagedImage s) ≠ 0) :
    Completes (exec .verificationEnd s) (fun t => Flagged t kFE_USTAT_LOADREF ∧ t.verify = none ∧ t.f fFE_LOAD_STATE = 0 ∧
      t.store = s.store ∧ t.newImg = s.newImg) := by
  obtain ⟨-, hstate, hflag, hrest⟩ := loadRefuse_spec (checked s) (imageReason_lt (checked s) (stagedImage s))
  refine completes_done ?_
  rw [verificationEnd_eq hv, judged_fails (s := checked s) hr]
  generalize loadRefuse (checked s) _ = u at hstate hflag hrest ⊢
  exact ⟨hflag, hrest.verify, hstate.trans (checked_idle s), hrest.store, hrest.newImg⟩

-- RUN and LOCK (R280, R402) -----------------------------------------------------------------------------------------------------------------------

@[simp] theorem fb_settle (s : State) (f : Field) (i j : Nat) : (settle s).fb f i j = s.fb f i j := rfl

theorem fb_setF_bool (s : State) (f : Field) (b : Bool) (i j : Nat) (hw : f.hi = f.lo) (hlo : f.lo < 32) :
    (s.setF f (b2n b) i j).fb f i j = b := by
  rw [State.fb, f_setF_self _ _ _ _ _ (by simp only [Field.w]; omega)]
  cases b <;> simp [b2n, Field.w, hw]

theorem fb_setRunLock (s : State) (run lock : Bool) :
    ((s.setF fFE_CTL_RUN (b2n run)).setF fFE_CTL_LOCK (b2n lock)).fb fFE_CTL_RUN = run ∧
    ((s.setF fFE_CTL_RUN (b2n run)).setF fFE_CTL_LOCK (b2n lock)).fb fFE_CTL_LOCK = lock := by
  refine ⟨?_, fb_setF_bool _ _ _ 0 0 rfl (by decide)⟩
  rw [State.fb, f_setF_field _ fFE_CTL_LOCK fFE_CTL_RUN _ _ _ (by decide) (by decide) rfl (by decide) (by decide)]
  exact fb_setF_bool s fFE_CTL_RUN run 0 0 rfl (by decide)

theorem feCtl_unlocked {s : State} (hl : s.fb fFE_CTL_LOCK = false) (v : Word) :
    feCtl s v = (s.setF fFE_CTL_RUN (b2n (bit v.toNat 0 && (s.fb fFE_CTL_RUN || (s.f fFE_UCODE_VER_VVER != 0 && !s.bist.crit))))).setF
      fFE_CTL_LOCK (b2n (bit v.toNat 31)) := by
  have hrun : (if bit v.toNat 0 && (s.bist.crit || s.f fFE_UCODE_VER_VVER = 0) then s.fb fFE_CTL_RUN else bit v.toNat 0) =
      (bit v.toNat 0 && (s.fb fFE_CTL_RUN || (s.f fFE_UCODE_VER_VVER != 0 && !s.bist.crit))) := by
    by_cases hver : s.f fFE_UCODE_VER_VVER = 0
    · cases bit v.toNat 0 <;> simp [hver]
    · cases bit v.toNat 0 <;> cases s.bist.crit <;> simp [hver]
  unfold feCtl
  rw [if_neg (by simp [hl])]
  simp only [hrun]

theorem feCtlRun_sets {s : State} {v : Word} (hl : s.fb fFE_CTL_LOCK = false) :
    Completes (exec (.feCtlRun v) s) (fun t =>
      t.fb fFE_CTL_RUN = (bit v.toNat 0 && (s.fb fFE_CTL_RUN || (s.f fFE_UCODE_VER_VVER != 0 && !s.bist.crit))) ∧
      t.fb fFE_CTL_LOCK = bit v.toNat 31) := by
  refine completes_done ?_
  rw [feCtl_unlocked hl, fb_settle, fb_settle]
  exact fb_setRunLock s _ _

-- The statements --------------------------------------------------------------------------------------------------------------------------------------

theorem laneRoutines : Clause.LaneRoutines := by
  intro s l dst src imm
  refine ⟨fun h => ?_, fun h d r hlook htab hact => postF_posts h hlook htab hact, fun q hq hrun hup => ?_,
    fun b rest hnext hcb hrun hup => egressRoutineStart_starts hnext hcb hrun hup, fun h => ⟨ebeg_begins h, ?_, ?_⟩⟩
  · exact ⟨fun hn => cnt_counts h laneCounter_authfail (by rw [hn]; rfl), fun hn => cnt_counts h laneCounter_nomatch (by rw [hn]; rfl),
      fun hn => cnt_counts h laneCounter_ringdrop (by rw [hn]; rfl), fun hn => cnt_counts h laneCounter_malform (by rw [hn]; rfl)⟩
  · intro r starts
    have hstarts : ∀ P, P (ingressThr s l q.f.etype.toNat) → starts P := fun P hP => ingressRoutineStart_starts hq hrun hup hP
    clear_value starts
    refine ⟨fun hnone => ?_, fun k hsome => ?_⟩
    · refine hstarts _ ?_
      simp only [ingressThr, hnone]
      exact ⟨rfl, rfl, rfl⟩
    · refine hstarts _ ?_
      simp only [ingressThr, hsome]
      exact ⟨rfl, rfl, rfl, rfl⟩
  · exact fun bs hbs hlo hhi => eput_appends h hbs hlo hhi
  · intro b bs hb hbs hroom hlink hdec
    refine esend_queues h hb hbs hroom hlink hdec ?_
    unfold sentFrame
    cases (feThr s l true).ekey <;> rfl

theorem microcodeLoading : Clause.MicrocodeLoading := by
  intro s v
  refine ⟨fun hgo => ?_, feLoadGo_starts, feLoadGo_refused, fun n hv => ⟨verificationEnd_passes hv, verificationEnd_fails hv⟩,
    feCtlRun_sets, fun hl => ?_⟩
  · refine completes_done ?_
    simp [Same, feLoadGo, hgo]
  · refine completes_done ?_
    simp [Same, feCtl, hl]

/-- Settles O33: each clause is the lemma about its microword, its routine start or its write. -/
theorem routinesAndMicrocode : Obligations.RoutinesAndMicrocode := ⟨laneRoutines, microcodeLoading⟩

end Sys2Proof.Machine
end

section
/-! PROOFS. The ends of activations and returns from handlers (R44, R100, R158, R184, R186, R457): the core that is freed,
the completion that is in time, the bank that is restored, and the statement EndsAndReturns assembled from them. -/

namespace Sys2Proof.Machine
open Sys2Proof

/-- The instruction that core c fetches next runs its semantics. -/
theorem runs_of_exec {s t : State} {c : Core} {i : Instr} {P : State → Prop} (he : exec i s = runs s c i t)
    (h : P (settle t)) : Runs s c i P := by
  intro hf
  refine ⟨settle t, ?_, h⟩
  rw [he, runs, if_pos hf]
  rfl

theorem core_settle (s : State) (c : Nat) : (settle s).core c = s.core c := rfl
theorem dl_settle (s : State) (t : Nat) : (settle s).dl t = s.dl t := rfl

/-- A core that issues a context's instructions is in tenant mode. -/
theorem sup_of_curCtx {s : State} {c q : Nat} (h : curCtx s c = some q) : (s.core c).sup = false := by
  unfold curCtx at h
  split at h
  · exact absurd h (by simp)
  · next hs => simpa using hs

-- The state in which an instruction acts ------------------------------------------------------------------------------------------------

section
variable {s t : State} {c : Nat} {k : Option Nat}

theorem OwnSet.core_field {α : Type} (h : OwnSet s t c k) (g : CoreSt → α) (hg : ∀ x r, g { x with thr := r } = g x) :
    g (t.core c) = g (s.core c) := by
  rw [← hg (t.core c) (s.core c).thr, h.core]

theorem OwnSet.ctx_field {α : Type} {q : Nat} (h : OwnSet s t c (some q)) (g : Ctx → α)
    (hg : ∀ x r y, g { x with thr := r, sec := y } = g x) : g (t.ctx c q) = g (s.ctx c q) := by
  rw [← hg (t.ctx c q) (s.ctx c q).thr (s.ctx c q).sec, h.ctx q rfl]

/-- Nothing of the device but the cores' and contexts' records is written. -/
theorem OwnSet.dev_field {α : Type} (h : OwnSet s t c k) (g : State → α)
    (hg : ∀ x y z, g { x with cores := y, ctxs := z } = g x) : g t = g s := by
  rw [← hg t s.cores s.ctxs, h.rest]

/-- A supervisor's instruction writes no context. -/
theorem OwnSet.ctx_none (h : OwnSet s t c none) (n q : Nat) : t.ctx n q = s.ctx n q := by
  unfold State.ctx
  rw [h.ctxs _ (by simp)]

theorem OwnSet.issueCyc (h : OwnSet s t c k) : issueCyc t c = issueCyc s c := by
  unfold Machine.issueCyc
  rw [h.core_field (fun x => x.cyc) (fun _ _ => rfl), h.dev_field State.nowCyc (fun _ _ _ => rfl)]

end

-- A freed core (R159, R457) ------------------------------------------------------------------------------------------------------------

section
variable {s : State} {c : Nat} {r : Run}

/-- t is s but for the cores' and contexts' records, the span registers and tanks, and the ports. -/
def FreedOnly (s t : State) : Prop :=
  { t with cores := s.cores, ctxs := s.ctxs, vreg := s.vreg, vcls := s.vcls, mask := s.mask, tanks := s.tanks,
           ports := s.ports } = s

theorem FreedOnly.refl (s : State) : FreedOnly s s := rfl

theorem FreedOnly.modCtx {t : State} (h : FreedOnly s t) (n q : Nat) (f : Ctx → Ctx) : FreedOnly s (t.modCtx n q f) := h
theorem FreedOnly.modCore {t : State} (h : FreedOnly s t) (n : Nat) (f : CoreSt → CoreSt) :
    FreedOnly s (t.modCore n f) := h
theorem FreedOnly.clearSpan {t : State} (h : FreedOnly s t) (n w : Nat) : FreedOnly s (clearSpan t n w) := h
theorem FreedOnly.endHolds {t : State} (h : FreedOnly s t) : FreedOnly s (endHolds t) := h

theorem freedOnly_freeCore (s : State) (c : Nat) : FreedOnly s (freeCore s c) := by
  unfold freeCore
  split
  · exact FreedOnly.refl s
  · exact ((((FreedOnly.refl s).modCtx _ _ _).modCore _ _).clearSpan _ _).endHolds

theorem freeCore_field {α : Type} (g : State → α)
    (hg : ∀ x a b v w m t p, g { x with cores := a, ctxs := b, vreg := v, vcls := w, mask := m, tanks := t, ports := p } =
      g x) : g (freeCore s c) = g s := by
  have h := freedOnly_freeCore s c
  unfold FreedOnly at h
  rw [← hg (freeCore s c) s.cores s.ctxs s.vreg s.vcls s.mask s.tanks s.ports, h]

/-- A freed core is in supervisor mode, at its resume point where no handler was running. -/
theorem core_freeCore (hr : (s.core c).run = some r) (hs : (s.core c).sup = false) :
    ((freeCore s c).core c).run = none ∧ ((freeCore s c).core c).sup = true ∧
      ((freeCore s c).core c).thr.r.pc = (s.core c).rpc := by
  have h : (freeCore s c).core c =
      ((s.modCtx c r.ctx fun x => { x with
          sec := none, waitRel := [], dl := false,
          thr := { x.thr with r := x.thr.r.plain, pend := [], dslot := [], held := [], pwr := none } }).modCore c fun k =>
        let k := { k with run := none, vq := [], jobs := [], frozen := false, vflt := false, vheld := [], br := none }
        if k.sup then k
        else { k with sup := true, waiting := k.rwait, cyc := max k.cyc s.nowCyc + 24, freed := max k.cyc s.nowCyc,
                      thr := { k.thr with r := { k.thr.r with pc := k.rpc } } }).core c := by
    unfold freeCore
    rw [hr]
    rfl
  rw [h, core_modCore_self, core_modCtx]
  simp [hs]

end

-- A completion in time (R22, R44) -------------------------------------------------------------------------------------------------------

section
variable {s : State} {c : Nat} {r : Run}

theorem ubPump_rest (s : State) : { ubPump s with ub := s.ub } = s := by
  have step : ∀ (fs : List UbFrame) (a : State), { a with ub := s.ub } = s →
      { fs.foldl (fun (s : State) f => match ubHand s f with
        | some s => s
        | none => { s with ub := { s.ub with out := s.ub.out ++ [f] } }) a with ub := s.ub } = s := by
    intro fs
    induction fs with
    | nil => exact fun a ha => ha
    | cons f fs ih =>
      intro a ha
      refine ih _ ?_
      dsimp only
      split
      · next t ht =>
        unfold ubHand at ht
        dsimp only at ht
        split at ht
        · simpa only [ubOwed, ← Option.some.inj ht] using ha
        · split at ht
          · exact absurd ht (by simp)
          · simpa only [ubOwed, ← Option.some.inj ht] using ha
      · exact ha
  exact step _ _ rfl

theorem ubSend_rest (s : State) (vc : Fin 4) (ty : Nat) (d : List Byte) : { ubSend s vc ty d with ub := s.ub } = s := by
  unfold ubSend
  split
  · have h := congrArg (fun x : State => { x with ub := s.ub }) (ubPump_rest { s with ub := { s.ub with out := s.ub.out ++
      [⟨BitVec.ofNat 8 ty, vc.val != 0, 0, [], vc, 0, true, d⟩] } })
    exact h
  · rfl

theorem ckptSend_rest (s : State) (t : Nat) : { ckptSend s t with ub := s.ub } = s := by
  unfold ckptSend
  dsimp only
  generalize (s.place t).1 = n, (s.place t).2 = q
  suffices h : ∀ (is : List Nat) (a : State), { a with ub := s.ub } = s →
      { is.foldl (fun s i => ubSend s 2 3 (beBytes 4 t ++ beBytes 4 (2040 * i) ++
        trayBytes s n (16384 * q + 2040 * i) (if i < 8 then 2040 else 64))) a with ub := s.ub } = s from h _ s rfl
  intro is
  induction is with
  | nil => exact fun a ha => ha
  | cons i is ih =>
    intro a ha
    refine ih _ ?_
    have h := congrArg (fun x : State => { x with ub := s.ub }) (ubSend_rest a 2 3 (beBytes 4 t ++ beBytes 4 (2040 * i) ++
      trayBytes a n (16384 * q + 2040 * i) (if i < 8 then 2040 else 64)))
    exact Eq.trans h ha

/-- Counting towards a checkpoint writes the link's record only. -/
theorem ckptCount_rest (s : State) (t : Nat) : { ckptCount s t with ub := s.ub } = s := by
  unfold ckptCount
  dsimp only
  split
  · split
    · exact congrArg (fun x : State => { x with ub := s.ub })
        (ckptSend_rest { s with ub := { s.ub with ckcnt := tput s.ub.ckcnt t 0 } } t)
    · rfl
  · rfl

theorem ckptCount_field {α : Type} (g : State → α) (hg : ∀ x u, g { x with ub := u } = g x) (t : Nat) :
    g (ckptCount s t) = g s := by
  rw [← hg (ckptCount s t) s.ub, ckptCount_rest]

/-- A completion no later than the cycle of deadline − E, while DLM_CTL.EN is set and outside stop bath, counts DONE and
ends the run of misses. -/
theorem judge_inTime {u : State} {a : Act} {pc : Nat} (he : u.fb fDLM_CTL_EN = true) (hs : u.stopped = false)
    (ho : onTime u a = true) :
    judge u a pc = (u.setDl a.tenant { u.dl a.tenant with run := 0 }).wrapInc fDLM_TN_CNT_DONE a.tenant := by
  unfold judge
  rw [if_neg (by simp [he, hs]), if_pos ho]

theorem dl_setDl_self (s : State) (t : Nat) (x : Dlm) : (s.setDl t x).dl t = x := by simp [State.dl, State.setDl]

theorem transitionGo_none {u : State} (h : u.ks.trans = none) : transitionGo u = u := by
  unfold transitionGo
  rw [h]

/-- What a completion in time leaves: the freed core's records, DONE one higher, and no run of misses (R22, R44). -/
structure CompletedInTime (s t : State) (c : Nat) (r : Run) : Prop where
  core : t.core c = (freeCore s c).core c
  done : t.f fDLM_TN_CNT_DONE r.act.tenant = (s.f fDLM_TN_CNT_DONE r.act.tenant + 1) % 2 ^ fDLM_TN_CNT_DONE.w
  run  : (t.dl r.act.tenant).run = 0

/-- The state after a run of tenant t on the freed core u, without a mismatch, was judged in time. -/
def countedDone (u : State) (t : Nat) : State :=
  ckptCount
    (((u.setDl t { u.dl t with mrun := 0 }).setDl t { u.dl t with mrun := 0, run := 0 }).wrapInc fDLM_TN_CNT_DONE t) t

theorem core_countedDone (u : State) (t n : Nat) : (countedDone u t).core n = u.core n :=
  ckptCount_field (·.core n) (fun _ _ => rfl) t

theorem done_countedDone (u : State) (t : Nat) :
    (countedDone u t).f fDLM_TN_CNT_DONE t = (u.f fDLM_TN_CNT_DONE t + 1) % 2 ^ fDLM_TN_CNT_DONE.w := by
  rw [countedDone, ckptCount_field (·.f fDLM_TN_CNT_DONE t) (fun _ _ => rfl), State.wrapInc,
    f_setF_self _ _ _ _ _ (by decide)]
  rfl

theorem run_countedDone (u : State) (t : Nat) : ((countedDone u t).dl t).run = 0 := by
  rw [countedDone, ckptCount_field (·.dl t) (fun _ _ => rfl)]
  exact congrArg Dlm.run (dl_setDl_self _ _ _)

theorem complete_eq (hr : (s.core c).run = some r) (hm : r.mism = false) (hl : r.act.lent = false)
    (hw : (s.ctx c r.ctx).waitRel = []) (ht : s.ks.trans = none) (he : s.fb fDLM_CTL_EN = true) (hs : s.stopped = false)
    (ho : onTime s r.act = true) : complete s c = countedDone (freeCore s c) r.act.tenant := by
  unfold complete
  rw [hr]
  dsimp only
  have hrel : releaseAll s c r.ctx r.act [] = s := rfl
  have hm' : ¬r.mism = true := by simp [hm]
  have hl' : ¬r.act.lent = true := by simp [hl]
  rw [if_neg (by simp [hm]), if_neg hl', if_neg hm', if_neg hl', hw, hrel]
  have he' : (freeCore s c).fb fDLM_CTL_EN = true := he ▸ freeCore_field (·.fb fDLM_CTL_EN) (fun _ _ _ _ _ _ _ _ => rfl)
  have hs' : (freeCore s c).stopped = false := hs ▸ freeCore_field (·.stopped) (fun _ _ _ _ _ _ _ _ => rfl)
  have hn' : (freeCore s c).nowCyc = s.nowCyc := freeCore_field (·.nowCyc) (fun _ _ _ _ _ _ _ _ => rfl)
  have hc' : (freeCore s c).cyc = s.cyc := freeCore_field (·.cyc) (fun _ _ _ _ _ _ _ _ => rfl)
  have hd' : (freeCore s c).dl r.act.tenant = s.dl r.act.tenant := freeCore_field (·.dl _) (fun _ _ _ _ _ _ _ _ => rfl)
  have ht' : (freeCore s c).ks.trans = none := ht ▸ freeCore_field (·.ks.trans) (fun _ _ _ _ _ _ _ _ => rfl)
  generalize freeCore s c = u at *
  rw [judge_inTime (u := u.setDl _ _) he' hs', dl_setDl_self]
  · exact transitionGo_none ((ckptCount_field (·.ks.trans) (fun _ _ => rfl) _).trans ht')
  · simp only [onTime, fixedAt, dl_setDl_self] at ho ⊢
    rw [hd']
    show decide (u.nowCyc ≤ _ / u.cyc) = true
    rw [hn', hc']
    exact ho

theorem complete_inTime (hr : (s.core c).run = some r) (hm : r.mism = false) (hl : r.act.lent = false)
    (hw : (s.ctx c r.ctx).waitRel = []) (ht : s.ks.trans = none) (he : s.fb fDLM_CTL_EN = true) (hs : s.stopped = false)
    (ho : onTime s r.act = true) : CompletedInTime s (complete s c) c r := by
  rw [complete_eq hr hm hl hw ht he hs ho]
  have hf : (freeCore s c).f fDLM_TN_CNT_DONE r.act.tenant = s.f fDLM_TN_CNT_DONE r.act.tenant :=
    freeCore_field (·.f fDLM_TN_CNT_DONE r.act.tenant) (fun _ _ _ _ _ _ _ _ => rfl)
  exact ⟨core_countedDone _ _ _, (done_countedDone _ _).trans (congrArg (fun n => (n + 1) % 2 ^ fDLM_TN_CNT_DONE.w) hf),
    run_countedDone _ _⟩

end

-- END (R158) --------------------------------------------------------------------------------------------------------------------------

section
variable {s : State} {c q : Nat} {r : Run}

/-- The state in which the activation of context q of core c completes: time has come to the core's issue, and no loop is
active any more. -/
def atEnd (s : State) (c q : Nat) : State :=
  (toIssue s c).modCtx c q fun x =>
    { x with thr := { x.thr with r := { x.thr.r with l0 := Loop.init, l1 := Loop.init, l2 := Loop.init } } }

theorem waitRel_atEnd (h : (s.ctx c q).waitRel = []) : ((atEnd s c q).ctx c q).waitRel = [] := by
  rw [atEnd, ctx_modCtx_self]
  exact h

/-- With nothing pending and no output to release, the end of an activation is its completion (R22). -/
theorem endActivation_calm (hw : waitAll s c (some q) = s) (hr : (s.core c).run = some r)
    (hq : (s.ctx c q).waitRel = []) : endActivation s c q = complete (atEnd s c q) c := by
  have h : endActivation s c q = match ((atEnd s c q).core c).run with
      | some r =>
        if !((atEnd s c q).ctx c q).waitRel.isEmpty && !r.act.lent then
          (atEnd s c q).modCore c fun x => { x with run := some { r with ended := true } }
        else complete (atEnd s c q) c
      | none => atEnd s c q := by
    unfold endActivation
    rw [hw]
    rfl
  have hr' : ((atEnd s c q).core c).run = some r := hr
  rw [h, hr']
  dsimp only
  rw [waitRel_atEnd hq, if_neg (by simp)]

/-- A core's next instruction that issues by deadline − E completes its activation in time (R44). -/
theorem onTime_atEnd {a : Act} (h : max s.now (issueCyc s c * s.cyc) + (s.dl a.tenant).e ≤ a.deadline) :
    onTime (atEnd s c q) a = true := by
  have hn : (atEnd s c q).nowCyc = max s.now (issueCyc s c * s.cyc) / s.cyc := by
    rw [← advanceTo_now]
    rfl
  have hc : (atEnd s c q).cyc = s.cyc := rfl
  have hd : (atEnd s c q).dl a.tenant = s.dl a.tenant := rfl
  simp only [onTime, fixedAt, hn, hc, hd, decide_eq_true_eq]
  exact Nat.div_le_div_right (by omega)

end

/-- What END does to the state in which it acts. -/
theorem execEndA_ready {s : State} {c : Core} {q : Nat} (h : Ready s c (some q) 4) (hn : NotAtEnd s c (some q) 4)
    (hs : secOf (begun s c (some q) 4) c (some q) = none) : endI s c = endActivation (begun s c (some q) 4) c q := by
  unfold endI
  rw [issueI_ready (u := { all := true, ends := true, tenOnly := true }) _ h (fun e => by simp at e) rfl (fun _ => by simp)
    (fun _ => hn)]
  dsimp only
  rw [if_neg (by simp [inSection, hs])]
  rfl

theorem Ready.stopped {s : State} {c : Nat} {k : Option Nat} {n : Nat} (h : Ready s c k n) : s.stopped = false := by
  have := h.up
  simp only [canIssue, Bool.and_eq_true, Bool.not_eq_true'] at this
  exact this.1.1.2

/-- Nothing is pending in the state in which an instruction acts. -/
theorem Ready.waitAll_begun {s : State} {c : Nat} {k : Option Nat} {n : Nat} (h : Ready s c k n) :
    Machine.waitAll (begun s c k n) c k = begun s c k n := by
  have ho := ownSet_begun s c k n
  have hvq : ((begun s c k n).core c).vq = [] := (ho.core_field (·.vq) (fun _ _ => rfl)).trans h.vq
  have hjobs : ((begun s c k n).core c).jobs = [] := (ho.core_field (·.jobs) (fun _ _ => rfl)).trans h.jobs
  have hpend : ((begun s c k n).thr c k).pend = [] := by rw [begun_thr]; exact h.calm.pend
  have hpwr : ((begun s c k n).thr c k).pwr = none := by rw [begun_thr]; exact h.calm.pwr
  unfold Machine.waitAll
  rw [judgePwr_none hpwr]
  exact waitFor_idle (by simp [anyBusy, vBusy, hvq, hjobs, hpend, hpwr]) _

/-- An instruction that begins outside a section opens none. -/
theorem begun_sec_none {s : State} {c q n : Nat} (h : (s.ctx c q).sec = none) :
    ((begun s c (some q) n).ctx c q).sec = none := by
  have hc : countRetired ((s.modThr c (some q) fun t => { t with dslot := [] }).modThr c (some q) fun t =>
      { t with r := nextPc t.r (pcOf s c (some q)) n }) c (some q) =
      ((s.modThr c (some q) fun t => { t with dslot := [] }).modThr c (some q) fun t =>
      { t with r := nextPc t.r (pcOf s c (some q)) n }) := by
    unfold countRetired
    simp [State.modThr, State.setThr, h]
  rw [begun, hc]
  simp [State.modThr, State.setThr, h]

/-- The first part of the statement. -/
theorem endOfActivation : Clause.EndOfActivation := by
  intro s c q r h hn hsec hr hrq hm hl hw ht he hdl
  refine runs_of_exec (t := endI s c) rfl ?_
  have ho := ownSet_begun s c (some q) 4
  have hb : secOf (begun s c (some q) 4) c (some q) = none := begun_sec_none hsec
  rw [execEndA_ready h hn hb]
  have hrun : ((begun s c (some q) 4).core c).run = some r := (ho.core_field (·.run) (fun _ _ => rfl)).trans hr
  have hrel : ((begun s c (some q) 4).ctx c q).waitRel = [] := (ho.ctx_field (·.waitRel) (fun _ _ _ => rfl)).trans hw
  have hsup : ((begun s c (some q) 4).core c).sup = false :=
    (ho.core_field (·.sup) (fun _ _ => rfl)).trans (sup_of_curCtx h.who)
  have hrpc : ((begun s c (some q) 4).core c).rpc = (s.core c).rpc := ho.core_field (·.rpc) (fun _ _ => rfl)
  have hdone : (begun s c (some q) 4).f fDLM_TN_CNT_DONE r.act.tenant = s.f fDLM_TN_CNT_DONE r.act.tenant :=
    ho.dev_field (·.f fDLM_TN_CNT_DONE r.act.tenant) (fun _ _ _ => rfl)
  have htime : onTime (atEnd (begun s c (some q) 4) c q) r.act = true := by
    apply onTime_atEnd
    rw [ho.issueCyc, ho.dev_field State.now (fun _ _ _ => rfl), ho.dev_field State.cyc (fun _ _ _ => rfl),
      ho.dev_field (·.dl r.act.tenant) (fun _ _ _ => rfl)]
    exact hdl
  have hks : (begun s c (some q) 4).ks.trans = none := (ho.dev_field (·.ks.trans) (fun _ _ _ => rfl)).trans ht
  have hen : (begun s c (some q) 4).fb fDLM_CTL_EN = true := (ho.dev_field (·.fb fDLM_CTL_EN) (fun _ _ _ => rfl)).trans he
  have hst : (begun s c (some q) 4).stopped = false := (ho.dev_field (·.stopped) (fun _ _ _ => rfl)).trans h.stopped
  rw [endActivation_calm h.waitAll_begun hrun hrel]
  obtain ⟨hc, hd, hz⟩ := complete_inTime (s := atEnd (begun s c (some q) 4) c q) (c := c) hrun hm hl
    (by rw [hrq]; exact waitRel_atEnd hrel) hks hen hst htime
  obtain ⟨hfr, hfs, hfp⟩ := core_freeCore (s := atEnd (begun s c (some q) 4) c q) (c := c) hrun hsup
  rw [core_settle, hc, dl_settle, f_settle]
  exact ⟨hfr, hfs, hfp.trans hrpc, hd.trans (congrArg (fun n => (n + 1) % 2 ^ fDLM_TN_CNT_DONE.w) hdone), hz⟩

-- RFE and RESUME (R100, R184, R186) ---------------------------------------------------------------------------------------------------------

/-- The bank of the handler that core c runs. -/
def handlerBank (s : State) (c : Nat) : Bank := tget Bank.init (s.core c).banks (s.core c).ml

section
variable {s : State} {c : Core}

/-- What a legal return makes of the state in which it acts. -/
def returned (s : State) (c : Nat) (res : Bool) : Out :=
  let b := handlerBank s c
  if b.rsup then .ok (setPc (s.modCore c fun y => { y with ml := b.rml }) c none b.pc.toNat) 8
  else .stop (dispose (if res then resumeVec (returnTenant s c b) c b else returnTenant s c b) c b)

/-- A return without a disposition, from a handler, is legal (R186). -/
def ReturnLegal (s : State) (c : Nat) (res : Bool) : Prop :=
  (s.core c).ml ≠ 0 ∧ (handlerBank s c).disp = 0 ∧
    (res = true → (handlerBank s c).rsup = false ∧ vfValid s c (handlerBank s c) = true)

theorem handlerBank_begun (s : State) (c : Nat) : handlerBank (begun s c none 4) c = handlerBank s c := by
  have ho := ownSet_begun s c none 4
  unfold handlerBank
  rw [ho.core_field (·.banks) (fun _ _ => rfl), ho.core_field (·.ml) (fun _ _ => rfl)]

theorem returnLegal_begun {res : Bool} (h : ReturnLegal s c res) : ReturnLegal (begun s c none 4) c res := by
  have ho := ownSet_begun s c none 4
  obtain ⟨hml, hd, hr⟩ := h
  refine ⟨?_, ?_, fun e => ?_⟩
  · rwa [ho.core_field (·.ml) (fun _ _ => rfl)]
  · rwa [handlerBank_begun]
  · have hv : vfValid (begun s c none 4) c (handlerBank s c) = vfValid s c (handlerBank s c) := by
      unfold vfValid
      rw [ho.ctx_none]
      exact ho.dev_field (fun x => x.fb fVF_CAUSE_VALID (s.ctx c (handlerBank s c).ctx).tenant) (fun _ _ _ => rfl)
    rw [handlerBank_begun, hv]
    exact hr e

theorem dispose_none {s : State} {c : Nat} {b : Bank} (h : b.disp = 0) : dispose s c b = s := by
  unfold dispose
  rw [h]
  split <;> rfl

/-- A legal return of a ready handler acts at once. -/
theorem rfe_ready {res : Bool} (h : Ready s c none 4) (hn : NotAtEnd s c none 4) (hl : ReturnLegal s c res) :
    ∃ act, rfe s c res = concluded s c none { supOnly := true, ends := true } act (returned (begun s c none 4) c res) := by
  obtain ⟨hml, hd, hr⟩ := returnLegal_begun hl
  refine ⟨_, (issueI_ready (u := { supOnly := true, ends := true }) _ h (fun _ => rfl) rfl (fun e => by simp at e)
    (fun _ => hn)).trans (congrArg _ ?_)⟩
  have hf : (((begun s c none 4).core c).ml = 0 || ((handlerBank (begun s c none 4) c).rsup &&
      ((handlerBank (begun s c none 4) c).disp != 0 || res)) || (handlerBank (begun s c none 4) c).disp = 3 ||
      (res && !vfValid (begun s c none 4) c (handlerBank (begun s c none 4) c))) = false := by
    cases res with
    | false => simp [hml, hd]
    | true => simp [hml, hd, hr rfl]
  dsimp only
  rw [if_neg (by unfold handlerBank at hf; rw [hf]; simp)]
  rfl

/-- RFE to the supervisor restores the bank's level and PC (R186). -/
theorem rfe_super (h : Ready s c none 4) (hn : NotAtEnd s c none 4) (hl : ReturnLegal s c false)
    (hb : (handlerBank s c).rsup = true) :
    rfe s c false = (setPc ((begun s c none 4).modCore c fun y => { y with ml := (handlerBank s c).rml }) c none
      (handlerBank s c).pc.toNat).modCore c fun y => { y with cyc := issueCyc s c + 8 } := by
  obtain ⟨act, e⟩ := rfe_ready h hn hl
  rw [e, returned, handlerBank_begun, if_pos hb]
  rfl

/-- A return to the tenant whose activation still runs, without a disposition, acts on its context and its core only. -/
theorem rfe_tenant {res : Bool} (h : Ready s c none 4) (hn : NotAtEnd s c none 4) (hl : ReturnLegal s c res)
    (hb : (handlerBank s c).rsup = false) :
    rfe s c res = if res then resumeVec (returnTenant (begun s c none 4) c (handlerBank s c)) c (handlerBank s c)
      else returnTenant (begun s c none 4) c (handlerBank s c) := by
  obtain ⟨act, e⟩ := rfe_ready h hn hl
  rw [e, returned, handlerBank_begun, if_neg (by simp [hb])]
  exact dispose_none hl.2.1

end

section
variable {s : State} {c : Nat} {b : Bank} {r : Run}

/-- A core in tenant mode again after a return that took 8 cycles: no span of it is frozen (R186). -/
def CoreSt.backAt (y : CoreSt) (n : Nat) : CoreSt :=
  { y with sup := false, ml := 0, frozen := false, vflt := false, vlast := max y.vlast n, cyc := n }

/-- A context whose interrupted level and program counter are those of its bank again. -/
def Ctx.backAt (x : Ctx) (b : Bank) : Ctx :=
  { x with ml := b.rml, thr := { x.thr with r := { x.thr.r with pc := w32 b.pc.toNat } } }

theorem returnTenant_eq (hr : (s.core c).run = some r) (hq : r.ctx = b.ctx) (hh : (s.ctx c b.ctx).thr.held = []) :
    returnTenant s c b =
      ((s.modCore c (·.backAt (issueCyc s c + 8))).modCtx c b.ctx fun x => { x with ml := b.rml }).modCtx c b.ctx fun x =>
        { x with thr := { x.thr with r := { x.thr.r with pc := w32 b.pc.toNat } } } := by
  unfold returnTenant
  rw [hr]
  dsimp only
  rw [if_pos hq, hh]
  rfl

theorem core_returnTenant (hr : (s.core c).run = some r) (hq : r.ctx = b.ctx) (hh : (s.ctx c b.ctx).thr.held = []) :
    (returnTenant s c b).core c = (s.core c).backAt (issueCyc s c + 8) := by
  rw [returnTenant_eq hr hq hh, core_modCtx, core_modCtx, core_modCore_self]

theorem ctx_returnTenant (hr : (s.core c).run = some r) (hq : r.ctx = b.ctx) (hh : (s.ctx c b.ctx).thr.held = []) :
    (returnTenant s c b).ctx c b.ctx = (s.ctx c b.ctx).backAt b := by
  rw [returnTenant_eq hr hq hh, ctx_modCtx_self, ctx_modCtx_self]
  rfl

theorem vfStr_returnTenant (hr : (s.core c).run = some r) (hq : r.ctx = b.ctx) (hh : (s.ctx c b.ctx).thr.held = []) :
    (returnTenant s c b).vfStr = s.vfStr := by
  rw [returnTenant_eq hr hq hh]
  rfl

/-- A core's record with the instructions of a fault record, due at its cycle, back in its queue. -/
def CoreSt.requeue (y : CoreSt) (es : List VEnt) : CoreSt :=
  { y with vq := putBack (es.map fun e => { e with issue := y.cyc }) y.vq }

theorem core_resumeVec : (resumeVec s c b).core c = (s.core c).requeue (tget [] s.vfStr (s.ctx c b.ctx).tenant) := by
  unfold resumeVec
  exact core_modCore_self (s.setF fVF_CAUSE_VALID 0 (s.ctx c b.ctx).tenant) c
    (·.requeue (tget [] s.vfStr (s.ctx c b.ctx).tenant))

/-- The head of an empty queue is all of it. -/
theorem requeue_empty {y : CoreSt} (h : y.vq = []) (es : List VEnt) :
    (y.requeue es).vq = es.map fun e => { e with issue := y.cyc } := by
  simp [CoreSt.requeue, h, putBack]

theorem valid_resumeVec : (resumeVec s c b).fb fVF_CAUSE_VALID (s.ctx c b.ctx).tenant = false := by
  have h : (resumeVec s c b).fb fVF_CAUSE_VALID (s.ctx c b.ctx).tenant =
      (s.setF fVF_CAUSE_VALID 0 (s.ctx c b.ctx).tenant).fb fVF_CAUSE_VALID (s.ctx c b.ctx).tenant := rfl
  rw [h, State.fb, f_setF_self _ _ _ _ _ (by decide)]
  rfl

theorem ctx_resumeVec (q : Nat) : (resumeVec s c b).ctx c q = s.ctx c q := rfl

end

/-- The context that a handler interrupted, and its core, are as they were before it, but that the span has thawed. -/
def TenantBack (s t : State) (c : Nat) (b : Bank) : Prop :=
  (t.core c).sup = false ∧ (t.core c).ml = 0 ∧ (t.core c).frozen = false ∧ (t.ctx c b.ctx).ml = b.rml ∧
    pcOf t c (some b.ctx) = b.pc.toNat ∧ Took s t c 8 ∧ (∀ n, gpr t c (some b.ctx) n = gpr s c (some b.ctx) n) ∧
    nzcv t c (some b.ctx) = nzcv s c (some b.ctx)

/-- A core's record after a return to the tenant at cycle n. -/
def CoreSt.IsBack (y : CoreSt) (n : Nat) : Prop := y.sup = false ∧ y.ml = 0 ∧ y.frozen = false ∧ y.cyc = n

theorem isBack_backAt (y : CoreSt) (n : Nat) : (y.backAt n).IsBack n := ⟨rfl, rfl, rfl, rfl⟩

theorem isBack_requeue {y : CoreSt} {n : Nat} (h : y.IsBack n) (es : List VEnt) : (y.requeue es).IsBack n := h

theorem tenantBack_of_records {s t : State} {c : Nat} {b : Bank} (hc : (t.core c).IsBack (issueCyc s c + 8))
    (hx : t.ctx c b.ctx = (s.ctx c b.ctx).backAt b) : TenantBack s t c b := by
  have ht : (t.ctx c b.ctx).thr.r = { (s.ctx c b.ctx).thr.r with pc := b.pc } := by
    rw [hx]
    simp [Ctx.backAt, w32]
  obtain ⟨hs, hm, hf, hy⟩ := hc
  refine ⟨hs, hm, hf, ?_, ?_, hy, fun n => ?_, ?_⟩
  · rw [hx]; rfl
  · rw [pcOf, State.thr, ht]
  · rw [gpr, gpr, State.thr, State.thr, ht]; rfl
  · rw [nzcv, nzcv, State.thr, State.thr, ht]; rfl

theorem tenantBack_settle {s t : State} {c : Nat} {b : Bank} (h : TenantBack s t c b) : TenantBack s (settle t) c b := h

/-- The core's record after a return to the supervisor (R186). -/
theorem core_superBack (s : State) (c : Nat) (b : Bank) (n : Nat) :
    (settle ((setPc (s.modCore c fun y => { y with ml := b.rml }) c none b.pc.toNat).modCore c fun y =>
      { y with cyc := n })).core c =
      { s.core c with
        ml := b.rml, cyc := n
        thr := { (s.core c).thr with r := { (s.core c).thr.r with pc := w32 b.pc.toNat } } } := by
  rw [core_concluded]
  simp [setPc, State.modThr, State.setThr, State.thr]

section
variable {s : State} {c : Core}

/-- RFE to the supervisor: its level and its PC come back after 8 cycles. -/
theorem rfe_toSuper (h : Ready s c none 4) (hn : NotAtEnd s c none 4) (hl : ReturnLegal s c false)
    (hb : (handlerBank s c).rsup = true) :
    Runs s c (.rfe c) fun t => (t.core c).ml = (handlerBank s c).rml ∧ (t.core c).sup = (s.core c).sup ∧
      (t.core c).thr.r.pc = (handlerBank s c).pc ∧ Took s t c 8 ∧ ∀ n, gpr t c none n = gpr s c none n := by
  have ho := ownSet_begun s c none 4
  refine runs_of_exec (t := rfe s c false) rfl ?_
  have hw := core_superBack (begun s c none 4) c (handlerBank s c) (issueCyc s c + 8)
  rw [rfe_super h hn hl hb]
  refine ⟨?_, ?_, ?_, took_concluded s _ c 8, fun n => ?_⟩
  · rw [hw]
  · rw [hw]
    exact ho.core_field (·.sup) (fun _ _ => rfl)
  · rw [hw]
    simp [w32]
  · rw [← begun_gpr s c none 4 n, gpr, gpr, State.thr, State.thr, hw]
    rfl

/-- The state that a return to the tenant b leaves: as before the handler, with the faults on record as they were. -/
def TenantReturn (s t : State) (c : Nat) (b : Bank) : Prop :=
  (t.core c).IsBack (issueCyc s c + 8) ∧ (t.core c).vq = [] ∧ t.ctx c b.ctx = (s.ctx c b.ctx).backAt b ∧
    t.vfStr = s.vfStr

theorem tenantReturn_begun {r : Run} (h : Ready s c none 4) (hr : (s.core c).run = some r)
    (hq : r.ctx = (handlerBank s c).ctx) :
    TenantReturn s (returnTenant (begun s c none 4) c (handlerBank s c)) c (handlerBank s c) := by
  have ho := ownSet_begun s c none 4
  have hx := ho.ctx_none c (handlerBank s c).ctx
  have hrun : ((begun s c none 4).core c).run = some r := (ho.core_field (·.run) (fun _ _ => rfl)).trans hr
  have hheld : ((begun s c none 4).ctx c (handlerBank s c).ctx).thr.held = [] := by
    rw [hx]
    exact (h.own _ (by rw [hr, ← hq]; rfl)).held
  refine ⟨?_, ?_, ?_, ?_⟩
  · rw [core_returnTenant hrun hq hheld, ← ho.issueCyc]
    exact isBack_backAt _ _
  · rw [core_returnTenant hrun hq hheld]
    exact (ho.core_field (·.vq) (fun _ _ => rfl)).trans h.vq
  · rw [ctx_returnTenant hrun hq hheld, hx]
  · rw [vfStr_returnTenant hrun hq hheld]
    exact ho.dev_field (·.vfStr) (fun _ _ _ => rfl)

/-- RFE to the tenant (R186). -/
theorem rfe_toTenant {r : Run} (h : Ready s c none 4) (hn : NotAtEnd s c none 4) (hl : ReturnLegal s c false)
    (hb : (handlerBank s c).rsup = false) (hr : (s.core c).run = some r) (hq : r.ctx = (handlerBank s c).ctx) :
    Runs s c (.rfe c) (TenantBack s · c (handlerBank s c)) := by
  refine runs_of_exec (t := rfe s c false) rfl (tenantBack_settle ?_)
  rw [rfe_tenant h hn hl hb]
  obtain ⟨hc, -, hx, -⟩ := tenantReturn_begun h hr hq
  exact tenantBack_of_records hc hx

/-- What RESUME adds to a return: the record is resumed, and its instructions stand at the head of the queue (R100). -/
def Resumed (s t : State) (c : Nat) (b : Bank) : Prop :=
  TenantBack s t c b ∧ t.fb fVF_CAUSE_VALID (s.ctx c b.ctx).tenant = false ∧
    (t.core c).vq.map (fun e => (e.op, e.first)) =
      (tget [] s.vfStr (s.ctx c b.ctx).tenant).map (fun e => (e.op, e.first))

theorem resumed_settle {s t : State} {c : Nat} {b : Bank} (h : Resumed s t c b) : Resumed s (settle t) c b := h

theorem resumed_of_return {s t : State} {c : Nat} {b : Bank} (h : TenantReturn s t c b) :
    Resumed s (resumeVec t c b) c b := by
  obtain ⟨hc, hv, hx, hs⟩ := h
  have hten : (t.ctx c b.ctx).tenant = (s.ctx c b.ctx).tenant := by
    rw [hx]
    rfl
  refine ⟨tenantBack_of_records ?_ ((ctx_resumeVec _).trans hx), ?_, ?_⟩
  · rw [core_resumeVec]
    exact isBack_requeue hc _
  · rw [← hten]
    exact valid_resumeVec
  · rw [core_resumeVec, requeue_empty hv, hs, hten]
    simp

/-- RESUME to the tenant (R100, R186). -/
theorem resume_toTenant {r : Run} (h : Ready s c none 4) (hn : NotAtEnd s c none 4) (hl : ReturnLegal s c true)
    (hb : (handlerBank s c).rsup = false) (hr : (s.core c).run = some r) (hq : r.ctx = (handlerBank s c).ctx) :
    Runs s c (.resume c) (Resumed s · c (handlerBank s c)) := by
  refine runs_of_exec (t := rfe s c true) rfl (resumed_settle ?_)
  rw [rfe_tenant h hn hl hb, if_pos rfl]
  exact resumed_of_return (tenantReturn_begun h hr hq)

end

/-- The second part of the statement. -/
theorem returns : Clause.Returns := by
  intro s c h hn hml b hd
  have hl : ReturnLegal s c false := ⟨hml, hd, fun e => by simp at e⟩
  exact ⟨fun hb => rfe_toSuper h hn hl hb, fun hb r hr hq =>
    ⟨rfe_toTenant h hn hl hb hr hq, fun hv => resume_toTenant h hn ⟨hml, hd, fun _ => ⟨hb, hv⟩⟩ hb hr hq⟩⟩

/-- Settles O11: END by the completion in time of the state in which it acts, the returns by the core's and the context's
records that they leave. -/
theorem endsAndReturns : Obligations.EndsAndReturns := ⟨endOfActivation, returns⟩

end Sys2Proof.Machine
end

section
/-! PROOFS. The plan boundary while a digest is under way (R358), in which the changes of points go on waiting, and the
refutation of PlanAndSlots: a boundary in which the miss of a tenant that does not exist sets KS_PSTAT.BUSY. -/

namespace Sys2Proof.Machine
open Sys2Proof

-- What leaves the changes that wait alone ---------------------------------------------------------------------------------------

/-- The changes of points that wait for a boundary, and the lifecycle transition that does. -/
def waitingCfg (s : State) : List PtCfg × Option Nat := (s.ptcfg, s.ks.pend)

theorem OnlySignals.waitingCfg {s t : State} (h : OnlySignals s t) : waitingCfg t = waitingCfg s := by
  unfold OnlySignals at h
  rw [← h]
  rfl

/-- What each step of a fold keeps, the fold keeps. -/
theorem waitingCfg_foldl {α : Type} {f : State → α → State} (hf : ∀ s a, waitingCfg (f s a) = waitingCfg s) (xs : List α)
    (s : State) : waitingCfg (xs.foldl f s) = waitingCfg s := by
  induction xs generalizing s with
  | nil => rfl
  | cons x xs ih => exact (ih (f s x)).trans (hf s x)

theorem waitingCfg_ite {p : Prop} [Decidable p] {s a b : State} (ha : waitingCfg a = waitingCfg s)
    (hb : waitingCfg b = waitingCfg s) : waitingCfg (if p then a else b) = waitingCfg s := by
  split
  · exact ha
  · exact hb

theorem waitingCfg_raise (s : State) (k : Flag) (i j : Nat) : waitingCfg (raise s k i j) = waitingCfg s :=
  (onlySignals_raise s k i j).waitingCfg

-- The registers that take effect, and what checks them (R36, R62, R301, R334) ------------------------------------------------------------

theorem waitingCfg_loadMap (s : State) (k : Nat) (v : Word) : waitingCfg (loadMap s k v) = waitingCfg s :=
  waitingCfg_ite (waitingCfg_raise _ _ _ _) rfl

theorem waitingCfg_loadWindow (s : State) (k : Nat) (v : Word) : waitingCfg (loadWindow s k v) = waitingCfg s :=
  waitingCfg_ite (waitingCfg_raise _ _ _ _) rfl

theorem waitingCfg_loadKey (s : State) (k : Nat) : waitingCfg (loadKey s k) = waitingCfg s := by
  unfold loadKey
  split
  · rfl
  · exact waitingCfg_ite (waitingCfg_loadMap s k _) (waitingCfg_ite (waitingCfg_loadWindow s k _) (waitingCfg_ite rfl rfl))

theorem waitingCfg_effRegs (s : State) (ks : List Nat) : waitingCfg (effRegs s ks) = waitingCfg s :=
  waitingCfg_foldl waitingCfg_loadKey _ _

theorem waitingCfg_recheck (s : State) (ks : List Nat) : waitingCfg (recheck s ks) = waitingCfg s := by
  refine waitingCfg_ite rfl (waitingCfg_foldl (fun s e => ?_) _ _)
  exact waitingCfg_ite (waitingCfg_raise _ _ _ _) rfl

theorem waitingCfg_waitDone (s : State) (w : HWait) (ok : Bool) : waitingCfg (waitDone s w ok) = waitingCfg s :=
  waitingCfg_ite rfl rfl

/-- While digests are unfinished no record installs (R334). -/
theorem waitingCfg_endWaits2 (s : State) (plan : Bool) : waitingCfg (endWaits2 s plan true) = waitingCfg s := by
  unfold endWaits2
  refine (waitingCfg_foldl (fun s w => ?_) _ _).trans rfl
  rw [if_pos (rfl : true = true)]
  exact waitingCfg_ite rfl (waitingCfg_ite (waitingCfg_ite (waitingCfg_waitDone s w true) rfl) rfl)

/-- While a digest is under way, the changes of points wait on (R358). -/
theorem waitingCfg_loadChanges {s : State} (h : s.fb fKS_PSTAT_BUSY = true) (plan : Bool) :
    waitingCfg (loadChanges s plan) = waitingCfg s := by
  unfold loadChanges
  rw [h]
  exact (waitingCfg_endWaits2 _ _).trans ((waitingCfg_recheck _ _).trans (waitingCfg_effRegs _ _))

-- The rest of a boundary (R345, R356, R358) --------------------------------------------------------------------------------------------------

/-- With no transition accepted, none takes effect. -/
theorem startTransition_none {s : State} (h : s.ks.pend = none) : startTransition s = s := by
  unfold startTransition
  rw [h]

theorem waitingCfg_startAdvances (s : State) : waitingCfg (startAdvances s) = waitingCfg s := by
  unfold startAdvances
  refine waitingCfg_foldl (fun s o => ?_) _ _
  exact waitingCfg_ite rfl rfl

theorem waitingCfg_wakePinned (s : State) : waitingCfg (wakePinned s) = waitingCfg s := by
  unfold wakePinned
  refine waitingCfg_foldl (fun s o => ?_) _ _
  exact waitingCfg_ite rfl rfl

theorem waitingCfg_loadMonitor (s : State) : waitingCfg (loadMonitor s) = waitingCfg s := by
  unfold loadMonitor
  refine waitingCfg_foldl (fun s o => ?_) _ _
  exact waitingCfg_ite rfl rfl

theorem waitingCfg_proveAll (s : State) : waitingCfg (proveAll s) = waitingCfg s :=
  waitingCfg_ite rfl (waitingCfg_ite rfl (waitingCfg_raise _ _ _ _))

theorem exec_planBoundary (s : State) : exec .planBoundary s = done (planBoundary s) := rfl
theorem ptcfg_settle (s : State) : (settle s).ptcfg = s.ptcfg := rfl

/-- What completes with a property of its next state has it there. -/
theorem of_completes_done {s : State} {P : State → Prop} (h : Completes (done s) P) : P (settle s) := by
  obtain ⟨t, ht, hP⟩ := h
  rwa [Host.Outcome.next.inj ht]

theorem ptcfg_of_waitingCfg {s : State} {cs : List PtCfg} {p : Option Nat} (h : waitingCfg s = (cs, p)) : s.ptcfg = cs :=
  congrArg Prod.fst h
theorem pend_of_waitingCfg {s : State} {cs : List PtCfg} {p : Option Nat} (h : waitingCfg s = (cs, p)) : s.ks.pend = p :=
  congrArg Prod.snd h

/-- What a boundary with a digest under way and no new plan does after the period `s` has begun. -/
def restOfBoundary (s : State) : State :=
  proveAll (loadMonitor (startTransition (startAdvances (wakePinned (loadChanges s false)))))

theorem waitingCfg_restOfBoundary {s : State} {cs : List PtCfg} (hb : s.fb fKS_PSTAT_BUSY = true)
    (hw : waitingCfg s = (cs, none)) : waitingCfg (restOfBoundary s) = (cs, none) := by
  have h : waitingCfg (startAdvances (wakePinned (loadChanges s false))) = (cs, none) := by
    rw [waitingCfg_startAdvances, waitingCfg_wakePinned, waitingCfg_loadChanges hb, hw]
  rw [restOfBoundary, waitingCfg_proveAll, waitingCfg_loadMonitor, startTransition_none (pend_of_waitingCfg h), h]

/-- At a boundary whose instant has come, with no seconds value, no slice, no load to sample and no plan waiting, the
period begins with the capacity that the lost and returned clusters leave. -/
theorem planBoundary_busy {s : State} (hs : s.stopped = false) (hp : pmState s < 2) (hn : s.plan.next ≤ s.tai)
    (hu : s.tu.setsec = none) (ho : s.bist.online = none) (hd : sampleDue s s.nowCyc = s) (hw : s.plan.waiting = none)
    (hb : (newPeriod (capacity (returnClusters s) false)).fb fKS_PSTAT_BUSY = true) :
    planBoundary s = restOfBoundary (newPeriod (capacity (returnClusters s) false)) := by
  have ht : s.advanceTai s.plan.next = s := by rw [State.advanceTai, if_pos hn]
  have hu' : applySetsec s = s := by rw [applySetsec, hu]
  have ho' : gapOver s = s := by rw [gapOver, ho]
  have hi : installPlan s = none := by rw [installPlan, hw]
  unfold planBoundary
  rw [if_neg (by simp [hs, hp]), ht, hu', ho']
  dsimp only
  rw [hd, hi]
  dsimp only [Option.getD_none, Option.isSome_none]
  rw [if_pos hb]
  rfl

-- The refutation ------------------------------------------------------------------------------------------------------------------------------

/-- An activation of no tenant: a number past 255, whose miss counter would lie where KS_PSTAT does. -/
def strayAct : Act := ⟨(rKS_PSTAT.key 0 0 - rDLM_TN_CNT.key 0 0) / 4, 0, 0, 0, 0, 0, false, false, 0⟩

/-- Cluster 0 has been lost and no plan of the image is for that; core 0 still queues the stray activation, and the word of
KS_PSTAT, with BUSY 0, has 1 in every bit of that counter but its highest, which is BUSY. One change of a point waits. -/
def strayQueued : State :=
  { State.reset with
    regs := [(rSCH_CAP.key 0 0, 1), (rKS_PSTAT.key 0 0, 0x7FFF0000)]
    cores := [(0, { CoreSt.init with queue := [strayAct] })]
    plan := { PlanSt.init with img := some ⟨0, [], [], [], [], [], []⟩, next := 0 }
    ptcfg := [⟨0, none, none, none⟩] }

/-- The period that begins once the stray activation's miss is recorded (R107). -/
def strayMissed : State := newPeriod (capacity (returnClusters strayQueued) false)

/-- The count of that miss carries into BUSY. -/
theorem busy_strayMissed : strayMissed.fb fKS_PSTAT_BUSY = true := by decide +kernel

theorem waitingCfg_strayMissed : waitingCfg strayMissed = ([⟨0, none, none, none⟩], none) := by decide +kernel

/-- The boundary leaves the change waiting. -/
theorem ptcfg_planBoundary_strayQueued : (planBoundary strayQueued).ptcfg = [⟨0, none, none, none⟩] := by
  rw [planBoundary_busy (s := strayQueued) (by decide +kernel) (by decide +kernel) (by decide +kernel) rfl rfl rfl rfl
    busy_strayMissed]
  exact ptcfg_of_waitingCfg (waitingCfg_restOfBoundary busy_strayMissed waitingCfg_strayMissed)

/-- Refutes O28: the statement does not bound the tenant numbers of queued activations. Where one names tenant 2,090,499,
whose miss counter's address is KS_PSTAT's, the boundary that records its miss (R107) sets BUSY by it, and the change of a
point, which waited for no digest, waits on. -/
theorem not_planAndSlots : ¬ Obligations.PlanAndSlots := by
  rintro ⟨-, -, hb⟩
  have hc := hb strayQueued (by decide +kernel) (by decide +kernel) (by decide) rfl
  rw [exec_planBoundary] at hc
  obtain ⟨-, -, -, -, hp⟩ := of_completes_done hc
  have hn := (hp (by decide +kernel) rfl).1
  rw [ptcfg_settle, ptcfg_planBoundary_strayQueued] at hn
  exact absurd hn (by simp)

end Sys2Proof.Machine
end

section
/-! PROOFS. The order in which a free core dispatches (R39): the fold of `nextAct` finds a first activation of the scheduler's
order, and the statement DispatchOrder assembled from it. -/

namespace Sys2Proof.Machine
open Sys2Proof

-- The scheduler's order (R39) ---------------------------------------------------------------------------------------------------

/-- The scheduler takes `y` no later than `x`: a higher rank, or the same and an earlier trigger, or the same and no higher
tenant. -/
def NoLater (y x : Nat × Act) : Prop :=
  x.1 < y.1 ∨ (x.1 = y.1 ∧ (y.2.trig < x.2.trig ∨ (y.2.trig = x.2.trig ∧ y.2.tenant ≤ x.2.tenant)))

theorem noLater_iff (y x : Nat × Act) : NoLater y x ↔ actBefore x y = false := by
  simp only [NoLater, actBefore, Bool.or_eq_false_iff, Bool.and_eq_false_iff, decide_eq_false_iff_not, beq_eq_false_iff_ne]
  omega

theorem NoLater.refl (x : Nat × Act) : NoLater x x := by
  simp [NoLater]

theorem NoLater.trans {x y z : Nat × Act} (h : NoLater x y) (g : NoLater y z) : NoLater x z := by
  unfold NoLater at *
  omega

theorem noLater_of_actBefore {x y : Nat × Act} (h : actBefore x y = true) : NoLater x y := by
  simp only [actBefore, Bool.or_eq_true, Bool.and_eq_true, decide_eq_true_eq, beq_iff_eq] at h
  unfold NoLater
  omega

/-- What the scheduler holds as the first of those that it has looked at, after it has looked at `x`. -/
def earlier (b : Option (Nat × Act)) (x : Nat × Act) : Option (Nat × Act) :=
  match b with
  | some y => if actBefore x y then some x else b
  | none => some x

/-- Looking at one more keeps a first of those before, or takes the new one. -/
theorem earlier_some (y x : Nat × Act) : ∃ z, earlier (some y) x = some z ∧ (z = y ∨ z = x) ∧ NoLater z y ∧ NoLater z x := by
  unfold earlier
  dsimp only
  split
  · next h => exact ⟨x, rfl, .inr rfl, noLater_of_actBefore h, .refl x⟩
  · next h => exact ⟨y, rfl, .inl rfl, .refl y, (noLater_iff y x).mpr (by simpa using h)⟩

/-- From a first on, the fold finds one of the list or that first, no later than any of them. -/
theorem foldl_earlier_some (xs : List (Nat × Act)) (y : Nat × Act) :
    ∃ z, xs.foldl earlier (some y) = some z ∧ (z = y ∨ z ∈ xs) ∧ NoLater z y ∧ ∀ x ∈ xs, NoLater z x := by
  induction xs generalizing y with
  | nil => exact ⟨y, rfl, .inl rfl, .refl y, by simp⟩
  | cons x xs ih =>
    obtain ⟨w, hw, hwm, hwy, hwx⟩ := earlier_some y x
    obtain ⟨z, hz, hzm, hzw, hzs⟩ := ih w
    refine ⟨z, by rw [List.foldl_cons, hw, hz], ?_, hzw.trans hwy, List.forall_mem_cons.mpr ⟨hzw.trans hwx, hzs⟩⟩
    rcases hzm with rfl | hm
    · rcases hwm with rfl | rfl
      · exact .inl rfl
      · exact .inr List.mem_cons_self
    · exact .inr (List.mem_cons_of_mem _ hm)

/-- The activations that core c may dispatch, each with its rank. -/
def candidates (s : State) (c : Nat) : List (Nat × Act) := (s.core c).queue.filterMap (mayRun s c)

theorem nextAct_eq (s : State) (c : Nat) : nextAct s c = ((candidates s c).foldl earlier none).map Prod.snd := rfl

/-- What may run is ranked in the current slot. -/
theorem mayRun_some {s : State} {c : Nat} {a : Act} {x : Nat × Act} (h : mayRun s c a = some x) :
    x.2 = a ∧ rankOf s a.tenant = some x.1 := by
  unfold mayRun at h
  split at h
  · obtain ⟨r, hr, rfl⟩ := Option.map_eq_some_iff.mp h
    exact ⟨rfl, hr⟩
  · simp at h

theorem mayRun_of_unranked {s : State} {a : Act} (h : rankOf s a.tenant = none) (c : Nat) : mayRun s c a = none := by
  simp [mayRun, h]

/-- The activation that core c dispatches next is one that may run, and the scheduler takes it no later than any other. -/
theorem nextAct_some {s : State} {c : Nat} {a : Act} (h : nextAct s c = some a) :
    a ∈ (s.core c).queue ∧ ∃ r, mayRun s c a = some (r, a) ∧ rankOf s a.tenant = some r ∧
      ∀ b ∈ (s.core c).queue, ∀ x, mayRun s c b = some (x, b) → NoLater (r, a) (x, b) := by
  rw [nextAct_eq] at h
  obtain ⟨⟨r, a'⟩, hz, rfl⟩ := Option.map_eq_some_iff.mp h
  cases hc : candidates s c with
  | nil => simp [hc] at hz
  | cons y ys =>
    rw [hc, List.foldl_cons] at hz
    obtain ⟨z, hz', hzm, hzy, hzs⟩ := foldl_earlier_some ys y
    obtain rfl : z = (r, a') := Option.some.inj (hz'.symm.trans hz)
    have hmem : (r, a') ∈ candidates s c := by
      rw [hc]
      exact List.mem_cons.mpr hzm
    obtain ⟨b, hb, hbr⟩ := List.mem_filterMap.mp hmem
    obtain ⟨rfl, hrank⟩ := mayRun_some hbr
    refine ⟨hb, r, hbr, hrank, fun d hd x hx => ?_⟩
    have hd' : (x, d) ∈ candidates s c := List.mem_filterMap.mpr ⟨d, hd, hx⟩
    rw [hc] at hd'
    rcases List.mem_cons.mp hd' with rfl | hd'
    · exact hzy
    · exact hzs _ hd'

theorem nextAct_none {s : State} {c : Nat} (h : nextAct s c = none) : ∀ b ∈ (s.core c).queue, mayRun s c b = none := by
  rw [nextAct_eq, Option.map_eq_none_iff] at h
  have hc : candidates s c = [] := by
    cases hc : candidates s c with
    | nil => rfl
    | cons y ys =>
      obtain ⟨z, hz, -⟩ := foldl_earlier_some ys y
      rw [hc, List.foldl_cons] at h
      exact absurd (hz.symm.trans h) (by simp)
  exact List.filterMap_eq_nil_iff.mp hc

-- DISPATCH ----------------------------------------------------------------------------------------------------------------------

theorem exec_dispatch (c : Core) (s : State) : exec (.dispatch c) s = done (dispatch s c) := rfl

theorem dispatch_nothing {s : State} {c : Nat} (h : nextAct s c = none) : dispatch s c = s := by
  unfold dispatch
  rw [h]
  exact ite_self s

/-- A core that is powered and not free dispatches nothing. -/
theorem dispatch_busy {s : State} {c : Nat} (hd : domStalls s (c / 4) = false) (hf : coreFree s c = false) : dispatch s c = s := by
  unfold dispatch
  split
  · rfl
  · split
    · rfl
    · rw [if_neg (by simp [hd]), if_pos (by simp [hf])]

/-- A free core's cluster is powered. -/
theorem domStalls_of_coreFree {s : State} {c : Nat} (h : coreFree s c = true) : domStalls s (c / 4) = false := by
  have hu : coreUp s c = true := by
    simp only [coreFree, Bool.and_eq_true] at h
    obtain ⟨⟨⟨-, hu⟩, -⟩, -⟩ := h
    exact hu
  simp only [coreUp, Bool.and_eq_true, beq_iff_eq] at hu
  obtain ⟨⟨⟨hdom, -⟩, -⟩, -⟩ := hu
  simp [domStalls, hdom]

/-- A free core runs the activation that it dispatches. -/
theorem run_dispatch {s : State} {c : Nat} {a : Act} (hd : dispatchOn s = true) (ht : s.ks.trans = none)
    (hf : coreFree s c = true) (hn : nextAct s c = some a) :
    ((dispatch s c).core c).run = some ⟨a, (s.place a.tenant).2, (s.pipe c).wlog, false, false⟩ := by
  unfold dispatch
  rw [if_neg (by simp [hd, ht]), hn]
  dsimp only
  rw [if_neg (by simp [domStalls_of_coreFree hf]), if_neg (by simp [hf]), core_modCore_self]

/-- Settles O25: the order by the fold's first element, the rest by the branches of DISPATCH. -/
theorem dispatchOrder : Obligations.DispatchOrder := by
  unfold Obligations.DispatchOrder
  intro s c
  refine ⟨fun hr hd => ?_, fun a ha => nextAct_some ha, fun hn => ⟨nextAct_none hn, ?_⟩,
    fun hd ht hf _ _ _ _ a ha => ?_, fun a ha => mayRun_of_unranked ha c⟩
  · have hf : coreFree s c = false := by simp [coreFree, Option.isNone_eq_false_iff.mpr hr]
    rw [exec_dispatch, dispatch_busy hd hf]
    exact completes_done rfl
  · rw [exec_dispatch, dispatch_nothing hn]
    exact completes_done rfl
  · rw [exec_dispatch]
    refine completes_done ?_
    rw [core_settle, run_dispatch hd ht hf ha]
    rfl

end Sys2Proof.Machine
end

section
/-! PROOFS. Two statements about the scheduler that do not hold for every state: the refutation of Dispatch by an activation
of a tenant that does not exist, and that of DeadlinesAndReleases by a table of cores out of order. -/

namespace Sys2Proof.Machine
open Sys2Proof

theorem exec_activationPost (s : State) : exec .activationPost s = done (activationPost s) := rfl
theorem exec_deadlineMiss (t : Tenant) (s : State) : exec (.deadlineMiss t) s = done (deadlineMiss s t) := rfl

-- An activation of no tenant (R40, R48) ---------------------------------------------------------------------------------------------

/-- An activation of no tenant: a number past 255, whose miss counter would lie where the pending bits of MSI-X vectors 0 to 31
do. -/
def strayPost : Act := ⟨(rMSIX_PBA.key 0 0 - rDLM_TN_CNT.key 0 0) / 4, 0, 0, 0, 0, 0, false, false, 0⟩

/-- Eight activations of that number are queued on core 0, which it is placed on, and a ninth arrives. The miss monitor is on,
and its source goes to MSI-X vector 17, which is masked. -/
def strayNinth : State :=
  { State.reset with
    regs := [(rSCH_CTL.key 0 0, 1), (rDLM_CTL.key 0 0, 1), (rHI_HROUTE.key 0 0, 0x80000011),
      (rMSIX_TABLE.key (4 * 17 + 3) 0, 1)]
    cores := [(0, { CoreSt.init with queue := List.replicate 8 strayPost })]
    dlm := [(strayPost.tenant, ⟨0, 0, 0, 0⟩)]
    plan := { PlanSt.init with img := some ⟨0, [], [], [], [], [], []⟩, homes := [(strayPost.tenant, 0)] }
    postq := [strayPost] }

/-- The pending bit of vector 17 lands in that counter. -/
theorem misses_strayNinth :
    strayNinth.f fDLM_TN_CNT_MISSES strayPost.tenant = 0 ∧
      (activationPost strayNinth).f fDLM_TN_CNT_MISSES strayPost.tenant = 3 := by decide +kernel

/-- Refutes O26: the statement does not bound the tenant numbers of activations. Where one names tenant 1,892,864, whose miss
counter's address is that of MSIX_PBA, the interrupt of its QFULL miss sets a pending bit there, and the counter rises by 3. -/
theorem not_dispatch : ¬ Obligations.Dispatch := by
  rintro ⟨hp, -⟩
  obtain ⟨-, -, hq⟩ := hp strayNinth strayPost [] rfl (by decide +kernel) (by decide +kernel) (by decide +kernel)
  have hc := hq (by decide +kernel) (by decide +kernel) (by decide +kernel) (by decide +kernel)
  rw [exec_activationPost] at hc
  obtain ⟨-, -, -, hm⟩ := of_completes_done hc
  obtain ⟨h0, h3⟩ := misses_strayNinth
  rw [Counted, f_settle, h0, h3] at hm
  exact absurd hm (by decide)

-- A table of cores out of order (R45, R46) ----------------------------------------------------------------------------------------------

/-- A run of tenant 0's activation `id`. -/
def runOfZero (id : Nat) : Run := ⟨⟨0, 0, 0, 0, 0, 0, false, false, id⟩, 0, 0, false, false⟩

/-- Cores 1 and 0 both run an activation of tenant 0, and core 1 stands first in the table. The miss monitor is on, its source is
routed to core 0, which takes it, and tenant 0's policy is FALLBACK. -/
def coresSwapped : State :=
  { State.reset with
    regs := [(rDLM_CTL.key 0 0, 1), (rIC_SRC.key 0 32, 0x80000101)]
    cores := [(1, { CoreSt.init with run := some (runOfZero 1) }), (0, { CoreSt.init with run := some (runOfZero 2) })] }

/-- Counting the interrupt puts core 0 first in the table, and core 1 runs on. -/
theorem run_coresSwapped : ((deadlineMiss coresSwapped 0).core 1).run = some (runOfZero 1) := by decide +kernel

/-- Refutes O27: the statement does not say that the table of cores is in order. Where core 1 stands before core 0 and both run
activations of one tenant, the interrupt of the miss on core 1 writes core 0's entry in front; then core 0's run is the first of
the tenant, and the policy FALLBACK aborts nothing. -/
theorem not_deadlinesAndReleases : ¬ Obligations.DeadlinesAndReleases := by
  rintro ⟨hd, -⟩
  obtain ⟨-, hf⟩ := hd coresSwapped 0 (runOfZero 1) 1 (by decide +kernel) (by decide +kernel) (by decide +kernel)
    (by decide +kernel) rfl rfl rfl (by decide +kernel) rfl rfl
  have hc := hf (by decide +kernel)
  rw [exec_deadlineMiss] at hc
  obtain ⟨-, hr, -⟩ := of_completes_done hc
  rw [core_settle] at hr
  exact absurd (run_coresSwapped.symm.trans hr) (by simp)

end Sys2Proof.Machine
end

section
/-! PROOFS. Publications (R249, R250, R261): what handing a control block's frame to its lanes leaves, the event and the
refresh of a request, the retransmission, and the statement Publications assembled from them. -/

namespace Sys2Proof.Machine
open Sys2Proof

-- Frames handed to lanes (R51, R238, R334) -----------------------------------------------------------------------------------------

@[simp] theorem pub_setPub_self (s : State) (cb : Nat) (x : PubSt) : (s.setPub cb x).pub cb = x := by
  simp [State.pub, State.setPub]

@[simp] theorem pub_settle (s : State) (cb : Nat) : (settle s).pub cb = s.pub cb := rfl

/-- Exactly the lanes that satisfy `on` have been handed a frame of control block `cb`; beside lanes only record states and the
sequence numbers of pairs may differ. -/
structure Handed (on : Nat → Prop) (cb : Nat) (s t : State) : Prop where
  rest  : { t with recst := s.recst, pairs := s.pairs, lanes := s.lanes } = s
  new   : ∀ p, on p → ∃ f, (t.lane p).build = (s.lane p).build ++ [f] ∧ f.cb = some cb
  other : ∀ p, ¬on p → t.lane p = s.lane p

section
variable {on on' : Nat → Prop} {cb : Nat} {s t u : State}

theorem Handed.of_lanes_eq (h : { t with recst := s.recst, pairs := s.pairs } = s) (hon : ∀ p, ¬on p) : Handed on cb s t where
  rest := by rw [← h]
  new p hp := absurd hp (hon p)
  other p _ := by rw [← h]; rfl

theorem Handed.field {α : Type} (h : Handed on cb s t) (g : State → α)
    (hg : ∀ x a b c, g { x with recst := a, pairs := b, lanes := c } = g x) : g t = g s := by
  rw [← hg t s.recst s.pairs s.lanes, h.rest]

/-- Frames handed one after the other, to different lanes. -/
theorem Handed.trans {all : Nat → Prop} (h : Handed on cb s t) (g : Handed on' cb t u) (hd : ∀ p, on p → ¬on' p)
    (hall : ∀ p, all p ↔ on p ∨ on' p) : Handed all cb s u where
  rest := by rw [← h.rest, ← g.rest]
  new p hp := by
    rcases (hall p).mp hp with hp | hp
    · rw [g.other p (hd p hp)]
      exact h.new p hp
    · rw [← h.other p fun hp' => hd p hp' hp]
      exact g.new p hp
  other p hp := by
    obtain ⟨h1, h2⟩ := not_or.mp (mt (hall p).mpr hp)
    rw [g.other p h2, h.other p h1]

end

section
variable (cb : Nat) (ws : List Word) (x : PubSt) (ms : List GooseMember) (cls : Nat) (dec deadline : Option Nat)

/-- The control block's frame for one port goes to its lane, where the block names the port. -/
def handPort (red : Option (BitVec 16)) (s : State) (p : Nat) : State :=
  if bit (wd ws 2) (16 + p) then
    s.setLane p { s.lane p with build := (s.lane p).build ++
      [⟨pubFrame s cb ws p x ms (cdiv (talFactor (bits (wd ws 6) 0 2) * x.iv) 1000) red, cls, deadline, dec,
        some (bits (wd ws 0) 16 8), some cb, crossed s.now nsU buildNs⟩] }
  else s

/-- The control block's frames for the two ports of pair `q`, under one sequence number where the pair is redundant. -/
def handPair (s : State) (q : Nat) : State :=
  if !bit (wd ws 2) (16 + 2 * q) && !bit (wd ws 2) (16 + (2 * q + 1)) then s
  else
    let pr := s.pair q
    let red := if pairRed s q = 0 then none else some (BitVec.ofNat 16 pr.seq)
    let s := if red.isSome then s.setPair q { pr with seq := (pr.seq + 1) % 65536 } else s
    [2 * q, 2 * q + 1].foldl (handPort cb ws x ms cls dec deadline red) s

theorem sendPub_eq (s : State) : sendPub s cb ws x ms cls dec deadline =
    (List.range 6).foldl (handPair cb ws x ms cls dec deadline) (recPut (recPut s 3 cb 4 x.st) 3 cb 5 x.sq) := rfl

theorem handed_handPort (red : Option (BitVec 16)) (s : State) (p : Nat) :
    Handed (fun n => n = p ∧ bit (wd ws 2) (16 + n) = true) cb s (handPort cb ws x ms cls dec deadline red s p) := by
  unfold handPort
  split
  · next h =>
    refine ⟨rfl, ?_, fun n hn => lane_setLane_ne s _ fun e => hn ⟨e, e ▸ h⟩⟩
    rintro n ⟨rfl, -⟩
    exact ⟨_, by rw [lane_setLane_self], rfl⟩
  · next h =>
    refine .of_lanes_eq rfl ?_
    rintro n ⟨rfl, hn⟩
    exact h hn

theorem handed_handPair (s : State) (q : Nat) :
    Handed (fun n => n / 2 = q ∧ bit (wd ws 2) (16 + n) = true) cb s (handPair cb ws x ms cls dec deadline s q) := by
  unfold handPair
  split
  · next h =>
    refine .of_lanes_eq rfl ?_
    rintro n ⟨rfl, hn⟩
    simp only [Bool.and_eq_true, Bool.not_eq_true'] at h
    obtain ⟨heven, hodd⟩ := h
    rcases Nat.mod_two_eq_zero_or_one n with hm | hm
    · rw [show n = 2 * (n / 2) by omega, heven] at hn
      exact absurd hn (by simp)
    · rw [show n = 2 * (n / 2) + 1 by omega, hodd] at hn
      exact absurd hn (by simp)
  · dsimp only
    generalize (if pairRed s q = 0 then none else some (BitVec.ofNat 16 (s.pair q).seq)) = red
    have h0 : Handed (fun _ => False) cb s
        (if red.isSome = true then s.setPair q { s.pair q with seq := ((s.pair q).seq + 1) % 65536 } else s) := by
      refine .of_lanes_eq ?_ (fun _ => id)
      split <;> rfl
    generalize (if red.isSome = true then s.setPair q { s.pair q with seq := ((s.pair q).seq + 1) % 65536 } else s) = w at h0
    have h1 := handed_handPort cb ws x ms cls dec deadline red w (2 * q)
    have h2 := handed_handPort cb ws x ms cls dec deadline red (handPort cb ws x ms cls dec deadline red w (2 * q)) (2 * q + 1)
    refine h0.trans (h1.trans h2 ?_ fun n => Iff.rfl) (fun _ h => h.elim) fun n => ?_
    · rintro n ⟨rfl, -⟩ ⟨h, -⟩
      omega
    · have : n / 2 = q ↔ n = 2 * q ∨ n = 2 * q + 1 := by omega
      simp only [this, false_or, or_and_right]

theorem handed_handPairs (s : State) (k : Nat) :
    Handed (fun n => n / 2 < k ∧ bit (wd ws 2) (16 + n) = true) cb s
      ((List.range k).foldl (handPair cb ws x ms cls dec deadline) s) := by
  induction k with
  | zero => exact .of_lanes_eq rfl (by simp)
  | succ k ih =>
    rw [List.range_succ, List.foldl_append]
    refine ih.trans (handed_handPair cb ws x ms cls dec deadline _ k) ?_ fun n => ?_
    · rintro n ⟨h, -⟩ ⟨h', -⟩
      omega
    · rw [← or_and_right]
      exact and_congr_left fun _ => by omega

/-- A control block's frame goes to the lane of each port that it names, and nowhere else. -/
theorem handed_sendPub (s : State) :
    Handed (fun n => n < 12 ∧ bit (wd ws 2) (16 + n) = true) cb s (sendPub s cb ws x ms cls dec deadline) := by
  rw [sendPub_eq]
  have h0 : Handed (fun _ => False) cb s (recPut (recPut s 3 cb 4 x.st) 3 cb 5 x.sq) := .of_lanes_eq rfl fun _ => id
  refine h0.trans (handed_handPairs cb ws x ms cls dec deadline _ 6) (fun _ h => h.elim) fun n => ?_
  rw [false_or]
  exact and_congr_left fun _ => by omega

end

-- Events and refreshes (R250) ---------------------------------------------------------------------------------------------------------

/-- Safelight's copies of a control block's stNum are the only registers written. -/
theorem safeStNum_eq (s : State) (cb st : Nat) : ∃ r, safeStNum s cb st = { s with regs := r } ∧
    ∀ n, (∀ i < 8, n ≠ rSL_SAFEST.key i 0) → tfind r n = tfind s.regs n := by
  have step : ∀ k ≤ 8, ∃ r, (List.range k).foldl (fun s i =>
      if s.fb fSL_SAFE0_V i && s.f fSL_SAFE3_CB i == cb then s.setReg rSL_SAFEST i 0 (w32 st) else s) s = { s with regs := r } ∧
      ∀ n, (∀ i < 8, n ≠ rSL_SAFEST.key i 0) → tfind r n = tfind s.regs n := by
    intro k
    induction k with
    | zero => exact fun _ => ⟨s.regs, rfl, fun _ _ => rfl⟩
    | succ k ih =>
      intro hk
      obtain ⟨r, hr, hn⟩ := ih (by omega)
      rw [List.range_succ, List.foldl_append, hr, List.foldl_cons, List.foldl_nil]
      split
      · exact ⟨_, rfl, fun n h => (tfind_tput_ne _ _ (h k (by omega))).trans (hn n h)⟩
      · exact ⟨r, rfl, hn⟩
  exact step 8 (Nat.le_refl 8)

/-- Safelight's copies lie apart from the link's control register. -/
theorem ubEn_safeStNum (s : State) (cb st : Nat) : (safeStNum s cb st).fb fUB_CTL_EN = s.fb fUB_CTL_EN := by
  obtain ⟨r, hr, hn⟩ := safeStNum_eq s cb st
  have hk : tfind r (fUB_CTL_EN.reg.key 0 0) = tfind s.regs (fUB_CTL_EN.reg.key 0 0) := hn _ (by decide)
  rw [hr]
  simp only [State.fb, State.f, State.reg, hk]

/-- The members that a request would send are the ones last sent, but for time stamps. -/
def unchanged (s : State) (r : PubReq) : Bool :=
  match (s.pub r.cb).last with
  | some old => maskTimes (pubMembers s (s.recw 3 r.cb) r.fallback).1 old ==
      maskTimes (pubMembers s (s.recw 3 r.cb) r.fallback).1 (pubMembers s (s.recw 3 r.cb) r.fallback).2
  | none => false

/-- A control block after an event: the next stNum, sqNum 0, and the ladder at T1, capped at T0. -/
def eventPub (s : State) (r : PubReq) : PubSt :=
  let ws := s.recw 3 r.cb
  let t1 := min (bits (wd ws 5) 0 16) (bits (wd ws 5) 16 16 * 1000)
  { s.pub r.cb with
      st := wrap1 (s.pub r.cb).st, sq := 0, last := some (pubMembers s ws r.fallback).2, iv := t1
      due := some (s.now + t1 * 1000 * nsU), at_ := s.tai, fb := r.fallback }

/-- The control block of a request may publish. -/
structure MayPublish (s : State) (cb : Nat) : Prop where
  valid  : bit (wd (s.recw 3 cb) 0) 31 = true
  active : standby s = false
  on     : s.stopped = false

section
variable {s : State} {r : PubReq} (h : MayPublish s r.cb) (ht : r.takeover = false)
include h ht

theorem publish_refresh (hu : unchanged s r = true) : publish s r = s := by
  unfold publish
  rw [if_neg (by simp [h.valid, h.active, h.on])]
  exact if_pos (by rw [ht]; exact (Bool.and_true _).trans hu)

theorem publish_event (hu : unchanged s r = false) (hub : s.fb fUB_CTL_EN = false) :
    publish s r = sendPub (safeStNum (s.setPub r.cb (eventPub s r)) r.cb (eventPub s r).st) r.cb (s.recw 3 r.cb) (eventPub s r)
      (pubMembers s (s.recw 3 r.cb) r.fallback).2 (if r.dec.isSome || r.fallback then 3 else 2) r.dec r.deadline := by
  have hsend := handed_sendPub r.cb (s.recw 3 r.cb) (eventPub s r) (pubMembers s (s.recw 3 r.cb) r.fallback).2
    (if r.dec.isSome || r.fallback then 3 else 2) r.dec r.deadline
    (safeStNum (s.setPub r.cb (eventPub s r)) r.cb (eventPub s r).st)
  have hen := (hsend.field (·.fb fUB_CTL_EN) fun _ _ _ _ => rfl).trans ((ubEn_safeStNum _ _ _).trans hub)
  unfold publish
  rw [if_neg (by simp [h.valid, h.active, h.on])]
  refine (if_neg ?_).trans (if_neg ?_)
  · rw [ht]
    exact Bool.eq_false_iff.mp ((Bool.and_true _).trans hu)
  · refine Bool.eq_false_iff.mp ?_
    exact (congrArg (ubActive _ && ·) hen).trans (Bool.and_false _)

/-- What an event leaves of the control block, the lanes and the other requests. -/
theorem publish_event_spec (hu : unchanged s r = false) (hub : s.fb fUB_CTL_EN = false) :
    (publish s r).pub r.cb = eventPub s r ∧ (publish s r).pubq = s.pubq ∧
      ∀ p < 12, bit (wd (s.recw 3 r.cb) 2) (16 + p) = true →
        ∃ f, ((publish s r).lane p).build = (s.lane p).build ++ [f] ∧ f.cb = some r.cb := by
  rw [publish_event h ht hu hub]
  obtain ⟨g, hg, -⟩ := safeStNum_eq (s.setPub r.cb (eventPub s r)) r.cb (eventPub s r).st
  have hsend := handed_sendPub r.cb (s.recw 3 r.cb) (eventPub s r) (pubMembers s (s.recw 3 r.cb) r.fallback).2
    (if r.dec.isSome || r.fallback then 3 else 2) r.dec r.deadline
    (safeStNum (s.setPub r.cb (eventPub s r)) r.cb (eventPub s r).st)
  generalize sendPub _ _ _ _ _ _ _ _ = t at hsend
  rw [hg] at hsend
  refine ⟨?_, ?_, fun p hp hb => hsend.new p ⟨hp, hb⟩⟩
  · exact (hsend.field (·.pub r.cb) fun _ _ _ _ => rfl).trans (pub_setPub_self s r.cb (eventPub s r))
  · exact hsend.field State.pubq fun _ _ _ _ => rfl

end

/-- The oldest request is served once it has crossed to egress. -/
theorem publicationRequest_serves {s : State} {r : PubReq} {rs : List PubReq} (hq : s.pubq = r :: rs) (hf : fabricOn s = true)
    (hp : s.ptq = []) :
    publicationRequest s = endHolds (publish { s.advanceTo (pushedAt s r) with pubq := rs } r) := by
  unfold publicationRequest
  rw [hq]
  dsimp only
  rw [if_neg (by simp [hf, hp])]

-- Retransmissions (R250, R261) ---------------------------------------------------------------------------------------------------------

/-- A control block after a retransmission that fell due at `d`. -/
def againPub (s : State) (cb d : Nat) : PubSt :=
  let x := s.pub cb
  let iv := min (2 * x.iv) (bits (wd (s.recw 3 cb) 5) 16 16 * 1000)
  { x with sq := wrap1 x.sq, iv := iv, due := some (d + iv * 1000 * nsU) }

theorem retransmit_sends {s : State} {cb d : Nat} {ms : List GooseMember} (h : MayPublish s cb) (hf : fabricOn s = true)
    (hd : (s.pub cb).due = some d) (hl : (s.pub cb).last = some ms) (he : eventDue s cb d = false) :
    ∃ ms', retransmit s cb =
      sendPub ((s.advanceTo d).setPub cb (againPub s cb d)) cb (s.recw 3 cb) (againPub s cb d) ms' 2 none none := by
  refine ⟨encodeAgain (s.advanceTo d) (pubMembers (s.advanceTo d) (s.recw 3 cb) (s.pub cb).fb).1 ms, ?_⟩
  have hactive : standby (s.advanceTo d) = false := h.active
  have hon : (s.advanceTo d).stopped = false := h.on
  unfold retransmit
  dsimp only
  rw [hd, hl]
  dsimp only
  rw [if_neg (by simp [he, hf]), if_neg (by simp [h.valid]), if_neg (by simp [hactive, hon])]
  simp only [againPub, hl]

-- The clauses --------------------------------------------------------------------------------------------------------------------------

theorem exec_publicationRequest (s : State) : exec .publicationRequest s = done (publicationRequest s) := rfl
theorem exec_retransmission (cb : Fin 1024) (s : State) : exec (.retransmission cb) s = done (retransmit s cb) := rfl

/-- The state in which a request that has crossed to egress is served may publish. -/
theorem MayPublish.crossed {s : State} {cb : Nat} (h : MayPublish s cb) {r : PubReq} (hcb : r.cb = cb) (rs : List PubReq) :
    MayPublish { s.advanceTo (pushedAt s r) with pubq := rs } r.cb where
  valid  := by rw [hcb]; exact h.valid
  active := h.active
  on     := h.on

section
variable {s : State} {cb : Fin 1024} (h : MayPublish s cb) (hf : fabricOn s = true)
include h hf

section
variable {r : PubReq} {rs : List PubReq} (hq : s.pubq = r :: rs) (hcb : r.cb = cb.val) (hp : s.ptq = [])
  (ht : r.takeover = false)
include hq hcb hp ht

theorem publicationRequest_event (hub : s.fb fUB_CTL_EN = false)
    (hu : unchanged { s.advanceTo (pushedAt s r) with pubq := rs } r = false) :
    Completes (exec .publicationRequest s) (fun t => t.pubq = rs ∧
      t.pub cb = eventPub { s.advanceTo (pushedAt s r) with pubq := rs } r ∧
      ∀ p < 12, bit (wd (s.recw 3 cb) 2) (16 + p) = true →
        ∃ f, (t.lane p).build = (s.lane p).build ++ [f] ∧ f.cb = some cb.val) := by
  obtain ⟨hpub, hrest, hnew⟩ := publish_event_spec (h.crossed hcb rs) ht hu hub
  rw [exec_publicationRequest, publicationRequest_serves hq hf hp]
  rw [hcb] at hpub hnew
  generalize publish { s.advanceTo (pushedAt s r) with pubq := rs } r = t at *
  exact completes_done ⟨hrest, hpub, hnew⟩

theorem publicationRequest_refresh (hu : unchanged { s.advanceTo (pushedAt s r) with pubq := rs } r = true) :
    Completes (exec .publicationRequest s) (fun t => t.pubq = rs ∧ t.lanes = s.lanes ∧ t.pub cb = s.pub cb) := by
  rw [exec_publicationRequest, publicationRequest_serves hq hf hp,
    publish_refresh (h.crossed hcb rs) ht hu]
  exact completes_done ⟨rfl, rfl, rfl⟩

end

theorem retransmission_sends {d : Nat} {ms : List GooseMember} (hd : (s.pub cb).due = some d) (hl : (s.pub cb).last = some ms)
    (he : eventDue s cb d = false) :
    Completes (exec (.retransmission cb) s) (fun t => t.now = max s.now d ∧ t.pub cb = againPub s cb d ∧
      ∀ p < 12, bit (wd (s.recw 3 cb) 2) (16 + p) = true →
        ∃ f, (t.lane p).build = (s.lane p).build ++ [f] ∧ f.cb = some cb.val) := by
  obtain ⟨ms', hs⟩ := retransmit_sends h hf hd hl he
  have hsend := handed_sendPub cb (s.recw 3 cb) (againPub s cb d) ms' 2 none none ((s.advanceTo d).setPub cb (againPub s cb d))
  rw [exec_retransmission, hs]
  generalize sendPub _ _ _ _ _ _ _ _ = t at hsend
  have hpub : t.pub cb = againPub s cb d :=
    (hsend.field (·.pub cb) fun _ _ _ _ => rfl).trans (pub_setPub_self (s.advanceTo d) cb (againPub s cb d))
  have hnow : t.now = max s.now d := (hsend.field State.now fun _ _ _ _ => rfl).trans (advanceTo_now s d)
  exact completes_done ⟨hnow, hpub, fun p hp hb => hsend.new p ⟨hp, hb⟩⟩

end

/-- What completes with a property completes with what follows from it. -/
theorem Completes.imp {o : Host.Outcome State Fault Refusal} {P Q : State → Prop} (h : Completes o P) (hPQ : ∀ t, P t → Q t) :
    Completes o Q := by
  obtain ⟨t, ht, hP⟩ := h
  exact ⟨t, ht, hPQ t hP⟩

/-- Settles O37: an event, a refresh and a retransmission, each by the control block that it leaves and the lanes that its frame
goes to. -/
theorem publications : Obligations.Publications := by
  unfold Obligations.Publications
  intro s cb hactive hon hf hvalid
  have h : MayPublish s cb := ⟨hvalid, hactive, hon⟩
  refine ⟨fun r rs hq hcb hp ht hub hdiff => ?_, fun r rs ms hq hcb hp ht hlast hms => ?_, fun d ms hd hl he => ?_⟩
  · have hu : unchanged { s.advanceTo (pushedAt s r) with pubq := rs } r = false := by
      unfold unchanged
      rw [hcb]
      split
      · next old hold => exact beq_eq_false_iff_ne.mpr (hdiff old hold)
      · rfl
    refine (publicationRequest_event h hf hq hcb hp ht hub hu).imp fun t ⟨hrest, hpub, hnew⟩ => ?_
    rw [hpub, eventPub, hcb]
    exact ⟨hrest, rfl, rfl, rfl, rfl, rfl, hnew⟩
  · have hu : unchanged { s.advanceTo (pushedAt s r) with pubq := rs } r = true := by
      have hl : (State.pub { s.advanceTo (pushedAt s r) with pubq := rs } cb).last = some ms := hlast
      unfold unchanged
      rw [hcb, hl, hms]
      exact beq_self_eq_true _
    exact publicationRequest_refresh h hf hq hcb hp ht hu
  · refine (retransmission_sends h hf hd hl he).imp fun t ⟨hnow, hpub, hnew⟩ => ?_
    rw [hpub]
    exact ⟨hnow, rfl, rfl, rfl, rfl, hnew⟩

end Sys2Proof.Machine
end

section
/-! PROOFS. Safe-state frames and the seal of the log (R411, R412, R415): what a flag without a notice leaves, bytes read
back from a memory, a slot's frame on its ports, and the statement SafeStateFrames assembled from them. -/

namespace Sys2Proof.Machine
open Sys2Proof

-- Flags without a notice (R195, R204) ---------------------------------------------------------------------------------------------

/-- Only registers, the cycles of their sets, interrupt bookkeeping and host memory differ. -/
def OnlyFlags (s t : State) : Prop :=
  { t with regs := s.regs, setAt := s.setAt, cores := s.cores, hi := s.hi, host := s.host } = s

section
variable {s t u : State}

theorem OnlyFlags.trans (h : OnlyFlags s t) (g : OnlyFlags t u) : OnlyFlags s u := by
  unfold OnlyFlags at *
  rw [← h, ← g]

theorem OnlyFlags.ite {p : Prop} [Decidable p] (ht : OnlyFlags s t) (hu : OnlyFlags s u) :
    OnlyFlags s (if p then t else u) := by
  split <;> assumption

/-- What does not read the parts that a flag changes is the same before and after. -/
theorem OnlyFlags.field {α : Type} (h : OnlyFlags s t) (g : State → α)
    (hg : ∀ x a b c d e, g { x with regs := a, setAt := b, cores := c, hi := d, host := e } = g x) : g t = g s := by
  rw [← hg t s.regs s.setAt s.cores s.hi s.host, h]

end

theorem onlyFlags_flagOn (s : State) (k : Flag) (i j : Nat) : OnlyFlags s (flagOn s k i j) := by
  unfold flagOn
  cases k.cnt <;> rfl

theorem onlyFlags_foldl {α : Type} (f : State → α → State) (hf : ∀ x a, OnlyFlags x (f x a)) (xs : List α) (s : State) :
    OnlyFlags s (xs.foldl f s) := by
  induction xs generalizing s with
  | nil => rfl
  | cons a xs ih => exact (hf s a).trans (ih _)

theorem onlyFlags_idleRelease (s : State) (c : Nat) : OnlyFlags s (idleRelease s c) := by
  unfold idleRelease
  refine .ite ?_ rfl
  apply onlyFlags_foldl
  exact fun _ _ => rfl

theorem onlyFlags_countSet (s : State) (c n : Nat) : OnlyFlags s (countSet s c n) := by
  have h := onlyFlags_idleRelease s c
  unfold countSet
  dsimp only
  generalize idleRelease s c = x at h
  exact h.trans (.ite (.ite rfl rfl) rfl)

theorem onlyFlags_sendMsix (s : State) (v : Nat) : OnlyFlags s (sendMsix s v) := by
  have h : OnlyFlags s (s.setVec v { s.vec v with cnt := 0 }) := rfl
  unfold sendMsix
  dsimp only
  generalize s.setVec v { s.vec v with cnt := 0 } = x at h
  exact h.trans (.ite rfl rfl)

theorem onlyFlags_vecSet (s : State) (v : Nat) : OnlyFlags s (vecSet s v) := by
  unfold vecSet
  dsimp only
  exact .ite (OnlyFlags.trans (by rfl) (onlyFlags_sendMsix _ v)) rfl

theorem onlyFlags_devSet (s : State) (n : Nat) : OnlyFlags s (devSet s n) := by
  have h := onlyFlags_countSet s (s.f fIC_ROUTE_CORE (n - 32)) n
  unfold devSet
  dsimp only
  generalize countSet s _ n = x at h
  split
  · refine h.trans (OnlyFlags.trans ?_ (onlyFlags_vecSet _ _))
    rfl
  · exact h

/-- A flag of a block other than the tamper logic posts no event: queues, the Vault and Safelight stand. -/
theorem onlyFlags_raise (s : State) (k : Flag) (i j : Nat) {n : Nat} (h : k.src = .dev n) (hn : n ≠ 45) :
    OnlyFlags s (raise s k i j) := by
  unfold raise
  rw [h]
  dsimp only
  rw [if_neg (by simpa using hn)]
  exact (onlyFlags_flagOn s k i j).trans (onlyFlags_devSet _ n)

-- Reading back what was written ---------------------------------------------------------------------------------------------------

theorem length_mread (m : Tab Byte) (a n : Nat) : (mread m a n).length = n := by
  induction n generalizing a with
  | zero => rfl
  | succ n ih => simp [mread, ih]

theorem getElem_mread (m : Tab Byte) (a n i : Nat) (h : i < (mread m a n).length) : (mread m a n)[i] = mget m (a + i) := by
  induction n generalizing a i with
  | zero => simp [mread] at h
  | succ n ih =>
    cases i with
    | zero => rfl
    | succ i =>
      simp only [mread, List.getElem_cons_succ, ih]
      congr 1
      omega

/-- A read depends on the bytes of its range only. -/
theorem mread_congr {m m' : Tab Byte} {a n : Nat} (h : ∀ i < n, mget m' (a + i) = mget m (a + i)) :
    mread m' a n = mread m a n := by
  refine List.ext_getElem (by simp [length_mread]) fun i h1 h2 => ?_
  rw [getElem_mread, getElem_mread, h i (by simpa [length_mread] using h1)]

/-- A read inside the range of a write is a slice of what was written. -/
theorem mread_mwrite_in (m : Tab Byte) (a o n : Nat) (bs : List Byte) (h : memWf m = true) (hn : o + n ≤ bs.length) :
    mread (mwrite m a bs) (a + o) n = (bs.drop o).take n := by
  refine List.ext_getElem (by simp [length_mread]; omega) fun i h1 h2 => ?_
  have hi : o + i < bs.length := by
    simp only [length_mread] at h1
    omega
  rw [getElem_mread, Nat.add_assoc, mget_mwrite_in m a (o + i) bs h hi, List.getElem_take, List.getElem_drop]

theorem mread_mwrite_out (m : Tab Byte) (a b n : Nat) (bs : List Byte) (h : b + n ≤ a ∨ a + bs.length ≤ b) :
    mread (mwrite m a bs) b n = mread m b n :=
  mread_congr fun i hi => mget_mwrite_out m a (b + i) bs (by omega)

theorem length_leBytes (n v : Nat) : (leBytes n v).length = n := by
  induction n generalizing v with
  | zero => rfl
  | succ n ih => simp [leBytes, ih]

theorem mread_leBytes (m : Tab Byte) (a n v : Nat) (h : memWf m = true) : mread (mwrite m a (leBytes n v)) a n = leBytes n v := by
  have e := mread_mwrite_in m a 0 n (leBytes n v) h (by simp [length_leBytes])
  simpa [List.take_of_length_le, length_leBytes] using e

-- A safe-state slot (R411, R415) -----------------------------------------------------------------------------------------------------

/-- A slot's frame goes out by the port: with a key of its own where it is tagged, on a link that is up or about to train, and
while the queue of its class has room. -/
def safePort (on : Nat → Bool) (f : Frame) (noKey : Bool) (s : State) (p : Nat) : State :=
  if !on p then s
  else if noKey then s.bump fEP_TXLOST_CNT_CNT p
  else if (linkUp s p || safeWaits s) && classDepth s p 3 < 32 then
    s.modPort p fun x => { x with egq := x.egq ++ [⟨f, 3, none, none, none, none, s.now + slCross⟩] }
  else s

/-- Only registers, the sequence numbers of pairs and ports differ. -/
def OnlyPorts (s t : State) : Prop := { t with regs := s.regs, pairs := s.pairs, ports := s.ports } = s

theorem OnlyPorts.trans {s t u : State} (h : OnlyPorts s t) (g : OnlyPorts t u) : OnlyPorts s u := by
  unfold OnlyPorts at *
  rw [← h, ← g]

theorem OnlyPorts.field {α : Type} {s t : State} (h : OnlyPorts s t) (g : State → α)
    (hg : ∀ x a b c, g { x with regs := a, pairs := b, ports := c } = g x) : g t = g s := by
  rw [← hg t s.regs s.pairs s.ports, h]

section
variable (s : State) (i : Nat) (bs : List Byte)

theorem onlyPorts_safePort (on : Nat → Bool) (f : Frame) (noKey : Bool) (p : Nat) : OnlyPorts s (safePort on f noKey s p) := by
  unfold safePort
  split
  · rfl
  · split
    · rfl
    · split <;> rfl

theorem port_safePort_ne (on : Nat → Bool) (f : Frame) (noKey : Bool) {p n : Nat} (h : n ≠ p) :
    (safePort on f noKey s p).port n = s.port n := by
  unfold safePort
  split
  · rfl
  · split
    · rfl
    · split
      · exact port_modPort_ne s _ h
      · rfl

/-- A frame with room on a link that is up joins the queue of its port. -/
theorem egq_safePort {on : Nat → Bool} (f : Frame) {p : Nat} (hon : on p = true) (hl : linkUp s p = true)
    (hd : classDepth s p 3 < 32) : ((safePort on f false s p).port p).egq =
      (s.port p).egq ++ [⟨f, 3, none, none, none, none, s.now + slCross⟩] := by
  unfold safePort
  rw [if_neg (by simp [hon]), if_neg (by simp), if_pos (by simp [hl, hd]), port_modPort_self]

theorem linkUp_safePort (on : Nat → Bool) (f : Frame) (p n : Nat) : linkUp (safePort on f false s p) n = linkUp s n := by
  unfold safePort
  split
  · rfl
  · rw [if_neg (by simp)]
    split <;> rfl

/-- The frame of a slot that carries the bytes, and whether it lacks a key, go out by both ports in turn. -/
theorem safeSend_eq : ∃ f noKey r, f.bytes = bs ∧ (s.fb fSL_SAFE0_TAG i = false → noKey = false) ∧
    safeSend s i bs = [0, 1].foldl (safePort (fun p => bit (s.f fSL_SAFE0_PORTS i) p) f noKey) { s with pairs := r } := by
  unfold safeSend
  dsimp only
  by_cases h : (pairRed s 0 != 0 && (bit (s.f fSL_SAFE0_PORTS i) 0 || bit (s.f fSL_SAFE0_PORTS i) 1)) = true
  · simp only [if_pos h]
    exact ⟨_, _, tput s.pairs 0 { s.pair 0 with seq := ((s.pair 0).seq + 1) % 65536 }, rfl, fun ht => by rw [ht]; rfl, rfl⟩
  · simp only [if_neg h]
    exact ⟨_, _, s.pairs, rfl, fun ht => by rw [ht]; rfl, rfl⟩

theorem onlyPorts_safeSend : OnlyPorts s (safeSend s i bs) := by
  obtain ⟨f, noKey, r, -, -, h⟩ := safeSend_eq s i bs
  rw [h]
  have h0 : OnlyPorts s { s with pairs := r } := rfl
  exact (h0.trans (onlyPorts_safePort _ _ _ _ 0)).trans (onlyPorts_safePort _ _ _ _ 1)

/-- An untagged slot's frame joins the queue of each of its ports whose link is up and whose queue has room. -/
theorem egq_safeSend (ht : s.fb fSL_SAFE0_TAG i = false) {p : Nat} (hp : p < 2) (hon : bit (s.f fSL_SAFE0_PORTS i) p = true)
    (hl : linkUp s p = true) (hd : classDepth s p 3 < 32) : ∃ b, ((safeSend s i bs).port p).egq = (s.port p).egq ++ [b] ∧
      b.cls = 3 ∧ b.rdy = s.now + slCross ∧ b.f.bytes = bs := by
  obtain ⟨f, noKey, r, hb, hk, h⟩ := safeSend_eq s i bs
  obtain rfl := hk ht
  refine ⟨⟨f, 3, none, none, none, none, s.now + slCross⟩, ?_, rfl, rfl, hb⟩
  rw [h, List.foldl_cons, List.foldl_cons, List.foldl_nil]
  generalize hs : ({ s with pairs := r } : State) = w
  have hw : w.port = s.port ∧ linkUp w = linkUp s ∧ classDepth w = classDepth s ∧ w.now = s.now := by
    subst hs
    exact ⟨rfl, rfl, rfl, rfl⟩
  obtain ⟨hport, hlink, hdepth, hnow⟩ := hw
  obtain rfl | rfl : p = 0 ∨ p = 1 := by omega
  · rw [port_safePort_ne _ _ _ _ (by decide), egq_safePort w f hon (by rw [hlink, hl]) (by rw [hdepth]; exact hd), hport, hnow]
  · have h1 := port_safePort_ne w (fun p => bit (s.f fSL_SAFE0_PORTS i) p) f false (p := 0) (n := 1) (by decide)
    have h2 : (safePort (fun p => bit (s.f fSL_SAFE0_PORTS i) p) f false w 0).now = w.now :=
      (onlyPorts_safePort w _ f false 0).field State.now fun _ _ _ _ => rfl
    rw [egq_safePort _ f hon (by rw [linkUp_safePort, hlink, hl]) (by
      rw [classDepth, h1, hport]
      exact hd), h1, hport, h2, hnow]

end

/-- What a slot's frame leaves: the slot's numbers and interval, its next turn, and the frame on its ports. -/
structure SlotSent (s : State) (i st sq iv : Nat) (t : State) : Prop where
  stNum : tget 0 t.sl.st i = st
  sqNum : tget 0 t.sl.sq i = sq
  step  : tget 0 t.sl.iv i = iv
  next  : tfind t.sl.due i = some (t.now + iv * 1000 * nsU)
  now   : t.now = s.now
  sends : ∀ p < 2, bit (s.f fSL_SAFE0_PORTS i) p = true → s.fb fSL_SAFE0_TAG i = false → linkUp s p = true →
    classDepth s p 3 < 32 → ∃ b, (t.port p).egq = (s.port p).egq ++ [b] ∧ b.cls = 3 ∧ b.rdy = t.now + 4 * nsU ∧
      b.f.bytes = safeBytes s i st sq (cdiv (talFactor (s.f fSL_SAFE0_TALF i) * iv) 1000)

theorem slotSent_safeBuild (s : State) (i st sq iv : Nat) : SlotSent s i st sq iv (settle (safeBuild s i st sq iv)) := by
  have hnow := (onlyPorts_safeSend s i (safeBytes s i st sq (cdiv (talFactor (s.f fSL_SAFE0_TALF i) * iv) 1000))).field
    State.now fun _ _ _ _ => rfl
  have hegq := egq_safeSend s i (safeBytes s i st sq (cdiv (talFactor (s.f fSL_SAFE0_TALF i) * iv) 1000))
  unfold safeBuild
  dsimp only
  generalize safeSend s i (safeBytes s i st sq (cdiv (talFactor (s.f fSL_SAFE0_TALF i) * iv) 1000)) = w at *
  refine ⟨tget_tput_self _ _ _ _, tget_tput_self _ _ _ _, tget_tput_self _ _ _ _, tfind_tput_self _ _ _, hnow, ?_⟩
  intro p hp hon ht hl hd
  obtain ⟨b, he, hc, hr, hb⟩ := hegq ht hp hon hl hd
  exact ⟨b, he, hc, hr.trans (congrArg (· + slCross) hnow.symm), hb⟩

theorem safeFirst_sends {s : State} {i w : Nat} (h : tfind s.sl.build i = some w) (hs : s.stopped = true) :
    safeFirst s i = safeBuild { s.advanceTo w with sl := { s.sl with build := tdel s.sl.build i } } i
      (wrap1 (s.reg rSL_SAFEST i 0).toNat) 0 (s.f fSL_SAFE1_T1 i) := by
  unfold safeFirst
  rw [h]
  dsimp only
  rw [if_neg (by simp [hs])]
  rfl

theorem safeAgain_sends {s : State} {i w : Nat} (h : tfind s.sl.due i = some w) (hs : s.stopped = true) :
    safeAgain s i = safeBuild (s.advanceTo w) i (tget 0 s.sl.st i) (wrap1 (tget 0 s.sl.sq i))
      (min (2 * tget 0 s.sl.iv i) (s.f fSL_SAFE1_T0 i * 1000)) := by
  unfold safeAgain
  rw [h]
  dsimp only
  rw [if_neg (by simp [hs])]
  rfl

-- The seal (R412) -------------------------------------------------------------------------------------------------------------------

/-- The first 60 bytes of the seal's block. -/
def sealBlock (s : State) : List Byte :=
  leBytes 4 0x4C414553 ++ leBytes 2 s.sl.logN ++ leBytes 2 ((s.sl.logNx + 2046 - s.sl.logN) % 2046) ++
    leBytes 1 (s.f fSL_CAUSE_CAUSE) ++ leBytes 1 (healthCode s) ++ leBytes 6 (taiSec s.sl.stopAt) ++
    leBytes 4 (taiNs s.sl.stopAt) ++ List.replicate 40 0

/-- The Vault with the block, and with the CRC of what stands before it. -/
def sealedVault (s : State) : Tab Byte :=
  let m := mwrite s.vault 0x2FFC0 (sealBlock s)
  mwrite m 0x2FFFC (leBytes 4 (crc32 (mread m 0x20000 0xFFFC)))

theorem length_sealBlock (s : State) : (sealBlock s).length = 60 := by
  simp [sealBlock, length_leBytes]

theorem sealedVault_block {s : State} {o n : Nat} (h : memWf s.vault = true) (hn : o + n ≤ 60) :
    mread (sealedVault s) (0x2FFC0 + o) n = ((sealBlock s).drop o).take n := by
  have hl := length_sealBlock s
  unfold sealedVault
  rw [mread_mwrite_out _ _ _ _ _ (by omega), mread_mwrite_in _ _ _ _ _ h (by omega)]

/-- The CRC stands behind the bytes that it covers. -/
theorem sealedVault_crc {s : State} (h : memWf s.vault = true) :
    mread (sealedVault s) 0x2FFFC 4 = leBytes 4 (crc32 (mread (sealedVault s) 0x20000 0xFFFC)) := by
  unfold sealedVault
  dsimp only
  have hm := memWf_mwrite s.vault 0x2FFC0 (sealBlock s) h
  generalize mwrite s.vault 0x2FFC0 (sealBlock s) = m at *
  rw [mread_leBytes _ _ _ _ hm, mread_mwrite_out m _ _ _ _ (by omega)]

theorem sealedVault_out (s : State) {a : Nat} (h : a < 0x2FFC0 ∨ 0x30000 ≤ a) : mget (sealedVault s) a = mget s.vault a := by
  have hl := length_sealBlock s
  unfold sealedVault
  dsimp only
  rw [mget_mwrite_out _ _ _ _ (by rw [length_leBytes]; omega), mget_mwrite_out _ _ _ _ (by omega)]

/-- A register outside Safelight's flags and their counters, and outside those of a notice, survives its flags. -/
theorem f_raise_sl {s : State} {k : Flag} {c : Field} (hk : k.f.reg.key 0 0 = 0xf00004) (hc : k.cnt = some c)
    (hn : c.reg.key 0 0 = 0xf00008) (g : Field) (i j : Nat)
    (h : g.reg.key i j < 0x700004 ∨ 0x941020 ≤ g.reg.key i j ∧ g.reg.key i j < 0xf00004 ∨ 0xf00008 < g.reg.key i j) :
    (raise s k).f g i j = s.f g i j := by
  refine f_raise_ne s (by omega) (fun d hd => ?_) (not_sideKey (by omega))
  obtain rfl : c = d := Option.some.inj (hc.symm.trans hd)
  omega

theorem flagged_raise_sl {s : State} {k : Flag} {c : Field} (hk : k.f.reg.key 0 0 = 0xf00004) (hc : k.cnt = some c)
    (hn : c.reg.key 0 0 = 0xf00008) (hb : k.f.hi = k.f.lo) (hw : k.f.lo < 32) : Flagged (raise s k) k := by
  refine flagged_raise s k 0 0 hb hw (fun d hd => ?_) (not_sideKey (by omega))
  obtain rfl : c = d := Option.some.inj (hc.symm.trans hd)
  omega

theorem sealLog_due {s : State} {w : Nat} (h : s.sl.sealAt = some w) (hw : s.ks.wipe = none) :
    sealLog s = raise (({ s.advanceTo w with
      vault := sealedVault (s.advanceTo w), sl := { s.sl with sealAt := none } } : State).setF fSL_STATE_LOG 1) kSL_STAT_SEALED := by
  unfold sealLog
  rw [h]
  dsimp only
  rw [if_neg (by simp [hw])]
  rfl

/-- What the seal leaves: the Vault with the block and its CRC, the log's state, and the flag. -/
theorem sealLog_spec {s : State} {w : Nat} (h : s.sl.sealAt = some w) (hw : s.ks.wipe = none) :
    (sealLog s).now = max s.now w ∧ (sealLog s).sl.sealAt = none ∧ (sealLog s).f fSL_STATE_LOG = 1 ∧
      Flagged (sealLog s) kSL_STAT_SEALED ∧ (sealLog s).vault = sealedVault (s.advanceTo w) := by
  rw [sealLog_due h hw]
  generalize hv : sealedVault (s.advanceTo w) = m
  generalize hu : ({ s.advanceTo w with vault := m, sl := { s.sl with sealAt := none } } : State) = u
  have hf := onlyFlags_raise (u.setF fSL_STATE_LOG 1) kSL_STAT_SEALED 0 0 rfl (by decide)
  have hlog : (raise (u.setF fSL_STATE_LOG 1) kSL_STAT_SEALED).f fSL_STATE_LOG = 1 := by
    rw [f_raise_sl rfl rfl rfl fSL_STATE_LOG 0 0 (by decide), f_setF_self _ _ _ _ _ (by decide)]
    rfl
  have hflag : Flagged (raise (u.setF fSL_STATE_LOG 1) kSL_STAT_SEALED) kSL_STAT_SEALED :=
    flagged_raise_sl rfl rfl rfl rfl (by decide)
  generalize raise (u.setF fSL_STATE_LOG 1) kSL_STAT_SEALED = t at *
  have hnow := hf.field State.now fun _ _ _ _ _ _ => rfl
  have hsl := hf.field State.sl fun _ _ _ _ _ _ => rfl
  have hvault := hf.field State.vault fun _ _ _ _ _ _ => rfl
  subst hu
  exact ⟨hnow.trans (advanceTo_now s w), congrArg SlSt.sealAt hsl, hlog, hflag, hvault⟩

-- LOGREARM and image words (R412, R415) -----------------------------------------------------------------------------------------------

/-- SL_CTL with its fields written, where its lock is open. -/
def slCtlFields (s : State) (v : Word) : State :=
  if s.fb fSL_CTL_LOCK then s
  else (s.setF fSL_CTL_LOGEN (b2n (bit v.toNat 0))).setF fSL_CTL_LOCK (b2n (bit v.toNat 31))

/-- The log as LOGREARM leaves it: empty, unsealed, and without the seal's mark. -/
def rearmed (s : State) : State :=
  { s.setF fSL_STATE_LOG 0 with vault := mwrite s.vault 0x2FFC0 [0, 0, 0, 0], sl := { s.sl with logN := 0, logNx := 0 } }

theorem slCtl_eq (s : State) (v : Word) : slCtl s v =
    if bit v.toNat 1 && (slCtlFields s v).f fSL_STATE_LOG != 0 then rearmed (slCtlFields s v) else slCtlFields s v := rfl

theorem b2n_bit (v i : Nat) : b2n (bit v i) = bits v i 1 := by
  unfold b2n bit bits
  rw [Nat.testBit_eq_decide_div_mod_eq]
  have := Nat.mod_lt (v / 2 ^ i) (show 0 < 2 by decide)
  split <;> simp_all

section
variable (s : State) (v : Word)

theorem slCtlFields_other : (slCtlFields s v).vault = s.vault ∧ (slCtlFields s v).f fSL_STATE_LOG = s.f fSL_STATE_LOG := by
  unfold slCtlFields
  split
  · exact ⟨rfl, rfl⟩
  · refine ⟨rfl, ?_⟩
    rw [f_setF_ne _ _ _ _ _ _ _ _ (by decide), f_setF_ne _ _ _ _ _ _ _ _ (by decide)]

theorem slCtlFields_open (h : s.fb fSL_CTL_LOCK = false) :
    (slCtlFields s v).f fSL_CTL_LOGEN = bits v.toNat 0 1 ∧ (slCtlFields s v).f fSL_CTL_LOCK = bits v.toNat 31 1 := by
  unfold slCtlFields
  rw [if_neg (by simp [h]), f_setF_field _ fSL_CTL_LOCK fSL_CTL_LOGEN _ _ _ (by decide) (by decide) rfl (by decide) (by decide),
    f_setF_self _ _ _ _ _ (by decide), f_setF_self _ _ _ _ _ (by decide), b2n_bit, b2n_bit]
  exact ⟨Nat.mod_eq_of_lt (bits_lt _ _ _), Nat.mod_eq_of_lt (bits_lt _ _ _)⟩

theorem slCtlFields_locked (h : s.fb fSL_CTL_LOCK = true) : slCtlFields s v = s := if_pos h

/-- SL_CTL's own fields do not depend on LOGREARM. -/
theorem f_slCtl (g : Field) (h : g.reg.key 0 0 ≠ fSL_STATE_LOG.reg.key 0 0) : (slCtl s v).f g = (slCtlFields s v).f g := by
  rw [slCtl_eq]
  split
  · exact f_setF_ne _ _ _ _ _ _ _ _ h
  · rfl

theorem slCtl_keep (h : bit v.toNat 1 = false) :
    (slCtl s v).vault = s.vault ∧ (slCtl s v).f fSL_STATE_LOG = s.f fSL_STATE_LOG := by
  rw [slCtl_eq, if_neg (by simp [h])]
  exact slCtlFields_other s v

theorem slCtl_rearm (h : bit v.toNat 1 = true) : (slCtl s v).f fSL_STATE_LOG = 0 ∧ (s.f fSL_STATE_LOG ≠ 0 →
    (slCtl s v).sl.logN = 0 ∧ (memWf s.vault = true → mread (slCtl s v).vault 0x2FFC0 4 = [0, 0, 0, 0])) := by
  obtain ⟨hvault, hlog⟩ := slCtlFields_other s v
  rw [slCtl_eq, h, hlog]
  generalize slCtlFields s v = w at *
  by_cases h0 : s.f fSL_STATE_LOG = 0
  · rw [if_neg (by simp [h0])]
    exact ⟨hlog.trans h0, fun hne => absurd h0 hne⟩
  · rw [if_pos (by simp [h0])]
    refine ⟨(f_setF_self w fSL_STATE_LOG 0 0 0 (by decide)).trans rfl, fun _ => ⟨rfl, fun hm => ?_⟩⟩
    exact mread_mwrite_in w.vault 0x2FFC0 0 4 [0, 0, 0, 0] (hvault ▸ hm) (Nat.le_refl _)

end

-- The clauses --------------------------------------------------------------------------------------------------------------------------

theorem exec_safeStateBuild (slot : Fin 8) (s : State) : exec (.safeStateBuild slot) s = done (safeFirst s slot) := rfl
theorem exec_safeStateRetransmission (slot : Fin 8) (s : State) :
    exec (.safeStateRetransmission slot) s = done (safeAgain s slot) := rfl
theorem exec_seal (s : State) : exec .seal s = done (sealLog s) := rfl
theorem exec_slCtlLogrearm (v : Word) (s : State) : exec (.slCtlLogrearm v) s = done (slCtl s v) := rfl
theorem exec_slImgdata (v : Word) (s : State) : exec (.slImgdata v) s = done (slImgData s v) := rfl

theorem seal_clause {s : State} {w : Nat} (h : s.sl.sealAt = some w) (hw : s.ks.wipe = none) (hm : memWf s.vault = true) :
    Completes (exec .seal s) (fun t =>
      t.now = max s.now w ∧ t.sl.sealAt = none ∧ t.f fSL_STATE_LOG = 1 ∧ Flagged t kSL_STAT_SEALED ∧
      mread t.vault 0x2FFC0 4 = leBytes 4 0x4C414553 ∧ mread t.vault 0x2FFC4 2 = leBytes 2 s.sl.logN ∧
      mread t.vault 0x2FFFC 4 = leBytes 4 (crc32 (mread t.vault 0x20000 0xFFFC)) ∧
      ∀ a, a < 0x2FFC0 ∨ 0x30000 ≤ a → mget t.vault a = mget s.vault a) := by
  obtain ⟨hnow, hseal, hlog, hflag, hvault⟩ := sealLog_spec h hw
  rw [exec_seal]
  generalize sealLog s = t at *
  have hmark : mread t.vault (0x2FFC0 + 0) 4 = leBytes 4 0x4C414553 := by
    rw [hvault, sealedVault_block (by exact hm) (by decide)]
    rfl
  have hcount : mread t.vault (0x2FFC0 + 4) 2 = leBytes 2 s.sl.logN := by
    rw [hvault, sealedVault_block (by exact hm) (by decide)]
    rfl
  have hcrc : mread t.vault 0x2FFFC 4 = leBytes 4 (crc32 (mread t.vault 0x20000 0xFFFC)) := by
    rw [hvault]
    exact sealedVault_crc (s := s.advanceTo w) hm
  have hout : ∀ a, a < 0x2FFC0 ∨ 0x30000 ≤ a → mget t.vault a = mget s.vault a := fun a ha => by
    rw [hvault]
    exact sealedVault_out (s.advanceTo w) ha
  exact completes_done ⟨hnow, hseal, hlog, hflag, hmark, hcount, hcrc, hout⟩

theorem slCtl_clause (s : State) (v : Word) : Completes (exec (.slCtlLogrearm v) s) (fun t =>
      (s.fb fSL_CTL_LOCK = false → t.f fSL_CTL_LOGEN = bits v.toNat 0 1 ∧ t.f fSL_CTL_LOCK = bits v.toNat 31 1) ∧
      (s.fb fSL_CTL_LOCK = true → t.f fSL_CTL_LOGEN = s.f fSL_CTL_LOGEN ∧ t.fb fSL_CTL_LOCK = true) ∧
      (bit v.toNat 1 = false → t.vault = s.vault ∧ t.f fSL_STATE_LOG = s.f fSL_STATE_LOG) ∧
      (bit v.toNat 1 = true → t.f fSL_STATE_LOG = 0 ∧ (s.f fSL_STATE_LOG ≠ 0 → t.sl.logN = 0 ∧
        (memWf s.vault = true → mread t.vault 0x2FFC0 4 = [0, 0, 0, 0])))) := by
  have hen := f_slCtl s v fSL_CTL_LOGEN (by decide)
  have hlock := f_slCtl s v fSL_CTL_LOCK (by decide)
  have hkeep := slCtl_keep s v
  have hrearm := slCtl_rearm s v
  rw [exec_slCtlLogrearm]
  generalize slCtl s v = t at *
  refine completes_done ⟨fun h => ?_, fun h => ?_, hkeep, hrearm⟩
  · obtain ⟨h1, h2⟩ := slCtlFields_open s v h
    exact ⟨hen.trans h1, hlock.trans h2⟩
  · rw [slCtlFields_locked s v h] at hen hlock
    exact ⟨hen, (congrArg (· != 0) hlock).trans h⟩

theorem slImgdata_clause (s : State) (v : Word) (h : memWf s.slimg = true) : Completes (exec (.slImgdata v) s) (fun t =>
      mread t.slimg (4 * s.f fSL_IMGADDR_WORD) 4 = leBytes 4 v.toNat ∧
      t.f fSL_IMGADDR_WORD = (s.f fSL_IMGADDR_WORD + 1) % 512 ∧
      ∀ a, a < 4 * s.f fSL_IMGADDR_WORD ∨ 4 * s.f fSL_IMGADDR_WORD + 4 ≤ a → mget t.slimg a = mget s.slimg a) := by
  rw [exec_slImgdata]
  refine completes_done ⟨mread_leBytes _ _ _ _ h, ?_, fun a ha => ?_⟩
  · exact f_setF_self s fSL_IMGADDR_WORD _ 0 0 (by decide)
  · exact mget_mwrite_out s.slimg _ a _ (by rw [length_leBytes]; exact ha)

/-- Settles O54: the slots by what a slot's frame leaves, the seal by the ranges that it writes, LOGREARM and the image words by
their cases. -/
theorem safeStateFrames : Obligations.SafeStateFrames := by
  unfold Obligations.SafeStateFrames
  intro s slot v
  refine ⟨fun w hb hs => ?_, fun w hd hs => ?_, fun w => seal_clause, slCtl_clause s v, slImgdata_clause s v⟩
  · have h := slotSent_safeBuild { s.advanceTo w with sl := { s.sl with build := tdel s.sl.build slot } } slot
      (wrap1 (s.reg rSL_SAFEST slot 0).toNat) 0 (s.f fSL_SAFE1_T1 slot)
    rw [exec_safeStateBuild, safeFirst_sends hb hs]
    generalize safeBuild _ _ _ _ _ = t at *
    exact completes_done ⟨h.now.trans (advanceTo_now s w), h.stNum, h.sqNum, h.step, h.next, h.sends⟩
  · have h := slotSent_safeBuild (s.advanceTo w) slot (tget 0 s.sl.st slot) (wrap1 (tget 0 s.sl.sq slot))
      (min (2 * tget 0 s.sl.iv slot) (s.f fSL_SAFE1_T0 slot * 1000))
    rw [exec_safeStateRetransmission, safeAgain_sends hd hs]
    generalize safeBuild _ _ _ _ _ = t at *
    exact completes_done ⟨h.now.trans (advanceTo_now s w), h.stNum, h.sqNum, h.step, h.next, h.sends⟩

end Sys2Proof.Machine
end

section
/-! PROOFS. Stop bath (R28, R29, R409, R410, R414): the triggers of the watchdog, of STOP_N and of SL_STOP, what the freeze
leaves, and the statement StopBath assembled from them. -/

namespace Sys2Proof.Machine
open Sys2Proof

-- Triggers (R409, R414) -----------------------------------------------------------------------------------------------------------

theorem exec_watchdogExpiry (s : State) : exec .watchdogExpiry s = done (watchdogExpiry s) := rfl
theorem exec_slWdkickKick (v : Word) (s : State) : exec (.slWdkickKick v) s = done (watchdogKick s v) := rfl
theorem exec_stopN (s : State) : exec .stopN s = done (stopTrigger s 1 s.now) := rfl
theorem exec_slStopGo (v : Word) (s : State) : exec (.slStopGo v) s = done (slStop s v) := rfl
theorem exec_stopBath (s : State) : exec .stopBath s = done (stopBath s) := rfl

theorem sl_advanceTo (s : State) (m : Nat) : (s.advanceTo m).sl = s.sl := rfl

/-- The watchdog's trigger is posted under number 0, with its flag, and the watchdog rests; time stands. -/
theorem watchdogTrigger_spec (s : State) (m : Nat) :
    (watchdogTrigger s m).sl.trig = s.sl.trig ++ [(0, m)] ∧ (watchdogTrigger s m).sl.kick = none ∧
      Flagged (watchdogTrigger s m) kSL_STAT_WDOG ∧ (watchdogTrigger s m).now = s.now := by
  unfold watchdogTrigger stopTrigger
  have hf := onlyFlags_raise { s with sl := { s.sl with kick := none } } kSL_STAT_WDOG 0 0 rfl (by decide)
  have hflag : Flagged (raise { s with sl := { s.sl with kick := none } } kSL_STAT_WDOG) kSL_STAT_WDOG :=
    flagged_raise_sl rfl rfl rfl rfl (by decide)
  generalize raise { s with sl := { s.sl with kick := none } } kSL_STAT_WDOG = t at *
  have hsl := hf.field State.sl fun _ _ _ _ _ _ => rfl
  have hnow := hf.field State.now fun _ _ _ _ _ _ => rfl
  exact ⟨congrArg (·.trig ++ [(0, m)]) hsl, congrArg SlSt.kick hsl, hflag, hnow⟩

section
variable {s : State} {w : Nat} {real : Bool} (hk : s.sl.kick = some (w, real)) (he : s.fb fSL_WDOG_EN = true)
  (hs : s.stopped = false)
include hk he hs

theorem watchdogExpiry_triggers : watchdogExpiry s =
    watchdogTrigger (s.advanceTo (watchdogDue s w)) (s.advanceTo (watchdogDue s w)).now := by
  unfold watchdogExpiry
  rw [hk]
  dsimp only
  rw [if_pos (by simp [he, hs])]

variable {v : Word} (hv : bit v.toNat 0 = true)
include hv

/-- A kick in the cycle of the expiry or later does not hold the watchdog off. -/
theorem watchdogKick_late (h : watchdogDue s w ≤ slArrive s) :
    watchdogKick s v = watchdogTrigger s (max s.now (watchdogDue s w)) := by
  unfold watchdogKick
  rw [hk]
  dsimp only
  rw [if_neg (by simp [he, hs, hv]), if_pos h]

theorem watchdogKick_early (h : slArrive s < watchdogDue s w) (hr : real = true)
    (hm : slArrive s < w + s.f fSL_WDOG_MIN * 1000000 * nsU) : watchdogKick s v = watchdogTrigger s (slArrive s) := by
  unfold watchdogKick
  rw [hk]
  dsimp only
  rw [if_neg (by simp [he, hs, hv]), if_neg (by omega), if_pos (by simp [hr, hm])]

theorem watchdogKick_inTime (h : slArrive s < watchdogDue s w)
    (hm : ¬(real = true ∧ slArrive s < w + s.f fSL_WDOG_MIN * 1000000 * nsU)) :
    watchdogKick s v = { s with sl := { s.sl with kick := some (slArrive s, true) } } := by
  unfold watchdogKick
  rw [hk]
  dsimp only
  rw [if_neg (by simp [he, hs, hv]), if_neg (by omega), if_neg (by simpa using hm)]

end

-- What the freeze leaves (R410) ---------------------------------------------------------------------------------------------------

theorem tfind_map {α : Type} (g : Nat → α → α) (t : Tab α) (k : Nat) :
    tfind (t.map fun e => (e.1, g e.1 e.2)) k = (tfind t k).map (g k) := by
  induction t with
  | nil => rfl
  | cons e t ih =>
    obtain ⟨k', x⟩ := e
    simp only [List.map_cons, tfind]
    split
    · next h => rw [h, Option.map_some]
    · exact ih

/-- Reading from a table whose entries have all been changed gives a changed entry, or the default. -/
theorem getD_tfind_map {α : Type} {P : α → Prop} (g : α → α) (hg : ∀ x, P (g x)) {d : α} (hd : P d) (t : Tab α) (k : Nat) :
    P ((tfind (t.map fun e => (e.1, g e.2)) k).getD d) := by
  rw [tfind_map fun _ => g]
  cases tfind t k with
  | none => exact hd
  | some x => exact hg x

/-- After the freeze nothing waits: in no port, in no lane, in no pipe, and no migration. -/
structure Frozen (t : State) : Prop where
  pubq  : t.pubq = []
  mig   : t.plan.mig = []
  wait  : ∀ p, (t.pipe p).wait = none
  ports : ∀ p, (t.port p).egq = [] ∧ (t.port p).ing = []
  build : ∀ l, (t.lane l).build = []
  entry : t.pm.entry = none

theorem frozen_freeze (s : State) : Frozen (freeze s) where
  pubq    := rfl
  mig     := rfl
  wait _  := getD_tfind_map (P := fun x : PipeSt => x.wait = none) (fun x => { x with wait := none }) (fun _ => rfl) rfl _ _
  ports _ := getD_tfind_map (P := fun x : PortSt => x.egq = [] ∧ x.ing = []) (fun x => { x with egq := [], ing := [] })
    (fun _ => ⟨rfl, rfl⟩) ⟨rfl, rfl⟩ _ _
  build _ := getD_tfind_map (P := fun x : LaneSt => x.build = [])
    (fun x => { x with build := [], eg := FeThr.init, ing := { x.ing with run := false } }) (fun _ => rfl) rfl _ _
  entry   := rfl

theorem Frozen.of_onlyFlags {s t : State} (h : Frozen s) (e : OnlyFlags s t) : Frozen t := by
  unfold OnlyFlags at e
  rw [← e] at h
  exact ⟨h.pubq, h.mig, h.wait, h.ports, h.build, h.entry⟩

-- The causes (R409) ---------------------------------------------------------------------------------------------------------------

theorem testBit_causes (bs : List (Nat × Nat)) (m n : Nat) :
    (bs.foldl (fun m b => m ||| 2 ^ b.1) m).testBit n = (m.testBit n || bs.any fun b => b.1 == n) := by
  induction bs generalizing m with
  | nil => simp
  | cons b bs ih =>
    have hb : (2 ^ b.1).testBit n = (b.1 == n) := by
      rw [Nat.testBit_two_pow, Bool.eq_iff_iff]
      simp
    rw [List.foldl_cons, ih, Nat.testBit_or, hb, List.any_cons, Bool.or_assoc]

-- STOP_BATH (R410) ------------------------------------------------------------------------------------------------------------------

/-- The causes that have arrived when the freeze completes. -/
def arrived (s : State) : Nat :=
  (s.sl.trig.filter fun b => b.2 ≤ s.now + freezeTime).foldl (fun m b => m ||| 2 ^ b.1) 0

/-- A domain that has not failed is held on. -/
def holdOn (s : State) (d : Nat) : State := if domFaulted s d then s else s.setF fPM_DOM_STATE 0 d

/-- The registers of stop bath and the freeze. -/
def frozenAt (s : State) : State :=
  [13, 18].foldl holdOn (freeze (((s.setF fSL_STATE_STOPBATH 1).setF fSL_CAUSE_CAUSE (arrived s)).setF fPM_REQ_PEND 0))

/-- Safelight at the start of stop bath: no trigger waits, the slots are due, and the seal unless the log is sealed. -/
def bathSl (s : State) : SlSt :=
  { s.sl with
      trig := [], kick := none, stopAt := s.tai, build := safePlan s, st := [], sq := [], iv := [], due := []
      sealAt := if s.f fSL_STATE_LOG = 0 then
        some ((match s.ks.wipe with | some (t, _) => max s.now t | none => s.now) + 82000 * nsU) else none }

/-- Stop bath from the instant on at which the last ramp has ended. -/
def enterBath (s : State) : State :=
  (raise { frozenAt s with sl := bathSl (frozenAt s) } kSL_STAT_STOPBATH).advance freezeTime

theorem lastCycles_quiet {s : State} (h : ∀ c < 32, nextEvent s c = none) : lastCycles s = s := by
  have hrun : ∀ c < 32, ∀ n fuel, runTo s c n fuel = s := fun c hc n fuel => by
    cases fuel with
    | zero => rfl
    | succ fuel => simp only [runTo, h c hc]
  have hfold : ∀ k ≤ 32, (List.range k).foldl (fun s c => runTo s c (s.nowCyc + 4) (eventFuel s c)) s = s := by
    intro k
    induction k with
    | zero => exact fun _ => rfl
    | succ k ih =>
      intro hk
      rw [List.range_succ, List.foldl_append, ih (by omega)]
      exact hrun k (by omega) _ _
  exact hfold 32 (Nat.le_refl 32)

theorem stopBath_enters {s : State} {x : Nat × Nat} {xs : List (Nat × Nat)} (hq : s.sl.trig = x :: xs)
    (hs : s.stopped = false) (hp : pmState s ≠ 4)
    (hn : ∀ c < 32, nextEvent (s.advanceTo (xs.foldl (fun m b => min m b.2) x.2)) c = none) :
    stopBath s = enterBath (if pmState s = 3 then (s.advanceTo (xs.foldl (fun m b => min m b.2) x.2)).advance (16000 * nsU)
      else s.advanceTo (xs.foldl (fun m b => min m b.2) x.2)) := by
  unfold stopBath
  rw [hq]
  dsimp only
  rw [if_neg (by simp [hs]), if_neg hp, lastCycles_quiet hn]
  rfl

theorem holdOn_eq (s : State) (d : Nat) : ∃ r, holdOn s d = { s with regs := r } ∧
    ∀ n, n ≠ fPM_DOM_STATE.reg.key d 0 → tfind r n = tfind s.regs n := by
  unfold holdOn
  split
  · exact ⟨s.regs, rfl, fun _ _ => rfl⟩
  · exact ⟨_, rfl, fun n h => tfind_tput_ne _ _ h⟩

/-- Beside registers the frozen state is that of the freeze, and outside the domains its registers hold what was written. -/
theorem frozenAt_eq (s : State) : ∃ r, frozenAt s = { freeze s with regs := r } ∧
    ∀ g : Field, g.reg.key 0 0 < 0xc00100 ∨ 0xc00200 ≤ g.reg.key 0 0 → (frozenAt s).f g =
      (((s.setF fSL_STATE_STOPBATH 1).setF fSL_CAUSE_CAUSE (arrived s)).setF fPM_REQ_PEND 0).f g := by
  unfold frozenAt
  generalize hw : ((s.setF fSL_STATE_STOPBATH 1).setF fSL_CAUSE_CAUSE (arrived s)).setF fPM_REQ_PEND 0 = w
  have hfr : { freeze w with regs := s.regs } = { freeze s with regs := s.regs } := by
    rw [← hw]
    rfl
  obtain ⟨r, hr, hn⟩ := holdOn_eq (freeze w) 13
  obtain ⟨r', hr', hn'⟩ := holdOn_eq { freeze w with regs := r } 18
  rw [List.foldl_cons, List.foldl_cons, List.foldl_nil, hr, hr']
  refine ⟨r', congrArg (fun x : State => { x with regs := r' }) hfr, fun g hg => ?_⟩
  have h13 : fPM_DOM_STATE.reg.key 13 0 = 0xc00134 := rfl
  have h18 : fPM_DOM_STATE.reg.key 18 0 = 0xc00148 := rfl
  have hk : tfind r' (g.reg.key 0 0) = tfind w.regs (g.reg.key 0 0) := (hn' _ (by omega)).trans (hn _ (by omega))
  simp only [State.f, State.reg, hk]

/-- What stop bath has written when the freeze completes: its state, its causes, no request, and the log's state as before. -/
structure BathRegs (s t : State) : Prop where
  on    : t.stopped = true
  cause : t.f fSL_CAUSE_CAUSE = arrived s % 2 ^ 5
  pend  : t.f fPM_REQ_PEND = 0
  log   : t.f fSL_STATE_LOG = s.f fSL_STATE_LOG

theorem bathRegs_frozenAt (s : State) : BathRegs s (frozenAt s) := by
  obtain ⟨-, -, hreg⟩ := frozenAt_eq s
  refine ⟨?_, ?_, ?_, ?_⟩
  · have h : (frozenAt s).f fSL_STATE_STOPBATH = 1 := by
      rw [hreg _ (by decide), f_setF_ne _ _ _ _ _ _ _ _ (by decide), f_setF_ne _ _ _ _ _ _ _ _ (by decide),
        f_setF_self _ _ _ _ _ (by decide)]
      rfl
    simp [State.stopped, State.fb, h]
  · rw [hreg _ (by decide), f_setF_ne _ _ _ _ _ _ _ _ (by decide), f_setF_self _ _ _ _ _ (by decide)]
    rfl
  · rw [hreg _ (by decide), f_setF_self _ _ _ _ _ (by decide)]
    rfl
  · rw [hreg _ (by decide), f_setF_ne _ _ _ _ _ _ _ _ (by decide), f_setF_ne _ _ _ _ _ _ _ _ (by decide)]
    exact f_setF_field s fSL_STATE_STOPBATH fSL_STATE_LOG 1 0 0 (by decide) (by decide) rfl (by decide) (by decide)

/-- The flag of stop bath leaves those registers. -/
theorem BathRegs.raise {s t : State} (h : BathRegs s t) : BathRegs s (raise t kSL_STAT_STOPBATH) where
  on := by
    have h1 := f_raise_sl (s := t) (k := kSL_STAT_STOPBATH) rfl rfl rfl fSL_STATE_STOPBATH 0 0 (by decide)
    exact (congrArg (· != 0) h1).trans h.on
  cause := (f_raise_sl rfl rfl rfl _ _ _ (by decide)).trans h.cause
  pend := (f_raise_sl rfl rfl rfl _ _ _ (by decide)).trans h.pend
  log := (f_raise_sl rfl rfl rfl _ _ _ (by decide)).trans h.log

/-- What the start of stop bath leaves. -/
theorem enterBath_spec (s : State) : BathRegs s (enterBath s) ∧ Frozen (enterBath s) ∧
    Flagged (enterBath s) kSL_STAT_STOPBATH ∧ (enterBath s).sl = bathSl (frozenAt s) ∧
    (enterBath s).clk = (s.advance freezeTime).clk := by
  obtain ⟨r, hr, -⟩ := frozenAt_eq s
  have hregs := bathRegs_frozenAt s
  have hfr : Frozen (frozenAt s) := by
    rw [hr]
    exact ⟨rfl, rfl, (frozen_freeze s).wait, (frozen_freeze s).ports, (frozen_freeze s).build, rfl⟩
  have hclk : (frozenAt s).clk = s.clk := by
    rw [hr]
    rfl
  unfold enterBath
  generalize frozenAt s = w at *
  generalize hu : ({ w with sl := bathSl w } : State) = u
  have hregs' : BathRegs s u := by
    subst hu
    exact ⟨hregs.on, hregs.cause, hregs.pend, hregs.log⟩
  have hfr' : Frozen u := by
    subst hu
    exact ⟨hfr.pubq, hfr.mig, hfr.wait, hfr.ports, hfr.build, hfr.entry⟩
  have hf := onlyFlags_raise u kSL_STAT_STOPBATH 0 0 rfl (by decide)
  have hflag : Flagged (raise u kSL_STAT_STOPBATH) kSL_STAT_STOPBATH := flagged_raise_sl rfl rfl rfl rfl (by decide)
  have hend := hregs'.raise
  have hfrend := hfr'.of_onlyFlags hf
  generalize raise u kSL_STAT_STOPBATH = t at *
  have hsl := hf.field State.sl fun _ _ _ _ _ _ => rfl
  have hck := hf.field State.clk fun _ _ _ _ _ _ => rfl
  refine ⟨⟨hend.on, hend.cause, hend.pend, hend.log⟩, ?_, hflag, ?_, ?_⟩
  · exact ⟨hfrend.pubq, hfrend.mig, hfrend.wait, hfrend.ports, hfrend.build, hfrend.entry⟩
  · subst hu
    exact hsl
  · subst hu
    exact congrArg (·.advance freezeTime) (hck.trans hclk)

theorem bit_arrived (s : State) {n : Nat} (h : n < 5) :
    bit (arrived s % 2 ^ 5) n = s.sl.trig.any fun b => b.1 == n && decide (b.2 ≤ s.now + 4 * nsU) := by
  unfold bit arrived
  rw [Nat.testBit_mod_two_pow, testBit_causes, List.any_filter]
  simp only [h, Nat.zero_testBit, Bool.false_or, decide_true, Bool.true_and]
  exact congrArg (List.any _) (funext fun b => Bool.and_comm _ _)

/-- Safelight at the start: the parts that the statement names. -/
theorem bathSl_frozenAt (s : State) : (bathSl (frozenAt s)).trig = [] ∧ (bathSl (frozenAt s)).stopAt = s.tai ∧
    (s.f fSL_STATE_LOG = 0 → s.ks.wipe = none → (bathSl (frozenAt s)).sealAt = some (s.now + 82000 * nsU)) ∧
    (s.f fSL_STATE_LOG ≠ 0 → (bathSl (frozenAt s)).sealAt = none) := by
  obtain ⟨r, hr, -⟩ := frozenAt_eq s
  have hlog := (bathRegs_frozenAt s).log
  have hclk : (frozenAt s).clk = s.clk ∧ (frozenAt s).ks = s.ks := by
    rw [hr]
    exact ⟨rfl, rfl⟩
  obtain ⟨hclk, hks⟩ := hclk
  generalize frozenAt s = w at *
  refine ⟨rfl, congrArg Clock.tai hclk, fun h hw => ?_, fun h => ?_⟩
  · simp only [bathSl, hlog, h, if_true, hks, hw, State.now, hclk]
  · simp only [bathSl, hlog, h, if_false]

-- The clauses --------------------------------------------------------------------------------------------------------------------------

section
variable (s : State) {w : Nat} {real : Bool} (v : Word) (hk : s.sl.kick = some (w, real)) (he : s.fb fSL_WDOG_EN = true)
  (hs : s.stopped = false)
include hk he hs

theorem watchdogExpiry_clause : Completes (exec .watchdogExpiry s) (fun t => t.sl.trig = s.sl.trig ++ [(0, t.now)] ∧
    t.sl.kick = none ∧ Flagged t kSL_STAT_WDOG ∧ t.now = max s.now (watchdogDue s w)) := by
  rw [exec_watchdogExpiry, watchdogExpiry_triggers hk he hs]
  have hmax := advanceTo_now s (watchdogDue s w)
  have hsl := sl_advanceTo s (watchdogDue s w)
  generalize watchdogDue s w = d at *
  generalize s.advanceTo d = u at *
  obtain ⟨htrig, hkick, hflag, hnow⟩ := watchdogTrigger_spec u u.now
  generalize watchdogTrigger u u.now = t at *
  rw [hsl, ← hnow] at htrig
  exact completes_done ⟨htrig, hkick, hflag, hnow.trans hmax⟩

variable (hv : bit v.toNat 0 = true)
include hv

theorem slWdkick_late (h : watchdogDue s w ≤ slArrive s ∨
      real = true ∧ slArrive s < w + s.f fSL_WDOG_MIN * 1000000 * nsU) :
    Completes (exec (.slWdkickKick v) s) (fun t => t.sl.trig = s.sl.trig ++
      [(0, if watchdogDue s w ≤ slArrive s then max s.now (watchdogDue s w) else slArrive s)] ∧ t.sl.kick = none ∧
      Flagged t kSL_STAT_WDOG) := by
  have heq : watchdogKick s v =
      watchdogTrigger s (if watchdogDue s w ≤ slArrive s then max s.now (watchdogDue s w) else slArrive s) := by
    by_cases hd : watchdogDue s w ≤ slArrive s
    · rw [if_pos hd, watchdogKick_late hk he hs hv hd]
    · obtain ⟨hr, hm⟩ := h.resolve_left hd
      rw [if_neg hd, watchdogKick_early hk he hs hv (by omega) hr hm]
  obtain ⟨htrig, hkick, hflag, -⟩ :=
    watchdogTrigger_spec s (if watchdogDue s w ≤ slArrive s then max s.now (watchdogDue s w) else slArrive s)
  rw [exec_slWdkickKick, heq]
  generalize watchdogTrigger _ _ = t at *
  exact completes_done ⟨htrig, hkick, hflag⟩

end

theorem stopBath_clause {s : State} {x : Nat × Nat} {xs : List (Nat × Nat)} (hq : s.sl.trig = x :: xs)
    (hs : s.stopped = false) (hp : pmState s ≠ 4) {w u : State}
    (hw : w = s.advanceTo (xs.foldl (fun m b => min m b.2) x.2))
    (hu : u = if pmState s = 3 then w.advance (16000 * nsU) else w) (hn : ∀ c < 32, nextEvent w c = none) :
    Completes (exec .stopBath s) (fun t => t.stopped = true ∧ t.pm.alarmN = false ∧ t.sl.trig = [] ∧ t.sl.stopAt = u.tai ∧
      (∀ n < 5, bit (t.f fSL_CAUSE_CAUSE) n = (x :: xs).any fun b => b.1 == n && decide (b.2 ≤ u.now + 4 * nsU)) ∧
      Flagged t kSL_STAT_STOPBATH ∧ t.pubq = [] ∧ t.plan.mig = [] ∧ (∀ p, (t.pipe p).wait = none) ∧
      (∀ p, (t.port p).egq = [] ∧ (t.port p).ing = []) ∧ (∀ l, (t.lane l).build = []) ∧ t.pm.entry = none ∧ t.f fPM_REQ_PEND = 0 ∧
      (s.f fSL_STATE_LOG = 0 → s.ks.wipe = none → t.sl.sealAt = some (u.now + 82000 * nsU)) ∧
      (s.f fSL_STATE_LOG ≠ 0 → t.sl.sealAt = none) ∧ t.clk = (u.advance (4 * nsU)).clk) := by
  have heq : stopBath s = enterBath u := by
    subst hw hu
    exact stopBath_enters hq hs hp hn
  have hkeep : u.sl = s.sl ∧ u.ks = s.ks ∧ u.f fSL_STATE_LOG = s.f fSL_STATE_LOG := by
    subst hu hw
    split <;> exact ⟨rfl, rfl, rfl⟩
  obtain ⟨hsl, hks, hlog⟩ := hkeep
  obtain ⟨hregs, hfr, hflag, hbath, hclk⟩ := enterBath_spec u
  obtain ⟨htrig, hat, hseal, hsealed⟩ := bathSl_frozenAt u
  rw [← hbath] at htrig hat hseal hsealed
  rw [hlog] at hseal hsealed
  rw [hks] at hseal
  have hcause : ∀ n < 5, bit ((enterBath u).f fSL_CAUSE_CAUSE) n =
      (x :: xs).any fun b => b.1 == n && decide (b.2 ≤ u.now + 4 * nsU) := fun n hn => by
    rw [hregs.cause, bit_arrived u hn, hsl, hq]
  have halarm : (settle (enterBath u)).pm.alarmN = false := congrArg (!·) hregs.on
  rw [exec_stopBath, heq]
  generalize enterBath u = t at *
  exact completes_done ⟨hregs.on, halarm, htrig, hat, hcause, hflag, hfr.pubq, hfr.mig, hfr.wait, hfr.ports, hfr.build, hfr.entry,
    hregs.pend, hseal, hsealed, hclk⟩

/-- Settles O53: the triggers by the watchdog's cases, stop bath by what its start leaves. -/
theorem Safelight.stopBath : Obligations.StopBath := by
  unfold Obligations.StopBath
  intro s v
  refine ⟨fun w real hk he hs => ⟨watchdogExpiry_clause s hk he hs, fun hv hd hm => ?_, fun hv h => ?_⟩, ?_, fun hv => ?_, fun hv => ?_,
    fun x xs hq _ hs hp hn => ?_⟩
  · rw [exec_slWdkickKick, watchdogKick_inTime hk he hs hv hd hm]
    exact completes_done ⟨rfl, rfl, rfl⟩
  · exact slWdkick_late s v hk he hs hv h
  · rw [exec_stopN]
    exact completes_done ⟨rfl, rfl⟩
  · rw [exec_slStopGo, slStop, if_pos hv]
    exact completes_done ⟨rfl, rfl⟩
  · rw [exec_slStopGo, slStop, if_neg (by simp [hv])]
    exact completes_done rfl
  · exact stopBath_clause hq hs hp rfl rfl hn

end Sys2Proof.Machine
end

section
/-! PROOFS. Resets (R43, R393, R396, R398, R437 to R439): what the registers of a reset keep, the repair of what lasts, the
straps, the loss of the main supply, and the statement Resets assembled from them. -/

namespace Sys2Proof.Machine
open Sys2Proof

-- What a reset keeps (R439) -------------------------------------------------------------------------------------------------------

theorem tfind_filter_key {α : Type} (keep : Nat → Bool) (t : Tab α) {k : Nat} (h : keep k = true) :
    tfind (t.filter fun e => keep e.1) k = tfind t k := by
  induction t with
  | nil => rfl
  | cons e t ih =>
    obtain ⟨k', v⟩ := e
    by_cases hk : k' = k
    · subst hk
      simp [h, tfind]
    · by_cases hd : keep k' = true
      · simp [hd, tfind, hk, ih]
      · simp [hd, tfind, hk, ih]

theorem f_baseReset_kept (s : State) {keep : Nat → Bool} (g : Field) (i j : Nat) (h : keep (g.reg.key i j) = true) :
    (baseReset s keep).f g i j = s.f g i j := by
  have hk : tfind (baseReset s keep).regs (g.reg.key i j) = tfind s.regs (g.reg.key i j) := tfind_filter_key keep s.regs h
  simp only [State.f, State.reg, hk]

-- Steps that write registers (R439) -----------------------------------------------------------------------------------------------

/-- Only registers with keys in `K`, and migrations, differ. -/
structure RegsIn (K : Nat → Prop) (s t : State) : Prop where
  rest : { t with regs := s.regs, plan := s.plan } = s
  keep : ∀ n, ¬K n → tfind t.regs n = tfind s.regs n

section
variable {K : Nat → Prop} {s t u : State}

theorem RegsIn.refl (K : Nat → Prop) (s : State) : RegsIn K s s := ⟨rfl, fun _ _ => rfl⟩

theorem RegsIn.trans (h : RegsIn K s t) (g : RegsIn K t u) : RegsIn K s u where
  rest := by rw [← h.rest, ← g.rest]
  keep n hn := (g.keep n hn).trans (h.keep n hn)

theorem RegsIn.field {α : Type} (h : RegsIn K s t) (g : State → α) (hg : ∀ x a b, g { x with regs := a, plan := b } = g x) :
    g t = g s := by
  rw [← hg t s.regs s.plan, h.rest]

theorem RegsIn.f (h : RegsIn K s t) (g : Field) (i j : Nat) (hk : ¬K (g.reg.key i j)) : t.f g i j = s.f g i j := by
  simp only [State.f, State.reg, h.keep _ hk]

theorem regsIn_setF (s : State) (f : Field) (v i j : Nat) (h : K (f.reg.key i j)) : RegsIn K s (s.setF f v i j) where
  rest := rfl
  keep n hn := regs_setF s f v i j n fun e => hn (e ▸ h)

theorem regsIn_plan (K : Nat → Prop) (s : State) (p : PlanSt) : RegsIn K s { s with plan := p } := ⟨rfl, fun _ _ => rfl⟩

theorem regsIn_foldl {α : Type} {f : State → α → State} {P : State → Prop} {xs : List α}
    (hf : ∀ x, P x → ∀ a ∈ xs, RegsIn K x (f x a) ∧ P (f x a)) (hs : P s) :
    RegsIn K s (xs.foldl f s) ∧ P (xs.foldl f s) := by
  induction xs generalizing s with
  | nil => exact ⟨.refl K s, hs⟩
  | cons a xs ih =>
    obtain ⟨h, hp⟩ := hf s hs a List.mem_cons_self
    obtain ⟨h', hp'⟩ := ih (fun x hx b hb => hf x hx b (List.mem_cons_of_mem a hb)) hp
    exact ⟨h.trans h', hp'⟩

end

/-- A power domain that has not failed goes to a state. -/
def setDom (v : Nat) (s : State) (d : Nat) : State := if domFaulted s d then s else s.setF fPM_DOM_STATE v d

theorem key_dom (d : Nat) : fPM_DOM_STATE.reg.key d 0 = 0xc00100 + 4 * d := by
  simp only [Reg.key, fPM_DOM_STATE, rPM_DOM]
  omega

/-- The registers of the domains' states, of the core units and of the scheduler's capacity. -/
def unitKey (n : Nat) : Prop := 0x200000 ≤ n ∧ n < 0x205000 ∨ 0xc00100 ≤ n ∧ n < 0xc00200

theorem regsIn_setDom (v : Nat) (s : State) {d : Nat} (h : d < 20) : RegsIn unitKey s (setDom v s d) := by
  unfold setDom
  split
  · exact .refl _ _
  · refine regsIn_setF s _ _ _ _ (.inr ?_)
    rw [key_dom]
    omega

/-- Every domain that has not failed is in the new state; a failed one stays. -/
theorem f_setDoms (s : State) {v : Nat} (hv : v < 8) (k d : Nat) :
    ((List.range k).foldl (setDom v) s).f fPM_DOM_STATE d =
      if d < k ∧ domFaulted s d = false then v else s.f fPM_DOM_STATE d := by
  induction k generalizing d with
  | zero => simp
  | succ k ih =>
    have hk : domFaulted ((List.range k).foldl (setDom v) s) k = domFaulted s k := by
      simp only [domFaulted, ih k, Nat.lt_irrefl, false_and, if_false]
    rw [List.range_succ, List.foldl_append, List.foldl_cons, List.foldl_nil]
    generalize (List.range k).foldl (setDom v) s = w at *
    by_cases hd : d = k
    · subst hd
      unfold setDom
      rw [hk]
      by_cases hf : domFaulted s d = true
      · rw [if_pos hf, ih, if_neg (by simp), if_neg (by simp [hf])]
      · rw [if_neg hf, if_pos ⟨by omega, by simpa using hf⟩, f_setF_self _ _ _ _ _ (by decide)]
        exact Nat.mod_eq_of_lt hv
    · have hne : (setDom v w k).f fPM_DOM_STATE d = w.f fPM_DOM_STATE d := by
        unfold setDom
        split
        · rfl
        · exact f_setF_ne _ _ _ _ _ _ _ _ (by rw [key_dom, key_dom]; omega)
      rw [hne, ih]
      have : d < k ↔ d < k + 1 := by omega
      simp only [this]

theorem run_of_no_cores {s : State} (h : s.cores = []) (c : Nat) : (s.core c).run = none := by
  rw [State.core, h]
  rfl

/-- With no activation on any core a cluster's loss marks its units and drops its migrations. -/
theorem regsIn_clusterLoss {s : State} (h : s.cores = []) {cl : Nat} (hc : cl < 8) :
    RegsIn unitKey s (clusterLoss s cl) ∧ (clusterLoss s cl).cores = [] := by
  unfold clusterLoss
  dsimp only
  have h1 : RegsIn unitKey s (s.setF fSCH_CAP_FAULTED (s.f fSCH_CAP_FAULTED ||| 2 ^ cl)) := regsIn_setF s _ _ _ _ (.inl (by decide))
  generalize s.setF fSCH_CAP_FAULTED (s.f fSCH_CAP_FAULTED ||| 2 ^ cl) = w at h1
  obtain ⟨h2, -⟩ := regsIn_foldl (K := unitKey) (P := fun _ => True) (s := w) (xs := List.range 4)
    (f := fun s i => s.setF fVP_STAT_STATE 3 (4 * cl + i)) (fun x _ i hi => ⟨regsIn_setF x _ _ _ _ (.inl (by
      rw [List.mem_range] at hi
      simp only [Reg.key, fVP_STAT_STATE, rVP_STAT]
      omega)), trivial⟩) trivial
  generalize (List.range 4).foldl (fun s i => s.setF fVP_STAT_STATE 3 (4 * cl + i)) w = u at h2
  have h3 := regsIn_plan unitKey u { u.plan with mig := u.plan.mig.filter fun m => m.2.2 / 32 != cl }
  have hall := (h1.trans h2).trans h3
  generalize ({ u with plan := { u.plan with mig := u.plan.mig.filter fun m => m.2.2 / 32 != cl } } : State) = t at hall
  have hcores : t.cores = [] := (hall.field State.cores fun _ _ _ => rfl).trans h
  rw [List.foldl_fixed' (fun c => by rw [run_of_no_cores hcores c])]
  exact ⟨hall, hcores⟩

-- The repair of what lasts (R393, R398, R439) -----------------------------------------------------------------------------------------

/-- A sealed log is one that a reset has found. -/
def oldLog (s : State) : State := if s.f fSL_STATE_LOG = 1 then s.setF fSL_STATE_LOG 2 else s

/-- Locks, the watchdog, stop bath and the power state after a reset. -/
def unlocked (s : State) : State :=
  ((oldLog (((((s.setF fPM_CTL_LOCK 0).setF fSL_CTL_LOCK 0).setF fSL_WDOG_EN 0).setF fLC_TAMPCFG_LOCK 0).setF
    fSL_STATE_STOPBATH 0)).setF fPM_STATE_STATE 0).setF fPM_REQ_PEND 0

/-- The clusters of failed domains are lost. -/
def loseFailed (s : State) (d : Nat) : State := if domFaulted s d then clusterLoss s d else s

theorem keptFix_eq (s : State) :
    keptFix s = (List.range 8).foldl loseFailed ((List.range 20).foldl (setDom 0) (unlocked s)) := rfl

/-- The registers that lose their locks, and those of stop bath and of the power state. -/
def lockKey (n : Nat) : Prop :=
  n ∈ [0xc00000, 0xf00000, 0xf00014, 0xa04018, 0xf0000c, 0xc0001c, 0xc0000c]

theorem regsIn_oldLog (s : State) : RegsIn (· = 0xf0000c) s (oldLog s) := by
  unfold oldLog
  split
  · exact regsIn_setF s _ _ _ _ rfl
  · exact .refl _ _

theorem stopped_oldLog (s : State) : (oldLog s).stopped = s.stopped := by
  have h : (oldLog s).f fSL_STATE_STOPBATH = s.f fSL_STATE_STOPBATH := by
    unfold oldLog
    split
    · exact f_setF_field s fSL_STATE_LOG fSL_STATE_STOPBATH 2 0 0 (by decide) (by decide) rfl (by decide) (by decide)
    · rfl
  simp only [State.stopped, State.fb, h]

/-- A cleared flag reads 0. -/
theorem f_setF_zero (s : State) (f : Field) (i j : Nat) (h : f.lo + f.w ≤ 32) : (s.setF f 0 i j).f f i j = 0 :=
  (f_setF_self s f 0 i j h).trans (Nat.zero_mod _)

theorem unlocked_spec (s : State) : (unlocked s).fb fSL_CTL_LOCK = false ∧ (unlocked s).stopped = false ∧
    pmState (unlocked s) = 0 ∧ RegsIn lockKey s (unlocked s) := by
  unfold unlocked
  generalize hx : ((s.setF fPM_CTL_LOCK 0).setF fSL_CTL_LOCK 0) = x
  generalize hy : ((x.setF fSL_WDOG_EN 0).setF fLC_TAMPCFG_LOCK 0).setF fSL_STATE_STOPBATH 0 = y
  have hold := regsIn_oldLog y
  have hx1 : x.f fSL_CTL_LOCK = 0 := by
    rw [← hx]
    exact f_setF_zero _ _ _ _ (by decide)
  have hy1 : y.f fSL_CTL_LOCK = 0 ∧ y.stopped = false := by
    rw [← hy]
    refine ⟨?_, ?_⟩
    · rw [f_setF_ne _ _ _ _ _ _ _ _ (by decide), f_setF_ne _ _ _ _ _ _ _ _ (by decide),
        f_setF_ne _ _ _ _ _ _ _ _ (by decide), hx1]
    · simp only [State.stopped, State.fb, f_setF_zero _ fSL_STATE_STOPBATH 0 0 (by decide)]
      rfl
  have hsx : RegsIn lockKey s x := by
    rw [← hx]
    exact (regsIn_setF s _ _ _ _ (by unfold lockKey; decide)).trans (regsIn_setF _ _ _ _ _ (by unfold lockKey; decide))
  have hxy : RegsIn lockKey x y := by
    rw [← hy]
    exact ((regsIn_setF x _ _ _ _ (by unfold lockKey; decide)).trans (regsIn_setF _ _ _ _ _ (by unfold lockKey; decide))).trans
      (regsIn_setF _ _ _ _ _ (by unfold lockKey; decide))
  have hyz : RegsIn lockKey y (oldLog y) := ⟨hold.rest, fun n hn => hold.keep n fun e => hn (by unfold lockKey; simp [e])⟩
  refine ⟨?_, ?_, ?_, ((hsx.trans hxy).trans hyz).trans ((regsIn_setF _ _ _ _ _ (by unfold lockKey; decide)).trans
    (regsIn_setF _ _ _ _ _ (by unfold lockKey; decide)))⟩
  · rw [State.fb, f_setF_ne _ _ _ _ _ _ _ _ (by decide), f_setF_ne _ _ _ _ _ _ _ _ (by decide), hold.f _ _ _ (by decide), hy1.1]
    rfl
  · have h : ∀ w : State, ((w.setF fPM_STATE_STATE 0).setF fPM_REQ_PEND 0).stopped = w.stopped := fun w => by
      simp only [State.stopped, State.fb]
      rw [f_setF_ne _ _ _ _ _ _ _ _ (by decide), f_setF_ne _ _ _ _ _ _ _ _ (by decide)]
    rw [h, stopped_oldLog, hy1.2]
  · rw [pmState, f_setF_ne _ _ _ _ _ _ _ _ (by decide), f_setF_zero _ _ _ _ (by decide)]

theorem regsIn_keptFix {s : State} (h : s.cores = []) : RegsIn unitKey (unlocked s) (keptFix s) := by
  rw [keptFix_eq]
  have h0 : (unlocked s).cores = [] := by
    obtain ⟨-, -, -, hs⟩ := unlocked_spec s
    exact (hs.field State.cores fun _ _ _ => rfl).trans h
  obtain ⟨h1, hc⟩ := regsIn_foldl (K := unitKey) (P := fun x => x.cores = []) (s := unlocked s) (f := setDom 0) (xs := List.range 20)
    (fun x hx d hd => by
      have hd' := regsIn_setDom 0 x (List.mem_range.mp hd)
      exact ⟨hd', (hd'.field State.cores fun _ _ _ => rfl).trans hx⟩) h0
  obtain ⟨h2, -⟩ := regsIn_foldl (K := unitKey) (P := fun x => x.cores = []) (f := loseFailed) (xs := List.range 8)
    (fun x hx d hd => by
      unfold loseFailed
      split
      · exact regsIn_clusterLoss hx (List.mem_range.mp hd)
      · exact ⟨.refl _ _, hx⟩) hc
  exact h1.trans h2

-- Straps (R437) -----------------------------------------------------------------------------------------------------------------------

theorem sampleStraps_spec (s : State) (straps : BitVec 3) :
    { sampleStraps s straps.toNat with regs := s.regs, clk := s.clk } = s ∧
    (∀ g : Field, g.reg.key 0 0 ≠ 8 → (sampleStraps s straps.toNat).f g = s.f g) ∧
    (sampleStraps s straps.toNat).f fGL_STRAP_PCIEGEN = straps.toNat % 4 ∧
    (sampleStraps s straps.toNat).f fGL_STRAP_DERATE = bits straps.toNat 2 1 ∧
    (sampleStraps s straps.toNat).clk = { s.clk with slow := (Config.gradeAL || bit straps.toNat 2) } := by
  unfold sampleStraps
  dsimp only
  generalize (Config.gradeAL || bit straps.toNat 2) = slow
  generalize Config.gradeAL = al
  generalize hw : ({ s with clk := { s.clk with slow := slow } } : State) = w
  have hf : ∀ g, w.f g = s.f g := fun g => by
    rw [← hw]
    rfl
  refine ⟨?_, fun g hg => ?_, ?_, ?_, ?_⟩
  · rw [← hw]
    rfl
  · rw [f_setF_ne _ _ _ _ _ _ _ _ hg, f_setF_ne _ _ _ _ _ _ _ _ hg, f_setF_ne _ _ _ _ _ _ _ _ hg,
      f_setF_ne _ _ _ _ _ _ _ _ hg, hf]
  · rw [f_setF_self _ _ _ _ _ (by decide)]
    exact Nat.mod_mod _ _
  · rw [f_setF_field _ fGL_STRAP_PCIEGEN fGL_STRAP_DERATE _ _ _ (by decide) (by decide) rfl (by decide) (by decide),
      f_setF_self _ _ _ _ _ (by decide), b2n_bit]
    exact Nat.mod_eq_of_lt (bits_lt _ _ _)
  · rw [← hw]
    rfl

-- A reset (R43, R437 to R439) ---------------------------------------------------------------------------------------------------------

/-- Everything else has its reset value. -/
structure Fresh (s t : State) : Prop where
  cores   : t.cores = []
  ctxs    : t.ctxs = []
  points  : t.points = []
  plate   : t.plate = []
  tray    : t.tray = []
  imem    : t.imem = []
  lanes   : t.lanes = []
  running : t.bist.running = true
  slice   : t.bist.slice = 0
  vault   : t.vault = s.vault
  cnt     : t.ks.cnt = s.ks.cnt
  tamp    : t.ks.offTamp = s.ks.offTamp
  pending : t.pending = s.pending

theorem fresh_baseReset (s : State) (keep : Nat → Bool) : Fresh s (baseReset s keep) := by
  unfold baseReset
  dsimp only [State.draw]
  -- the instant stands for itself: comparing its value with a clock's would unfold the arithmetic
  generalize rtcTime _ = t
  generalize t * nsU = m
  exact ⟨rfl, rfl, rfl, rfl, rfl, rfl, rfl, rfl, rfl, rfl, rfl, rfl, rfl⟩

theorem clk_baseReset (s : State) (keep : Nat → Bool) : (baseReset s keep).clk =
    { Clock.init with mono := rtcTime s.tai * nsU, tai := rtcTime s.tai, slow := s.clk.slow } := rfl

theorem Fresh.of_eq {s t u : State} (h : Fresh s t) (e : { u with regs := t.regs, plan := t.plan, clk := t.clk } = t) : Fresh s u := by
  rw [← e] at h
  exact ⟨h.cores, h.ctxs, h.points, h.plate, h.tray, h.imem, h.lanes, h.running, h.slice, h.vault, h.cnt, h.tamp, h.pending⟩

/-- A reset that keeps some registers, and samples the straps. -/
def resetKeeping (s : State) (keep : Nat → Bool) (straps : BitVec 3) : State :=
  sampleStraps (keptFix (baseReset s keep)) straps.toNat

/-- What a reset leaves. -/
structure AfterReset (s : State) (straps : BitVec 3) (t : State) : Prop where
  fresh    : Fresh s t
  stopped  : t.stopped = false
  run      : pmState t = 0
  unlocked : t.fb fSL_CTL_LOCK = false
  tai      : t.tai = rtcTime s.tai
  now      : t.now = t.tai * nsU
  gen      : t.f fGL_STRAP_PCIEGEN = straps.toNat % 4
  derate   : t.f fGL_STRAP_DERATE = bits straps.toNat 2 1
  slow     : t.clk.slow = (Config.gradeAL || bit straps.toNat 2)

theorem afterReset_resetKeeping (s : State) (keep : Nat → Bool) (straps : BitVec 3) :
    AfterReset s straps (resetKeeping s keep straps) ∧
    ∀ g : Field, keep (g.reg.key 0 0) = true → ¬lockKey (g.reg.key 0 0) → ¬unitKey (g.reg.key 0 0) → g.reg.key 0 0 ≠ 8 →
      (resetKeeping s keep straps).f g = s.f g := by
  unfold resetKeeping
  have hkept := fun g => f_baseReset_kept s (keep := keep) g 0 0
  have hfresh := fresh_baseReset s keep
  have hclk := clk_baseReset s keep
  generalize baseReset s keep = b at *
  obtain ⟨hopen, hstop, hrun, hlock⟩ := unlocked_spec b
  have hfix := regsIn_keptFix hfresh.cores
  generalize unlocked b = u at *
  generalize keptFix b = k at *
  obtain ⟨hrest, hother, hgen, hderate, hslow⟩ := sampleStraps_spec k straps
  generalize sampleStraps k straps.toNat = t at *
  have hb : { t with regs := b.regs, plan := b.plan, clk := b.clk } = b := by
    rw [← hlock.rest, ← hfix.rest, ← hrest]
  have hck : k.clk = b.clk := (hfix.field State.clk fun _ _ _ => rfl).trans (hlock.field State.clk fun _ _ _ => rfl)
  rw [hck, hclk] at hslow
  have hkeep : ∀ g : Field, ¬unitKey (g.reg.key 0 0) → g.reg.key 0 0 ≠ 8 → t.f g = u.f g := fun g hu h8 =>
    (hother g h8).trans (hfix.f g 0 0 hu)
  have hout : ¬unitKey 0xf0000c ∧ ¬unitKey 0xf00000 ∧ ¬unitKey 0xc0001c := by
    unfold unitKey
    omega
  obtain ⟨hstate, hctl, hpm⟩ := hout
  refine ⟨⟨hfresh.of_eq hb, ?_, ?_, ?_, ?_, ?_, hgen, hderate, congrArg Clock.slow hslow⟩, fun g hk hl hu h8 => ?_⟩
  · exact (congrArg (· != 0) (hkeep fSL_STATE_STOPBATH hstate (by decide))).trans hstop
  · exact (hkeep fPM_STATE_STATE hpm (by decide)).trans hrun
  · exact (congrArg (· != 0) (hkeep fSL_CTL_LOCK hctl (by decide))).trans hopen
  · exact congrArg Clock.tai hslow
  · rw [State.now, State.tai, hslow]
  · exact ((hkeep g hu h8).trans (hlock.f g 0 0 hl)).trans (hkept g hk)

-- The clauses --------------------------------------------------------------------------------------------------------------------------

theorem exec_resetN (straps : BitVec 3) (s : State) : exec (.resetN straps) s = done (resetPin s straps.toNat) := rfl
theorem exec_powerOnReset (straps : BitVec 3) (ok : Bool) (s : State) :
    exec (.powerOnReset straps ok) s = done (powerOn s straps.toNat ok) := rfl
theorem exec_vbatTakeover (mv : Nat) (s : State) : exec (.vbatTakeover mv) s = done (vbatTakeover s mv) := rfl

theorem resetPin_resets {s : State} (h : pmState s ≠ 4) (straps : BitVec 3) :
    resetPin s straps.toNat = resetKeeping s (fun k => keyPm k || keySl k) straps := if_neg h

/-- The charger starts over where it is on and idle. -/
def rechargeOn (s : State) : State := if s.fb fBT_CFG_EN && s.f fBT_STATE_CHG = 0 then s.setF fBT_STATE_CHG 1 else s

theorem regsIn_rechargeOn (s : State) : RegsIn (· = 0xc1000c) s (rechargeOn s) := by
  unfold rechargeOn
  split
  · exact regsIn_setF s _ _ _ _ rfl
  · exact .refl _ _

/-- The registers that a power-up with a good VBAT keeps. -/
def keptOn (off : Bool) (k : Nat) : Bool := true && (keyPm k || (off && (keySl k || keyLc k)))

/-- A tamper that the island saw while the rest was off is marked. -/
def markOffTamp (s : State) : State :=
  match s.ks.offTamp with
  | some src => tamperMark { s with ks := { s.ks with offTamp := none } } src
  | none => s

theorem powerOn_eq (s : State) (straps : BitVec 3) : powerOn s straps.toNat true =
    markOffTamp (rechargeOn (resetKeeping (s.advance (1000000 * nsU)) (keptOn (pmState s = 4)) straps)) := rfl

theorem AfterReset.recharge {s t : State} {straps : BitVec 3} (h : AfterReset s straps t) : AfterReset s straps (rechargeOn t) := by
  have hr := regsIn_rechargeOn t
  have hf : ∀ g : Field, g.reg.key 0 0 ≠ 0xc1000c → (rechargeOn t).f g = t.f g := fun g hg => hr.f g 0 0 hg
  generalize rechargeOn t = u at *
  have hclk : u.clk = t.clk := hr.field State.clk fun _ _ _ => rfl
  refine ⟨h.fresh.of_eq ?_, ?_, ?_, ?_, ?_, ?_, ?_, ?_, ?_⟩
  · rw [← hr.rest]
  · exact (congrArg (· != 0) (hf fSL_STATE_STOPBATH (by decide))).trans h.stopped
  · exact (hf fPM_STATE_STATE (by decide)).trans h.run
  · exact (congrArg (· != 0) (hf fSL_CTL_LOCK (by decide))).trans h.unlocked
  · rw [State.tai, hclk]
    exact h.tai
  · rw [State.now, State.tai, hclk]
    exact h.now
  · exact (hf _ (by decide)).trans h.gen
  · exact (hf _ (by decide)).trans h.derate
  · rw [hclk]
    exact h.slow

/-- Time that passes changes nothing else. -/
theorem advance_keeps (s : State) (d : Nat) : (s.advance d).vault = s.vault ∧ (s.advance d).pending = s.pending ∧
    (s.advance d).ks = s.ks ∧ ∀ g : Field, (s.advance d).f g = s.f g := ⟨rfl, rfl, rfl, fun _ => rfl⟩

/-- After a power-up with a good VBAT everything but the charger's state is as after a reset. -/
theorem powerOn_spec {s : State} (straps : BitVec 3) (h : s.ks.offTamp = none) :
    AfterReset (s.advance (1000000 * nsU)) straps (powerOn s straps.toNat true) ∧
      (powerOn s straps.toNat true).f fBT_CFG_VCV = s.f fBT_CFG_VCV := by
  rw [powerOn_eq]
  obtain ⟨-, -, hks, hf⟩ := advance_keeps s (1000000 * nsU)
  generalize s.advance (1000000 * nsU) = w at *
  obtain ⟨hreset, hkept⟩ := afterReset_resetKeeping w (keptOn (pmState s = 4)) straps
  have hvcv := hkept fBT_CFG_VCV (by cases decide (pmState s = 4) <;> decide) (by unfold lockKey; decide) (by unfold unitKey; decide) (by decide)
  generalize resetKeeping w (keptOn (pmState s = 4)) straps = t at *
  have hend := hreset.recharge
  have hsame := (regsIn_rechargeOn t).f fBT_CFG_VCV 0 0 (by decide)
  generalize rechargeOn t = u at *
  have hmark : markOffTamp u = u := by
    rw [markOffTamp, hend.fresh.tamp, hks, h]
  rw [hmark]
  exact ⟨hend, (hsame.trans hvcv).trans (hf _)⟩

/-- The island's registers when the cell takes over. -/
def cellRegs (s : State) (mv : Nat) : State := setChg (s.setF fPM_STATE_STATE 4) 0 mv

/-- The test's start is noted, and a sleep request dropped. -/
def cellRest (s : State) (q : BistSt) : State := ({ s with bist := q } : State).setF fPM_REQ_PEND 0

/-- The state on the cell alone, before the domains go off: the island's registers, and the rest as after a reset. -/
def onCell (s : State) (mv : Nat) : State :=
  cellRest (cellRegs (baseReset s keyPm) mv) { (baseReset s keyPm).bist with start := (baseReset s keyPm).now }

theorem vbatTakeover_eq {s : State} (h : pmState s ≠ 4) (mv : Nat) :
    vbatTakeover s mv = (List.range 20).foldl (setDom 3) (onCell s mv) := by
  unfold vbatTakeover
  rw [if_neg (by simpa [slSupply] using h)]
  rfl

theorem cellRegs_spec (s : State) (mv : Nat) : pmState (cellRegs s mv) = 4 ∧ (cellRegs s mv).f fBT_STATE_VBAT = mv % 4096 ∧
    RegsIn (fun n => n = 0xc0001c ∨ n = 0xc1000c) s (cellRegs s mv) := by
  unfold cellRegs setChg
  refine ⟨?_, ?_, ?_⟩
  · rw [pmState, f_setF_ne _ _ _ _ _ _ _ _ (by decide), f_setF_ne _ _ _ _ _ _ _ _ (by decide), f_setF_self _ _ _ _ _ (by decide)]
    rfl
  · rw [f_setF_self _ _ _ _ _ (by decide)]
    rfl
  · exact ((regsIn_setF s _ _ _ _ (.inl rfl)).trans (regsIn_setF _ _ _ _ _ (.inr rfl))).trans (regsIn_setF _ _ _ _ _ (.inr rfl))

theorem cellRest_spec (s : State) (q : BistSt) : (cellRest s q).vault = s.vault ∧ (cellRest s q).cores = s.cores ∧
    (cellRest s q).plate = s.plate ∧ ∀ (g : Field) i, g.reg.key i 0 ≠ 0xc0000c → (cellRest s q).f g i = s.f g i :=
  ⟨rfl, rfl, rfl, fun g i hg => f_setF_ne { s with bist := q } g fPM_REQ_PEND 0 0 0 i 0 hg⟩

theorem onCell_spec (s : State) (mv : Nat) : pmState (onCell s mv) = 4 ∧ (onCell s mv).vault = s.vault ∧
    (onCell s mv).cores = [] ∧ (onCell s mv).plate = [] ∧ (onCell s mv).f fBT_STATE_VBAT = mv % 4096 ∧
    (onCell s mv).f fBT_CFG_VCV = s.f fBT_CFG_VCV ∧ ∀ d < 20, (onCell s mv).f fPM_DOM_STATE d = s.f fPM_DOM_STATE d := by
  unfold onCell
  have hvcv : (baseReset s keyPm).f fBT_CFG_VCV = s.f fBT_CFG_VCV := f_baseReset_kept s _ 0 0 (by decide)
  have hdom : ∀ d < 20, (baseReset s keyPm).f fPM_DOM_STATE d = s.f fPM_DOM_STATE d := fun d hd =>
    f_baseReset_kept s _ d 0 (by
      rw [key_dom]
      simp only [keyPm, Bool.and_eq_true, decide_eq_true_eq]
      omega)
  have hfresh := fresh_baseReset s keyPm
  generalize baseReset s keyPm = b at *
  generalize ({ b.bist with start := b.now } : BistSt) = q
  obtain ⟨hpm, hmv, hkeep⟩ := cellRegs_spec b mv
  generalize cellRegs b mv = x at *
  obtain ⟨hvault, hcores, hplate, hreg⟩ := cellRest_spec x q
  generalize cellRest x q = y at *
  refine ⟨(hreg fPM_STATE_STATE 0 (by decide)).trans hpm, ?_, ?_, ?_, (hreg _ 0 (by decide)).trans hmv, ?_, fun d hd => ?_⟩
  · exact (hvault.trans (hkeep.field State.vault fun _ _ _ => rfl)).trans hfresh.vault
  · exact (hcores.trans (hkeep.field State.cores fun _ _ _ => rfl)).trans hfresh.cores
  · exact (hplate.trans (hkeep.field State.plate fun _ _ _ => rfl)).trans hfresh.plate
  · exact ((hreg _ 0 (by decide)).trans (hkeep.f _ 0 0 (by decide))).trans hvcv
  · have hk := key_dom d
    exact ((hreg _ d (by omega)).trans (hkeep.f _ d 0 (by omega))).trans (hdom d hd)

theorem vbatTakeover_clause {s : State} (h : pmState s ≠ 4) (mv : Nat) :
    Completes (exec (.vbatTakeover mv) s) (fun t => pmState t = 4 ∧ t.vault = s.vault ∧ t.cores = [] ∧
      t.plate = [] ∧ t.f fBT_STATE_VBAT = mv % 4096 ∧ t.f fBT_CFG_VCV = s.f fBT_CFG_VCV ∧
      ∀ d < 20, t.f fPM_DOM_STATE d = if domFaulted s d then 4 else 3) := by
  obtain ⟨hpm, hvault, hcores, hplate, hmv, hvcv, hdom⟩ := onCell_spec s mv
  rw [exec_vbatTakeover, vbatTakeover_eq h]
  generalize onCell s mv = w at *
  have hoff := f_setDoms w (v := 3) (by decide) 20
  obtain ⟨hkeep, -⟩ := regsIn_foldl (K := unitKey) (P := fun _ => True) (s := w) (f := setDom 3) (xs := List.range 20)
    (fun x _ d hd => ⟨regsIn_setDom 3 x (List.mem_range.mp hd), trivial⟩) trivial
  generalize (List.range 20).foldl (setDom 3) w = t at *
  refine completes_done ⟨?_, ?_, ?_, ?_, ?_, ?_, fun d hd => ?_⟩
  · exact (hkeep.f fPM_STATE_STATE 0 0 (by unfold unitKey; decide)).trans hpm
  · exact (hkeep.field State.vault fun _ _ _ => rfl).trans hvault
  · exact (hkeep.field State.cores fun _ _ _ => rfl).trans hcores
  · exact (hkeep.field State.plate fun _ _ _ => rfl).trans hplate
  · exact (hkeep.f fBT_STATE_VBAT 0 0 (by unfold unitKey; decide)).trans hmv
  · exact (hkeep.f fBT_CFG_VCV 0 0 (by unfold unitKey; decide)).trans hvcv
  · have hfault : domFaulted w d = domFaulted s d := by
      simp only [domFaulted, hdom d hd]
    rw [f_settle, hoff, hfault, hdom d hd]
    cases hf : domFaulted s d with
    | false => simp [hd]
    | true =>
      have h4 : s.f fPM_DOM_STATE d = 4 := by simpa [domFaulted] using hf
      simp [h4]

/-- RESET_N outside the state on the cell alone. -/
theorem AfterReset.resetN {s t : State} {straps : BitVec 3} (h : AfterReset s straps t)
    (hcause : t.f fSL_CAUSE_CAUSE = s.f fSL_CAUSE_CAUSE) : Completes (done t) (fun t =>
      (t.cores = [] ∧ t.ctxs = [] ∧ t.points = [] ∧ t.plate = [] ∧ t.tray = [] ∧ t.imem = [] ∧ t.lanes = [] ∧
        t.bist.running = true ∧ t.bist.slice = 0 ∧ t.stopped = false ∧ t.pending = s.pending) ∧
      (t.f fGL_STRAP_PCIEGEN = straps.toNat % 4 ∧ t.f fGL_STRAP_DERATE = bits straps.toNat 2 1 ∧
        t.clk.slow = (Config.gradeAL || bit straps.toNat 2)) ∧
      t.vault = s.vault ∧ t.ks.cnt = s.ks.cnt ∧ pmState t = 0 ∧ (t.tai = rtcTime s.tai ∧ t.now = t.tai * nsU) ∧
      t.f fSL_CAUSE_CAUSE = s.f fSL_CAUSE_CAUSE ∧ t.fb fSL_CTL_LOCK = false) :=
  completes_done ⟨⟨h.fresh.cores, h.fresh.ctxs, h.fresh.points, h.fresh.plate, h.fresh.tray, h.fresh.imem, h.fresh.lanes,
    h.fresh.running, h.fresh.slice, h.stopped, h.fresh.pending⟩, ⟨h.gen, h.derate, h.slow⟩, h.fresh.vault, h.fresh.cnt, h.run,
    ⟨h.tai, h.now⟩, hcause, h.unlocked⟩

/-- A power-up with a good VBAT, where `w` is the state when the supply has risen. -/
theorem AfterReset.powerOn {s w t : State} {straps : BitVec 3} (h : AfterReset w straps t) (hvault : w.vault = s.vault)
    (hpend : w.pending = s.pending) (hvcv : t.f fBT_CFG_VCV = s.f fBT_CFG_VCV) : Completes (done t) (fun t =>
      (t.cores = [] ∧ t.ctxs = [] ∧ t.points = [] ∧ t.plate = [] ∧ t.tray = [] ∧ t.imem = [] ∧ t.lanes = [] ∧
        t.bist.running = true ∧ t.bist.slice = 0 ∧ t.stopped = false ∧ t.pending = s.pending) ∧
      (t.f fGL_STRAP_PCIEGEN = straps.toNat % 4 ∧ t.f fGL_STRAP_DERATE = bits straps.toNat 2 1 ∧
        t.clk.slow = (Config.gradeAL || bit straps.toNat 2)) ∧
      t.vault = s.vault ∧ pmState t = 0 ∧ (t.tai = rtcTime w.tai ∧ t.now = t.tai * nsU) ∧
      t.f fBT_CFG_VCV = s.f fBT_CFG_VCV) :=
  completes_done ⟨⟨h.fresh.cores, h.fresh.ctxs, h.fresh.points, h.fresh.plate, h.fresh.tray, h.fresh.imem, h.fresh.lanes,
    h.fresh.running, h.fresh.slice, h.stopped, h.fresh.pending.trans hpend⟩, ⟨h.gen, h.derate, h.slow⟩, h.fresh.vault.trans hvault,
    h.run, ⟨h.tai, h.now⟩, hvcv⟩

/-- Settles O50: what a reset leaves, with the registers that each of the three events keeps. -/
theorem resets : Obligations.Resets := by
  unfold Obligations.Resets
  intro s straps mv
  refine ⟨fun h => ?_, fun h => ?_, fun h => ?_, fun h => vbatTakeover_clause h mv⟩
  · obtain ⟨hr, hkept⟩ := afterReset_resetKeeping s (fun k => keyPm k || keySl k) straps
    have hcause := hkept fSL_CAUSE_CAUSE (by decide) (by unfold lockKey; decide) (by unfold unitKey; decide) (by decide)
    rw [exec_resetN, resetPin_resets h]
    exact hr.resetN hcause
  · rw [exec_resetN, resetPin, if_pos h]
    exact completes_done rfl
  · obtain ⟨hr, hvcv⟩ := powerOn_spec straps h
    obtain ⟨hvault, hpend, -, -⟩ := advance_keeps s (1000000 * nsU)
    rw [exec_powerOnReset]
    exact hr.powerOn hvault hpend hvcv

end Sys2Proof.Machine
end

section
/-! PROOFS. The loss of a link (R231, R264): the abandonment of a lane's routine leaves the port's queue, its frame on the wire
and its link register. -/

namespace Sys2Proof.Machine
open Sys2Proof

-- A port's egress and its link (R231) ---------------------------------------------------------------------------------------------

/-- The port's egress queue, its frame on the wire and its link register are as they were. -/
structure LinkKept (p : Nat) (s t : State) : Prop where
  egq  : (t.port p).egq = (s.port p).egq
  tx   : (t.port p).tx = (s.port p).tx
  link : tfind t.regs (rEP_LINK.key p 0) = tfind s.regs (rEP_LINK.key p 0)

theorem key_link (p : Nat) : rEP_LINK.key p 0 = 0x50000c + 4096 * p := by
  simp only [Reg.key, rEP_LINK]
  omega

section
variable {p : Nat} {s t u : State}

theorem LinkKept.refl (p : Nat) (s : State) : LinkKept p s s := ⟨rfl, rfl, rfl⟩

theorem LinkKept.trans (h : LinkKept p s t) (g : LinkKept p t u) : LinkKept p s u :=
  ⟨g.egq.trans h.egq, g.tx.trans h.tx, g.link.trans h.link⟩

theorem LinkKept.ite {c : Prop} [Decidable c] (ht : LinkKept p s t) (hu : LinkKept p s u) :
    LinkKept p s (if c then t else u) := by
  split <;> assumption

theorem linkKept_of_ports (hp : t.ports = s.ports)
    (hr : tfind t.regs (rEP_LINK.key p 0) = tfind s.regs (rEP_LINK.key p 0)) : LinkKept p s t := by
  have h : t.port p = s.port p := by rw [State.port, hp, State.port]
  exact ⟨by rw [h], by rw [h], hr⟩

theorem linkKept_foldl {α : Type} (f : State → α → State) (hf : ∀ x a, LinkKept p x (f x a)) (xs : List α) (s : State) :
    LinkKept p s (xs.foldl f s) := by
  induction xs generalizing s with
  | nil => exact .refl p s
  | cons a xs ih => exact (hf s a).trans (ih _)

theorem linkKept_foldl_snd {α β : Type} (f : β × State → α → β × State) (hf : ∀ a x, LinkKept p a.2 (f a x).2) (xs : List α)
    (a : β × State) : LinkKept p a.2 (xs.foldl f a).2 := by
  induction xs generalizing a with
  | nil => exact .refl p a.2
  | cons x xs ih => exact (hf a x).trans (ih _)

theorem linkKept_setF (s : State) (f : Field) (v i j : Nat) (h : f.reg.key i j ≠ rEP_LINK.key p 0) : LinkKept p s (s.setF f v i j) :=
  linkKept_of_ports rfl (regs_setF s f v i j _ h.symm)

theorem linkKept_bump (s : State) (f : Field) (i j n : Nat) (h : f.reg.key i j ≠ rEP_LINK.key p 0) : LinkKept p s (s.bump f i j n) :=
  linkKept_setF s f _ i j h

theorem OnlySignals.ports {s t : State} (h : OnlySignals s t) : t.ports = s.ports := by
  unfold OnlySignals at h
  rw [← h]

theorem linkKept_raise (hp : p < 12) (s : State) (k : Flag) (i j : Nat) (h : k.f.reg.key i j ≠ rEP_LINK.key p 0)
    (hc : ∀ c, k.cnt = some c → c.reg.key i j ≠ rEP_LINK.key p 0) : LinkKept p s (raise s k i j) := by
  refine linkKept_of_ports (onlySignals_raise s k i j).ports (regs_raise s k i j _ h.symm (fun c e => (hc c e).symm) ?_)
  rw [key_link]
  exact not_sideKey (by omega)

theorem linkKept_advanceTo (s : State) (m : Nat) : LinkKept p s (s.advanceTo m) := ⟨rfl, rfl, rfl⟩
theorem linkKept_plate (s : State) (a : Tab Byte) (b : Tab Nat) (c : List Nat) :
    LinkKept p s { s with plate := a, plateEcc := b, poison := c } := ⟨rfl, rfl, rfl⟩
theorem linkKept_ctxs (s : State) (x : Tab Ctx) : LinkKept p s { s with ctxs := x } := ⟨rfl, rfl, rfl⟩
theorem linkKept_setCore (s : State) (c : Nat) (k : CoreSt) : LinkKept p s (s.setCore c k) := ⟨rfl, rfl, rfl⟩
theorem linkKept_setRst (s : State) (k i : Nat) (x : RecSt) : LinkKept p s (s.setRst k i x) := ⟨rfl, rfl, rfl⟩
theorem linkKept_setLane (s : State) (l : Nat) (x : LaneSt) : LinkKept p s (s.setLane l x) := ⟨rfl, rfl, rfl⟩

theorem linkKept_setFeThr (s : State) (l : Nat) (e : Bool) (t : FeThr) : LinkKept p s (setFeThr s l e t) :=
  linkKept_setLane s l _

theorem linkKept_recDrop (s : State) (k i : Nat) : LinkKept p s (recDrop s k i) := linkKept_setRst s k i _

end

-- The Plate under a lane's writes (R71, R72, R74) -----------------------------------------------------------------------------------

section
variable {p : Nat} (hp : p < 12)
include hp

/-- A register below the Ethernet ports', or behind them, is no port's link. -/
theorem ne_link {n : Nat} (h : n < 0x500000 ∨ 0x510000 ≤ n) : n ≠ rEP_LINK.key p 0 := by
  rw [key_link]
  omega

theorem linkKept_raise_apart (s : State) {k : Flag} {c : Field} {i j : Nat} (hk : k.cnt = some c)
    (h : k.f.reg.key i j < 0x500000 ∨ 0x510000 ≤ k.f.reg.key i j) (hc : c.reg.key i j < 0x500000 ∨ 0x510000 ≤ c.reg.key i j) :
    LinkKept p s (raise s k i j) := by
  refine linkKept_raise hp s k i j (ne_link hp h) fun d hd => ?_
  obtain rfl : c = d := Option.some.inj (hk.symm.trans hd)
  exact ne_link hp hc

theorem linkKept_plateCe (s : State) (wa : Nat) : LinkKept p s (plateCe s wa) := by
  have hb : bankOf (wa % 32768) < 1024 := Nat.xor_lt_two_pow (n := 10) (by omega) (by omega)
  unfold plateCe
  dsimp only
  have h1 : LinkKept p s (s.bump fPLT_CE_CNT_CNT (bankOf (wa % 32768))) := by
    refine linkKept_bump s _ _ _ _ (ne_link hp ?_)
    simp only [Reg.key, fPLT_CE_CNT_CNT, rPLT_CE_CNT]
    omega
  generalize s.bump fPLT_CE_CNT_CNT (bankOf (wa % 32768)) = w at h1
  have h2 := linkKept_plate (p := p) w w.plate (if tget 0 w.plateEcc wa = 1 then tdel w.plateEcc wa else w.plateEcc) w.poison
  generalize ({ w with plateEcc := if tget 0 w.plateEcc wa = 1 then tdel w.plateEcc wa else w.plateEcc } : State) = u at h2
  have h3 : LinkKept p u (raise u kPLT_STAT_CE) := linkKept_raise_apart hp u rfl (by decide) (by decide)
  have h := (h1.trans h2).trans h3
  unfold raiseIf
  exact .ite (h.trans (linkKept_raise_apart hp _ rfl (by decide) (by decide))) h

theorem linkKept_plateUe (s : State) (wa master : Nat) : LinkKept p s (plateUe s wa master) := by
  unfold plateUe
  dsimp only
  have h1 : LinkKept p s (if tget 0 s.plateEcc wa = 0 then s
      else { s with plateEcc := tdel s.plateEcc wa, poison := wa :: s.poison }) :=
    .ite (.refl p s) (linkKept_plate s s.plate _ _)
  generalize (if tget 0 s.plateEcc wa = 0 then s
      else { s with plateEcc := tdel s.plateEcc wa, poison := wa :: s.poison }) = w at h1
  refine h1.trans (.trans ?_ (linkKept_raise_apart hp _ rfl (by decide) (by decide)))
  exact (((linkKept_setF w _ _ _ _ (ne_link hp (by decide))).trans (linkKept_setF _ _ _ _ _ (ne_link hp (by decide)))).trans
    (linkKept_setF _ _ _ _ _ (ne_link hp (by decide)))).trans (linkKept_setF _ _ _ _ _ (ne_link hp (by decide)))

theorem linkKept_plateCheck (s : State) (wa master : Nat) : LinkKept p s (plateCheck s wa master).2 := by
  unfold plateCheck
  split
  · exact .refl p s
  · split
    · exact .refl p s
    · exact linkKept_plateCe hp s wa
    · exact linkKept_plateUe hp s wa master

theorem linkKept_plateReadPhys (s : State) (wa off n master : Nat) : LinkKept p s (plateReadPhys s wa off n master).2 := by
  have h := linkKept_plateCheck hp s wa master
  unfold plateReadPhys
  generalize plateCheck s wa master = r at h
  obtain ⟨ok, w⟩ := r
  dsimp only
  split <;> exact h

theorem linkKept_plateWritePhys (s : State) (wa off n v master : Nat) :
    LinkKept p s (plateWritePhys s wa off n v master).2 := by
  have h := linkKept_plateCheck hp s wa master
  have hput : ∀ (x : State) (o : Nat), LinkKept p x (putPlateWord x wa o) := fun x o => linkKept_plate x _ x.plateEcc x.poison
  unfold plateWritePhys
  split
  · exact (linkKept_plate s s.plate (tdel s.plateEcc wa) (s.poison.filter (· != wa))).trans (hput _ _)
  · generalize plateCheck s wa master = r at h
    obtain ⟨ok, w⟩ := r
    dsimp only
    split
    · exact h.trans (hput _ _)
    · exact h

theorem linkKept_sampleOp (s : State) (o : LongOp) : LinkKept p s (sampleOp s o).2 := by
  unfold sampleOp
  split
  · exact .refl p s
  · next x _ =>
    dsimp only
    have h1 : LinkKept p s (if tget 0 s.plateEcc x.wa = 0 then s else s.advanceTo (x.cyc * s.cyc)) :=
      .ite (.refl p s) (linkKept_advanceTo s _)
    generalize (if tget 0 s.plateEcc x.wa = 0 then s else s.advanceTo (x.cyc * s.cyc)) = w at h1
    have h2 := linkKept_plateReadPhys hp w x.wa x.off x.size 0
    generalize plateReadPhys w x.wa x.off x.size 0 = r at h2
    obtain ⟨v, u⟩ := r
    cases v <;> exact h1.trans h2

theorem linkKept_sampleThr (s : State) (t : Thr) (n : Nat) : LinkKept p s (sampleThr s t n).2 := by
  unfold sampleThr
  refine linkKept_foldl_snd _ (fun acc o => ?_) t.pend ({ t with pend := [] }, s)
  dsimp only
  split
  · exact linkKept_sampleOp hp acc.2 o
  · exact .refl p acc.2

theorem linkKept_sampleDue (s : State) (n : Nat) : LinkKept p s (sampleDue s n) := by
  unfold sampleDue
  refine .trans (linkKept_foldl _ (fun x e => ?_) s.ctxs s) (linkKept_foldl _ (fun x e => ?_) _ _)
  · have h := linkKept_sampleThr hp x e.2.thr n
    exact .ite (h.trans (linkKept_ctxs _ _)) (.refl p x)
  · have h := linkKept_sampleThr hp x e.2.thr n
    exact .ite (h.trans (linkKept_setCore _ _ _)) (.refl p x)

theorem linkKept_feWrite (s : State) (t a : Nat) (bs : List Byte) : LinkKept p s (feWrite s t a bs).2 := by
  induction bs generalizing s a with
  | nil => exact .refl p s
  | cons b bs ih =>
    unfold feWrite
    split
    · unfold raiseIf
      exact .ite (linkKept_raise_apart hp s rfl (by decide) (by decide)) (.refl p s)
    · next wa _ =>
      split
      · exact .refl p s
      · have h := linkKept_plateWritePhys hp s wa (a % 8) 1 b.toNat 1
        generalize plateWritePhys s wa (a % 8) 1 b.toNat 1 = r at h
        obtain ⟨v, u⟩ := r
        cases v with
        | ok => exact h.trans (ih u (a + 1))
        | error e => exact h

/-- A port with the holds that still stand. -/
def endPortHolds (s : State) (n : Nat) (x : PortSt) : PortSt :=
  { x with holds := x.holds.filter fun id => actLive s id || decWaiting s n id }

omit hp in
theorem endHolds_eq (s : State) : endHolds s = { s with ports := s.ports.map fun e => (e.1, endPortHolds s e.1 e.2) } := rfl

-- Abandonment (R281) ------------------------------------------------------------------------------------------------------------------

/-- Writes that are under way land, or are dropped and counted. -/
theorem linkKept_feLand (s : State) (l : Nat) (e : Bool) (n : Nat) : LinkKept p s (feLand s l e n).2 := by
  unfold feLand
  dsimp only
  split
  · exact .refl p s
  · refine (linkKept_setFeThr s l e _).trans (linkKept_foldl_snd _ (fun acc w => ?_) _ (true, _))
    obtain ⟨ok, x⟩ := acc
    dsimp only
    have h1 := (linkKept_sampleDue hp x x.nowCyc).trans (linkKept_feWrite hp (sampleDue x x.nowCyc) w.ten w.at_ w.bs)
    split
    · next y hw => simpa only [hw] using h1
    · next y hw => simpa only [hw] using h1
    · next v y _ _ hw =>
      have h2 := (linkKept_bump (p := p) y fFE_RINGDROP_CNT_CNT l 0 1 (ne_link hp (.inr (by
        simp only [Reg.key, fFE_RINGDROP_CNT_CNT, rFE_RINGDROP_CNT]; omega)))).trans
        (linkKept_raise_apart hp _ (k := kFE_LSTAT_RINGDROP) (i := l) (j := 0) rfl
          (.inr (by simp only [Reg.key, kFE_LSTAT_RINGDROP, fFE_LSTAT_RINGDROP, rFE_LSTAT]; omega))
          (.inr (by simp only [Reg.key, fFE_LSETCNT_RINGDROP_N, rFE_LSETCNT]; omega)))
      rw [hw] at h1
      split
      · exact (h1.trans h2).trans (linkKept_recDrop _ _ _)
      · exact h1.trans h2

theorem linkKept_abandonRec (s : State) (l : Nat) (t : FeThr) (cause : Nat) : LinkKept p s (abandonRec s l t cause) := by
  have hk : fFE_LABORT_LATE.reg.key l 0 ≠ rEP_LINK.key p 0 := ne_link hp (.inr (by
    simp only [Reg.key, fFE_LABORT_LATE, rFE_LABORT]
    omega))
  have hcnt : fFE_LABORT_CNT_CNT.reg.key l 0 ≠ rEP_LINK.key p 0 := ne_link hp (.inr (by
    simp only [Reg.key, fFE_LABORT_CNT_CNT, rFE_LABORT_CNT]
    omega))
  unfold abandonRec
  refine .trans ?_ (linkKept_raise_apart hp _ rfl (by decide) (by decide))
  exact (((linkKept_setF s fFE_LABORT_LATE _ l 0 hk).trans (linkKept_setF _ fFE_LABORT_PC _ l 0 hk)).trans
    (linkKept_setF _ fFE_LABORT_CAUSE _ l 0 hk)).trans (linkKept_bump _ fFE_LABORT_CNT_CNT l 0 1 hcnt)

omit hp in
/-- The holds of ended activations go from every port; its queue and its frame stay. -/
theorem linkKept_endHolds (s : State) : LinkKept p s (endHolds s) := by
  have h : (endHolds s).port p = ((tfind s.ports p).map (endPortHolds s p)).getD PortSt.init := by
    rw [endHolds_eq, State.port, tfind_map]
  refine ⟨?_, ?_, rfl⟩ <;> rw [h, State.port] <;> cases tfind s.ports p <;> rfl

omit hp in
/-- A change of a port's ingress leaves the egress of every port. -/
theorem linkKept_modPort (s : State) (l : Nat) {g : PortSt → PortSt} (hg : ∀ x, (g x).egq = x.egq ∧ (g x).tx = x.tx) :
    LinkKept p s (s.modPort l g) := by
  by_cases h : p = l
  · subst h
    obtain ⟨he, ht⟩ := hg (s.port p)
    exact ⟨by rw [port_modPort_self, he], by rw [port_modPort_self, ht], rfl⟩
  · exact ⟨by rw [port_modPort_ne s g h], by rw [port_modPort_ne s g h], rfl⟩

omit hp in
theorem linkKept_popFrame (s : State) (l : Nat) : LinkKept p s (popFrame s l) := by
  unfold popFrame
  dsimp only
  have h1 : LinkKept p s (s.modPort l fun x => { x with ing := x.ing.drop 1 }) := linkKept_modPort s l fun _ => ⟨rfl, rfl⟩
  generalize (s.modPort l fun x => { x with ing := x.ing.drop 1 }) = w at *
  split
  · next q _ =>
    refine .ite (h1.trans ?_) h1
    refine (linkKept_modPort w l (g := fun x => { x with ing := x.ing ++ [q], lateIn := none }) fun _ => ⟨rfl, rfl⟩).trans
      (linkKept_setF _ fEP_RXQ_CNT_CNT _ l 0 ?_)
    rw [key_link]
    simp only [Reg.key, fEP_RXQ_CNT_CNT, rEP_RXQ_CNT]
    omega
  · exact h1

omit hp in
theorem linkKept_endThread (s : State) (l : Nat) (e : Bool) : LinkKept p s (endThread s l e) := by
  unfold endThread
  dsimp only
  have h := linkKept_setFeThr (p := p) s l e { FeThr.init with ptN := (feThr s l e).ptN }
  exact .ite (h.trans (linkKept_endHolds _)) (h.trans ((linkKept_setLane _ _ _).trans (linkKept_popFrame _ l)))

theorem linkKept_abandon (s : State) (l : Nat) (e : Bool) (cause : Nat) : LinkKept p s (abandon s l e cause) := by
  unfold abandon
  dsimp only
  refine .ite (.refl p s) ?_
  have h1 := linkKept_feLand hp s l e (feThr s l e).cyc
  generalize feLand s l e (feThr s l e).cyc = r at h1
  obtain ⟨ok, w⟩ := r
  have h2 : LinkKept p w (if e && (feThr s l e).build.isSome then w.bump fEP_TXLOST_CNT_CNT l else w) := by
    refine .ite (linkKept_bump w _ l 0 1 ?_) (.refl p w)
    rw [key_link]
    simp only [Reg.key, fEP_TXLOST_CNT_CNT, rEP_TXLOST_CNT]
    omega
  exact ((h1.trans h2).trans (linkKept_abandonRec hp _ l _ cause)).trans (linkKept_endThread _ l e)

end

-- A link goes down (R231, R264) -------------------------------------------------------------------------------------------------------

theorem LinkKept.linkUp_eq {p : Nat} {s t : State} (h : LinkKept p s t) : linkUp t p = linkUp s p := by
  have hk := h.link
  simp only [linkUp, State.fb, State.f, State.reg]
  rw [show fEP_LINK_UP.reg = rEP_LINK from rfl, hk]

/-- The link's register says down, and the retraining is counted. -/
def linkOut (s : State) (p : Nat) : State :=
  ((s.setF fEP_LINK_UP 0 p).setF fEP_LINK_FECLOCK 0 p).bump fEP_LINK_RETRAINS p

/-- The frames of the port are lost: they are counted, and what has not arrived in whole goes. -/
def loseFrames (s : State) (p : Nat) : State :=
  (s.bump fEP_TXLOST_CNT_CNT p 0 ((s.port p).egq.length + b2n (s.port p).tx.isSome)).modPort p fun x =>
    { x with egq := [], tx := none, ing := x.ing.filter fun q => q.ready ≤ s.now }

/-- A routine that has not committed is abandoned. -/
def abandonLink (s : State) (p : Nat) (e : Bool) : State :=
  if (feThr s p e).commit then s else abandon s p e abLINK

theorem linkDown_eq {s : State} {p : Nat} (h : linkUp s p = true) : linkDown s p =
    endHolds (raise (abandonLink (abandonLink (loseFrames (linkOut s p) p) p false) p true) kEP_STAT_LINKDN p) := by
  unfold linkDown
  rw [if_neg (by simp [h])]
  rfl

theorem linkUp_linkOut (s : State) (p : Nat) : linkUp (linkOut s p) p = false := by
  have h : (linkOut s p).f fEP_LINK_UP p = 0 := by
    unfold linkOut State.bump
    rw [f_setF_field _ fEP_LINK_RETRAINS fEP_LINK_UP _ _ _ (by decide) (by decide) rfl (by decide) (by decide),
      f_setF_field _ fEP_LINK_FECLOCK fEP_LINK_UP _ _ _ (by decide) (by decide) rfl (by decide) (by decide),
      f_setF_zero _ _ _ _ (by decide)]
  simp only [linkUp, State.fb, h]
  rfl

/-- A port whose frames are lost has none, and its link register stands. -/
theorem loseFrames_spec (s : State) (p : Nat) : ((loseFrames s p).port p).egq = [] ∧ ((loseFrames s p).port p).tx = none ∧
    linkUp (loseFrames s p) p = linkUp s p := by
  unfold loseFrames
  have h := linkKept_bump (p := p) s fEP_TXLOST_CNT_CNT p 0 ((s.port p).egq.length + b2n (s.port p).tx.isSome) (by
    rw [key_link]
    simp only [Reg.key, fEP_TXLOST_CNT_CNT, rEP_TXLOST_CNT]
    omega)
  generalize s.bump fEP_TXLOST_CNT_CNT p 0 ((s.port p).egq.length + b2n (s.port p).tx.isSome) = w at *
  rw [port_modPort_self]
  exact ⟨rfl, rfl, h.linkUp_eq⟩

theorem flagged_linkDown (s : State) {p : Nat} (hp : p < 12) : Flagged (raise s kEP_STAT_LINKDN p) kEP_STAT_LINKDN p := by
  have hkey : kEP_STAT_LINKDN.f.reg.key p 0 = 0x500004 + 4096 * p := by
    simp only [Reg.key, kEP_STAT_LINKDN, fEP_STAT_LINKDN, rEP_STAT]
    omega
  refine flagged_raise s kEP_STAT_LINKDN p 0 rfl (by decide) (fun c hc => ?_) (not_sideKey (by omega))
  obtain rfl : fEP_SETCNT_LINKDN_N = c := Option.some.inj hc
  rw [hkey]
  simp only [Reg.key, fEP_SETCNT_LINKDN_N, rEP_SETCNT]
  omega

theorem linkKept_abandonLink {p : Nat} (hp : p < 12) (s : State) (e : Bool) : LinkKept p s (abandonLink s p e) := by
  unfold abandonLink
  exact .ite (.refl p s) (linkKept_abandon hp s p e abLINK)

/-- A link that goes down loses its frames and raises its flag. -/
theorem linkDown_spec {s : State} {p : Nat} (hp : p < 12) (h : linkUp s p = true) : linkUp (linkDown s p) p = false ∧
    ((linkDown s p).port p).egq = [] ∧ ((linkDown s p).port p).tx = none ∧ Flagged (linkDown s p) kEP_STAT_LINKDN p := by
  rw [linkDown_eq h]
  obtain ⟨hegq, htx, hup⟩ := loseFrames_spec (linkOut s p) p
  rw [linkUp_linkOut] at hup
  have h1 := linkKept_abandonLink hp (loseFrames (linkOut s p) p) false
  have h2 := linkKept_abandonLink hp (abandonLink (loseFrames (linkOut s p) p) p false) true
  generalize loseFrames (linkOut s p) p = w at *
  generalize abandonLink w p false = u at *
  generalize abandonLink u p true = t at *
  have h3 : LinkKept p t (raise t kEP_STAT_LINKDN p) := by
    refine linkKept_raise hp t kEP_STAT_LINKDN p 0 ?_ fun c hc => ?_
    · rw [key_link]
      simp only [Reg.key, kEP_STAT_LINKDN, fEP_STAT_LINKDN, rEP_STAT]
      omega
    · obtain rfl : fEP_SETCNT_LINKDN_N = c := Option.some.inj hc
      rw [key_link]
      simp only [Reg.key, fEP_SETCNT_LINKDN_N, rEP_SETCNT]
      omega
  have hflag := flagged_linkDown t hp
  have h4 := linkKept_endHolds (p := p) (raise t kEP_STAT_LINKDN p)
  have hall := ((h1.trans h2).trans h3).trans h4
  exact ⟨hall.linkUp_eq.trans hup, hall.egq.trans hegq, hall.tx.trans htx, hflag⟩

end Sys2Proof.Machine
end

section
/-! PROOFS. The wire (R51, R231, R232, R240, R241, R256, R257): the frame that starts, the end of a transmission, cut-through,
supervision frames, links and EP_CTL, and the statement Wire assembled from them. -/

namespace Sys2Proof.Machine
open Sys2Proof

-- The frame that starts (R256) ----------------------------------------------------------------------------------------------------

/-- What is taken out satisfies the predicate and was in the list. -/
theorem takeOut_some {α : Type} {q : α → Bool} {xs rest : List α} {b : α} (h : takeOut q xs = some (b, rest)) :
    q b = true ∧ b ∈ xs := by
  induction xs generalizing rest with
  | nil => simp [takeOut] at h
  | cons x xs ih =>
    unfold takeOut at h
    split at h
    · next hx =>
      obtain ⟨rfl, -⟩ := Prod.mk.inj (Option.some.inj h)
      exact ⟨hx, List.mem_cons_self⟩
    · obtain ⟨⟨y, ys⟩, hy, he⟩ := Option.map_eq_some_iff.mp h
      obtain ⟨rfl, -⟩ := Prod.mk.inj he
      obtain ⟨hq, hm⟩ := ih hy
      exact ⟨hq, List.mem_cons_of_mem x hm⟩

theorem le_foldl_max (xs : List TxFrame) (m : Nat) :
    m ≤ xs.foldl (fun m t => max m t.cls) m ∧ ∀ x ∈ xs, x.cls ≤ xs.foldl (fun m t => max m t.cls) m := by
  induction xs generalizing m with
  | nil => exact ⟨Nat.le_refl m, by simp⟩
  | cons x xs ih =>
    obtain ⟨h1, h2⟩ := ih (max m x.cls)
    rw [List.foldl_cons]
    exact ⟨by omega, List.forall_mem_cons.mpr ⟨by omega, h2⟩⟩

theorem foldl_min_le (xs : List TxFrame) (m : Nat) :
    xs.foldl (fun m t => min m t.rdy) m ≤ m ∧ ∀ x ∈ xs, xs.foldl (fun m t => min m t.rdy) m ≤ x.rdy := by
  induction xs generalizing m with
  | nil => exact ⟨Nat.le_refl m, by simp⟩
  | cons x xs ih =>
    obtain ⟨h1, h2⟩ := ih (min m x.rdy)
    rw [List.foldl_cons]
    exact ⟨by omega, List.forall_mem_cons.mpr ⟨by omega, h2⟩⟩

/-- The next frame may start, is built, and is of the highest class of those. -/
theorem nextTx_some {s : State} {p : Nat} {b : TxFrame} {rest : List TxFrame} (h : nextTx s p = some (b, rest)) :
    b ∈ (s.port p).egq ∧ mayStart s p b = true ∧ b.rdy ≤ s.now ∧
      ∀ x ∈ (s.port p).egq, mayStart s p x = true → x.rdy ≤ s.now → x.cls ≤ b.cls := by
  obtain ⟨hq, hm⟩ := takeOut_some h
  simp only [Bool.and_eq_true, beq_iff_eq, decide_eq_true_eq] at hq
  obtain ⟨htop, hmay, hrdy⟩ := hq
  refine ⟨hm, hmay, hrdy, fun x hx hxm hxr => ?_⟩
  rw [htop]
  exact (le_foldl_max _ 0).2 x (List.mem_filter.mpr ⟨hx, by simp [hxm, hxr]⟩)

/-- Until the first frame that may start is built only time passes, and no longer than that. -/
theorem untilBuilt_eq (s : State) (p : Nat) : ∃ c, untilBuilt s p = { s with clk := c } ∧
    ∀ x ∈ (s.port p).egq, mayStart s p x = true → (untilBuilt s p).now ≤ max s.now x.rdy := by
  unfold untilBuilt
  cases hf : (s.port p).egq.filter (mayStart s p) with
  | nil =>
    refine ⟨s.clk, rfl, fun x _ _ => ?_⟩
    exact Nat.le_max_left _ _
  | cons t ts =>
    dsimp only
    have hle : ∀ x ∈ (s.port p).egq, mayStart s p x = true → ts.foldl (fun m x => min m x.rdy) t.rdy ≤ x.rdy := fun x hx hm => by
      obtain ⟨h1, h2⟩ := foldl_min_le ts t.rdy
      have hx' : x ∈ t :: ts := hf ▸ List.mem_filter.mpr ⟨hx, hm⟩
      rcases List.mem_cons.mp hx' with rfl | hx'
      · exact h1
      · exact h2 x hx'
    generalize ts.foldl (fun m x => min m x.rdy) t.rdy = d at *
    refine ⟨(s.advanceTo d).clk, rfl, fun x hx hm => ?_⟩
    have := hle x hx hm
    rw [advanceTo_now]
    omega

-- What follows a start leaves the frame on the wire -----------------------------------------------------------------------------------

/-- The port's queue, its frame on the wire and the end of that are as they were. -/
structure WireKept (p : Nat) (s t : State) : Prop where
  egq : (t.port p).egq = (s.port p).egq
  tx  : (t.port p).tx = (s.port p).tx
  fin : (t.port p).txEnd = (s.port p).txEnd

theorem WireKept.trans {p : Nat} {s t u : State} (h : WireKept p s t) (g : WireKept p t u) : WireKept p s u :=
  ⟨g.egq.trans h.egq, g.tx.trans h.tx, g.fin.trans h.fin⟩

theorem wireKept_of_ports {p : Nat} {s t : State} (h : t.ports = s.ports) : WireKept p s t := by
  have h : t.port p = s.port p := by rw [State.port, h, State.port]
  exact ⟨by rw [h], by rw [h], by rw [h]⟩

theorem wireKept_raiseIf (p : Nat) (b : Bool) (s : State) (k : Flag) (i j : Nat) : WireKept p s (raiseIf b s k i j) := by
  unfold raiseIf
  split
  · exact wireKept_of_ports (onlySignals_raise s k i j).ports
  · exact wireKept_of_ports rfl

theorem wireKept_dropHold (s : State) (p : Nat) (dec : Option Nat) : WireKept p s (dropHold s p dec) := by
  unfold dropHold
  split
  · next id =>
    split
    · exact wireKept_of_ports rfl
    · exact ⟨by rw [port_modPort_self], by rw [port_modPort_self], by rw [port_modPort_self]⟩
  · exact wireKept_of_ports rfl

theorem ports_handLane (s : State) (p : Nat) (t : TxFrame) : (handLane s p t).ports = s.ports := by
  unfold handLane
  split <;> rfl

theorem ports_ptpSent (s : State) (p t : Nat) (m : PtpMsg) : (ptpSent s p t m).ports = s.ports := by
  unfold ptpSent
  cases m.kind with
  | pdelayResp =>
    dsimp only
    split
    · split
      · unfold ptpSend
        rw [ports_handLane]
      · rfl
    · rfl
  | _ => rfl

-- TRANSMIT_START (R256) -----------------------------------------------------------------------------------------------------------------

/-- The instant at which a frame that starts now leaves the pins. -/
def wireOut (s : State) (p : Nat) : Nat := s.now + modeEgress (portMode s p) * nsU

/-- The frame is on the wire, and the rest waits. -/
def onWire (s : State) (p : Nat) (b : TxFrame) (rest : List TxFrame) : State :=
  s.modPort p fun x => { x with egq := rest, tx := some b, txEnd := wireOut s p + wireNs s p b.f.len * nsU }

/-- A decision frame is late when it leaves after its deadline. -/
def startsLate (b : TxFrame) (out : Nat) : Bool := match b.deadline with | some d => b.cls == 3 && d < out | none => false

/-- The stamp of a PTP frame of the station's own goes to the time unit. -/
def stampSent (s : State) (p : Nat) (b : TxFrame) : State :=
  match b.f.body with
  | .ptp m => if b.f.ringForward then s else ptpSent s p (egressStamp s p) m
  | _ => s

theorem transmitStart_eq {s : State} {p : Nat} {b : TxFrame} {rest : List TxFrame} (hl : linkUp s p = true)
    (he : portEn s p = true) (hp : portPower s p = true) (ht : (s.port p).tx = none)
    (hn : nextTx (untilBuilt s p) p = some (b, rest)) : transmitStart s p =
    stampSent (dropHold (raiseIf (startsLate b (wireOut (untilBuilt s p) p))
      (acceptLate (onWire (untilBuilt s p) p b rest) p b.cls) kEP_STAT_DLATE p) p b.dec) p b := by
  unfold transmitStart
  rw [if_neg (by simp [hl, he, hp, ht])]
  dsimp only
  rw [hn]
  rfl

theorem wireKept_stampSent (s : State) (p : Nat) (b : TxFrame) : WireKept p s (stampSent s p b) := by
  unfold stampSent
  split
  · split
    · exact wireKept_of_ports rfl
    · exact wireKept_of_ports (ports_ptpSent s p _ _)
  · exact wireKept_of_ports rfl

/-- Only a frame of the same class that came in the same nanosecond may join the queue. -/
theorem acceptLate_spec (s : State) (p cls : Nat) : ((acceptLate s p cls).port p).tx = (s.port p).tx ∧
    ((acceptLate s p cls).port p).txEnd = (s.port p).txEnd ∧ (((acceptLate s p cls).port p).egq = (s.port p).egq ∨
      ∃ x at_, (s.port p).lateEg = some (x, at_) ∧ x.cls = cls ∧ ((acceptLate s p cls).port p).egq = (s.port p).egq ++ [x]) := by
  unfold acceptLate
  split
  · next x at_ hx =>
    split
    · next hc =>
      have hcls : x.cls = cls := by
        simp only [Bool.and_eq_true, decide_eq_true_eq] at hc
        exact hc.1
      have hport : ∀ (w : State) (c : Field), (uncount w c p).port p = w.port p := fun _ _ => rfl
      rw [hport, port_modPort_self]
      exact ⟨rfl, rfl, .inr ⟨x, at_, hx, hcls, rfl⟩⟩
    · exact ⟨rfl, rfl, .inl rfl⟩
  · exact ⟨rfl, rfl, .inl rfl⟩

/-- The frame that starts is on the wire until its last bit; a frame that came with the start may join the queue. -/
theorem transmitStart_spec {s : State} {p : Nat} {b : TxFrame} {rest : List TxFrame} (hl : linkUp s p = true)
    (he : portEn s p = true) (hp : portPower s p = true) (ht : (s.port p).tx = none)
    (hn : nextTx (untilBuilt s p) p = some (b, rest)) : ((transmitStart s p).port p).tx = some b ∧
    (((transmitStart s p).port p).egq = rest ∨ ∃ x at_, (s.port p).lateEg = some (x, at_) ∧ x.cls = b.cls ∧
      ((transmitStart s p).port p).egq = rest ++ [x]) ∧
    ((transmitStart s p).port p).txEnd = (untilBuilt s p).now + modeEgress (portMode s p) * nsU + wireNs s p b.f.len * nsU := by
  rw [transmitStart_eq hl he hp ht hn]
  obtain ⟨c, hc, -⟩ := untilBuilt_eq s p
  have hsame : (untilBuilt s p).port p = s.port p ∧ portMode (untilBuilt s p) p = portMode s p ∧
      wireNs (untilBuilt s p) p = wireNs s p := by
    rw [hc]
    exact ⟨rfl, rfl, rfl⟩
  obtain ⟨hport, hmode, hns⟩ := hsame
  generalize untilBuilt s p = u at *
  obtain ⟨htx, hfin, hegq⟩ := acceptLate_spec (onWire u p b rest) p b.cls
  have hw : (onWire u p b rest).port p =
      { s.port p with egq := rest, tx := some b, txEnd := wireOut u p + wireNs u p b.f.len * nsU } := by
    rw [onWire, port_modPort_self, hport]
  rw [hw] at htx hfin hegq
  generalize acceptLate (onWire u p b rest) p b.cls = v at *
  have hkept := ((wireKept_raiseIf p (startsLate b (wireOut u p)) v kEP_STAT_DLATE p 0).trans
    (wireKept_dropHold _ p b.dec)).trans (wireKept_stampSent _ p b)
  generalize stampSent _ p b = t at *
  rw [hkept.tx, hkept.fin, hkept.egq, htx, hfin, wireOut, hmode, hns]
  exact ⟨rfl, hegq, rfl⟩

-- The end of a transmission and cut-through (R231, R240) ------------------------------------------------------------------------------

theorem transmitEnd_eq {s : State} {p : Nat} (h : (s.port p).tx ≠ none) : transmitEnd s p =
    ((s.advanceTo (s.port p).txEnd).modPort p fun x => { x with tx := none }).bump fEP_TXOK_CNT_CNT p := by
  unfold transmitEnd
  rw [if_neg (by simpa using h)]

/-- The last bit of a frame frees the wire and counts the frame. -/
theorem transmitEnd_spec {s : State} {p : Nat} (h : (s.port p).tx ≠ none) : ((transmitEnd s p).port p).tx = none ∧
    ((transmitEnd s p).port p).egq = (s.port p).egq ∧ (transmitEnd s p).now = max s.now (s.port p).txEnd ∧
    Counted s (transmitEnd s p) fEP_TXOK_CNT_CNT p := by
  rw [transmitEnd_eq h]
  generalize (s.port p).txEnd = m
  have hw : ∀ w : State, (w.bump fEP_TXOK_CNT_CNT p).port p = w.port p := fun _ => rfl
  have hcnt := counted_bump ((s.advanceTo m).modPort p fun x => { x with tx := none }) fEP_TXOK_CNT_CNT p 0 (by decide)
  refine ⟨?_, ?_, advanceTo_now s m, hcnt⟩
  · rw [hw, port_modPort_self]
  · rw [hw, port_modPort_self]
    rfl

/-- The other port of a pair. -/
def otherPort (p : Nat) : Nat := if p % 2 = 0 then p + 1 else p - 1

theorem otherPort_ne (p : Nat) : p ≠ otherPort p := by
  unfold otherPort
  split <;> omega

theorem now_advance (s : State) (d : Nat) : (s.advance d).now = s.now + d := rfl

/-- A ring frame for another node is on the other port's wire, with no more than a PTP correction changed. -/
theorem cutThrough_eq {s : State} {p : Nat} {f : Frame} (hr : 2 ≤ pairRed s (p / 2)) (hl : linkUp s p = true)
    (ho : linkUp s (otherPort p) = true) (hs : s.stopped = false) (hp : portPower s p = true) (hd : f.dmac ≠ portMac s p)
    (hm : f.smac ≠ portMac s p) (hn : f.smac ≠ portMac s (otherPort p)) :
    ∃ body fin, cutThrough s p f = (s.advance (cutNs (modeRate (portMode s (otherPort p))) * nsU)).modPort (otherPort p)
      fun x => match x.tx with
        | none => { x with tx := some ⟨{ f with body := body, ringForward := true }, 3, none, none, none, none, 0⟩, txEnd := fin }
        | some _ => { x with egq := ⟨{ f with body := body, ringForward := true }, 3, none, none, none, none, 0⟩ :: x.egq } := by
  unfold cutThrough
  rw [if_neg]
  · exact ⟨_, _, rfl⟩
  · show ¬((_ || !linkUp s (otherPort p) || (_ || f.smac == portMac s (otherPort p)) || _ || _) = true)
    have hr' : ¬pairRed s (p / 2) < 2 := by omega
    simp [hr', hl, ho, hs, hp, hd, hm, hn]

theorem cutThrough_spec {s : State} {p : Nat} {f : Frame} (hr : 2 ≤ pairRed s (p / 2)) (hl : linkUp s p = true)
    (ho : linkUp s (otherPort p) = true) (hs : s.stopped = false) (hp : portPower s p = true) (hd : f.dmac ≠ portMac s p)
    (hm : f.smac ≠ portMac s p) (hn : f.smac ≠ portMac s (otherPort p)) (ht : (s.port (otherPort p)).tx = none) :
    (∃ b, ((cutThrough s p f).port (otherPort p)).tx = some b ∧ b.f.dmac = f.dmac ∧ b.f.smac = f.smac ∧ b.f.red = f.red ∧
      b.f.bytes = f.bytes) ∧ (cutThrough s p f).port p = s.port p ∧
      (cutThrough s p f).now = s.now + cutNs (modeRate (portMode s (otherPort p))) * nsU := by
  obtain ⟨body, fin, h⟩ := cutThrough_eq hr hl ho hs hp hd hm hn
  rw [h]
  generalize cutNs (modeRate (portMode s (otherPort p))) * nsU = d
  have hport : ∀ n, (s.advance d).port n = s.port n := fun _ => rfl
  refine ⟨?_, ?_, now_advance s d⟩
  · rw [port_modPort_self, hport, ht]
    exact ⟨_, rfl, rfl, rfl, rfl, rfl⟩
  · rw [port_modPort_ne _ _ (otherPort_ne p), hport]

-- Supervision frames (R241) -----------------------------------------------------------------------------------------------------------

theorem handLane_on {s : State} (h : s.stopped = false) (p : Nat) (t : TxFrame) :
    handLane s p t = s.setLane p { s.lane p with build := (s.lane p).build ++ [t] } := by
  unfold handLane
  rw [if_neg (by simp [h])]

/-- The supervision frame of a port. -/
def supervisionFrame (s : State) (seq p : Nat) : TxFrame :=
  ⟨{ mkFrame 0x01154E000100#48 (portMac s p) [] 0x88FB .supervision 64 [] with red := some (BitVec.ofNat 16 seq) },
    1, none, none, none, none, 0⟩

/-- The pair's life starts over when it has run out. -/
def lifeOver (s : State) (q : Nat) : State :=
  let s := s.advanceTo ((s.port (2 * q)).life + lifeU s q)
  s.modPort (2 * q) fun x => { x with life := s.now }

/-- The pair's number is taken. -/
def takeSeq (s : State) (q : Nat) : State := s.setPair q { s.pair q with seq := ((s.pair q).seq + 1) % 65536 }

theorem supervisionSend_eq {s : State} {q : Nat} (hr : pairRed s q ≠ 0) (hs : s.stopped = false)
    (hp : portPower s (2 * q) = true) : supervisionSend s q = [2 * q, 2 * q + 1].foldl
      (fun t p => handLane t p (supervisionFrame t ((lifeOver s q).pair q).seq p)) (takeSeq (lifeOver s q) q) := by
  unfold supervisionSend
  rw [if_neg (by simp [hr, hs, hp])]
  rfl

/-- Time and a port's own state leave pairs, lanes and stop bath. -/
theorem modPort_advanceTo_keeps (s : State) (m p : Nat) (g : PortSt → PortSt) : ((s.advanceTo m).modPort p g).pair = s.pair ∧
    ((s.advanceTo m).modPort p g).lane = s.lane ∧ ((s.advanceTo m).modPort p g).stopped = s.stopped := ⟨rfl, rfl, rfl⟩

theorem lifeOver_keeps (s : State) (q : Nat) : (lifeOver s q).pair = s.pair ∧ (lifeOver s q).lane = s.lane ∧
    (lifeOver s q).stopped = s.stopped := modPort_advanceTo_keeps s _ _ _

theorem takeSeq_spec (s : State) (q : Nat) : ((takeSeq s q).pair q).seq = ((s.pair q).seq + 1) % 65536 ∧
    (takeSeq s q).lane = s.lane ∧ (takeSeq s q).stopped = s.stopped := by
  refine ⟨?_, rfl, rfl⟩
  rw [takeSeq, pair_setPair_self]

/-- The two lanes of a pair, handed one frame each. -/
theorem lane_handPair {s : State} (h : s.stopped = false) (q : Nat) (g : State → Nat → TxFrame) :
    ([2 * q, 2 * q + 1].foldl (fun t p => handLane t p (g t p)) s).pairs = s.pairs ∧
    ∀ i < 2, ∃ t, (([2 * q, 2 * q + 1].foldl (fun t p => handLane t p (g t p)) s).lane (2 * q + i)).build =
      (s.lane (2 * q + i)).build ++ [g t (2 * q + i)] := by
  rw [List.foldl_cons, List.foldl_cons, List.foldl_nil, handLane_on h]
  generalize hw : s.setLane (2 * q) { s.lane (2 * q) with build := (s.lane (2 * q)).build ++ [g s (2 * q)] } = w
  have hws : w.stopped = false := by
    rw [← hw]
    exact h
  have hwp : w.pairs = s.pairs := by
    rw [← hw]
    rfl
  have hw0 : (w.lane (2 * q)).build = (s.lane (2 * q)).build ++ [g s (2 * q)] := by
    rw [← hw, lane_setLane_self]
  have hw1 : w.lane (2 * q + 1) = s.lane (2 * q + 1) := by
    rw [← hw, lane_setLane_ne s _ (by omega)]
  rw [handLane_on hws]
  refine ⟨hwp, fun i hi => ?_⟩
  obtain rfl | rfl : i = 0 ∨ i = 1 := by omega
  · exact ⟨s, by rw [lane_setLane_ne w _ (by omega)]; exact hw0⟩
  · exact ⟨w, by rw [lane_setLane_self, hw1]⟩

theorem supervisionSend_spec {s : State} {q : Nat} (hr : pairRed s q ≠ 0) (hs : s.stopped = false)
    (hp : portPower s (2 * q) = true) : ((supervisionSend s q).pair q).seq = ((s.pair q).seq + 1) % 65536 ∧
    ∀ i < 2, ∃ b, ((supervisionSend s q).lane (2 * q + i)).build = (s.lane (2 * q + i)).build ++ [b] ∧
      b.f.body = .supervision ∧ b.cls = 1 ∧ b.f.red = some (BitVec.ofNat 16 (s.pair q).seq) := by
  rw [supervisionSend_eq hr hs hp]
  obtain ⟨hpair, hlane, hstop⟩ := lifeOver_keeps s q
  generalize lifeOver s q = u at *
  rw [hpair]
  obtain ⟨hseq, hlane', hstop'⟩ := takeSeq_spec u q
  rw [hpair] at hseq
  generalize takeSeq u q = w at *
  obtain ⟨hpairs, hnew⟩ := lane_handPair ((hstop'.trans hstop).trans hs) q fun t p => supervisionFrame t (s.pair q).seq p
  refine ⟨?_, fun i hi => ?_⟩
  · rw [State.pair, hpairs]
    exact hseq
  · obtain ⟨t, ht⟩ := hnew i hi
    rw [hlane', hlane] at ht
    exact ⟨_, ht, rfl, rfl, rfl⟩

-- Links and EP_CTL (R231, R232) -------------------------------------------------------------------------------------------------------

theorem linkUpEvent_spec {s : State} {p sp : Nat} (hl : linkUp s p = false) (hr : portReady s p = true)
    (hsp : portMode s p = 3 ∨ portMode s p = 4 → sp = modeRate (portMode s p)) :
    linkUp (linkUpEvent s p sp) p = true ∧ (linkUpEvent s p sp).ports = s.ports := by
  have h : linkUpEvent s p sp = (s.setF fEP_LINK_UP 1 p).setF fEP_LINK_FECLOCK (b2n (portMode s p == 7)) p := by
    unfold linkUpEvent
    dsimp only
    rw [if_neg (by simp [hr]), if_neg, if_neg (by simp [hl])]
    simp only [Bool.and_eq_true, Bool.or_eq_true, beq_iff_eq, bne_iff_ne]
    rintro ⟨hm, hne⟩
    exact hne (hsp hm)
  have hup : ((s.setF fEP_LINK_UP 1 p).setF fEP_LINK_FECLOCK (b2n (portMode s p == 7)) p).f fEP_LINK_UP p = 1 := by
    rw [f_setF_field _ fEP_LINK_FECLOCK fEP_LINK_UP _ _ _ (by decide) (by decide) rfl (by decide) (by decide),
      f_setF_self _ _ _ _ _ (by decide)]
    rfl
  rw [h]
  refine ⟨?_, rfl⟩
  simp only [linkUp, State.fb, hup]
  rfl

theorem f_loadPair (s : State) (q : Nat) (g : Field) (i j : Nat) : (loadPair s q).f g i j = s.f g i j := by
  unfold loadPair
  split <;> rfl

/-- The check of a pair's settings writes its flag only. -/
theorem f_checkPair (s : State) (q : Nat) (g : Field) {p : Nat} (h : g.reg.key p 0 = 0x500000 + 4096 * p) (hp : p < 12) :
    (checkPair s q).f g p = s.f g p := by
  unfold checkPair raiseIf
  dsimp only
  split
  · refine f_raise_ne s ?_ (fun c hc => ?_) (not_sideKey (by omega))
    · simp only [Reg.key, kEP_STAT_CFGREF, fEP_STAT_CFGREF, rEP_STAT] at h ⊢
      omega
    · obtain rfl : fEP_SETCNT_CFGREF_N = c := Option.some.inj hc
      simp only [Reg.key, fEP_SETCNT_CFGREF_N, rEP_SETCNT] at h ⊢
      omega
  · rfl

theorem key_epCtl (p : Nat) : rEP_CTL.key p 0 = 0x500000 + 4096 * p := by
  simp only [Reg.key, rEP_CTL]
  omega

/-- EP_CTL of a port that is off and may be used: the mode, the enable and the lock as written. -/
theorem epCtl_eq {s : State} {p : Nat} (v : Word) (hl : s.fb fEP_CTL_LOCK p = false) (he : portEn s p = false)
    (hb : bit (unitBad s fBI_UNUSABLE_PORTS) p = false) : epCtl s p v =
    (checkPair (loadPair ((loadPair (s.setF fEP_CTL_MODE (bits v.toNat 1 4) p) (p / 2)).setF fEP_CTL_EN (b2n (bit v.toNat 0)) p)
      (p / 2)) (p / 2)).setF fEP_CTL_LOCK (b2n (bit v.toNat 31)) p := by
  have hbad : bit (unitBad (s.setF fEP_CTL_MODE (bits v.toNat 1 4) p) fBI_UNUSABLE_PORTS) p = false := hb
  unfold epCtl
  simp only [hl, he, Bool.false_and, raiseIf, Bool.false_eq_true, if_false, hbad, Bool.not_false, Bool.and_true]

theorem epCtl_spec {s : State} {p : Nat} (hp : p < 12) (v : Word) (hl : s.fb fEP_CTL_LOCK p = false) (he : portEn s p = false)
    (hb : bit (unitBad s fBI_UNUSABLE_PORTS) p = false) : portMode (epCtl s p v) p = bits v.toNat 1 4 ∧
    portEn (epCtl s p v) p = bit v.toNat 0 ∧ (epCtl s p v).fb fEP_CTL_LOCK p = bit v.toNat 31 := by
  rw [epCtl_eq v hl he hb]
  have hkey := key_epCtl p
  refine ⟨?_, ?_, ?_⟩
  · rw [portMode, f_setF_field _ fEP_CTL_LOCK fEP_CTL_MODE _ _ _ (by decide) (by decide) rfl (by decide) (by decide),
      f_checkPair _ _ _ hkey hp, f_loadPair,
      f_setF_field _ fEP_CTL_EN fEP_CTL_MODE _ _ _ (by decide) (by decide) rfl (by decide) (by decide), f_loadPair,
      f_setF_self _ _ _ _ _ (by decide)]
    exact Nat.mod_eq_of_lt (bits_lt _ _ _)
  · rw [portEn, State.fb, f_setF_field _ fEP_CTL_LOCK fEP_CTL_EN _ _ _ (by decide) (by decide) rfl (by decide) (by decide),
      f_checkPair _ _ _ hkey hp, f_loadPair]
    exact fb_setF_bool _ fEP_CTL_EN (bit v.toNat 0) p 0 rfl (by decide)
  · exact fb_setF_bool _ fEP_CTL_LOCK (bit v.toNat 31) p 0 rfl (by decide)

theorem epCtl_locked {s : State} {p : Nat} (v : Word) (h : s.fb fEP_CTL_LOCK p = true) : epCtl s p v = s := by
  unfold epCtl
  exact if_pos h

-- The clauses --------------------------------------------------------------------------------------------------------------------------

theorem exec_transmitStart (p : Port) (s : State) : exec (.transmitStart p) s = done (transmitStart s p) := rfl
theorem exec_transmitEnd (p : Port) (s : State) : exec (.transmitEnd p) s = done (transmitEnd s p) := rfl
theorem exec_cutThrough (p : Port) (f : Frame) (s : State) : exec (.cutThrough p f) s = done (cutThrough s p f) := rfl
theorem exec_supervisionSend (q : Fin 6) (s : State) : exec (.supervisionSend q) s = done (supervisionSend s q) := rfl
theorem exec_linkDown (p : Port) (s : State) : exec (.linkDown p) s = done (linkDown s p) := rfl
theorem exec_linkUp (p : Port) (sp : Nat) (s : State) : exec (.linkUp p sp) s = done (linkUpEvent s p sp) := rfl
theorem exec_epnCtl (p : Port) (v : Word) (s : State) : exec (.epnCtl p v) s = done (epCtl s p v) := rfl

theorem transmitStart_clause {s : State} {p : Port} (hl : linkUp s p = true) (he : portEn s p = true) (hp : portPower s p = true)
    (ht : (s.port p).tx = none) {b : TxFrame} {rest : List TxFrame} (hn : nextTx (untilBuilt s p) p = some (b, rest)) :
    Completes (exec (.transmitStart p) s) (fun t => (t.port p).tx = some b ∧
      ((t.port p).egq = rest ∨ ∃ x at_, (s.port p).lateEg = some (x, at_) ∧ x.cls = b.cls ∧ (t.port p).egq = rest ++ [x]) ∧
      (t.port p).txEnd = (untilBuilt s p).now + modeEgress (portMode s p) * nsU + wireNs s p b.f.len * nsU ∧
      b ∈ (s.port p).egq ∧ mayStart s p b = true ∧ b.rdy ≤ (untilBuilt s p).now ∧
      ∀ x ∈ (s.port p).egq, mayStart s p x = true →
        (untilBuilt s p).now ≤ max s.now x.rdy ∧ (x.rdy ≤ (untilBuilt s p).now → x.cls ≤ b.cls)) := by
  obtain ⟨htx, hegq, hfin⟩ := transmitStart_spec hl he hp ht hn
  obtain ⟨hmem, hmay, hrdy, htop⟩ := nextTx_some hn
  obtain ⟨c, hc, hwait⟩ := untilBuilt_eq s p
  have hsame : (untilBuilt s p).port p = s.port p ∧ mayStart (untilBuilt s p) p = mayStart s p := by
    rw [hc]
    exact ⟨rfl, rfl⟩
  obtain ⟨hport, hstart⟩ := hsame
  rw [hport] at hmem htop
  rw [hstart] at hmay htop
  rw [exec_transmitStart]
  generalize transmitStart s p = t at *
  generalize (untilBuilt s p).now = n at *
  exact completes_done ⟨htx, hegq, hfin, hmem, hmay, hrdy, fun x hx hm => ⟨hwait x hx hm, htop x hx hm⟩⟩

/-- Settles O38: the start of a frame by what it takes out of the queue, the other events by what each leaves. -/
theorem wire : Obligations.Wire := by
  unfold Obligations.Wire
  intro s p f v
  refine ⟨fun hl he hp ht b rest hn => transmitStart_clause hl he hp ht hn, fun h => ?_,
    fun hr hl ho hs hp hd hm hn ht => ?_, fun r hr hs hp => ?_, fun h => ?_, fun hl hr sp hsp => ?_, fun hl he hb => ?_, fun h => ?_⟩
  · rw [exec_transmitEnd]
    exact completes_done (transmitEnd_spec h)
  · rw [exec_cutThrough]
    exact completes_done (cutThrough_spec hr hl ho hs hp hd hm hn ht)
  · rw [exec_supervisionSend]
    exact completes_done (supervisionSend_spec hr hs hp)
  · rw [exec_linkDown]
    exact completes_done (linkDown_spec p.isLt h)
  · rw [exec_linkUp]
    exact completes_done (linkUpEvent_spec hl hr hsp)
  · rw [exec_epnCtl]
    exact completes_done (epCtl_spec p.isLt v hl he hb)
  · rw [exec_epnCtl, epCtl_locked v h]
    exact completes_done rfl

end Sys2Proof.Machine
end

section
/-! PROOFS. The bank hash (R57): its bits, its bijection within a row, its conflicts, and the statement BankHash assembled
from them. -/

namespace Sys2Proof.Machine
open Sys2Proof

/-- The row of five bits twice, {r, r} (R57). -/
theorem testBit_rowPair {r : Nat} (hr : r < 32) (i : Nat) :
    (r * 33).testBit i = if i < 5 then r.testBit i else r.testBit (i - 5) := by
  have h : r * 33 = 2 ^ 5 * r + r := by omega
  rw [h, Nat.testBit_two_pow_mul_add r (i := 5) hr i]

theorem rowPair_lt {r : Nat} (hr : r < 32) : r * 33 < 2 ^ 10 := by omega

theorem rowPair_xor {a b : Nat} (ha : a < 32) (hb : b < 32) : (a ^^^ b) * 33 = a * 33 ^^^ b * 33 := by
  apply Nat.eq_of_testBit_eq
  intro i
  rw [Nat.testBit_xor, testBit_rowPair (Nat.xor_lt_two_pow (n := 5) ha hb), testBit_rowPair ha, testBit_rowPair hb]
  split <;> exact Nat.testBit_xor ..

theorem bankOf_eq (w : Nat) : bankOf w = w % 1024 ^^^ w / 1024 % 32 * 33 := rfl

theorem bankOf_lt (w : Nat) : bankOf w < 1024 :=
  Nat.xor_lt_two_pow (n := 10) (Nat.mod_lt _ (by decide)) (rowPair_lt (Nat.mod_lt _ (by decide)))

theorem testBit_bankOf (w : Nat) {i : Nat} (hi : i < 10) :
    (bankOf w).testBit i = (w.testBit i != w.testBit (10 + i % 5)) := by
  have hlow : (w % 1024).testBit i = w.testBit i := by
    rw [show (1024 : Nat) = 2 ^ 10 from rfl, Nat.testBit_mod_two_pow]
    simp [hi]
  have hrow (j : Nat) (hj : j < 5) : (w / 1024 % 32).testBit j = w.testBit (10 + j) := by
    rw [show (1024 : Nat) = 2 ^ 10 from rfl, show (32 : Nat) = 2 ^ 5 from rfl, Nat.testBit_mod_two_pow,
      Nat.testBit_div_two_pow]
    simp [hj, Nat.add_comm]
  rw [bankOf_eq, Nat.testBit_xor, hlow, testBit_rowPair (Nat.mod_lt _ (by decide))]
  split
  · next h => rw [hrow i h, Nat.mod_eq_of_lt h]
  · rw [hrow (i - 5) (by omega), show i % 5 = i - 5 by omega]

/-- Two words conflict exactly when the XOR of their low bits is that of their row pairs. -/
theorem xor_eq_xor_iff (a b x y : Nat) : a ^^^ x = b ^^^ y ↔ a ^^^ b = x ^^^ y := by
  constructor <;> intro h
  · calc a ^^^ b = (a ^^^ x) ^^^ x ^^^ b := by rw [Nat.xor_xor_cancel_right]
      _ = b ^^^ (b ^^^ (x ^^^ y)) := by rw [h]; ac_rfl
      _ = x ^^^ y := by rw [Nat.xor_xor_cancel_left]
  · calc a ^^^ x = (a ^^^ b) ^^^ b ^^^ x := by rw [Nat.xor_xor_cancel_right]
      _ = x ^^^ (x ^^^ (b ^^^ y)) := by rw [h]; ac_rfl
      _ = b ^^^ y := by rw [Nat.xor_xor_cancel_left]

theorem bankOf_eq_iff {w v : Nat} (hw : w < 2 ^ 15) (hv : v < 2 ^ 15) :
    bankOf w = bankOf v ↔ w % 1024 ^^^ v % 1024 = 33 * (w / 1024 ^^^ v / 1024) := by
  have hwr : w / 1024 < 32 := by omega
  have hvr : v / 1024 < 32 := by omega
  rw [bankOf_eq, bankOf_eq, Nat.mod_eq_of_lt hwr, Nat.mod_eq_of_lt hvr, xor_eq_xor_iff, ← rowPair_xor hwr hvr,
    Nat.mul_comm 33]

theorem bankOf_injective_of_row {w v : Nat} (hw : w < 2 ^ 15) (hv : v < 2 ^ 15) (hr : w / 1024 = v / 1024)
    (h : bankOf w = bankOf v) : w = v := by
  have hx := (bankOf_eq_iff hw hv).mp h
  rw [hr, Nat.xor_self, Nat.mul_zero, Nat.xor_eq_zero_iff] at hx
  omega

/-- Each bank holds a word of each row: the one whose low bits are the bank XOR the row pair. -/
theorem exists_bankOf_row {n r : Nat} (hn : n < 1024) (hr : r < 32) : ∃ l < 1024, bankOf (1024 * r + l) = n := by
  have hl : n ^^^ r * 33 < 1024 := Nat.xor_lt_two_pow (n := 10) hn (rowPair_lt hr)
  refine ⟨n ^^^ r * 33, hl, ?_⟩
  rw [bankOf_eq, show (1024 * r + (n ^^^ r * 33)) % 1024 = n ^^^ r * 33 by omega,
    show (1024 * r + (n ^^^ r * 33)) / 1024 % 32 = r by omega, Nat.xor_xor_cancel_right]

/-- Settles O19: the hash bit by bit, and the XOR of two words' banks. -/
theorem bankHash : Obligations.BankHash := by
  unfold Obligations.BankHash
  intro w v hw hv
  exact ⟨bankOf_lt w, fun i hi => testBit_bankOf w hi, bankOf_injective_of_row hw hv,
    fun n hn r hr => exists_bankOf_row hn hr, bankOf_eq_iff hw hv, by decide, by decide⟩

end Sys2Proof.Machine
end

section
/-! PROOFS. Stores of cores: values as bytes and as fields of a word, the keystream of a Tray slice, what a store does once
its address is resolved (R141, R147), and the statement TrayStores assembled from them. -/

namespace Sys2Proof.Machine
open Sys2Proof

-- Values and bytes (R6) -----------------------------------------------------------------------------------------------------------

theorem leVal_leBytes (n v : Nat) : leVal (leBytes n v) = v % 2 ^ (8 * n) := by
  induction n generalizing v with
  | zero => simp [leBytes, leVal, Nat.mod_one]
  | succ n ih =>
    have h : 2 ^ (8 * (n + 1)) = 256 * 2 ^ (8 * n) := by rw [Nat.mul_add, Nat.pow_add, Nat.mul_comm]
    rw [leBytes, leVal, ih, h, Nat.mod_mul]
    rfl

theorem leVal_lt (bs : List Byte) : leVal bs < 2 ^ (8 * bs.length) := by
  induction bs with
  | nil => simp [leVal]
  | cons b bs ih =>
    have h : 2 ^ (8 * (bs.length + 1)) = 256 * 2 ^ (8 * bs.length) := by rw [Nat.mul_add, Nat.pow_add, Nat.mul_comm]
    rw [leVal, List.length_cons, h]
    have := b.isLt
    omega

-- The Tray (R76, R77) ----------------------------------------------------------------------------------------------------------------

section
variable (s : State) (c a : Nat)

theorem trayFog_lt : trayFog s c a < 256 := Nat.mod_lt _ (by decide)

/-- Writing Tray bytes writes the Tray only. -/
theorem putTrayBytes_field {α : Type} (g : State → α) (hg : ∀ x t, g { x with tray := t } = g x) (bs : List Byte) :
    g (putTrayBytes s c a bs) = g s := by
  induction bs generalizing s a with
  | nil => rfl
  | cons b bs ih => exact (ih (putTrayByte s c a b.toNat) (a + 1)).trans (hg s _)

theorem trayFog_putTrayBytes (bs : List Byte) (x : Nat) : trayFog (putTrayBytes s c a bs) c x = trayFog s c x :=
  putTrayBytes_field s c a (trayFog · c x) (fun _ _ => rfl) bs

theorem mget_putTrayBytes_out (bs : List Byte) {x : Nat} (h : x < trayKey c a ∨ trayKey c a + bs.length ≤ x) :
    mget (putTrayBytes s c a bs).tray x = mget s.tray x := by
  induction bs generalizing s a with
  | nil => rfl
  | cons b bs ih =>
    simp only [List.length_cons, trayKey] at h
    rw [putTrayBytes, ih _ _ (by simp only [trayKey]; omega)]
    exact mget_mset_ne s.tray _ (by simp only [trayKey]; omega)

theorem memWf_putTrayBytes (bs : List Byte) (h : memWf s.tray = true) : memWf (putTrayBytes s c a bs).tray = true := by
  induction bs generalizing s a with
  | nil => exact h
  | cons b bs ih => exact ih _ (a + 1) (memWf_mset _ _ _ h)

/-- Fogging a byte twice with one keystream gives the byte. -/
theorem unfog_byte (b : Byte) {f : Nat} (hf : f < 256) :
    BitVec.ofNat 8 (Nat.xor (BitVec.ofNat 8 (Nat.xor (b.toNat % 256) f)).toNat f) = b := by
  have hx : Nat.xor b.toNat f < 2 ^ 8 := Nat.xor_lt_two_pow b.isLt hf
  rw [Nat.mod_eq_of_lt b.isLt, BitVec.toNat_ofNat, Nat.mod_eq_of_lt hx,
    show Nat.xor (Nat.xor b.toNat f) f = b.toNat from Nat.xor_xor_cancel_right .., BitVec.ofNat_toNat]
  rfl

/-- Tray bytes read back as written, through the keystream (R77). -/
theorem trayBytes_putTrayBytes (bs : List Byte) (h : memWf s.tray = true) :
    trayBytes (putTrayBytes s c a bs) c a bs.length = bs := by
  induction bs generalizing s a with
  | nil => rfl
  | cons b bs ih =>
    have hm := memWf_mset s.tray (trayKey c a) (BitVec.ofNat 8 (Nat.xor (b.toNat % 256) (trayFog s c a))) h
    rw [putTrayBytes, List.length_cons, trayBytes, ih _ _ hm, trayByte, trayFog_putTrayBytes,
      mget_putTrayBytes_out _ _ _ _ (Or.inl (Nat.lt_succ_self _))]
    exact congrArg (· :: bs) ((congrArg (fun x : Byte => BitVec.ofNat 8 (Nat.xor x.toNat (trayFog s c a)))
      (mget_mset_self _ _ _ h)).trans (unfog_byte b (trayFog_lt s c a)))

end

theorem tenantKey_congr {s t : State} (h : t.ks = s.ks) (o : Nat) : tenantKey t o = tenantKey s o := by
  unfold tenantKey cntIn cntOf keyAt
  rw [h]

/-- The keystream of a core's Tray hangs on the keys, the slice epochs and the tenants of its contexts (R77). -/
theorem trayFog_congr {s t : State} {c : Nat} (hl : t.lc = s.lc) (hk : t.ks = s.ks) (hn : t.now = s.now)
    (hc : ∀ q < 8, (t.ctx c q).tenant = (s.ctx c q).tenant) (a : Nat) : trayFog t c a = trayFog s c a := by
  have hs : sliceSeed t c (a / 16384 % 8) = sliceSeed s c (a / 16384 % 8) := by
    simp only [sliceSeed, hk, hc _ (Nat.mod_lt _ (by decide)), tenantKey_congr hk]
  unfold trayFog keyless
  rw [hl, hn, hs]

theorem trayBytes_congr {s t : State} {c : Nat} (ht : t.tray = s.tray) (hf : ∀ a, trayFog t c a = trayFog s c a)
    (a n : Nat) : trayBytes t c a n = trayBytes s c a n := by
  induction n generalizing a with
  | zero => rfl
  | succ n ih => rw [trayBytes, trayBytes, ih, trayByte, trayByte, ht, hf]

theorem trayFresh_eq (s : State) (c a n : Nat) : trayFresh s c a n = { s with
    trayEcc := if a % 8 = 0 ∧ n % 8 = 0 then tclear s.trayEcc (trayKey c a / 8) (n / 8) else s.trayEcc } := by
  unfold trayFresh
  by_cases h : a % 8 = 0 ∧ n % 8 = 0 <;> simp [h]

theorem tfind_tclear {α : Type} (t : Tab α) (lo n x : Nat) :
    tfind (tclear t lo n) x = if lo ≤ x ∧ x < lo + n then none else tfind t x := by
  induction t with
  | nil => simp [tclear, tfind]
  | cons e t ih =>
    obtain ⟨k, v⟩ := e
    rw [tclear, List.filter_cons]
    rw [tclear] at ih
    by_cases hk : k = x
    · subst hk
      split
      · next h => simp [tfind, show ¬(lo ≤ k ∧ k < lo + n) by simp at h; omega]
      · next h => rw [ih, if_pos (by simp at h; omega), if_pos (by simp at h; omega)]
    · split <;> simp [tfind, ih, hk]

theorem tget_tclear {α : Type} (d : α) (t : Tab α) (lo n x : Nat) :
    tget d (tclear t lo n) x = if lo ≤ x ∧ x < lo + n then d else tget d t x := by
  rw [tget_eq, tfind_tclear, tget_eq]
  split <;> rfl

-- Stores at the core (R141, R147, R150) ---------------------------------------------------------------------------------------------

section
variable {s t : State} {c : Nat} {k : Option Nat}

/-- Writing an issuer's registers moves no context to another tenant. -/
theorem OwnSet.tenant (h : OwnSet s t c k) (q : Nat) : (t.ctx c q).tenant = (s.ctx c q).tenant := by
  by_cases hq : k = some q
  · subst hq
    exact h.ctx_field (·.tenant) fun _ _ _ => rfl
  · unfold State.ctx
    rw [h.ctxs _ fun e => hq ?_]
    obtain ⟨x, rfl, hx⟩ := Option.map_eq_some_iff.mp e
    exact congrArg some (by omega)

/-- An instruction that leaves its issuer's register set as it acts in it passes on to the next. -/
theorem passes_concluded {u : State} (h : u.thr c k = (begun s c k 4).thr c k) (n : Nat) :
    Passes s (settle (u.modCore c fun y => { y with cyc := issueCyc s c + n })) c k n where
  regs m := by rw [gpr, thr_concluded, h, ← gpr, begun_gpr]
  flags := by rw [nzcv, thr_concluded, h, ← nzcv, begun_nzcv]
  next := by
    simp only [Advanced, thr_concluded, h, begun_thr, and_self]
  took := took_concluded s u c n

/-- The value that a store of n bytes writes (R147). -/
def storeVal (s : State) (c : Nat) (k : Option Nat) (rd n : Nat) : Nat :=
  (gpr s c k rd).toNat + if n = 8 then (gpr s c k (rd + 1)).toNat * 2 ^ 32 else 0

/-- A store of a ready core whose address resolves does what `storeAct` says there. -/
theorem store_ok (h : Ready s c k 4) {rd ra n : Nat} {imm : BitVec 16} (hodd : n = 8 → rd % 2 = 0) {d : DSpace}
    (hd : dataSpace (begun s c k 4) c k (dataAddr s c k ra imm) n = .ok d) {x : State} {m : Nat}
    (hx : storeAct (begun s c k 4) c k (pcOf s c k) (dataAddr s c k ra imm) n (storeVal s c k rd n % 2 ^ (8 * n)) d = .ok x m) :
    store s c rd ra imm n = x.modCore c fun y => { y with cyc := issueCyc s c + m } := by
  have hg (j : Nat) : ((begun s c k 4).thr c k).r.get j = gpr s c k j := begun_gpr s c k 4 j
  have hill : (n == 8 && rd % 2 == 1) = false := by
    by_cases h8 : n = 8
    · simp [h8, hodd h8]
    · simp [h8]
  unfold store
  rw [issueI_ready _ h (fun e => by simp at e) hill (fun e => by simp at e) (fun e => by simp at e)]
  simp only [dataAddr, storeVal] at hd hx
  simp only [hg, hd, hx]
  rfl

theorem dataSpace_tray (s : State) (c : Nat) {a n b : Nat} (h : InTray k a n b) : dataSpace s c k a n = .ok (.tray b) := by
  obtain ⟨ha, hk⟩ := h
  have hlt : a < 0x20000 := by
    cases k with
    | none => exact hk.1
    | some q =>
      have := hk.1
      omega
  have hno : ¬0x80000000 ≤ a := by omega
  have hpl : ¬0x01000000 ≤ a := by omega
  cases k <;> simp [dataSpace, ha, hno, hpl, hk.1, hk.2]

/-- The state after a Tray store: the bytes, the errors, and the section's signature (R219). -/
def trayStored (s : State) (c : Nat) (k : Option Nat) (b n v : Nat) : State :=
  sign (trayFresh (putTrayBytes (begun s c k 4) c b (leBytes n v)) c b n) c k sgTray b v

theorem store_tray (h : Ready s c k 4) {rd ra n b : Nat} {imm : BitVec 16} (hodd : n = 8 → rd % 2 = 0)
    (ha : InTray k (dataAddr s c k ra imm) n b) :
    store s c rd ra imm n =
      (trayStored s c k b n (storeVal s c k rd n % 2 ^ (8 * n))).modCore c fun y => { y with cyc := issueCyc s c + 1 } :=
  store_ok h hodd (dataSpace_tray _ c ha) rfl

theorem thr_trayStored (b n v : Nat) : (trayStored s c k b n v).thr c k = (begun s c k 4).thr c k := by
  have e := putTrayBytes_field (begun s c k 4) c b (·.thr c k) (fun _ _ => by cases k <;> rfl) (leBytes n v)
  rw [trayStored, thr_sign, trayFresh_eq, ← e]
  cases k <;> rfl

/-- Beside the Tray and its errors, a Tray store writes nothing but its issuer's own records. -/
theorem trayStored_field {α : Type} (g : State → α) (hg : ∀ x a b t e, g { x with cores := a, ctxs := b, tray := t, trayEcc := e } = g x)
    (b n v : Nat) : g (trayStored s c k b n v) = g s := by
  have e := putTrayBytes_field (begun s c k 4) c b g (fun x t => hg x x.cores x.ctxs t x.trayEcc) (leBytes n v)
  rw [trayStored, (ownSet_sign _ c k _ _ _).dev_field g (fun x a b => hg x a b x.tray x.trayEcc), trayFresh_eq]
  exact (hg (putTrayBytes (begun s c k 4) c b (leBytes n v)) _ _ _ _).trans
    (e.trans ((ownSet_begun s c k 4).dev_field g fun x a b => hg x a b x.tray x.trayEcc))

theorem tray_trayStored (b n v : Nat) :
    (trayStored s c k b n v).tray = (putTrayBytes (begun s c k 4) c b (leBytes n v)).tray := by
  rw [trayStored, (ownSet_sign _ c k _ _ _).dev_field (·.tray) (fun _ _ _ => rfl), trayFresh_eq]

theorem trayEcc_trayStored (b n v : Nat) : (trayStored s c k b n v).trayEcc =
    if b % 8 = 0 ∧ n % 8 = 0 then tclear s.trayEcc (trayKey c b / 8) (n / 8) else s.trayEcc := by
  rw [trayStored, (ownSet_sign _ c k _ _ _).dev_field (·.trayEcc) (fun _ _ _ => rfl), trayFresh_eq]
  dsimp only
  rw [putTrayBytes_field (begun s c k 4) c b (·.trayEcc) (fun _ _ => rfl),
    (ownSet_begun s c k 4).dev_field (·.trayEcc) (fun _ _ _ => rfl)]

theorem OwnSet.trayFog {t : State} (h : OwnSet s t c k) (a : Nat) : trayFog t c a = trayFog s c a :=
  trayFog_congr (h.dev_field (·.lc) fun _ _ _ => rfl) (h.dev_field (·.ks) fun _ _ _ => rfl)
    (h.dev_field (·.now) fun _ _ _ => rfl) (fun q _ => h.tenant q) a

theorem trayFog_trayStored (b n v a : Nat) : trayFog (trayStored s c k b n v) c a = trayFog (begun s c k 4) c a := by
  rw [trayStored, (ownSet_sign _ c k _ _ _).trayFog, trayFresh_eq]
  exact trayFog_putTrayBytes (begun s c k 4) c b (leBytes n v) a

/-- The bytes of a Tray store read back, also behind the end of its instruction. -/
theorem trayBytes_trayStored (hm : memWf s.tray = true) (b n v : Nat) (f : CoreSt → CoreSt) :
    trayBytes (settle ((trayStored s c k b n v).modCore c f)) c b n = leBytes n v := by
  have hm' : memWf (begun s c k 4).tray = true := by
    rwa [(ownSet_begun s c k 4).dev_field (·.tray) fun _ _ _ => rfl]
  have hback := trayBytes_putTrayBytes (begun s c k 4) c b (leBytes n v) hm'
  rw [length_leBytes] at hback
  rw [← hback]
  exact trayBytes_congr (t := settle ((trayStored s c k b n v).modCore c f)) (tray_trayStored b n v)
    (fun a => (trayFog_trayStored b n v a).trans (trayFog_putTrayBytes ..).symm) b n

/-- What a Tray store leaves (R76, R77, R141): its bytes, every other byte, the errors, and the rest of the device. -/
theorem runs_trayStore {i : Instr} {c : Core} {rd ra n b v : Nat} {imm : BitVec 16}
    (he : exec i s = runs s c i (store s c rd ra imm n)) (h : Ready s c k 4) (hodd : n = 8 → rd % 2 = 0)
    (hm : memWf s.tray = true) (hn : n ∈ [1, 2, 4, 8]) (hv : storeVal s c k rd n = v)
    (ha : InTray k (dataAddr s c k ra imm) n b) :
    Runs s c i (fun t => leVal (trayBytes t c b n) = v % 2 ^ (8 * n) ∧
      (∀ x, x < trayKey c b ∨ trayKey c b + n ≤ x → mget t.tray x = mget s.tray x) ∧ memWf t.tray = true ∧
      (∀ x, tget 0 t.trayEcc x = if n = 8 ∧ x = trayKey c b / 8 then 0 else tget 0 s.trayEcc x) ∧
      Passes s t c k 1 ∧
      { t with cores := s.cores, ctxs := s.ctxs, pm := s.pm, tray := s.tray, trayEcc := s.trayEcc } = s) := by
  have htray : (begun s c k 4).tray = s.tray := (ownSet_begun s c k 4).dev_field (·.tray) (fun _ _ _ => rfl)
  have hm' : memWf (begun s c k 4).tray = true := htray ▸ hm
  refine runs_of_exec he ?_
  rw [store_tray h hodd ha, hv]
  refine ⟨?_, fun x hx => ?_, ?_, fun x => ?_, passes_concluded (thr_trayStored b n _) 1, ?_⟩
  · rw [trayBytes_trayStored hm, leVal_leBytes, Nat.mod_mod]
  · refine (congrArg (mget · x) (tray_trayStored b n _)).trans ?_
    rw [mget_putTrayBytes_out _ _ _ _ (by rwa [length_leBytes]), htray]
  · exact (congrArg memWf (tray_trayStored b n _)).trans (memWf_putTrayBytes _ _ _ _ hm')
  · refine (congrArg (tget 0 · x) (trayEcc_trayStored b n _)).trans ?_
    have hb : n = 8 → b % 8 = 0 := by
      rintro rfl
      obtain ⟨hal, hk⟩ := ha
      cases k with
      | none => rw [hk.2]; exact hal
      | some q => have := hk.2; omega
    by_cases h8 : n = 8
    · simp only [h8, hb h8, Nat.mod_self, and_self, if_true, tget_tclear, true_and, Nat.div_self (Nat.succ_pos 7)]
      by_cases hx : x = trayKey c b / 8
      · rw [if_pos hx, if_pos (by omega)]
      · rw [if_neg hx, if_neg (by omega)]
    · have : n % 8 ≠ 0 := by
        simp only [List.mem_cons, List.not_mem_nil, or_false] at hn
        omega
      simp [h8, this]
  · exact trayStored_field (s := s) (k := k)
      (fun x => { x with cores := s.cores, ctxs := s.ctxs, pm := s.pm, tray := s.tray, trayEcc := s.trayEcc })
      (fun _ _ _ _ _ => rfl) b n (v % 2 ^ (8 * n))

end

/-- Settles O6: each store writes the Tray as `runs_trayStore` says of its size. -/
theorem trayStores : Obligations.TrayStores := by
  unfold Obligations.TrayStores
  intro s c k rd ra imm b h hm hl
  have h1 (n : Nat) (hn : n ≠ 8) : storeVal s c k rd n = (gpr s c k rd).toNat := by simp [storeVal, hn]
  refine ⟨fun ha => ?_, fun ha => ?_, fun ha => ?_, fun hrd ha => ?_⟩
  · exact runs_trayStore rfl h (fun e => by simp at e) hm (by simp) (h1 1 (by simp)) ha
  · exact runs_trayStore rfl h (fun e => by simp at e) hm (by simp) (h1 2 (by simp)) ha
  · exact runs_trayStore rfl h (fun e => by simp at e) hm (by simp) (h1 4 (by simp)) ha
  · exact runs_trayStore rfl h (fun _ => hrd) hm (by simp) (by simp [storeVal, Nat.mul_comm]) ha

end Sys2Proof.Machine
end

section
/-! PROOFS. A Plate store beside a table that holds its core twice: the refutation of ReadAfterWrite. -/

namespace Sys2Proof.Machine
open Sys2Proof

/-- A load of a Plate byte whose sampling cycle is far ahead. -/
def farLoad : LongOp := ⟨.plate, [], 1000000, 0, none, none, some ⟨0, 0, 1, false, 0, 1000000, scalarFault cPOISON 0 0 0⟩⟩

/-- A core out of reset, in supervisor mode at the start of its instruction RAM. -/
def atStart (t : Thr) : CoreSt := { CoreSt.init with held := false, thr := t }

/-- The supervisor of core 0 is about to store a byte at the start of its Plate space, whose first page is mapped to sheet 0. The
table of cores holds core 0 a second time, with that load pending and no register set. -/
def storerTwice : State :=
  { State.reset.setEff rSHM_MAP 256 0 0x80000000 with
    bist := { BistSt.init with running := false }
    imem := mwrite [] 0 (leBytes 4 0x60430000)
    cores := [(0, atStart { Thr.init with r := { RSet.init with pc := 0x10000 }.put 3 0x01000000 }),
      (0, atStart { Thr.init with pend := [farLoad] })] }

theorem ready_storerTwice : Ready storerTwice 0 none 4 where
  who   := by decide +kernel
  ctx8  := by simp
  up    := by decide +kernel
  jobs  := by decide +kernel
  vq    := by decide +kernel
  br    := by decide +kernel
  calm  := ⟨rfl, rfl, rfl, rfl⟩
  sup   := ⟨rfl, rfl, rfl, rfl⟩
  own   := fun q hq => absurd (show (none : Option Nat) = some q from hq) (by simp)
  win   := by decide +kernel
  brk   := by decide +kernel
  go    := by decide +kernel
  log   := by decide +kernel
  first := by decide +kernel
  last  := by decide +kernel
  word  := by decide +kernel

/-- The second entry's registers take the place of those of the first. -/
theorem gpr_storerTwice : gpr storerTwice 0 none 3 = 0x01000000 ∧ gpr (store storerTwice 0 2 3 0 1) 0 none 3 = 0 := by
  decide +kernel

/-- Refutes O20: the statement does not say that the table of cores is in order. Where it holds the storing core twice, and the
second entry has a Plate load pending, the loads that are due before the store write the second entry's registers over those
of the first, and the store does not leave the registers as they were. -/
theorem not_readAfterWrite : ¬ Obligations.ReadAfterWrite := by
  rintro ⟨-, -, hl⟩
  obtain ⟨hb, -⟩ := hl storerTwice 0 none 2 3 0 0 ready_storerTwice (by decide +kernel) (by decide +kernel) (by decide +kernel)
  have hp := hb.1 0 ⟨by decide +kernel, by decide, by decide +kernel⟩ rfl rfl (by decide +kernel)
  obtain ⟨t, ht, -, -, -, -, hpass, -⟩ := hp (by decide +kernel)
  obtain ⟨h0, h1⟩ := gpr_storerTwice
  have hf : fetched storerTwice 0 (.stb 0 2 3 0) = true := by decide +kernel
  have he : exec (.stb 0 2 3 0) storerTwice = done (store storerTwice 0 2 3 0 1) := congrArg done (if_pos hf)
  rw [he] at ht
  cases ht
  exact absurd (h1.symm.trans ((hpass.regs 3).trans h0)) (by decide)

end Sys2Proof.Machine
end

section
/-! PROOFS. Handovers of sheets (R65–R67): the flags of a unit with one status register, what a write of SHM_OWNER starts or is
refused for, what a handover leaves, and the statement SheetOwnership assembled from them. -/

namespace Sys2Proof.Machine
open Sys2Proof

-- Flags of a unit's only status register (R195, R204) --------------------------------------------------------------------------------

/-- A register key that no notice and no message writes. -/
abbrev offSide (n : Nat) : Prop := n < 0x700004 ∨ 0x700010 < n ∧ n < 0x941000 ∨ 0x941020 ≤ n

/-- A flag is one bit of a register without elements, and `c` counts it beside. -/
structure LoneFlag (k : Flag) (c : Field) : Prop where
  cnt   : k.cnt = some c
  bit   : k.f.hi = k.f.lo
  word  : k.f.lo < 32
  apart : k.f.reg.key 0 0 ≠ c.reg.key 0 0
  side  : offSide (k.f.reg.key 0 0)

section
variable {k : Flag} {c : Field} (h : LoneFlag k c) (s : State)
include h

theorem LoneFlag.flagged : Flagged (raise s k) k :=
  flagged_raise s k 0 0 h.bit h.word (fun d hd => by rw [h.cnt] at hd; exact Option.some.inj hd ▸ h.apart)
    (not_sideKey h.side)

theorem LoneFlag.regs {n : Nat} (hk : n ≠ k.f.reg.key 0 0) (hc : n ≠ c.reg.key 0 0) (hs : offSide n) :
    tfind (raise s k).regs n = tfind s.regs n :=
  regs_raise s k 0 0 n hk (fun d hd => by rw [h.cnt] at hd; exact Option.some.inj hd ▸ hc) (not_sideKey hs)

theorem LoneFlag.reg {r : Reg} {i j : Nat} (hk : r.key i j ≠ k.f.reg.key 0 0) (hc : r.key i j ≠ c.reg.key 0 0)
    (hs : offSide (r.key i j)) : (raise s k).reg r i j = s.reg r i j := by
  unfold State.reg
  rw [h.regs s hk hc hs]

end

theorem OnlySignals.field {α : Type} {s t : State} (h : OnlySignals s t) (g : State → α)
    (hg : ∀ x a b c d e f v l, g { x with regs := a, setAt := b, cores := c, hi := d, host := e, evq := f, vault := v, sl := l } = g x) :
    g t = g s := by
  have e := congrArg g h
  rwa [hg] at e

-- A write of SHM_OWNER (R65, R66) ---------------------------------------------------------------------------------------------------------

theorem key_shmOwner (i : Nat) : rSHM_OWNER.key i 0 = 0x102000 + 8 * i := by simp [Reg.key, rSHM_OWNER, Nat.mul_comm]
theorem key_shmEpoch (i : Nat) : rSHM_EPOCH.key i 0 = 0x102004 + 8 * i := by simp [Reg.key, rSHM_EPOCH, Nat.mul_comm]

theorem loneFlag_refused : LoneFlag kSHM_STAT_REFUSED fSHM_SETCNT_REFUSED_N :=
  ⟨rfl, rfl, by decide, by decide, Or.inl (by decide)⟩
theorem loneFlag_done : LoneFlag kSHM_STAT_DONE fSHM_SETCNT_DONE_N :=
  ⟨rfl, rfl, by decide, by decide, Or.inl (by decide)⟩

theorem fb_eq_true (s : State) (f : Field) (i j : Nat) : s.fb f i j = true ↔ s.f f i j ≠ 0 := by simp [State.fb]

section
variable {s : State} {sheet : Fin 384} {v : Word}

/-- A refused write of SHM_OWNER leaves its reason and sheet on record, and the owner. -/
theorem shmOwner_refused {r : Nat} (h : ownerReason s sheet (v.toNat % 512) = r) (h0 : r ≠ 0) (h16 : r < 16) :
    Completes (exec (.shmOwner sheet v) s) (fun t =>
      t.f fSHM_LASTREF_REASON = r ∧ t.f fSHM_LASTREF_SHEET = sheet.val ∧ Flagged t kSHM_STAT_REFUSED ∧ t.eff = s.eff ∧
      t.reg rSHM_OWNER sheet 0 = s.reg rSHM_OWNER sheet 0) := by
  have hlt := sheet.isLt
  refine completes_done ?_
  rw [shmOwner, h, if_pos (by simpa using h0)]
  have hreg {q : Reg} {i : Nat} (hk : q.key i 0 < 0x103000 ∨ q.key i 0 = rSHM_LASTREF.key 0 0) (x : State) :
      (settle (raise x kSHM_STAT_REFUSED)).reg q i 0 = x.reg q i 0 := by
    refine loneFlag_refused.reg x (r := q) ?_ ?_ (Or.inl ?_)
    all_goals
      simp only [Reg.key, kSHM_STAT_REFUSED, fSHM_STAT_REFUSED, rSHM_STAT, fSHM_SETCNT_REFUSED_N, rSHM_SETCNT, rSHM_LASTREF] at hk ⊢
      omega
  refine ⟨?_, ?_, loneFlag_refused.flagged _, (onlySignals_raise _ _ 0 0).field (·.eff) (fun _ _ _ _ _ _ _ _ _ => rfl), ?_⟩
  · refine (congrArg (fun w : Word => bits w.toNat 16 4) (hreg (q := rSHM_LASTREF) (i := 0) (Or.inr rfl) _)).trans ?_
    refine (f_setF_field _ fSHM_LASTREF_SHEET fSHM_LASTREF_REASON _ 0 0 (by decide) (by decide) rfl (by decide) (by decide)).trans ?_
    exact (f_setF_self _ _ _ 0 0 (by decide)).trans (Nat.mod_eq_of_lt h16)
  · refine (congrArg (fun w : Word => bits w.toNat 0 9) (hreg (q := rSHM_LASTREF) (i := 0) (Or.inr rfl) _)).trans ?_
    exact (f_setF_self _ fSHM_LASTREF_SHEET _ 0 0 (by decide)).trans (Nat.mod_eq_of_lt (Nat.lt_trans hlt (by decide)))
  · have hk : rSHM_OWNER.key sheet 0 < 0x103000 := by rw [key_shmOwner]; omega
    have hne : rSHM_OWNER.key sheet 0 ≠ rSHM_LASTREF.key 0 0 := by
      rw [key_shmOwner, show rSHM_LASTREF.key 0 0 = 0x103008 from rfl]
      omega
    rw [hreg (Or.inl hk), reg_setF_ne _ _ _ _ 0 0 _ _ hne, reg_setF_ne _ _ _ _ 0 0 _ _ hne]

/-- A write that starts a handover: the state shows it, and the new owner waits in the value in effect. -/
theorem shmOwner_started (h : ownerReason s sheet (v.toNat % 512) = 0) :
    Completes (exec (.shmOwner sheet v) s) (fun t =>
      t.fb fSHM_OWNER_STATE sheet = true ∧ t.f fSHM_OWNER_OWNER sheet = s.f fSHM_OWNER_OWNER sheet ∧
      t.e fSHM_OWNER_OWNER sheet = v.toNat % 512 ∧
      (∀ n, n ≠ rSHM_OWNER.key sheet 0 → tfind t.regs n = tfind s.regs n) ∧ t.plate = s.plate) := by
  refine completes_done ?_
  rw [shmOwner, h, if_neg (by simp)]
  refine ⟨?_, ?_, ?_, fun n hn => regs_setF s _ _ _ _ n hn, rfl⟩
  · rw [fb_eq_true]
    show (s.setF fSHM_OWNER_STATE 1 sheet).f fSHM_OWNER_STATE sheet ≠ 0
    rw [f_setF_self _ _ _ _ _ (by decide)]
    decide
  · exact f_setF_field s fSHM_OWNER_STATE fSHM_OWNER_OWNER 1 sheet 0 (by decide) (by decide) rfl (by decide) (by decide)
  · show bits (State.effReg _ rSHM_OWNER sheet 0).toNat 0 9 = _
    rw [State.effReg]
    simp only [settle, State.setEff, tfind_tput_self, Option.getD_some, w32, BitVec.toNat_ofNat, bits]
    omega

theorem ownerReason_busy (h : s.fb fSHM_OWNER_STATE sheet = true) (o : Nat) : ownerReason s sheet o = 2 := by
  rw [fb_eq_true] at h
  simp [ownerReason, h]

/-- Why a sheet that is in no handover refuses an owner (R65, R78). -/
theorem ownerReason_free (h : ¬s.fb fSHM_OWNER_STATE sheet = true) (o : Nat) : ownerReason s sheet o =
    if 0x100 < o ∧ o < 0x1FF then 3 else if (s.reg rSHM_EPOCH sheet 0).toNat = 2 ^ 32 - 1 then 4
    else if sheetMapped s sheet = true then 1 else 0 := by
  rw [fb_eq_true, not_not] at h
  simp [ownerReason, h]

end

-- The end of a handover (R66, R67) --------------------------------------------------------------------------------------------------------

/-- The device when a handover that is under way completes, with the loads that were due before it sampled. -/
def atHandover (s : State) : State := sampleDue (s.advance (96 * s.cyc)) (s.advance (96 * s.cyc)).nowCyc

/-- The seeds that handovers have installed, once the sheet has its next epoch: the sheet's while an advance of its owner waits
(R363), else none. -/
def handedSeeds (u : State) (sheet : Nat) : Tab DWord :=
  let o := u.e fSHM_OWNER_OWNER sheet
  if u.ks.adv.contains o then
    tput u.ks.seed sheet (seedFrom u (keyAt u o (cntOf u o)) sheet ((u.reg rSHM_EPOCH sheet 0).toNat + 1))
  else tdel u.ks.seed sheet

/-- Owner, epoch and seed of a sheet change at one instant. -/
def handedOver (u : State) (sheet : Nat) : State :=
  { (u.setReg rSHM_OWNER sheet 0 (w32 (u.e fSHM_OWNER_OWNER sheet))).setReg rSHM_EPOCH sheet 0
      (w32 ((u.reg rSHM_EPOCH sheet 0).toNat + 1)) with
    ks := { u.ks with seed := handedSeeds u sheet } }

theorem handoverComplete_busy {s : State} {sheet : Nat} (h : s.fb fSHM_OWNER_STATE sheet = true) :
    handoverComplete s sheet = raise (handedOver (atHandover s) sheet) kSHM_STAT_DONE := by
  rw [fb_eq_true] at h
  rw [handoverComplete, if_neg h]
  rfl

theorem reg_handedOver_owner (u : State) (sheet : Nat) :
    (handedOver u sheet).reg rSHM_OWNER sheet 0 = w32 (u.e fSHM_OWNER_OWNER sheet) := by
  have hne : rSHM_OWNER.key sheet 0 ≠ rSHM_EPOCH.key sheet 0 := by
    rw [key_shmOwner, key_shmEpoch]
    omega
  exact (reg_setReg_ne _ _ rSHM_OWNER _ _ _ _ _ hne).trans (reg_setReg_self u _ _ _ _)

theorem reg_handedOver_epoch (u : State) (sheet : Nat) :
    (handedOver u sheet).reg rSHM_EPOCH sheet 0 = w32 ((u.reg rSHM_EPOCH sheet 0).toNat + 1) :=
  reg_setReg_self (u.setReg rSHM_OWNER sheet 0 _) _ _ _ _

theorem reg_raise_done (u : State) {r : Reg} {i : Nat} (h : r.key i 0 < 0x103000) :
    (raise u kSHM_STAT_DONE).reg r i 0 = u.reg r i 0 := by
  refine loneFlag_done.reg u ?_ ?_ (Or.inl (by omega))
  all_goals
    simp only [Reg.key, kSHM_STAT_DONE, fSHM_STAT_DONE, rSHM_STAT, fSHM_SETCNT_DONE_N, rSHM_SETCNT] at h ⊢
    omega

/-- The seed of a sheet, by the keys, its owner and its epoch. -/
theorem sheetSeed_congr {s t : State} {sheet : Nat} (hk : t.ks = s.ks)
    (ho : t.f fSHM_OWNER_OWNER sheet = s.f fSHM_OWNER_OWNER sheet) (he : t.reg rSHM_EPOCH sheet 0 = s.reg rSHM_EPOCH sheet 0) :
    sheetSeed t sheet = sheetSeed s sheet := by
  unfold sheetSeed seedFrom
  rw [hk, ho, he, tenantKey_congr hk]

theorem owner_lt (u : State) (sheet : Nat) : u.e fSHM_OWNER_OWNER sheet < 512 := bits_lt _ _ 9

theorem f_handedOver_owner (u : State) (sheet : Nat) :
    (handedOver u sheet).f fSHM_OWNER_OWNER sheet = u.e fSHM_OWNER_OWNER sheet := by
  have := owner_lt u sheet
  rw [State.f, show fSHM_OWNER_OWNER.reg = rSHM_OWNER from rfl, reg_handedOver_owner]
  simp only [w32, BitVec.toNat_ofNat, bits, fSHM_OWNER_OWNER, Field.w] at this ⊢
  omega

theorem f_handedOver_state (u : State) (sheet : Nat) : (handedOver u sheet).f fSHM_OWNER_STATE sheet = 0 := by
  have := owner_lt u sheet
  rw [State.f, show fSHM_OWNER_STATE.reg = rSHM_OWNER from rfl, reg_handedOver_owner]
  simp only [w32, BitVec.toNat_ofNat, bits, fSHM_OWNER_STATE, Field.w] at this ⊢
  omega

/-- A handover's seed is that of the new owner's key at its present count and of the next epoch (R67, R363). -/
theorem sheetSeed_handedOver {u : State} {sheet : Nat} (he : (u.reg rSHM_EPOCH sheet 0).toNat < 2 ^ 32 - 1)
    (hr : trising u.ks.seed = true) : sheetSeed (handedOver u sheet) sheet =
      seedFrom u (keyAt u (u.e fSHM_OWNER_OWNER sheet) (cntOf u (u.e fSHM_OWNER_OWNER sheet))) sheet
        ((u.reg rSHM_EPOCH sheet 0).toNat + 1) := by
  have hep : (w32 ((u.reg rSHM_EPOCH sheet 0).toNat + 1)).toNat = (u.reg rSHM_EPOCH sheet 0).toNat + 1 := by
    simp only [w32, BitVec.toNat_ofNat]
    omega
  rw [sheetSeed, f_handedOver_owner, reg_handedOver_epoch, hep]
  by_cases ha : u.ks.adv.contains (u.e fSHM_OWNER_OWNER sheet) = true
  · have hseed : (handedOver u sheet).ks.seed = handedSeeds u sheet := rfl
    rw [hseed, handedSeeds, if_pos ha, tfind_tput_self, Option.getD_some]
  · have hseed : (handedOver u sheet).ks.seed = tdel u.ks.seed sheet := if_neg ha
    have hcnt : cntIn (handedOver u sheet) (u.e fSHM_OWNER_OWNER sheet) = cntOf u (u.e fSHM_OWNER_OWNER sheet) := by
      rw [cntIn, show (handedOver u sheet).ks.adv = u.ks.adv from rfl, if_neg ha]
      rfl
    rw [hseed, tfind_tdel_self _ _ hr, Option.getD_none, tenantKey, hcnt]
    rfl

/-- Settles O45: the reasons of a refused write, the write that starts, and the handover that completes. -/
theorem sheetOwnership : Obligations.SheetOwnership := by
  unfold Obligations.SheetOwnership
  intro s sheet v
  have hlt := sheet.isLt
  have hv : v.toNat % 512 < 512 := Nat.mod_lt _ (by decide)
  refine ⟨fun hb => shmOwner_refused (ownerReason_busy hb _) (by decide) (by decide), fun hb h1 h2 => ?_, fun ho => ⟨?_, ?_, ?_⟩, ?_⟩
  · exact shmOwner_refused ((ownerReason_free hb _).trans (if_pos ⟨h1, h2⟩)) (by decide) (by decide)
  · intro hb he
    refine shmOwner_refused ((ownerReason_free hb _).trans ?_) (by decide) (by decide)
    rw [if_neg (by omega), if_pos he]
  · intro hb he hm
    refine shmOwner_refused ((ownerReason_free hb _).trans ?_) (by decide) (by decide)
    rw [if_neg (by omega), if_neg (by omega), if_pos hm]
  · intro hb he hm
    refine shmOwner_started ((ownerReason_free hb _).trans ?_)
    rw [if_neg (by omega), if_neg (by omega), if_neg (by simp [hm])]
  · dsimp only
    intro hb he hr
    have ho : rSHM_OWNER.key sheet 0 < 0x103000 := by rw [key_shmOwner]; omega
    have hp : rSHM_EPOCH.key sheet 0 < 0x103000 := by rw [key_shmEpoch]; omega
    refine completes_done ?_
    rw [handoverComplete_busy hb]
    have hsig := onlySignals_raise (handedOver (atHandover s) sheet) kSHM_STAT_DONE 0 0
    have howner : (settle (raise (handedOver (atHandover s) sheet) kSHM_STAT_DONE)).f fSHM_OWNER_OWNER sheet =
        (handedOver (atHandover s) sheet).f fSHM_OWNER_OWNER sheet :=
      congrArg (fun w : Word => bits w.toNat 0 9) (reg_raise_done _ (r := rSHM_OWNER) ho)
    have hepoch := reg_raise_done (handedOver (atHandover s) sheet) (r := rSHM_EPOCH) hp
    refine ⟨howner.trans (f_handedOver_owner _ _), ?_, hepoch.trans (reg_handedOver_epoch _ _), ?_, loneFlag_done.flagged _,
      hsig.field (·.plate) (fun _ _ _ _ _ _ _ _ _ => rfl), hsig.field (·.clk) (fun _ _ _ _ _ _ _ _ _ => rfl)⟩
    · have : (settle (raise (handedOver (atHandover s) sheet) kSHM_STAT_DONE)).f fSHM_OWNER_STATE sheet = 0 :=
        (congrArg (fun w : Word => bits w.toNat 16 2) (reg_raise_done _ (r := rSHM_OWNER) ho)).trans (f_handedOver_state _ _)
      simp [State.fb, this]
    · exact (sheetSeed_congr (hsig.field (·.ks) (fun _ _ _ _ _ _ _ _ _ => rfl)) howner hepoch).trans (sheetSeed_handedOver he hr)

end Sys2Proof.Machine
end

section
/-! PROOFS. What setting a flag leaves and counts (R195, R204), and what it leaves of the cores: the work that they do, which
tells the sheets that are held (R345). -/

namespace Sys2Proof.Machine
open Sys2Proof

-- The flag's own register and its counter (R204) --------------------------------------------------------------------------------------

/-- Beside the registers of `sideKey`, the interrupt of a flag leaves what the flag and its counter wrote. -/
theorem regs_raise_flagOn (s : State) (k : Flag) (i j : Nat) {n : Nat} (h : ¬sideKey n) :
    tfind (raise s k i j).regs n = tfind (flagOn s k i j).regs n := by
  unfold raise
  cases k.src with
  | dev d =>
    dsimp only
    split
    · rw [notice, regs_postRec _ _ _ h, regs_devSet _ _ _ h]
    · exact regs_devSet _ _ _ h
  | port => exact regs_devSet _ _ _ h
  | lane => exact regs_devSet _ _ _ h
  | core n => exact congrArg (tfind · _) (regs_countSet _ _ _)
  | none => exact regs_postRec _ _ _ h

section
variable {k : Flag} {c : Field} (h : LoneFlag k c) (s : State)
include h

theorem LoneFlag.flagOn_eq : flagOn s k = (noteSet ((noteSet s (setKey k.f.reg 0 0 k.f.lo) (s.f k.f)).setF k.f 1)
    (setKey c.reg 0 0 c.lo) (((noteSet s (setKey k.f.reg 0 0 k.f.lo) (s.f k.f)).setF k.f 1).f c)).bump c := by
  unfold flagOn
  rw [h.cnt]

theorem LoneFlag.reg_flagOn : (flagOn s k).reg k.f.reg 0 0 = k.f.ins (s.reg k.f.reg 0 0) 1 := by
  rw [h.flagOn_eq]
  exact (reg_bump_ne _ h.apart).trans (reg_setReg_self (noteSet s _ _) _ _ _ _)

/-- The other fields of the flag's register stand. -/
theorem LoneFlag.f_other {g : Field} (hr : g.reg = k.f.reg) (hd : g.hi < k.f.lo ∨ k.f.hi < g.lo) (hg : g.lo ≤ g.hi) :
    (raise s k).f g = s.f g := by
  have hkey : (raise s k).reg k.f.reg 0 0 = k.f.ins (s.reg k.f.reg 0 0) 1 := by
    rw [← h.reg_flagOn s, State.reg, State.reg, regs_raise_flagOn _ _ _ _ (not_sideKey h.side)]
  have hb := h.bit
  have hw := h.word
  rw [State.f, State.f, hr, hkey]
  exact bits_ins_other k.f _ 1 g.lo g.w (by omega) (by omega) (by simp only [Field.w]; omega)

theorem LoneFlag.keeps_flag {k' : Flag} (hr : k'.f.reg = k.f.reg) (hb : k'.f.hi = k'.f.lo) (hd : k'.f.lo ≠ k.f.lo)
    (hs : Flagged s k') : Flagged (raise s k) k' := by
  have hk := h.bit
  exact (h.f_other s hr (by omega) (by omega)).trans hs

/-- The flag's counter counts once more (R204). -/
theorem LoneFlag.counted (hw : c.lo + c.w ≤ 32) (hs : offSide (c.reg.key 0 0)) : Counted s (raise s k) c := by
  have hc : (flagOn s k).f c = min (s.f c + 1) (2 ^ c.w - 1) := by
    have hf : ((noteSet s (setKey k.f.reg 0 0 k.f.lo) (s.f k.f)).setF k.f 1).f c = s.f c :=
      f_setF_ne (noteSet s _ _) c k.f 1 0 0 0 0 (Ne.symm h.apart)
    rw [h.flagOn_eq, hf]
    refine (counted_bump (noteSet ((noteSet s _ _).setF k.f 1) _ _) c 0 0 hw).trans ?_
    exact congrArg (fun n => min (n + 1) (2 ^ c.w - 1)) hf
  refine Eq.trans ?_ hc
  simp only [State.f, State.reg, regs_raise_flagOn _ _ _ _ (not_sideKey hs)]

end

/-- A counter without a flag of its own counts, and a flag beside it leaves the count. -/
theorem LoneFlag.counted_bump {k : Flag} {c : Field} (h : LoneFlag k c) {s u : State} {f : Field} {i : Nat}
    (hu : u.regs = (s.bump f i).regs) (hw : f.lo + f.w ≤ 32) (hk : f.reg.key i 0 ≠ k.f.reg.key 0 0)
    (hc : f.reg.key i 0 ≠ c.reg.key 0 0) (hs : offSide (f.reg.key i 0)) : Counted s (raise u k) f i := by
  refine Eq.trans ?_ (Machine.counted_bump s f i 0 hw)
  simp only [State.f, State.reg, h.regs u hk hc hs, hu]

-- The work of the cores ------------------------------------------------------------------------------------------------------------------

/-- A memory entry is in the table. -/
theorem mem_of_tfind {α : Type} {t : Tab α} {k : Nat} {v : α} (h : tfind t k = some v) : (k, v) ∈ t := by
  induction t with
  | nil => cases h
  | cons e t ih =>
    obtain ⟨k', v'⟩ := e
    unfold tfind at h
    split at h
    · next hk => exact hk ▸ Option.some.inj h ▸ List.mem_cons_self
    · exact List.mem_cons_of_mem _ (ih h)

/-- What the table of cores says of the runs does not change with an entry that keeps its core's run. -/
theorem any_run_tput (P : Nat → Option Run → Bool) (hP : ∀ n, P n none = false) (t : Tab CoreSt) (c : Nat) (x : CoreSt)
    (hx : x.run = ((tfind t c).getD CoreSt.init).run) :
    ((tput t c x).any fun e => P e.1 e.2.run) = t.any fun e => P e.1 e.2.run := by
  induction t with
  | nil => simp [tput, hx, tfind, show CoreSt.init.run = none from rfl, hP]
  | cons e t ih =>
    obtain ⟨a, y⟩ := e
    unfold tput
    split
    · rw [List.any_cons]
      cases hf : tfind ((a, y) :: t) c with
      | none => simp [hx, hf, show CoreSt.init.run = none from rfl, hP]
      | some z =>
        have hz : x.run = z.run := by rw [hx, hf]; rfl
        cases hb : P c x.run with
        | false => rfl
        | true =>
          have hm : P (c, z).1 (c, z).2.run = true := hz ▸ hb
          rw [Bool.true_or, List.any_eq_true.mpr ⟨(c, z), mem_of_tfind hf, hm⟩]
    · split
      · next hc =>
        subst hc
        simp only [tfind, if_true, Option.getD_some] at hx
        rw [List.any_cons, List.any_cons, hx]
      · next hc =>
        rw [List.any_cons, List.any_cons, ih (by rw [hx, tfind, if_neg (Ne.symm hc)])]

/-- The cores do the same work in two states: only their interrupt controllers may differ. -/
structure SameWork (s t : State) : Prop where
  core : ∀ c, { t.core c with ic := (s.core c).ic } = s.core c
  runs : ∀ P : Nat → Option Run → Bool, (∀ n, P n none = false) →
    (t.cores.any fun e => P e.1 e.2.run) = s.cores.any fun e => P e.1 e.2.run

theorem SameWork.of_cores {s t : State} (h : t.cores = s.cores) : SameWork s t where
  core c := by rw [State.core, State.core, h]
  runs P _ := by rw [h]

theorem SameWork.trans {s t u : State} (h : SameWork s t) (g : SameWork t u) : SameWork s u where
  core c := by rw [← h.core c, ← g.core c]
  runs P hP := (g.runs P hP).trans (h.runs P hP)

theorem SameWork.ite {s a b : State} {p : Prop} [Decidable p] (ha : SameWork s a) (hb : SameWork s b) :
    SameWork s (if p then a else b) := by
  split <;> assumption

theorem SameWork.field {α : Type} {s t : State} (h : SameWork s t) (g : CoreSt → α) (hg : ∀ x y, g { x with ic := y } = g x)
    (c : Nat) : g (t.core c) = g (s.core c) := by rw [← hg (t.core c) (s.core c).ic, h.core]

theorem sameWork_setCore (s : State) (c : Nat) (x : CoreSt) (h : { x with ic := (s.core c).ic } = s.core c) :
    SameWork s (s.setCore c x) where
  core n := by
    by_cases hn : n = c
    · subst hn
      rw [core_setCore_self, h]
    · rw [core_setCore_ne s x hn]
  runs P hP := by
    have hr := congrArg CoreSt.run h
    exact any_run_tput P hP s.cores c x hr

theorem sameWork_releaseSrc (s : State) (c n : Nat) : SameWork s (releaseSrc s c n) := sameWork_setCore s c _ rfl

theorem sameWork_foldl {α : Type} (f : State → α → State) (hf : ∀ x a, SameWork x (f x a)) (xs : List α) (s : State) :
    SameWork s (xs.foldl f s) := by
  induction xs generalizing s with
  | nil => exact .of_cores rfl
  | cons a xs ih => exact (hf s a).trans (ih _)

theorem sameWork_countSet (s : State) (c n : Nat) : SameWork s (countSet s c n) := by
  have h : SameWork s (idleRelease s c) := by
    unfold idleRelease
    refine .ite (sameWork_foldl _ (fun x e => ?_) _ s) (.of_cores rfl)
    exact sameWork_setCore x c _ rfl
  unfold countSet
  dsimp only
  generalize idleRelease s c = x at h
  refine h.trans (.ite (.ite ?_ ?_) (.of_cores rfl))
  · refine .trans ?_ (sameWork_releaseSrc _ c n)
    exact sameWork_setCore x c _ rfl
  · exact sameWork_setCore x c _ rfl

theorem cores_vecSet (s : State) (v : Nat) : (vecSet s v).cores = s.cores := by
  unfold vecSet sendMsix postMsix
  dsimp only
  repeat' split
  all_goals rfl

theorem sameWork_devSet (s : State) (n : Nat) : SameWork s (devSet s n) := by
  have h := sameWork_countSet s (s.f fIC_ROUTE_CORE (n - 32)) n
  unfold devSet
  dsimp only
  generalize countSet s _ n = x at h
  exact h.trans (.ite (.of_cores (cores_vecSet _ _)) (.of_cores rfl))

theorem cores_flagOn (s : State) (k : Flag) (i j : Nat) : (flagOn s k i j).cores = s.cores := by
  unfold flagOn
  cases k.cnt <;> rfl

theorem cores_logRecord (s : State) (ws : List Word) : (logRecord s ws).cores = s.cores := by
  unfold logRecord
  split <;> rfl

theorem sameWork_postRec (s : State) (r : EvRec) : SameWork s (postRec s r) := by
  have hl : SameWork s (if r.set == 256 then logRecord s r.words else s) :=
    .ite (.of_cores (cores_logRecord _ _)) (.of_cores rfl)
  unfold postRec
  dsimp only
  generalize (if r.set == 256 then logRecord s r.words else s) = x at hl
  split
  · exact hl.trans (.of_cores rfl)
  · refine (hl.trans (.of_cores ?_)).trans (sameWork_devSet _ 37)
    exact cores_flagOn _ _ _ _

/-- Setting a flag leaves the work of the cores (R195). -/
theorem sameWork_raise (s : State) (k : Flag) (i j : Nat) : SameWork s (raise s k i j) := by
  have h : SameWork s (flagOn s k i j) := .of_cores (cores_flagOn _ _ _ _)
  unfold raise
  dsimp only
  generalize flagOn s k i j = x at h
  cases k.src with
  | dev n =>
    dsimp only
    split
    · exact h.trans ((sameWork_devSet x n).trans (sameWork_postRec _ _))
    · exact h.trans (sameWork_devSet x n)
  | port => exact h.trans (sameWork_devSet _ _)
  | lane => exact h.trans (sameWork_devSet _ _)
  | core n => exact h.trans (sameWork_countSet _ _ _)
  | none => exact h.trans (sameWork_postRec _ _)

theorem ownerRuns_congr {s t : State} (h : SameWork s t) (hc : t.ctxs = s.ctxs) (o : Nat) : ownerRuns t o = ownerRuns s o := by
  have e := h.runs (fun c r => match r with | some r => (s.ctx c r.ctx).tenant == o | none => false) (fun _ => rfl)
  unfold ownerRuns State.ctx
  rw [hc]
  exact e

end Sys2Proof.Machine
end

section
/-! PROOFS. Words of the Plate: what a write leaves in its word and in the others (R67, R68), what finding an error does (R72,
R74), and what the loads that sample before a write leave (R71, R142). -/

namespace Sys2Proof.Machine
open Sys2Proof

-- A value put into bytes of a word (R68) -------------------------------------------------------------------------------------------------

/-- A word with `n` bytes of `v` from byte `off` on. -/
def mergeAt (o off n v : Nat) : Nat := o - o / 2 ^ (8 * off) % 2 ^ (8 * n) * 2 ^ (8 * off) + v % 2 ^ (8 * n) * 2 ^ (8 * off)

theorem mergeAt_eq (o off n v : Nat) : mergeAt o off n v =
    (o / 2 ^ (8 * off) / 2 ^ (8 * n) * 2 ^ (8 * n) + v % 2 ^ (8 * n)) * 2 ^ (8 * off) + o % 2 ^ (8 * off) := by
  have hb : o = o / 2 ^ (8 * off) * 2 ^ (8 * off) + o % 2 ^ (8 * off) := (Nat.div_add_mod' o _).symm
  have hm : o / 2 ^ (8 * off) * 2 ^ (8 * off) = (o / 2 ^ (8 * off) / 2 ^ (8 * n) * 2 ^ (8 * n)) * 2 ^ (8 * off) +
      o / 2 ^ (8 * off) % 2 ^ (8 * n) * 2 ^ (8 * off) := by
    rw [← Nat.add_mul, Nat.div_add_mod']
  unfold mergeAt
  rw [Nat.add_mul]
  omega

theorem div_mergeAt (o off n v : Nat) : mergeAt o off n v / 2 ^ (8 * off) =
    o / 2 ^ (8 * off) / 2 ^ (8 * n) * 2 ^ (8 * n) + v % 2 ^ (8 * n) := by
  rw [mergeAt_eq, Nat.add_comm, Nat.add_mul_div_right _ _ (Nat.two_pow_pos _),
    Nat.div_eq_of_lt (Nat.mod_lt _ (Nat.two_pow_pos _)), Nat.zero_add]

theorem field_mergeAt (o off n v : Nat) : mergeAt o off n v / 2 ^ (8 * off) % 2 ^ (8 * n) = v % 2 ^ (8 * n) := by
  rw [div_mergeAt, Nat.add_comm, Nat.add_mul_mod_self_right, Nat.mod_mod]

theorem mergeAt_lt {o off n v : Nat} (ho : o < 2 ^ 64) (h : off + n ≤ 8) : mergeAt o off n v < 2 ^ 64 := by
  have hs : 2 ^ (64 - 8 * off - 8 * n) * 2 ^ (8 * n) * 2 ^ (8 * off) = 2 ^ 64 := by
    rw [← Nat.pow_add, ← Nat.pow_add]
    congr 1
    omega
  have hk : o / 2 ^ (8 * off) / 2 ^ (8 * n) < 2 ^ (64 - 8 * off - 8 * n) := by
    rw [Nat.div_div_eq_div_mul, Nat.div_lt_iff_lt_mul (by positivity), Nat.mul_comm (2 ^ (8 * off)), ← Nat.mul_assoc, hs]
    exact ho
  rw [← hs, ← Nat.div_lt_iff_lt_mul (Nat.two_pow_pos _), div_mergeAt]
  calc o / 2 ^ (8 * off) / 2 ^ (8 * n) * 2 ^ (8 * n) + v % 2 ^ (8 * n)
      < (o / 2 ^ (8 * off) / 2 ^ (8 * n) + 1) * 2 ^ (8 * n) := by
        rw [Nat.add_mul, Nat.one_mul]
        exact Nat.add_lt_add_left (Nat.mod_lt _ (Nat.two_pow_pos _)) _
    _ ≤ 2 ^ (64 - 8 * off - 8 * n) * 2 ^ (8 * n) := Nat.mul_le_mul_right _ hk

-- A word of the Plate (R67) -----------------------------------------------------------------------------------------------------------------

theorem keystream_lt (s : State) (wa : Nat) : keystream s wa < 2 ^ 64 := BitVec.isLt _

theorem plateWord_lt (s : State) (wa : Nat) : plateWord s wa < 2 ^ 64 := by
  refine Nat.xor_lt_two_pow ?_ (keystream_lt s wa)
  have h := leVal_lt (mread s.plate (8 * wa) 8)
  rwa [length_mread] at h

/-- A word reads back as stored, through the keystream. -/
theorem plateWord_putPlateWord (s : State) (wa : Nat) {v : Nat} (hm : memWf s.plate = true) (hv : v < 2 ^ 64) :
    plateWord (putPlateWord s wa v) wa = v := by
  have hx : Nat.xor v (keystream s wa) < 2 ^ 64 := Nat.xor_lt_two_pow hv (keystream_lt s wa)
  show Nat.xor (leVal (mread (mwrite s.plate (8 * wa) (leBytes 8 (Nat.xor v (keystream s wa)))) (8 * wa) 8)) (keystream s wa) = v
  rw [mread_leBytes _ _ _ _ hm, leVal_leBytes, Nat.mod_eq_of_lt hx]
  exact Nat.xor_xor_cancel_right ..

theorem mget_putPlateWord_out (s : State) (wa v : Nat) {x : Nat} (h : x < 8 * wa ∨ 8 * wa + 8 ≤ x) :
    mget (putPlateWord s wa v).plate x = mget s.plate x :=
  mget_mwrite_out _ _ _ _ (by rwa [length_leBytes])

theorem plateCheck_clean {s : State} {wa : Nat} (hp : s.poison.contains wa = false) (he : tget 0 s.plateEcc wa = 0)
    (m : Nat) : plateCheck s wa m = (true, s) := by simp only [plateCheck, hp, he, Bool.false_eq_true, if_false]

theorem plateReadPhys_clean {s : State} {wa : Nat} (hp : s.poison.contains wa = false) (he : tget 0 s.plateEcc wa = 0)
    (off n m : Nat) : plateReadPhys s wa off n m = (.ok (plateWord s wa / 2 ^ (8 * off) % 2 ^ (8 * n)), s) := by
  rw [plateReadPhys, plateCheck_clean hp he]
  rfl

/-- What a write of a whole word leaves of the errors: none in its word. -/
def freshWord (s : State) (wa : Nat) : State :=
  { s with poison := s.poison.filter (· != wa), plateEcc := tdel s.plateEcc wa }

theorem plateWritePhys_whole (s : State) (wa off v m : Nat) :
    plateWritePhys s wa off 8 v m = (.ok (), putPlateWord (freshWord s wa) wa (v % 2 ^ 64)) := rfl

theorem plateWritePhys_clean {s : State} {wa : Nat} (hp : s.poison.contains wa = false) (he : tget 0 s.plateEcc wa = 0)
    (off v m : Nat) {n : Nat} (hn : n ≠ 8) :
    plateWritePhys s wa off n v m = (.ok (), putPlateWord s wa (mergeAt (plateWord s wa) off n v)) := by
  rw [plateWritePhys, if_neg hn, plateCheck_clean hp he]
  rfl

theorem not_contains_filter (ps : List Nat) (wa : Nat) : (ps.filter (· != wa)).contains wa = false := by
  simp [List.contains_eq_mem]

-- Finding an error (R72, R74) ---------------------------------------------------------------------------------------------------------------

/-- A register of the Plate's own block. -/
abbrev ofPlate (n : Nat) : Prop := 0x100000 ≤ n ∧ n < 0x102000

theorem loneFlag_ce : LoneFlag kPLT_STAT_CE fPLT_SETCNT_CE_N := ⟨rfl, rfl, by decide, by decide, Or.inl (by decide)⟩
theorem loneFlag_ue : LoneFlag kPLT_STAT_UE fPLT_SETCNT_UE_N := ⟨rfl, rfl, by decide, by decide, Or.inl (by decide)⟩
theorem loneFlag_cethr : LoneFlag kPLT_STAT_CETHR fPLT_SETCNT_CETHR_N := ⟨rfl, rfl, by decide, by decide, Or.inl (by decide)⟩

/-- What finding errors, and sampling loads, leaves of the device: the Plate's bytes, the keys, every register outside the Plate's
block and the side registers, and a word without an error. -/
structure Sampled (s t : State) : Prop where
  plate  : t.plate = s.plate
  ks     : t.ks = s.ks
  regs   : ∀ n, ¬ofPlate n → offSide n → tfind t.regs n = tfind s.regs n
  rising : trising s.plateEcc = true → trising t.plateEcc = true
  clean  : ∀ wa, s.poison.contains wa = false → tget 0 s.plateEcc wa = 0 →
    t.poison.contains wa = false ∧ tget 0 t.plateEcc wa = 0

section
variable {s t u : State}

theorem Sampled.refl (s : State) : Sampled s s := ⟨rfl, rfl, fun _ _ _ => rfl, id, fun _ hp he => ⟨hp, he⟩⟩

theorem Sampled.trans (h : Sampled s t) (g : Sampled t u) : Sampled s u where
  plate := g.plate.trans h.plate
  ks := g.ks.trans h.ks
  regs n hn ho := (g.regs n hn ho).trans (h.regs n hn ho)
  rising hr := g.rising (h.rising hr)
  clean wa hp he := g.clean wa (h.clean wa hp he).1 (h.clean wa hp he).2

theorem Sampled.ite {p : Prop} [Decidable p] (ht : Sampled s t) (hu : Sampled s u) : Sampled s (if p then t else u) := by
  split <;> assumption

/-- A state that differs in neither the Plate, the keys nor the registers. -/
theorem Sampled.of_same (hp : t.plate = s.plate) (hk : t.ks = s.ks) (hr : t.regs = s.regs) (he : t.plateEcc = s.plateEcc)
    (ho : t.poison = s.poison) : Sampled s t where
  plate := hp
  ks := hk
  regs n _ _ := by rw [hr]
  rising h := he ▸ h
  clean wa h1 h2 := by rw [ho, he]; exact ⟨h1, h2⟩

theorem Sampled.setF (s : State) (f : Field) (v i : Nat) (h : ofPlate (f.reg.key i 0)) : Sampled s (s.setF f v i) where
  plate := rfl
  ks := rfl
  regs n hn _ := regs_setF s f v i 0 n fun e => hn (e ▸ h)
  rising := id
  clean _ hp he := ⟨hp, he⟩

theorem Sampled.raise {k : Flag} {c : Field} (hk : LoneFlag k c) (s : State) (h1 : ofPlate (k.f.reg.key 0 0))
    (h2 : ofPlate (c.reg.key 0 0)) : Sampled s (raise s k) := by
  have hs := onlySignals_raise s k 0 0
  have he : (Machine.raise s k).plateEcc = s.plateEcc := hs.field (·.plateEcc) fun _ _ _ _ _ _ _ _ _ => rfl
  have hp : (Machine.raise s k).poison = s.poison := hs.field (·.poison) fun _ _ _ _ _ _ _ _ _ => rfl
  exact {
    plate := hs.plate
    ks := hs.field (·.ks) fun _ _ _ _ _ _ _ _ _ => rfl
    regs := fun n hn ho => hk.regs s (fun e => hn (e ▸ h1)) (fun e => hn (e ▸ h2)) ho
    rising := fun h => he ▸ h
    clean := fun wa h3 h4 => by rw [hp, he]; exact ⟨h3, h4⟩ }

theorem ofPlate_ceCnt (wa : Nat) : ofPlate (fPLT_CE_CNT_CNT.reg.key (bankOf (wa % 32768)) 0) := by
  have := bankOf_lt (wa % 32768)
  simp only [ofPlate, Reg.key, fPLT_CE_CNT_CNT, rPLT_CE_CNT]
  omega

/-- The state in which a corrected error is flagged: its bank's count, and the word without its error. -/
def corrected (s : State) (wa : Nat) : State :=
  { s.bump fPLT_CE_CNT_CNT (bankOf (wa % 32768)) with
    plateEcc := if tget 0 s.plateEcc wa = 1 then tdel s.plateEcc wa else s.plateEcc }

theorem plateCe_eq (s : State) (wa : Nat) : ∃ b, plateCe s wa = raiseIf b (raise (corrected s wa) kPLT_STAT_CE) kPLT_STAT_CETHR :=
  ⟨_, rfl⟩

theorem tget_tdel_ne {α : Type} (d : α) (t : Tab α) {k n : Nat} (h : n ≠ k) : tget d (tdel t k) n = tget d t n := by
  rw [tget_eq, tget_eq, tfind_tdel_ne t h]

theorem Sampled.corrected (s : State) (wa : Nat) : Sampled s (corrected s wa) where
  plate := rfl
  ks := rfl
  regs := (Sampled.setF s fPLT_CE_CNT_CNT _ _ (ofPlate_ceCnt wa)).regs
  rising h := by
    unfold Machine.corrected
    dsimp only
    split
    · exact trising_tdel _ _ h
    · exact h
  clean w hp he := by
    refine ⟨hp, ?_⟩
    unfold Machine.corrected
    dsimp only
    split
    · next h1 => rwa [tget_tdel_ne 0 _ (by rintro rfl; omega)]
    · exact he

theorem Sampled.plateCe (s : State) (wa : Nat) : Sampled s (plateCe s wa) := by
  obtain ⟨b, h⟩ := plateCe_eq s wa
  rw [h]
  refine ((Sampled.corrected s wa).trans (.raise loneFlag_ce _ (by decide) (by decide))).trans ?_
  exact .ite (.raise loneFlag_cethr _ (by decide) (by decide)) (.refl _)

/-- The state in which an uncorrectable error is recorded: the word is poisoned. -/
def poisoned (s : State) (wa : Nat) : State :=
  if tget 0 s.plateEcc wa = 0 then s else { s with plateEcc := tdel s.plateEcc wa, poison := wa :: s.poison }

theorem Sampled.poisoned (s : State) (wa : Nat) : Sampled s (poisoned s wa) := by
  unfold Machine.poisoned
  split
  · exact .refl s
  · next h => exact {
      plate := rfl
      ks := rfl
      regs := fun _ _ _ => rfl
      rising := trising_tdel _ _
      clean := fun w hp he => by
        have hw : w ≠ wa := by rintro rfl; exact h he
        refine ⟨?_, by rwa [tget_tdel_ne 0 _ hw]⟩
        rw [List.contains_cons, hp, Bool.or_false]
        exact beq_false_of_ne hw }

/-- The record of an uncorrectable error (R74). -/
def ueRecord (s : State) (wa master : Nat) : State :=
  let w := ((s.setF fPLT_UE_ADDR_WADDR wa).setF fPLT_UE_INFO_BG (bankOf (wa % 32768) / 32)).setF fPLT_UE_INFO_MASTER master
  w.setF fPLT_UE_INFO_OWNER (w.f fSHM_OWNER_OWNER (wa / 32768))

theorem plateUe_eq (s : State) (wa m : Nat) : plateUe s wa m = raise (ueRecord (poisoned s wa) wa m) kPLT_STAT_UE := rfl

theorem Sampled.plateUe (s : State) (wa m : Nat) : Sampled s (plateUe s wa m) := by
  rw [plateUe_eq]
  refine ((Sampled.poisoned s wa).trans ?_).trans (.raise loneFlag_ue _ (by decide) (by decide))
  exact (((Sampled.setF _ _ _ 0 (by decide)).trans (.setF _ _ _ 0 (by decide))).trans (.setF _ _ _ 0 (by decide))).trans
    (.setF _ _ _ 0 (by decide))

theorem Sampled.plateCheck (s : State) (wa m : Nat) : Sampled s (plateCheck s wa m).2 := by
  unfold Machine.plateCheck
  split
  · exact .refl s
  · split
    · exact .refl s
    · exact .plateCe s wa
    · exact .plateUe s wa m

theorem Sampled.plateReadPhys (s : State) (wa off n m : Nat) : Sampled s (plateReadPhys s wa off n m).2 := by
  have h := Sampled.plateCheck s wa m
  unfold Machine.plateReadPhys
  generalize Machine.plateCheck s wa m = r at h
  obtain ⟨ok, w⟩ := r
  dsimp only
  split <;> exact h

-- Loads that sample (R71, R142) --------------------------------------------------------------------------------------------------------------

theorem Sampled.sampleOp (s : State) (o : LongOp) : Sampled s (sampleOp s o).2 := by
  unfold Machine.sampleOp
  split
  · exact .refl s
  · next x _ =>
    dsimp only
    have h1 : Sampled s (if tget 0 s.plateEcc x.wa = 0 then s else s.advanceTo (x.cyc * s.cyc)) :=
      .ite (.refl s) (.of_same rfl rfl rfl rfl rfl)
    generalize (if tget 0 s.plateEcc x.wa = 0 then s else s.advanceTo (x.cyc * s.cyc)) = w at h1
    have h2 := Sampled.plateReadPhys w x.wa x.off x.size 0
    generalize Machine.plateReadPhys w x.wa x.off x.size 0 = r at h2
    obtain ⟨v, u⟩ := r
    cases v <;> exact h1.trans h2

theorem Sampled.foldl_snd {α β : Type} (f : α × State → β → α × State) (hf : ∀ p b, Sampled p.2 (f p b).2) (bs : List β)
    (p : α × State) : Sampled p.2 (bs.foldl f p).2 := by
  induction bs generalizing p with
  | nil => exact .refl p.2
  | cons b bs ih => exact (hf p b).trans (ih _)

theorem Sampled.foldl {β : Type} (f : State → β → State) (hf : ∀ x b, Sampled x (f x b)) (bs : List β) (s : State) :
    Sampled s (bs.foldl f s) := by
  induction bs generalizing s with
  | nil => exact .refl s
  | cons b bs ih => exact (hf s b).trans (ih _)

theorem Sampled.sampleThr (s : State) (x : Thr) (n : Nat) : Sampled s (sampleThr s x n).2 := by
  unfold Machine.sampleThr
  refine Sampled.foldl_snd _ (fun acc o => ?_) x.pend ({ x with pend := [] }, s)
  dsimp only
  split
  · exact .sampleOp acc.2 o
  · exact .refl acc.2

theorem Sampled.sampleDue (s : State) (n : Nat) : Sampled s (sampleDue s n) := by
  unfold Machine.sampleDue
  refine .trans (Sampled.foldl _ (fun x e => ?_) s.ctxs s) (Sampled.foldl _ (fun x e => ?_) _ _)
  · refine .ite ?_ (.refl x)
    exact (Sampled.sampleThr x e.2.thr n).trans (.of_same rfl rfl rfl rfl rfl)
  · refine .ite ?_ (.refl x)
    exact (Sampled.sampleThr x e.2.thr n).trans (.of_same rfl rfl rfl rfl rfl)

end

end Sys2Proof.Machine
end

section
/-! PROOFS. Scrubbers, the debug window, the Loupe and the DRAM controller (R57, R72–R74, R225, R370–R379, R406, R452), and the
statement DramAndScrubbing assembled from them. -/

namespace Sys2Proof.Machine
open Sys2Proof

theorem onlySignals_raiseIf (b : Bool) (s : State) (k : Flag) : OnlySignals s (raiseIf b s k) := by
  unfold raiseIf
  split
  · exact onlySignals_raise s k 0 0
  · rfl

-- Scrubbers of the Plate (R57, R72–R74) -----------------------------------------------------------------------------------------------------

/-- The row that a scrubber reads lies in its bank (R57). -/
theorem bankOf_bankWord {b : Nat} (hb : b < 1024) (r : Nat) : bankOf (bankWord b r) = b := by
  have hx : Nat.xor b (r % 32 * 33) < 1024 := Nat.xor_lt_two_pow (n := 10) hb (rowPair_lt (Nat.mod_lt _ (by decide)))
  have hl : bankWord b r % 1024 = Nat.xor b (r % 32 * 33) := by
    unfold bankWord
    omega
  have hr : bankWord b r / 1024 % 32 = r % 32 := by
    unfold bankWord
    omega
  rw [bankOf_eq, hl, hr]
  exact Nat.xor_xor_cancel_right ..

theorem bankWord_lt {b r : Nat} (hb : b < 1024) (hr : r < 12288) : bankWord b r < 2 ^ 24 := by
  have hx : Nat.xor b (r % 32 * 33) < 1024 := Nat.xor_lt_two_pow (n := 10) hb (rowPair_lt (Nat.mod_lt _ (by decide)))
  unfold bankWord
  omega

theorem bankOf_mod (w : Nat) : bankOf (w % 32768) = bankOf w := by
  rw [bankOf_eq, bankOf_eq, show w % 32768 % 1024 = w % 1024 by omega,
    show w % 32768 / 1024 % 32 = w / 1024 % 32 by omega]

section
variable (s : State) (wa : Nat)

theorem plateEcc_plateCe (hr : trising s.plateEcc = true) (h : tget 0 s.plateEcc wa = 1) :
    tget 0 (plateCe s wa).plateEcc wa = 0 := by
  obtain ⟨b, e⟩ := plateCe_eq s wa
  rw [e, (onlySignals_raiseIf b _ _).field (·.plateEcc) (fun _ _ _ _ _ _ _ _ _ => rfl),
    (onlySignals_raise _ _ 0 0).field (·.plateEcc) (fun _ _ _ _ _ _ _ _ _ => rfl), corrected]
  dsimp only
  rw [if_pos h, tget_eq, tfind_tdel_self _ _ hr]
  rfl

theorem poison_plateCe : (plateCe s wa).poison = s.poison := by
  obtain ⟨b, e⟩ := plateCe_eq s wa
  rw [e, (onlySignals_raiseIf b _ _).field (·.poison) (fun _ _ _ _ _ _ _ _ _ => rfl)]
  exact (onlySignals_raise _ _ 0 0).field (·.poison) (fun _ _ _ _ _ _ _ _ _ => rfl)

theorem flagged_plateCe : Flagged (plateCe s wa) kPLT_STAT_CE := by
  obtain ⟨b, e⟩ := plateCe_eq s wa
  rw [e, raiseIf]
  split
  · exact loneFlag_cethr.keeps_flag _ rfl rfl (by decide) (loneFlag_ce.flagged _)
  · exact loneFlag_ce.flagged _

/-- The bank of a corrected word counts it (R72). -/
theorem counted_plateCe : Counted s (plateCe s wa) fPLT_CE_CNT_CNT (bankOf wa) := by
  have hb := bankOf_lt wa
  have hkey : fPLT_CE_CNT_CNT.reg.key (bankOf wa) 0 = 0x101000 + 4 * bankOf wa := by
    simp only [Reg.key, fPLT_CE_CNT_CNT, rPLT_CE_CNT]
    omega
  have hf : kPLT_STAT_CE.f.reg.key 0 0 = 0x100004 ∧ fPLT_SETCNT_CE_N.reg.key 0 0 = 0x100008 ∧
      kPLT_STAT_CETHR.f.reg.key 0 0 = 0x100004 ∧ fPLT_SETCNT_CETHR_N.reg.key 0 0 = 0x100008 := by decide
  obtain ⟨h1, h2, h3, h4⟩ := hf
  have hce : Counted s (raise (corrected s wa) kPLT_STAT_CE) fPLT_CE_CNT_CNT (bankOf wa) :=
    loneFlag_ce.counted_bump (by rw [corrected, bankOf_mod]) (by decide) (by omega) (by omega) (by omega)
  obtain ⟨b, e⟩ := plateCe_eq s wa
  rw [e, raiseIf]
  split
  · refine Eq.trans ?_ hce
    simp only [State.f]
    rw [loneFlag_cethr.reg _ (by omega) (by omega) (by omega)]
  · exact hce

variable {s wa}

theorem plateCheck_ce (hp : s.poison.contains wa = false) (he : tget 0 s.plateEcc wa = 1) (m : Nat) :
    plateCheck s wa m = (true, plateCe s wa) := by simp only [plateCheck, hp, he, Bool.false_eq_true, if_false]

theorem plateCheck_ue (hp : s.poison.contains wa = false) (he : 2 ≤ tget 0 s.plateEcc wa) (m : Nat) :
    plateCheck s wa m = (false, plateUe s wa m) := by
  simp only [plateCheck, hp, Bool.false_eq_true, if_false]
  split
  · omega
  · omega
  · rfl

theorem poison_plateUe (he : 2 ≤ tget 0 s.plateEcc wa) (m : Nat) : (plateUe s wa m).poison = wa :: s.poison := by
  rw [plateUe_eq, (onlySignals_raise _ _ 0 0).field (·.poison) (fun _ _ _ _ _ _ _ _ _ => rfl)]
  show (poisoned s wa).poison = _
  rw [poisoned, if_neg (by omega)]

theorem reg_raise_ue (u : State) {r : Reg} (h : r.key 0 0 = 0x100010 ∨ r.key 0 0 = 0x100014) :
    (raise u kPLT_STAT_UE).reg r 0 0 = u.reg r 0 0 := by
  have h1 : kPLT_STAT_UE.f.reg.key 0 0 = 0x100004 := rfl
  have h2 : fPLT_SETCNT_UE_N.reg.key 0 0 = 0x100008 := rfl
  exact loneFlag_ue.reg u (by omega) (by omega) (by omega)

/-- The word and the master of an uncorrectable error are on record (R74). -/
theorem record_plateUe (hw : wa < 2 ^ 24) {m : Nat} (hm : m < 8) :
    (plateUe s wa m).f fPLT_UE_ADDR_WADDR = wa ∧ (plateUe s wa m).f fPLT_UE_INFO_MASTER = m := by
  rw [plateUe_eq]
  constructor
  · refine (congrArg (fun w : Word => bits w.toNat 0 24) (reg_raise_ue _ (r := rPLT_UE_ADDR) (Or.inl rfl))).trans ?_
    show (ueRecord (poisoned s wa) wa m).f fPLT_UE_ADDR_WADDR = wa
    unfold ueRecord
    dsimp only
    rw [f_setF_ne _ _ _ _ 0 0 0 0 (by decide), f_setF_ne _ _ _ _ 0 0 0 0 (by decide), f_setF_ne _ _ _ _ 0 0 0 0 (by decide),
      f_setF_self _ _ _ 0 0 (by decide)]
    exact Nat.mod_eq_of_lt hw
  · refine (congrArg (fun w : Word => bits w.toNat 16 3) (reg_raise_ue _ (r := rPLT_UE_INFO) (Or.inr rfl))).trans ?_
    show (ueRecord (poisoned s wa) wa m).f fPLT_UE_INFO_MASTER = m
    unfold ueRecord
    dsimp only
    rw [f_setF_field _ fPLT_UE_INFO_OWNER fPLT_UE_INFO_MASTER _ 0 0 (by decide) (by decide) rfl (by decide) (by decide),
      f_setF_self _ _ _ 0 0 (by decide)]
    exact Nat.mod_eq_of_lt hm

end

/-- What a bank's scrubber does with the word of its row (R73). -/
theorem scrub_spec {s : State} (hr : trising s.plateEcc = true) (b : Fin 1056) (r : Fin 12288) (hb : b.val < 1024)
    (hs : s.fb fPLT_CTL_SCRUB = true) (hd : domOn s (8 + b.val / 256) = true) (hp : pmState s < 2) :
    let wa := bankWord b r
    let scrubs := fun P => Completes (exec (.scrub b r) s) P
    bankOf wa = b.val ∧
    (s.poison.contains wa = true → scrubs (fun t => Counted s t fPLT_SETCNT_UE_N ∧ t.poison = s.poison ∧ t.plate = s.plate)) ∧
    (s.poison.contains wa = false → tget 0 s.plateEcc wa = 0 → scrubs (Same s)) ∧
    (s.poison.contains wa = false → tget 0 s.plateEcc wa = 1 → scrubs (fun t => tget 0 t.plateEcc wa = 0 ∧
      Counted s t fPLT_CE_CNT_CNT b ∧ Flagged t kPLT_STAT_CE ∧ t.poison = s.poison ∧ t.plate = s.plate)) ∧
    (s.poison.contains wa = false → 2 ≤ tget 0 s.plateEcc wa → scrubs (fun t => t.poison = wa :: s.poison ∧
      t.f fPLT_UE_ADDR_WADDR = wa ∧ t.f fPLT_UE_INFO_MASTER = 3 ∧ Flagged t kPLT_STAT_UE ∧ t.plate = s.plate)) := by
  intro wa scrubs
  have hbank : bankOf wa = b.val := bankOf_bankWord hb r
  have hrun : scrub s b r = if s.poison.contains wa then raise s kPLT_STAT_UE else (plateCheck s wa 3).2 := by
    rw [scrub, if_neg]
    simp [hs, hd]
    omega
  have hrest (h : s.poison.contains wa = false) : scrub s b r = (plateCheck s wa 3).2 := by
    rw [hrun, h, if_neg Bool.false_ne_true]
  refine ⟨hbank, fun h => completes_done ?_, fun h he => completes_done ?_, fun h he => completes_done ?_,
    fun h he => completes_done ?_⟩
  · rw [hrun, if_pos h]
    exact ⟨loneFlag_ue.counted s (by decide) (by decide),
      (onlySignals_raise s _ 0 0).field (·.poison) (fun _ _ _ _ _ _ _ _ _ => rfl), (onlySignals_raise s _ 0 0).plate⟩
  · rw [hrest h, plateCheck_clean h he]
    rfl
  · rw [hrest h, plateCheck_ce h he]
    exact ⟨plateEcc_plateCe s wa hr he, hbank ▸ counted_plateCe s wa, flagged_plateCe s wa, poison_plateCe s wa,
      (Sampled.plateCe s wa).plate⟩
  · rw [hrest h, plateCheck_ue h he]
    obtain ⟨ha, hm⟩ := record_plateUe (s := s) (bankWord_lt hb r.isLt) (m := 3) (by decide)
    exact ⟨poison_plateUe he 3, ha, hm, loneFlag_ue.flagged _, (Sampled.plateUe s wa 3).plate⟩

-- The debug window (R452) -------------------------------------------------------------------------------------------------------------------

/-- A write of a whole word, or into a word without an error, reads back, and leaves every other word (R68). -/
theorem plateWritePhys_spec {s : State} {wa off n : Nat} (v m : Nat) (hm : memWf s.plate = true) (ho : off + n ≤ 8)
    (h : n = 8 ∨ s.poison.contains wa = false ∧ tget 0 s.plateEcc wa = 0) :
    ∃ x, plateWritePhys s wa off n v m = (.ok (), x) ∧ plateWord x wa / 2 ^ (8 * off) % 2 ^ (8 * n) = v % 2 ^ (8 * n) ∧
      ∀ a, a < 8 * wa ∨ 8 * wa + 8 ≤ a → mget x.plate a = mget s.plate a := by
  by_cases hn : n = 8
  · subst hn
    have h0 : off = 0 := by omega
    refine ⟨_, plateWritePhys_whole s wa off v m, ?_, fun a ha => mget_putPlateWord_out (freshWord s wa) wa _ ha⟩
    rw [plateWord_putPlateWord (freshWord s wa) wa hm (Nat.mod_lt _ (by decide)), h0]
    simp
  · obtain ⟨hp, he⟩ := h.resolve_left hn
    refine ⟨_, plateWritePhys_clean hp he off v m hn, ?_, fun a ha => mget_putPlateWord_out s wa _ ha⟩
    rw [plateWord_putPlateWord s wa hm (mergeAt_lt (plateWord_lt s wa) ho), field_mergeAt]

theorem bar2_closed {s : State} (h : s.maint = false) (wr : Bool) (addr size : Nat) (v : DWord) :
    Completes (exec (.bar2Access wr addr size v) s) (fun t => t.resp = .ur ∧ { t with resp := s.resp, pm := s.pm } = s) := by
  refine completes_done ?_
  rw [bar2, if_pos (by simp [h])]
  exact ⟨rfl, rfl⟩

theorem bar2_open {s : State} {addr size : Nat} {v : DWord} (hz : size = 4 ∨ size = 8) (ha : addr % size = 0)
    (hm : s.maint = true) (hs : addr / 0x40000 < 384) (ho : s.f fSHM_OWNER_OWNER (addr / 0x40000) ≠ 0x1FF)
    (hh : sheetHeld s (addr / 0x40000) = false) (hq : quadFailed s (32768 * (addr / 0x40000) + addr % 0x40000 / 8) = false)
    (hp : s.poison.contains (32768 * (addr / 0x40000) + addr % 0x40000 / 8) = false)
    (he : tget 0 s.plateEcc (32768 * (addr / 0x40000) + addr % 0x40000 / 8) = 0) (hw : memWf s.plate = true) :
    let wa := 32768 * (addr / 0x40000) + addr % 0x40000 / 8
    let off := addr % 8
    Completes (exec (.bar2Access false addr size v) s) (fun t =>
      t.resp = .data (leBytes size (plateWord s wa / 2 ^ (8 * off) % 2 ^ (8 * size))) ∧ t.plate = s.plate) ∧
    Completes (exec (.bar2Access true addr size v) s) (fun t =>
      t.resp = .data [] ∧ plateWord t wa / 2 ^ (8 * off) % 2 ^ (8 * size) = v.toNat % 2 ^ (8 * size) ∧
      ∀ a, a < 8 * wa ∨ 8 * wa + 8 ≤ a → mget t.plate a = mget s.plate a) := by
  intro wa off
  have h1 : ¬(!s.maint || !(decide (size = 4) || decide (size = 8)) || addr % size != 0) = true := by
    rcases hz with rfl | rfl <;> simp [hm, ha]
  have h2 : ¬(decide (384 ≤ addr / 0x40000) || decide (s.f fSHM_OWNER_OWNER (addr / 0x40000) = 0x1FF) ||
      sheetHeld s (addr / 0x40000)) = true := by
    simp [ho, hh]
    omega
  have hfit : off + size ≤ 8 := by
    rcases hz with rfl | rfl <;> omega
  constructor
  · refine completes_done ?_
    rw [bar2, if_neg h1, if_neg h2, if_neg (by simp [hq]), if_neg (by simp), plateReadPhys_clean hp he]
    exact ⟨rfl, rfl⟩
  · have hsamp := Sampled.sampleDue s s.nowCyc
    obtain ⟨hp', he'⟩ := hsamp.clean _ hp he
    obtain ⟨x, hx, hval, hout⟩ := plateWritePhys_spec (off := off) (n := size) v.toNat 2 (hsamp.plate ▸ hw) hfit (Or.inr ⟨hp', he'⟩)
    refine completes_done ?_
    rw [bar2, if_neg h1, if_neg h2, if_neg (by simp [hq]), if_pos rfl, hx]
    exact ⟨rfl, hval, fun a h => (hout a h).trans (by rw [hsamp.plate])⟩

-- The Loupe (R225, R370, R371, R406) --------------------------------------------------------------------------------------------------------

theorem loneFlag_loupe : LoneFlag kMX_STAT_LOUPE fMX_SETCNT_LOUPE_N :=
  ⟨rfl, rfl, by decide, by decide, Or.inr (Or.inr (by decide))⟩
theorem loneFlag_gated : LoneFlag kBI_STAT_GATED fBI_SETCNT_GATED_N :=
  ⟨rfl, rfl, by decide, by decide, Or.inr (Or.inr (by decide))⟩

theorem loupe_closed {s : State} (h : loupeOpen s = false) (op : LoupeOp) :
    Completes (exec (.loupeRequest op) s) (fun t => Flagged t kBI_STAT_GATED ∧ t.plate = s.plate ∧ t.tray = s.tray ∧
      t.poison = s.poison ∧ t.clk = s.clk) := by
  have hs := onlySignals_raise s kBI_STAT_GATED 0 0
  refine completes_done ?_
  unfold loupe
  rw [if_pos (by simp [h])]
  exact ⟨loneFlag_gated.flagged s, hs.plate, hs.field (·.tray) (fun _ _ _ _ _ _ _ _ _ => rfl),
    hs.field (·.poison) (fun _ _ _ _ _ _ _ _ _ => rfl), hs.field (·.clk) (fun _ _ _ _ _ _ _ _ _ => rfl)⟩

/-- The Loupe is offered, and its domain is ON (R406). -/
def MayLoupe (s : State) : Prop := (s.lc = 0 ∨ s.lc = 1 ∨ s.lc = 4) ∧ domOn s 19 = true

theorem MayLoupe.not_closed {s : State} (h : MayLoupe s) : ¬(!loupeOpen s) = true := by
  obtain ⟨h | h | h, -⟩ := h <;> simp [loupeOpen, h]

theorem MayLoupe.not_waiting {s : State} (h : MayLoupe s) : ¬(!domOn s 19) = true := by simp [h.2]

theorem loupe_bank {s : State} (h : MayLoupe s) (b : Fin 1056) :
    Completes (exec (.loupeRequest (.bank b)) s) (fun t => Flagged t kMX_STAT_LOUPE ∧ t.plate = s.plate ∧ t.clk = s.clk) := by
  have hs := onlySignals_raise s kMX_STAT_LOUPE 0 0
  refine completes_done ?_
  rw [loupe, if_neg h.not_closed, if_neg h.not_waiting]
  exact ⟨loneFlag_loupe.flagged s, hs.plate, hs.field (·.clk) (fun _ _ _ _ _ _ _ _ _ => rfl)⟩

theorem domOn_raise_loupe (s : State) (d : Nat) : domOn (raise s kMX_STAT_LOUPE) d = domOn s d := by
  have h1 : kMX_STAT_LOUPE.f.reg.key 0 0 = 0xb00004 := rfl
  have h2 : fMX_SETCNT_LOUPE_N.reg.key 0 0 = 0xb00008 := rfl
  have hk : fPM_DOM_STATE.reg.key d 0 = 0xc00100 + 4 * d := by
    simp only [Reg.key, fPM_DOM_STATE, rPM_DOM]
    omega
  rw [domOn, domOn, State.f, State.f, loneFlag_loupe.reg s (by omega) (by omega) (by omega)]

theorem sheetHeld_raise_loupe (s : State) (sheet : Fin 384) : sheetHeld (raise s kMX_STAT_LOUPE) sheet = sheetHeld s sheet := by
  have hlt := sheet.isLt
  have h1 : kMX_STAT_LOUPE.f.reg.key 0 0 = 0xb00004 := rfl
  have h2 : fMX_SETCNT_LOUPE_N.reg.key 0 0 = 0xb00008 := rfl
  have hk := key_shmOwner sheet
  have hr : (raise s kMX_STAT_LOUPE).reg rSHM_OWNER sheet 0 = s.reg rSHM_OWNER sheet 0 :=
    loneFlag_loupe.reg s (by omega) (by omega) (by omega)
  have ho : (raise s kMX_STAT_LOUPE).f fSHM_OWNER_OWNER sheet = s.f fSHM_OWNER_OWNER sheet :=
    congrArg (fun w : Word => bits w.toNat 0 9) hr
  have hst : (raise s kMX_STAT_LOUPE).f fSHM_OWNER_STATE sheet = s.f fSHM_OWNER_STATE sheet :=
    congrArg (fun w : Word => bits w.toNat 16 2) hr
  have hs := onlySignals_raise s kMX_STAT_LOUPE 0 0
  have hks : (raise s kMX_STAT_LOUPE).ks = s.ks := hs.field (·.ks) fun _ _ _ _ _ _ _ _ _ => rfl
  have hctx : (raise s kMX_STAT_LOUPE).ctxs = s.ctxs := hs.field (·.ctxs) fun _ _ _ _ _ _ _ _ _ => rfl
  rw [sheetHeld, sheetHeld, ho, hst, hks, ownerRuns_congr (sameWork_raise s _ 0 0) hctx]

/-- The Loupe's write of a Plate word: it lands with its flag set, or is an error on a held sheet (R66, R370). -/
theorem loupe_plate {s : State} (h : MayLoupe s) (sheet : Fin 384) (w : Fin 32768) (v : DWord)
    (hd : domOn s (8 + bankOf ((32768 * sheet.val + w.val) % 32768) / 256) = true) (hm : memWf s.plate = true) :
    let wa := 32768 * sheet.val + w.val
    let writes := fun P => Completes (exec (.loupeRequest (.plate sheet w v)) s) P
    (sheetHeld s sheet = false → writes (fun t => Flagged t kMX_STAT_LOUPE ∧ plateWord t wa = v.toNat ∧
      t.poison.contains wa = false ∧ ∀ a, a < 8 * wa ∨ 8 * wa + 8 ≤ a → mget t.plate a = mget s.plate a)) ∧
    (sheetHeld s sheet = true → writes (fun t => t.resp = .err ∧ t.plate = s.plate)) := by
  intro wa writes
  have hs := onlySignals_raise s kMX_STAT_LOUPE 0 0
  have hdom := (domOn_raise_loupe s (8 + bankOf ((32768 * sheet.val + w.val) % 32768) / 256)).trans hd
  have hheld := sheetHeld_raise_loupe s sheet
  have hsamp := Sampled.sampleDue (raise s kMX_STAT_LOUPE) (raise s kMX_STAT_LOUPE).nowCyc
  have hflag := loneFlag_loupe.flagged s
  have hrun : loupe s (.plate sheet w v) = if sheetHeld s sheet then { raise s kMX_STAT_LOUPE with resp := .err }
      else { putPlateWord (freshWord (sampleDue (raise s kMX_STAT_LOUPE) (raise s kMX_STAT_LOUPE).nowCyc) wa) wa (v.toNat % 2 ^ 64)
        with resp := .data [] } := by
    rw [loupe, if_neg h.not_closed, if_neg h.not_waiting]
    dsimp only
    rw [hdom, if_neg (by simp), hheld]
    rfl
  generalize sampleDue (raise s kMX_STAT_LOUPE) (raise s kMX_STAT_LOUPE).nowCyc = u at hsamp hrun
  have hpl : u.plate = s.plate := hsamp.plate.trans hs.plate
  constructor <;> intro hh <;> refine completes_done ?_
  · rw [hrun, hh, if_neg (by simp)]
    refine ⟨?_, ?_, not_contains_filter u.poison wa, fun a ha => ?_⟩
    · refine Eq.trans ?_ hflag
      show bits (u.reg rMX_STAT 0 0).toNat _ _ = bits ((raise s kMX_STAT_LOUPE).reg rMX_STAT 0 0).toNat _ _
      rw [State.reg, State.reg, hsamp.regs _ (by decide) (by decide)]
    · have hw := plateWord_putPlateWord (freshWord u wa) wa (hpl.symm ▸ hm : memWf u.plate = true)
        (Nat.mod_lt v.toNat (Nat.two_pow_pos 64))
      exact hw.trans (Nat.mod_eq_of_lt v.isLt)
    · exact (mget_putPlateWord_out (freshWord u wa) wa _ ha).trans (by rw [show (freshWord u wa).plate = s.plate from hpl])
  · rw [hrun, hh, if_pos rfl]
    exact ⟨rfl, hs.plate⟩

-- The Loupe at a core (R225) ------------------------------------------------------------------------------------------------------------------

theorem catchUp_none {s : State} {c : Nat} (h : nextEvent s c = none) : catchUp s c = s := by
  unfold catchUp
  cases eventFuel s c <;> simp [runTo, h]

/-- The state in which the Loupe acts at a core. -/
def loupeAtCore (s : State) : State := { raise s kMX_STAT_LOUPE with resp := .data [] }

theorem exec_loupe_core {s : State} {c : Core} (h : MayLoupe s) (hn : nextEvent s c = none) (op : LoupeCoreOp) :
    exec (.loupeRequest (.core c op)) s = done (loupeCore (loupeAtCore s) c op) := by
  refine congrArg done ?_
  rw [loupe, if_neg h.not_closed, if_neg h.not_waiting]
  dsimp only
  rw [catchUp_none hn]
  rfl

section
variable (s : State) (c : Nat)

theorem core_loupeAtCore {α : Type} (g : CoreSt → α) (hg : ∀ x y, g { x with ic := y } = g x) :
    g ((loupeAtCore s).core c) = g (s.core c) := (sameWork_raise s kMX_STAT_LOUPE 0 0).field g hg c

theorem ctx_loupeAtCore (q : Nat) : (loupeAtCore s).ctx c q = s.ctx c q :=
  (onlySignals_raise s kMX_STAT_LOUPE 0 0).field (·.ctx c q) fun _ _ _ _ _ _ _ _ _ => rfl

theorem spanLog_loupeAtCore : spanLog (loupeAtCore s) c = spanLog s c := by
  have hp : (loupeAtCore s).pipe c = s.pipe c :=
    (onlySignals_raise s kMX_STAT_LOUPE 0 0).field (·.pipe c) fun _ _ _ _ _ _ _ _ _ => rfl
  rw [spanLog, spanLog, core_loupeAtCore s c (·.run) (fun _ _ => rfl), hp]

theorem vOwner_loupeAtCore : vOwner (loupeAtCore s) c = vOwner s c := by
  rw [vOwner, vOwner, core_loupeAtCore s c (·.run) (fun _ _ => rfl)]

/-- Halting a core and setting its breakpoints writes the Loupe's own part of the core. -/
theorem loupe_setCore (f : LoupeSt → LoupeSt) :
    ((settle ((loupeAtCore s).modCore c fun y => { y with loupe := f y.loupe })).core c).loupe = f (s.core c).loupe := by
  rw [core_settle, core_modCore_self]
  exact congrArg f (core_loupeAtCore s c (·.loupe) fun _ _ => rfl)

variable {s c} {q : Nat} {x : Sec}

/-- An item of a section's signature leaves the section's log. -/
theorem llog_sign (h : (s.ctx c q).sec = some x) (kind key v : Nat) :
    ∃ y, ((sign s c (some q) kind key v).ctx c q).sec = some y ∧ y.llog = x.llog := by
  refine ⟨{ x with sig := crc64 x.sig (Config.sigBytes kind key (BitVec.ofNat 64 v)) }, ?_, rfl⟩
  simp [sign, modSec, h]

theorem llog_vreg (h : (s.ctx c q).sec = some x) (r o n cls v : Nat) :
    ∃ y, ((loupeWrite s c q (.vreg r o n cls v)).ctx c q).sec = some y ∧ y.llog = x.llog := by
  unfold loupeWrite landOne
  dsimp only
  apply llog_sign
  exact h

theorem llog_putReg (h : (s.ctx c q).sec = some x) (n : Nat) (v : Word) :
    ∃ y, ((putReg s c (some q) n v).ctx c q).sec = some y ∧ y.llog = x.llog := by
  unfold putReg
  split
  · exact ⟨x, h, rfl⟩
  · refine llog_sign ?_ sgReg n v.toNat
    simp [State.modThr, State.setThr, h]

/-- A write of the Loupe to a context in the main pass of a section is logged (R225), where the log has room. -/
theorem loupeContext_logged (h : (s.ctx c q).sec = some x) (hn : x.neg = false) (hl : x.llog.length < 64) (w : LWrite) :
    loupeContext s c q w = loupeWrite (modSec s c q fun y => { y with llog := y.llog ++ [(y.retired, w)] }) c q w := by
  rw [loupeContext, h]
  dsimp only
  rw [if_neg (by simp [hn]), if_neg (by omega)]

theorem sec_logged (h : (s.ctx c q).sec = some x) (w : LWrite) :
    ((modSec s c q fun y => { y with llog := y.llog ++ [(y.retired, w)] }).ctx c q).sec =
      some { x with llog := x.llog ++ [(x.retired, w)] } := by
  simp [modSec, h]

theorem loupeContext_full (h : (s.ctx c q).sec = some x) (hn : x.neg = false) (hl : 64 ≤ x.llog.length) (w : LWrite) :
    loupeContext s c q w = { s with resp := .err } := by
  rw [loupeContext, h]
  dsimp only
  rw [if_neg (by simp [hn]), if_pos hl]

theorem gpr_putReg_self (s : State) (c : Nat) (k : Option Nat) (n : Nat) (v : Word) :
    gpr (putReg s c k n v) c k n = if n = 0 then 0 else v := by
  rw [gpr, thr_putReg, get_put]
  by_cases h : n = 0
  · simp [h, RSet.get]
  · simp [h]

end

/-- The Loupe at a core: halt, go, breakpoints, and writes that a section logs (R225). -/
theorem loupe_core {s : State} (h : MayLoupe s) (c : Core) (hn : nextEvent s c = none) :
    let acts := fun (op : LoupeCoreOp) P => Completes (exec (.loupeRequest (.core c op)) s) P
    acts .halt (fun t => (t.core c).loupe = { (s.core c).loupe with halt := true }) ∧
    acts .go (fun t => (t.core c).loupe = { (s.core c).loupe with halt := false, go := true }) ∧
    (∀ pc, acts (.setBreak pc) (fun t => pc ∈ (t.core c).loupe.bps) ∧
      acts (.clearBreak pc) (fun t => pc ∉ (t.core c).loupe.bps)) ∧
    (∀ (k : Fin 8) (n : Reg5) (v : Word) (x : Sec), (s.ctx c k).sec = some x → x.neg = false →
      (x.llog.length < 64 → acts (.reg k n v) (fun t => gpr t c (some k.val) n = (if n = 0 then 0 else v) ∧
        ∃ y, (t.ctx c k).sec = some y ∧ y.llog = x.llog ++ [(x.retired, .reg n v)])) ∧
      (64 ≤ x.llog.length → acts (.reg k n v) (fun t => t.resp = .err ∧ t.ctx c k = s.ctx c k))) ∧
    (∀ (k : Fin 8) r ty (e : Fin 2048) v (x : Sec), (s.ctx c k).sec = some x → x.neg = false → x.llog.length < 64 →
      vOwner s c = some k.val → tySize ty.toNat * (e + 1) ≤ 64 * 2 ^ spanLog s c →
      acts (.vreg k r ty e v) (fun t => ∃ y, (t.ctx c k).sec = some y ∧ y.llog = x.llog ++
        [(x.retired, .vreg r.toNat (tySize ty.toNat * e) (tySize ty.toNat) (tyCls ty.toNat) v.toNat)])) := by
  intro acts
  have hdo {op : LoupeCoreOp} {P : State → Prop} (hP : P (settle (loupeCore (loupeAtCore s) c op))) : acts op P := by
    show Completes _ P
    rw [exec_loupe_core h hn]
    exact completes_done hP
  refine ⟨hdo ?_, hdo ?_, fun pc => ⟨hdo ?_, hdo ?_⟩, fun k n v x hx hneg => ⟨fun hl => hdo ?_, fun hl => hdo ?_⟩,
    fun k r ty e v x hx hneg hl ho hfit => hdo ?_⟩
  · exact loupe_setCore s c fun l => { l with halt := true }
  · exact loupe_setCore s c fun l => { l with halt := false, go := true }
  · have e := loupe_setCore s c fun l => { l with bps := l.bps.filter (· != pc) ++ [pc] }
    exact (congrArg LoupeSt.bps e).symm ▸ List.mem_append_right _ (List.mem_singleton.mpr rfl)
  · have e := loupe_setCore s c fun l => { l with bps := l.bps.filter (· != pc) }
    refine (congrArg LoupeSt.bps e).symm ▸ ?_
    simp
  · have hx' : ((loupeAtCore s).ctx c k).sec = some x := (congrArg Ctx.sec (ctx_loupeAtCore s c k)).trans hx
    rw [loupeCore, loupeContext_logged hx' hneg hl]
    refine ⟨?_, llog_putReg (sec_logged hx' _) n v⟩
    exact (gpr_putReg_self _ c (some k.val) n v).trans (by simp only [Fin.val_eq_zero_iff])
  · have hx' : ((loupeAtCore s).ctx c k).sec = some x := (congrArg Ctx.sec (ctx_loupeAtCore s c k)).trans hx
    rw [loupeCore, loupeContext_full hx' hneg hl]
    exact ⟨rfl, ctx_loupeAtCore s c k⟩
  · have hx' : ((loupeAtCore s).ctx c k).sec = some x := (congrArg Ctx.sec (ctx_loupeAtCore s c k)).trans hx
    rw [loupeCore, vOwner_loupeAtCore, spanLog_loupeAtCore, if_pos (by simp [ho, hfit]), loupeContext_logged hx' hneg hl]
    exact llog_vreg (sec_logged hx' _) _ _ _ _ _

-- Refresh and patrol scrub (R370, R375, R378) ---------------------------------------------------------------------------------------------------

theorem refreshU_pos (s : State) : 0 < refreshU s := by
  unfold refreshU nsU
  split <;> split <;> decide

theorem refresh_spec {s : State} (hr : dramReady s = true) (hd : domOn s 16 = true) (hp : pmState s < 2) :
    Completes (exec .refresh s) (fun t => t.now % refreshU s = 0 ∧ s.now < t.now ∧ t.now ≤ s.now + refreshU s ∧
      t.dram = s.dram ∧ t.regs = s.regs) := by
  have hpos := refreshU_pos s
  have hlt : s.now < (s.now / refreshU s + 1) * refreshU s := by
    rw [Nat.mul_comm]
    exact Nat.lt_mul_div_succ s.now hpos
  have hle : (s.now / refreshU s + 1) * refreshU s ≤ s.now + refreshU s := by
    rw [Nat.add_mul, Nat.one_mul]
    exact Nat.add_le_add_right (Nat.div_mul_le_self _ _) _
  have hnow : (s.advanceTo ((s.now / refreshU s + 1) * refreshU s)).now = (s.now / refreshU s + 1) * refreshU s := by
    rw [advanceTo_now]
    exact Nat.max_eq_right (Nat.le_of_lt hlt)
  refine completes_done ?_
  rw [refresh, if_pos (by simp [hr, hd, hp])]
  exact ⟨(congrArg (· % refreshU s) hnow).trans (Nat.mul_mod_left _ _), hlt.trans_eq hnow.symm, hnow.trans_le hle, rfl, rfl⟩

theorem loneFlag_ddrCe : LoneFlag kDDR_STAT_CE fDDR_SETCNT_CE_N :=
  ⟨rfl, rfl, by decide, by decide, Or.inr (Or.inr (by decide))⟩
theorem loneFlag_ddrUe : LoneFlag kDDR_STAT_UE fDDR_SETCNT_UE_N :=
  ⟨rfl, rfl, by decide, by decide, Or.inr (Or.inr (by decide))⟩
theorem loneFlag_trainfail : LoneFlag kDDR_STAT_TRAINFAIL fDDR_SETCNT_TRAINFAIL_N :=
  ⟨rfl, rfl, by decide, by decide, Or.inr (Or.inr (by decide))⟩
theorem loneFlag_temphi : LoneFlag kDDR_STAT_TEMPHI fDDR_SETCNT_TEMPHI_N :=
  ⟨rfl, rfl, by decide, by decide, Or.inr (Or.inr (by decide))⟩

/-- The state in which the DRAM controller flags a corrected error of a unit. -/
def unitCorrected (s : State) (u : Nat) : State := { s.bump fDDR_CE_CNT_CNT with dramEcc := tdel s.dramEcc u }

theorem dramCheck_clean {s : State} {u : Nat} (h : tget 0 s.dramEcc u = 0) : dramCheck s u = (true, s) := by
  rw [dramCheck, h]
  rfl

theorem dramCheck_ce {s : State} {u : Nat} (h : tget 0 s.dramEcc u = 1) :
    dramCheck s u = (true, raise (unitCorrected s u) kDDR_STAT_CE) := by
  rw [dramCheck, h]
  rfl

theorem dramCheck_ue {s : State} {u : Nat} (h : 2 ≤ tget 0 s.dramEcc u) :
    dramCheck s u = (false, raise ((s.setReg rDDR_UE_ADDR_LO 0 0 (w32 (64 * u))).setReg rDDR_UE_ADDR_HI 0 0
      (w32 (64 * u / 2 ^ 32 % 16))) kDDR_STAT_UE) := by
  unfold dramCheck
  split
  · omega
  · omega
  · rfl

theorem dramCheck_rest (s : State) (u : Nat) :
    (dramCheck s u).2.dram = s.dram ∧ (dramCheck s u).2.now = s.now ∧ (dramCheck s u).2.patrolAt = s.patrolAt := by
  have hraise (x : State) (k : Flag) :
      (raise x k).dram = x.dram ∧ (raise x k).now = x.now ∧ (raise x k).patrolAt = x.patrolAt :=
    have hs := onlySignals_raise x k 0 0
    ⟨hs.field (·.dram) (fun _ _ _ _ _ _ _ _ _ => rfl), hs.field (·.now) (fun _ _ _ _ _ _ _ _ _ => rfl),
      hs.field (·.patrolAt) (fun _ _ _ _ _ _ _ _ _ => rfl)⟩
  unfold dramCheck
  split
  · exact ⟨rfl, rfl, rfl⟩
  · exact hraise _ _
  · exact hraise _ _

/-- The state in which the patrol reads its next unit: its turn in the pass has come. -/
def patrolTurn (s : State) (m : Nat) : State := domUsed (s.advanceTo m) 16

/-- The patrol goes on to the unit after `u` of `n`, or begins its next pass. -/
def patrolOn (u n : Nat) (x : State) : State :=
  if u + 1 < n then { x with patrol := u + 1 } else { x with patrol := 0, patrolAt := x.patrolAt + patrolU x }

theorem patrolOn_field {α : Type} (u n : Nat) (x : State) (g : State → α)
    (hg : ∀ x p a, g { x with patrol := p, patrolAt := a } = g x) : g (patrolOn u n x) = g x := by
  unfold patrolOn
  split
  · exact hg x _ x.patrolAt
  · exact hg x _ _

theorem patrolScrub_eq {s : State} (hr : dramReady s = true) (he : s.fb fDDR_CTL_SCRUBEN = true) (hd : domOn s 16 = true)
    (hp : pmState s < 2) : patrolScrub s = patrolOn s.patrol (s.f fDDR_STATE_SIZE * 2 ^ 24)
      (dramCheck (patrolTurn s (s.patrolAt + s.patrol * patrolU s / (s.f fDDR_STATE_SIZE * 2 ^ 24))) s.patrol).2 := by
  simp only [patrolScrub, hr, he, hd, Nat.not_le.mpr hp, decide_false, Bool.not_true, Bool.or_self, Bool.false_eq_true, if_false,
    patrolOn, patrolTurn]

section
variable {s : State} {u : Nat} (m : Nat)

/-- A unit that the patrol corrects (R378): its error is gone, and it is counted and flagged. -/
theorem patrol_ce (hecc : trising s.dramEcc = true) (h : tget 0 s.dramEcc u = 1) :
    tget 0 (dramCheck (patrolTurn s m) u).2.dramEcc u = 0 ∧ Counted s (dramCheck (patrolTurn s m) u).2 fDDR_CE_CNT_CNT ∧
      Flagged (dramCheck (patrolTurn s m) u).2 kDDR_STAT_CE := by
  rw [dramCheck_ce (show tget 0 (patrolTurn s m).dramEcc u = 1 from h)]
  refine ⟨?_, ?_, loneFlag_ddrCe.flagged _⟩
  · rw [(onlySignals_raise _ _ 0 0).field (·.dramEcc) (fun _ _ _ _ _ _ _ _ _ => rfl)]
    show tget 0 (tdel s.dramEcc u) u = 0
    rw [tget_eq, tfind_tdel_self _ _ hecc]
    rfl
  · have hc : Counted (patrolTurn s m) (raise (unitCorrected (patrolTurn s m) u) kDDR_STAT_CE) fDDR_CE_CNT_CNT :=
      loneFlag_ddrCe.counted_bump rfl (by decide) (by decide) (by decide) (by decide)
    exact hc

/-- A unit that the patrol cannot correct (R378): its address is on record and it is flagged. -/
theorem patrol_ue (h : 2 ≤ tget 0 s.dramEcc u) :
    (dramCheck (patrolTurn s m) u).2.dramEcc = s.dramEcc ∧
      (dramCheck (patrolTurn s m) u).2.reg rDDR_UE_ADDR_LO 0 0 = w32 (64 * u) ∧
      Flagged (dramCheck (patrolTurn s m) u).2 kDDR_STAT_UE := by
  rw [dramCheck_ue (show 2 ≤ tget 0 (patrolTurn s m).dramEcc u from h)]
  refine ⟨?_, ?_, loneFlag_ddrUe.flagged _⟩
  · rw [(onlySignals_raise _ _ 0 0).field (·.dramEcc) (fun _ _ _ _ _ _ _ _ _ => rfl)]
    rfl
  · rw [loneFlag_ddrUe.reg _ (by decide) (by decide) (by decide), reg_setReg_ne _ _ rDDR_UE_ADDR_LO _ _ _ _ _ (by decide),
      reg_setReg_self]

end

/-- What the patrol does with a unit in its turn. -/
theorem patrolOn_spec {s : State} (hecc : trising s.dramEcc = true) (u n m : Nat) :
    let t := settle (patrolOn u n (dramCheck (patrolTurn s m) u).2)
    t.dram = s.dram ∧ t.now = max s.now m ∧ t.patrol = (if u + 1 < n then u + 1 else 0) ∧
      (tget 0 s.dramEcc u = 0 → t.regs = s.regs) ∧
      (tget 0 s.dramEcc u = 1 → tget 0 t.dramEcc u = 0 ∧ Counted s t fDDR_CE_CNT_CNT ∧ Flagged t kDDR_STAT_CE) ∧
      (2 ≤ tget 0 s.dramEcc u → t.dramEcc = s.dramEcc ∧ t.reg rDDR_UE_ADDR_LO 0 0 = w32 (64 * u) ∧ Flagged t kDDR_STAT_UE) := by
  intro t
  obtain ⟨hdram, hnow, -⟩ := dramCheck_rest (patrolTurn s m) u
  have hregs : t.regs = (dramCheck (patrolTurn s m) u).2.regs := patrolOn_field u n _ (·.regs) fun _ _ _ => rfl
  have hreg (r : Reg) : t.reg r 0 0 = (dramCheck (patrolTurn s m) u).2.reg r 0 0 := by rw [State.reg, State.reg, hregs]
  have hf (f : Field) : t.f f = (dramCheck (patrolTurn s m) u).2.f f := by rw [State.f, State.f, hreg]
  have hecct : t.dramEcc = (dramCheck (patrolTurn s m) u).2.dramEcc := patrolOn_field u n _ (·.dramEcc) fun _ _ _ => rfl
  refine ⟨(patrolOn_field u n _ (·.dram) fun _ _ _ => rfl).trans hdram, ?_, ?_, fun h => ?_, fun h => ?_, fun h => ?_⟩
  · exact (patrolOn_field u n _ (·.now) fun _ _ _ => rfl).trans (hnow.trans (advanceTo_now s m))
  · show (patrolOn u n (dramCheck (patrolTurn s m) u).2).patrol = _
    unfold patrolOn
    split <;> rfl
  · rw [hregs, dramCheck_clean (show tget 0 (patrolTurn s m).dramEcc u = 0 from h)]
    rfl
  · rw [hecct, Counted, Flagged, hf, hf]
    exact patrol_ce m hecc h
  · rw [hecct, Flagged, hf, hreg]
    exact patrol_ue m h

theorem patrolScrub_spec {s : State} (hecc : trising s.dramEcc = true) (hr : dramReady s = true)
    (he : s.fb fDDR_CTL_SCRUBEN = true) (hd : domOn s 16 = true) (hp : pmState s < 2) :
    let u := s.patrol
    Completes (exec .patrolScrub s) (fun t => t.dram = s.dram ∧
      t.now = max s.now (s.patrolAt + u * patrolU s / (s.f fDDR_STATE_SIZE * 2 ^ 24)) ∧
      t.patrol = (if u + 1 < s.f fDDR_STATE_SIZE * 2 ^ 24 then u + 1 else 0) ∧
      (tget 0 s.dramEcc u = 0 → t.regs = s.regs) ∧
      (tget 0 s.dramEcc u = 1 → tget 0 t.dramEcc u = 0 ∧ Counted s t fDDR_CE_CNT_CNT ∧ Flagged t kDDR_STAT_CE) ∧
      (2 ≤ tget 0 s.dramEcc u → t.dramEcc = s.dramEcc ∧ t.reg rDDR_UE_ADDR_LO 0 0 = w32 (64 * u) ∧ Flagged t kDDR_STAT_UE)) := by
  intro u
  have hrun : exec .patrolScrub s = done (patrolScrub s) := rfl
  rw [hrun, patrolScrub_eq hr he hd hp]
  exact completes_done (patrolOn_spec hecc _ _ _)

/-- The first part of the statement. -/
theorem scrubAndDebug : Clause.ScrubAndDebug := by
  intro s hp hd
  refine ⟨fun b r hb hs ho hpm => scrub_spec hp b r hb hs ho hpm, fun addr size v hz ha => ⟨fun hm wr => bar2_closed hm wr addr size v,
    fun hm h1 h2 h3 h4 h5 h6 h7 => bar2_open hz ha hm h1 h2 h3 h4 h5 h6 h7⟩, ⟨fun op h => loupe_closed h op, fun b h => loupe_bank h b,
    fun sheet w v h ho hm => loupe_plate h sheet w v ho hm, fun c h hn => loupe_core h c hn⟩,
    fun hr ho hpm => refresh_spec hr ho hpm, fun hr he ho hpm => patrolScrub_spec hd hr he ho hpm⟩

-- Control of the DRAM (R375, R379, R401) ------------------------------------------------------------------------------------------------------------

section
variable (s : State) (v : Word)

/-- What a write of DDR_CTL sets unless LOCK forbids it. -/
def ddrLocked : State :=
  if s.fb fDDR_CTL_LOCK then s
  else (s.setF fDDR_CTL_SCRUBEN (b2n (bit v.toNat 1))).setF fDDR_CTL_LOCK (b2n (bit v.toNat 31))

/-- A write of INIT starts training, where the DRAM's PLL has not failed. -/
def ddrStarts : Bool := bit v.toNat 0 && !s.bist.dram

theorem ddrCtl_eq : ddrCtl s v =
    if ddrStarts s v then ((ddrLocked s v).setF fDDR_STATE_STATE 1).setF fDDR_CTL_INIT 1 else ddrLocked s v := by
  have hb : (ddrLocked s v).bist = s.bist := by
    unfold ddrLocked
    split <;> rfl
  show (if bit v.toNat 0 && !(ddrLocked s v).bist.dram then _ else _) = _
  rw [hb]
  rfl

/-- The other fields of DDR_CTL do not change with INIT. -/
theorem f_ddrCtl {g : Field} (hr : g.reg = rDDR_CTL) (h0 : 0 < g.lo) (hg : g.lo ≤ g.hi) : (ddrCtl s v).f g = (ddrLocked s v).f g := by
  rw [ddrCtl_eq]
  split
  · rw [f_setF_field _ fDDR_CTL_INIT g _ 0 0 (by decide) (by decide) hr (Or.inr h0) hg,
      f_setF_ne _ _ _ _ 0 0 0 0 (by rw [hr]; decide)]
  · rfl

theorem b2n_mod (b : Bool) : b2n b % 2 ^ 1 = b2n b := by cases b <;> rfl

theorem ddrLocked_of_lock (h : s.fb fDDR_CTL_LOCK = true) : ddrLocked s v = s := if_pos h

theorem ddrLocked_of_unlocked (h : s.fb fDDR_CTL_LOCK = false) : ddrLocked s v =
    (s.setF fDDR_CTL_SCRUBEN (b2n (bit v.toNat 1))).setF fDDR_CTL_LOCK (b2n (bit v.toNat 31)) := if_neg (by simp [h])

theorem f_ddrLocked_init : (ddrLocked s v).f fDDR_CTL_INIT = s.f fDDR_CTL_INIT := by
  unfold ddrLocked
  split
  · rfl
  · rw [f_setF_field _ fDDR_CTL_LOCK fDDR_CTL_INIT _ 0 0 (by decide) (by decide) rfl (by decide) (by decide),
      f_setF_field _ fDDR_CTL_SCRUBEN fDDR_CTL_INIT _ 0 0 (by decide) (by decide) rfl (by decide) (by decide)]

theorem f_ddrLocked_state : (ddrLocked s v).f fDDR_STATE_STATE = s.f fDDR_STATE_STATE := by
  unfold ddrLocked
  split
  · rfl
  · rw [f_setF_ne _ _ _ _ 0 0 0 0 (by decide), f_setF_ne _ _ _ _ 0 0 0 0 (by decide)]

theorem fb_ddrCtl_init : (ddrCtl s v).fb fDDR_CTL_INIT = (s.fb fDDR_CTL_INIT || ddrStarts s v) := by
  rw [ddrCtl_eq, State.fb, State.fb]
  split
  · next h =>
    rw [f_setF_self _ _ _ 0 0 (by decide), h, Bool.or_true]
    rfl
  · next h => rw [f_ddrLocked_init, Bool.eq_false_of_not_eq_true h, Bool.or_false]

theorem f_ddrCtl_state : (ddrCtl s v).f fDDR_STATE_STATE = if ddrStarts s v then 1 else s.f fDDR_STATE_STATE := by
  rw [ddrCtl_eq]
  split
  · rw [f_setF_ne _ _ _ _ 0 0 0 0 (by decide), f_setF_self _ _ _ 0 0 (by decide)]
    rfl
  · exact f_ddrLocked_state s v

theorem dram_ddrCtl : (ddrCtl s v).dram = s.dram := by
  rw [ddrCtl_eq, ddrLocked]
  split <;> split <;> rfl

theorem dramGiB_le (cfg : Word) : dramGiB cfg ≤ 64 := by
  have hr : bits cfg.toNat 6 1 ≤ 1 := Nat.le_of_lt_succ (bits_lt _ 6 1)
  have hg : ∀ g, (if bit cfg.toNat 12 then [16, 24, 32] else [8, 16])[bits cfg.toNat 4 2]? = some g → g ≤ 32 := by
    intro g h
    have hm := List.mem_of_getElem? h
    split at hm <;> simp at hm <;> omega
  unfold dramGiB
  dsimp only
  split
  · next g h _ => exact (Nat.mul_le_mul (hg g h) (Nat.add_le_add_left hr 1))
  · next g h _ => exact (Nat.mul_le_mul (Nat.le_trans (Nat.div_le_self g 2) (hg g h)) (Nat.add_le_add_left hr 1))
  · refine Nat.le_trans (Nat.min_le_left _ _) ?_
    split <;> decide

end

theorem trainingEnd_spec {s : State} (h : s.f fDDR_STATE_STATE = 1) (ok : Bool) :
    Completes (exec (.trainingEnd ok) s) (fun t => t.fb fDDR_CTL_INIT = false ∧
      (ok = true → t.f fDDR_STATE_STATE = 2 ∧ t.f fDDR_STATE_SIZE = dramGiB (s.reg rDDR_CFG 0 0)) ∧
      (ok = false → t.f fDDR_STATE_STATE = 3 ∧ Flagged t kDDR_STAT_TRAINFAIL)) := by
  have hg := dramGiB_le (s.reg rDDR_CFG 0 0)
  refine completes_done ?_
  rw [trainingEnd, if_neg (by simp [h])]
  cases ok with
  | true =>
    have hcfg : (s.setF fDDR_CTL_INIT 0).reg rDDR_CFG 0 0 = s.reg rDDR_CFG 0 0 := reg_setF_ne s _ _ _ 0 0 0 0 (by decide)
    refine ⟨?_, fun _ => ⟨?_, ?_⟩, fun e => absurd e (by decide)⟩
    · show (((s.setF fDDR_CTL_INIT 0).setF fDDR_STATE_STATE 2).setF fDDR_STATE_SIZE _).fb fDDR_CTL_INIT = false
      rw [State.fb, f_setF_ne _ _ _ _ 0 0 0 0 (by decide), f_setF_ne _ _ _ _ 0 0 0 0 (by decide), f_setF_self _ _ _ 0 0 (by decide)]
      rfl
    · show (((s.setF fDDR_CTL_INIT 0).setF fDDR_STATE_STATE 2).setF fDDR_STATE_SIZE _).f fDDR_STATE_STATE = 2
      rw [f_setF_field _ fDDR_STATE_SIZE fDDR_STATE_STATE _ 0 0 (by decide) (by decide) rfl (by decide) (by decide), f_setF_self _ _ _ 0 0 (by decide)]
      rfl
    · show (((s.setF fDDR_CTL_INIT 0).setF fDDR_STATE_STATE 2).setF fDDR_STATE_SIZE _).f fDDR_STATE_SIZE = _
      rw [f_setF_self _ _ _ 0 0 (by decide), hcfg]
      exact Nat.mod_eq_of_lt (Nat.lt_of_le_of_lt hg (by decide))
  | false =>
    refine ⟨?_, fun e => absurd e (by decide), fun _ => ⟨?_, loneFlag_trainfail.flagged _⟩⟩
    · show (raise ((s.setF fDDR_CTL_INIT 0).setF fDDR_STATE_STATE 3) kDDR_STAT_TRAINFAIL).fb fDDR_CTL_INIT = false
      rw [State.fb, State.f, loneFlag_trainfail.reg _ (by decide) (by decide) (by decide), ← State.f,
        f_setF_ne _ _ _ _ 0 0 0 0 (by decide), f_setF_self _ _ _ 0 0 (by decide)]
      rfl
    · show (raise ((s.setF fDDR_CTL_INIT 0).setF fDDR_STATE_STATE 3) kDDR_STAT_TRAINFAIL).f fDDR_STATE_STATE = 3
      rw [State.f, loneFlag_trainfail.reg _ (by decide) (by decide) (by decide), ← State.f, f_setF_self _ _ _ 0 0 (by decide)]
      rfl

theorem tempHi_eq (s : State) (hot : Bool) : tempHi s hot =
    if hot && !s.ddrHot then raise { s with ddrHot := hot } kDDR_STAT_TEMPHI else { s with ddrHot := hot } := rfl

/-- The second part of the statement. -/
theorem dramControl : Clause.DramControl := by
  intro s v ok hot
  refine ⟨completes_done ⟨fun h => ?_, ?_, fun h => ?_, ?_, dram_ddrCtl s v⟩, fun h => trainingEnd_spec h ok, completes_done ?_⟩
  · have e (g : Field) (hr : g.reg = rDDR_CTL) (h0 : 0 < g.lo) (hg : g.lo ≤ g.hi) : (ddrCtl s v).f g = s.f g :=
      (f_ddrCtl s v hr h0 hg).trans (congrArg (·.f g) (ddrLocked_of_lock s v h))
    refine ⟨e fDDR_CTL_SCRUBEN rfl (by decide) (by decide), ?_⟩
    rw [← h]
    exact congrArg (· != 0) (e fDDR_CTL_LOCK rfl (by decide) (by decide))
  · exact fb_ddrCtl_init s v
  · have e (g : Field) (hr : g.reg = rDDR_CTL) (h0 : 0 < g.lo) (hg : g.lo ≤ g.hi) :=
      (f_ddrCtl s v hr h0 hg).trans (congrArg (·.f g) (ddrLocked_of_unlocked s v h))
    constructor
    · refine (e fDDR_CTL_SCRUBEN rfl (by decide) (by decide)).trans ?_
      rw [f_setF_field _ fDDR_CTL_LOCK fDDR_CTL_SCRUBEN _ 0 0 (by decide) (by decide) rfl (by decide) (by decide),
        f_setF_self _ _ _ 0 0 (by decide), ← b2n_bit]
      exact b2n_mod _
    · refine (e fDDR_CTL_LOCK rfl (by decide) (by decide)).trans ?_
      rw [f_setF_self _ _ _ 0 0 (by decide), ← b2n_bit]
      exact b2n_mod _
  · refine (f_ddrCtl_state s v).trans (if_congr ?_ rfl rfl)
    simp [ddrStarts]
  · rw [tempHi_eq]
    refine ⟨?_, ?_, fun h1 h2 => ?_, fun h => ?_⟩
    · split
      · exact (onlySignals_raise _ _ 0 0).field (·.ddrHot) (fun _ _ _ _ _ _ _ _ _ => rfl)
      · rfl
    · split
      · exact (onlySignals_raise _ _ 0 0).field (·.dram) (fun _ _ _ _ _ _ _ _ _ => rfl)
      · rfl
    · rw [if_pos (by simp [h1, h2])]
      exact loneFlag_temphi.flagged _
    · rw [if_neg (by simp [h])]
      rfl

/-- Settles O46: the scrubbers, the debug window, the Loupe, refresh and patrol, and the control of the DRAM. -/
theorem dramAndScrubbing : Obligations.DramAndScrubbing := ⟨scrubAndDebug, dramControl⟩

end Sys2Proof.Machine
end

section
/-! PROOFS. What accesses to the memories leave of the rest of the device (R72, R74, R76, R376): the lanes and ports, the state of
the PCIe link, and the rings' commands and completions. -/

namespace Sys2Proof.Machine
open Sys2Proof

-- The rings behind a signal (R195, R203, R299) --------------------------------------------------------------------------------------------

theorem hset_setHset_self (s : State) (n : Nat) (x : HSet) : (s.setHset n x).hset n = x := by
  simp [State.hset, State.setHset]

theorem hset_setHset_ne (s : State) {n m : Nat} (x : HSet) (h : m ≠ n) : (s.setHset n x).hset m = s.hset m := by
  simp [State.hset, State.setHset, tfind_tput_ne _ _ h]

/-- The rings differ in their counts of lost records only, and host memory stays in canonical form. -/
structure SameRings (s t : State) : Prop where
  ring : ∀ n, { t.hset n with lost := (s.hset n).lost } = s.hset n
  wf   : memWf s.host = true → memWf t.host = true

section
variable {s t u : State}

theorem SameRings.trans (h : SameRings s t) (g : SameRings t u) : SameRings s u where
  ring n := by rw [← h.ring n, ← g.ring n]
  wf hs := g.wf (h.wf hs)

theorem SameRings.ite {p : Prop} [Decidable p] (ht : SameRings s t) (hu : SameRings s u) : SameRings s (if p then t else u) := by
  split <;> assumption

theorem SameRings.of_same (hi : t.hi.sets = s.hi.sets) (hh : t.host = s.host) : SameRings s t where
  ring n := by rw [State.hset, State.hset, hi]
  wf h := hh ▸ h

theorem SameRings.refl (s : State) : SameRings s s := .of_same rfl rfl

/-- What the rings hold, but for the count of lost records. -/
theorem SameRings.field {α : Type} (h : SameRings s t) (g : HSet → α) (hg : ∀ x n, g { x with lost := n } = g x) (n : Nat) :
    g (t.hset n) = g (s.hset n) := by rw [← hg (t.hset n) (s.hset n).lost, h.ring]

end

theorem sameRings_foldl {α : Type} (f : State → α → State) (hf : ∀ x a, SameRings x (f x a)) (xs : List α) (s : State) :
    SameRings s (xs.foldl f s) := by
  induction xs generalizing s with
  | nil => exact .refl s
  | cons a xs ih => exact (hf s a).trans (ih _)

theorem sameRings_idleRelease (s : State) (c : Nat) : SameRings s (idleRelease s c) := by
  unfold idleRelease
  dsimp only
  refine .ite ?_ (.refl s)
  apply sameRings_foldl
  exact fun _ _ => .of_same rfl rfl

theorem sameRings_countSet (s : State) (c n : Nat) : SameRings s (countSet s c n) := by
  have h := sameRings_idleRelease s c
  unfold countSet
  dsimp only
  generalize idleRelease s c = x at h
  exact h.trans (.ite (.ite (.of_same rfl rfl) (.of_same rfl rfl)) (.refl x))

theorem sameRings_postMsix (s : State) (v : Nat) : SameRings s (postMsix s v) := ⟨fun _ => rfl, memWf_mwrite _ _ _⟩

theorem sameRings_sendMsix (s : State) (v : Nat) : SameRings s (sendMsix s v) :=
  (SameRings.of_same rfl rfl : SameRings s (s.setVec v { s.vec v with cnt := 0 })).trans
    (.ite (.of_same rfl rfl) (sameRings_postMsix _ v))

theorem sameRings_vecSet (s : State) (v : Nat) : SameRings s (vecSet s v) := by
  unfold vecSet
  dsimp only
  refine .ite (.trans ?_ (sameRings_sendMsix _ v)) (.of_same rfl rfl)
  exact .of_same rfl rfl

theorem sameRings_devSet (s : State) (n : Nat) : SameRings s (devSet s n) := by
  have h := sameRings_countSet s (s.f fIC_ROUTE_CORE (n - 32)) n
  unfold devSet
  dsimp only
  generalize countSet s _ n = x at h
  refine h.trans (.ite (.trans ?_ (sameRings_vecSet _ _)) (.refl x))
  exact .of_same rfl rfl

theorem sameRings_flagOn (s : State) (k : Flag) (i j : Nat) : SameRings s (flagOn s k i j) := by
  unfold flagOn
  cases k.cnt <;> exact .of_same rfl rfl

theorem sameRings_logRecord (s : State) (ws : List Word) : SameRings s (logRecord s ws) := .ite (.of_same rfl rfl) (.refl s)

/-- A record that finds no room is counted as lost in its set. -/
theorem sameRings_lost (s : State) (n k : Nat) : SameRings s (s.setHset n { s.hset n with lost := k }) where
  ring m := by
    by_cases h : m = n
    · subst h
      rw [hset_setHset_self]
    · rw [hset_setHset_ne s _ h]
  wf := id

theorem sameRings_postRec (s : State) (r : EvRec) : SameRings s (postRec s r) := by
  have h : SameRings s (if r.set == 256 then logRecord s r.words else s) := .ite (sameRings_logRecord s _) (.refl s)
  unfold postRec
  dsimp only
  generalize (if r.set == 256 then logRecord s r.words else s) = x at h
  refine h.trans (.ite (.of_same rfl rfl) (.trans (.trans ?_ (sameRings_flagOn _ _ _ _)) (sameRings_devSet _ 37)))
  exact (sameRings_lost x r.set _).trans (.of_same rfl rfl)

theorem sameRings_raise (s : State) (k : Flag) (i j : Nat) : SameRings s (raise s k i j) := by
  unfold raise
  refine (sameRings_flagOn s k i j).trans ?_
  cases k.src with
  | dev n => exact .ite ((sameRings_devSet _ n).trans (sameRings_postRec _ _)) (sameRings_devSet _ n)
  | port => exact sameRings_devSet _ _
  | lane => exact sameRings_devSet _ _
  | core n => exact sameRings_countSet _ _ _
  | none => exact sameRings_postRec _ _

-- Accesses ---------------------------------------------------------------------------------------------------------------------------------

/-- The register of the PCIe link. -/
abbrev linkKey : Nat := rHI_LINK.key 0 0

/-- What an access to a memory, and the signals that it raises, leave: everything but time, registers, interrupt bookkeeping, the
memories and their errors; and of what is left open, the rings, and a PCIe link that is up. -/
structure Accessed (s t : State) : Prop where
  rest  : { t with
    clk := s.clk, regs := s.regs, setAt := s.setAt, cores := s.cores, ctxs := s.ctxs, hi := s.hi, host := s.host, evq := s.evq
    vault := s.vault, sl := s.sl, plate := s.plate, plateEcc := s.plateEcc, poison := s.poison, trayEcc := s.trayEcc
    dram := s.dram, dramEcc := s.dramEcc } = s
  up    : s.fb fHI_LINK_UP = true → t.fb fHI_LINK_UP = true
  rings : SameRings s t

section
variable {s t u : State}

theorem linkUp_of_regs (h : tfind t.regs linkKey = tfind s.regs linkKey) (hs : s.fb fHI_LINK_UP = true) :
    t.fb fHI_LINK_UP = true := by
  have hr : t.reg rHI_LINK 0 0 = s.reg rHI_LINK 0 0 := congrArg (·.getD (rHI_LINK.rst 0 0)) h
  rw [← hs, State.fb, State.fb, State.f, State.f, show fHI_LINK_UP.reg = rHI_LINK from rfl, hr]

theorem Accessed.trans (h : Accessed s t) (g : Accessed t u) : Accessed s u where
  rest := by
    have hs := h.rest
    have ht := g.rest
    rw [← ht] at hs
    exact hs
  up hs := g.up (h.up hs)
  rings := h.rings.trans g.rings

theorem Accessed.ite {p : Prop} [Decidable p] (ht : Accessed s t) (hu : Accessed s u) : Accessed s (if p then t else u) := by
  split <;> assumption

theorem Accessed.refl (s : State) : Accessed s s := ⟨rfl, id, .refl s⟩

theorem Accessed.lanes (h : Accessed s t) : t.lanes = s.lanes := by rw [← h.rest]
theorem Accessed.ports (h : Accessed s t) : t.ports = s.ports := by rw [← h.rest]
theorem Accessed.tray (h : Accessed s t) : t.tray = s.tray := by rw [← h.rest]

theorem Accessed.setF (s : State) (f : Field) (v i : Nat) (h : f.reg.key i 0 < linkKey ∨ linkKey < f.reg.key i 0) :
    Accessed s (s.setF f v i) where
  rest := rfl
  up := linkUp_of_regs (regs_setF s f v i 0 _ (by omega))
  rings := .of_same rfl rfl

theorem Accessed.of_signals (h : OnlySignals s t) (hl : tfind t.regs linkKey = tfind s.regs linkKey) (hr : SameRings s t) :
    Accessed s t where
  rest := by
    unfold OnlySignals at h
    rw [← h]
  up := linkUp_of_regs hl
  rings := hr

theorem Accessed.raise {k : Flag} {c : Field} (hk : LoneFlag k c) (s : State) (h1 : linkKey ≠ k.f.reg.key 0 0)
    (h2 : linkKey ≠ c.reg.key 0 0) : Accessed s (raise s k) :=
  .of_signals (onlySignals_raise s k 0 0) (hk.regs s h1 h2 (by decide)) (sameRings_raise s k 0 0)

theorem Accessed.foldl {β : Type} (f : State → β → State) (hf : ∀ x b, Accessed x (f x b)) (bs : List β) (s : State) :
    Accessed s (bs.foldl f s) := by
  induction bs generalizing s with
  | nil => exact .refl s
  | cons b bs ih => exact (hf s b).trans (ih _)

theorem Accessed.foldl_snd {α β : Type} (f : α × State → β → α × State) (hf : ∀ p b, Accessed p.2 (f p b).2) (bs : List β)
    (p : α × State) : Accessed p.2 (bs.foldl f p).2 := by
  induction bs generalizing p with
  | nil => exact .refl p.2
  | cons b bs ih => exact (hf p b).trans (ih _)

end

-- The Plate (R68, R71, R72, R74) ------------------------------------------------------------------------------------------------------------

theorem Accessed.corrected (s : State) (wa : Nat) : Accessed s (corrected s wa) where
  rest := rfl
  up := linkUp_of_regs
    (regs_setF s fPLT_CE_CNT_CNT _ _ 0 _ fun e => absurd (e ▸ ofPlate_ceCnt wa : ofPlate linkKey) (by decide))
  rings := .of_same rfl rfl

theorem Accessed.plateCe (s : State) (wa : Nat) : Accessed s (plateCe s wa) := by
  obtain ⟨b, h⟩ := plateCe_eq s wa
  rw [h]
  refine ((Accessed.corrected s wa).trans (.raise loneFlag_ce _ (by decide) (by decide))).trans ?_
  exact .ite (.raise loneFlag_cethr _ (by decide) (by decide)) (.refl _)

theorem Accessed.poisoned (s : State) (wa : Nat) : Accessed s (poisoned s wa) :=
  .ite (.refl s) ⟨rfl, id, .of_same rfl rfl⟩

theorem Accessed.plateUe (s : State) (wa m : Nat) : Accessed s (plateUe s wa m) := by
  rw [plateUe_eq]
  refine ((Accessed.poisoned s wa).trans ?_).trans (.raise loneFlag_ue _ (by decide) (by decide))
  exact (((Accessed.setF _ _ _ 0 (by decide)).trans (.setF _ _ _ 0 (by decide))).trans (.setF _ _ _ 0 (by decide))).trans
    (.setF _ _ _ 0 (by decide))

theorem Accessed.plateCheck (s : State) (wa m : Nat) : Accessed s (plateCheck s wa m).2 := by
  unfold Machine.plateCheck
  split
  · exact .refl s
  · split
    · exact .refl s
    · exact .plateCe s wa
    · exact .plateUe s wa m

theorem Accessed.plateReadPhys (s : State) (wa off n m : Nat) : Accessed s (plateReadPhys s wa off n m).2 := by
  have h := Accessed.plateCheck s wa m
  unfold Machine.plateReadPhys
  generalize Machine.plateCheck s wa m = r at h
  obtain ⟨ok, w⟩ := r
  dsimp only
  split <;> exact h

theorem Accessed.putPlateWord (s : State) (wa v : Nat) : Accessed s (putPlateWord s wa v) := ⟨rfl, id, .of_same rfl rfl⟩

theorem Accessed.plateWritePhys (s : State) (wa off n v m : Nat) : Accessed s (plateWritePhys s wa off n v m).2 := by
  have h := Accessed.plateCheck s wa m
  unfold Machine.plateWritePhys
  split
  · exact ⟨rfl, id, .of_same rfl rfl⟩
  · generalize Machine.plateCheck s wa m = r at h
    obtain ⟨ok, w⟩ := r
    dsimp only
    split
    · exact h.trans (.putPlateWord w wa _)
    · exact h

theorem loneFlag_decerr : LoneFlag kMX_STAT_DECERR fMX_SETCNT_DECERR_N := ⟨rfl, rfl, by decide, by decide, Or.inr (Or.inr (by decide))⟩

/-- The address of a lost word is an error of the matrix (R392). -/
theorem Accessed.decodeError (b : Bool) (s : State) : Accessed s (raiseIf b s kMX_STAT_DECERR) :=
  .ite (.raise loneFlag_decerr s (by decide) (by decide)) (.refl s)

theorem Accessed.plateRead (s : State) (m a n k : Nat) : Accessed s (plateRead s m a n k).2 := by
  unfold Machine.plateRead
  split
  · exact .decodeError _ s
  · exact .plateReadPhys s _ _ n k

theorem Accessed.plateWrite (s : State) (m a n v k : Nat) : Accessed s (plateWrite s m a n v k).2 := by
  unfold Machine.plateWrite
  split
  · exact .decodeError _ s
  · exact .plateWritePhys s _ _ n v k

theorem Accessed.sampleOp (s : State) (o : LongOp) : Accessed s (sampleOp s o).2 := by
  unfold Machine.sampleOp
  split
  · exact .refl s
  · next x _ =>
    dsimp only
    have h1 : Accessed s (if tget 0 s.plateEcc x.wa = 0 then s else s.advanceTo (x.cyc * s.cyc)) :=
      .ite (.refl s) ⟨rfl, id, .of_same rfl rfl⟩
    generalize (if tget 0 s.plateEcc x.wa = 0 then s else s.advanceTo (x.cyc * s.cyc)) = w at h1
    have h2 := Accessed.plateReadPhys w x.wa x.off x.size 0
    generalize Machine.plateReadPhys w x.wa x.off x.size 0 = r at h2
    obtain ⟨v, u⟩ := r
    cases v <;> exact h1.trans h2

theorem Accessed.sampleThr (s : State) (x : Thr) (n : Nat) : Accessed s (sampleThr s x n).2 := by
  unfold Machine.sampleThr
  refine Accessed.foldl_snd _ (fun acc o => ?_) x.pend ({ x with pend := [] }, s)
  dsimp only
  split
  · exact .sampleOp acc.2 o
  · exact .refl acc.2

theorem Accessed.sampleDue (s : State) (n : Nat) : Accessed s (sampleDue s n) := by
  unfold Machine.sampleDue
  refine .trans (Accessed.foldl _ (fun x e => ?_) s.ctxs s) (Accessed.foldl _ (fun x e => ?_) _ _)
  · refine .ite ?_ (.refl x)
    exact (Accessed.sampleThr x e.2.thr n).trans ⟨rfl, id, .of_same rfl rfl⟩
  · refine .ite ?_ (.refl x)
    exact (Accessed.sampleThr x e.2.thr n).trans ⟨rfl, id, .of_same rfl rfl⟩

theorem Accessed.feWrite (s : State) (t a : Nat) (bs : List Byte) : Accessed s (feWrite s t a bs).2 := by
  induction bs generalizing s a with
  | nil => exact .refl s
  | cons b bs ih =>
    unfold Machine.feWrite
    split
    · exact .decodeError _ s
    · next wa _ =>
      split
      · exact .refl s
      · have h := Accessed.plateWritePhys s wa (a % 8) 1 b.toNat 1
        generalize Machine.plateWritePhys s wa (a % 8) 1 b.toNat 1 = r at h
        obtain ⟨v, u⟩ := r
        cases v with
        | ok _ => exact h.trans (ih u (a + 1))
        | error _ => exact h

end Sys2Proof.Machine
end

section
/-! PROOFS. What lanes put out (R271, R276, R277): staging and sending a point write, starting a Plate write, its
acknowledgement and the judgement of a point write, and the statement LaneOutputs assembled from them. -/

namespace Sys2Proof.Machine
open Sys2Proof

-- Staging and sending (R271, R277, R292) -----------------------------------------------------------------------------------------------------

section
variable {s : State} {l : Lane} {e : Bool} {dst src : Reg5} {imm : BitVec 16}

/-- A ready thread whose word only changes the thread. -/
theorem FeReady.goes {k : FeCls} (h : FeReady s l e k) {i : Instr} {act : State → FeThr → FeRes} {t : FeThr} {P : FeThr → Prop}
    (hexec : exec i s = feRuns s l e i (Machine.feOp s l e k act)) (hact : act s (feThr s l e) = .go s t 1)
    (hrun : t.run = (feThr s l e).run) (hP : ∀ pc cyc, P { t with pc := pc, cyc := cyc }) :
    LaneRuns s l e i (fun u => FeNext s u l e 1 ∧ OnlyLanes s u ∧ P (feThr u l e)) := by
  refine h.runs hexec ?_
  rw [hact]
  refine ⟨feNext_wentOn rfl (hrun.trans h.run) 1, onlyLanes_setFeThr s l e _, ?_⟩
  simp only [feThr_settle, ranWord, wentOn, feThr_setFeThr_self]
  exact hP _ _

theorem ptv_stages (h : FeReady s l e fePlain) : LaneRuns s l e (.ptv l e dst src imm) (fun t => FeNext s t l e 1 ∧
    OnlyLanes s t ∧ (feThr t l e).sv = some (BitVec.ofNat 64
      (lreg s l e src + if imm.toNat % 2 = 1 then 2 ^ 32 * lreg s l e ((src.val + 1) % 32) else 0))) := by
  refine h.goes (P := fun t => t.sv = _) rfl rfl rfl fun _ _ => ?_
  dsimp only
  split
  · rw [Nat.add_comm, Nat.mul_comm (2 ^ 32)]
    rfl
  · rfl

theorem ptq_stages (h : FeReady s l e fePlain) : LaneRuns s l e (.ptq l e dst src imm) (fun t => FeNext s t l e 1 ∧
    OnlyLanes s t ∧ (feThr t l e).sq = some (lreg s l e src % 65536)) :=
  h.goes (P := fun t => t.sq = _) rfl rfl rfl fun _ _ => rfl

theorem pts_stages (h : FeReady s l e fePlain) : LaneRuns s l e (.pts l e dst src imm) (fun t => FeNext s t l e 1 ∧
    OnlyLanes s t ∧ (feThr t l e).st = some (feStamp s l e)) :=
  h.goes (P := fun t => t.st = _) rfl rfl rfl fun _ _ => rfl

/-- The point write that a thread sends for an owner. -/
def sentWrite (s : State) (l : Lane) (e : Bool) (dst : Reg5) (o : Option Nat) : PtWrite :=
  let t := feThr s l e
  ⟨.fe (if l.val < 6 then 0 else 1), lreg s l e dst % 131072, t.sv, t.sq, some (t.st.getD (feStamp s l e)), o, none,
    .lane l e (t.ptN + 1), 0, none, 0, some (feArr s l e)⟩

/-- The thread of a point write that is sent, and of one that is refused. -/
def sendsThr (s : State) (t : FeThr) : FeThr :=
  { t with pack := false, ptcol := false, ptN := t.ptN + 1, ptwr := some 0, ptDue := t.cyc + judgeTime s }
def refusedThr (t : FeThr) : FeThr := { t with pack := true, ptcol := false }

/-- What a PTWR does: customer code writes the points of its tenant, vendor code those of its record. -/
def ptwrRes (s : State) (l : Lane) (e : Bool) (dst : Reg5) (t : FeThr) : FeRes :=
  match (if customerWord t.pc then t.cust else none) with
  | some o =>
    if (s.pt (lreg s l e dst % 131072)).owner != o then .go (raise s kFE_USTAT_PTREF) (refusedThr t) 1
    else .go { s with ptq := s.ptq ++ [sentWrite s l e dst (some o)] } (sendsThr s t) 1
  | none =>
    if (recPoints s t).contains (lreg s l e dst % 131072) then
      .go { s with ptq := s.ptq ++ [sentWrite s l e dst none] } (sendsThr s t) 1
    else .go s (refusedThr t) 1

theorem FeReady.ptwr (h : FeReady s l e fePost) {P : State → Prop}
    (hP : P (settle (ranWord s l e (ptwrRes s l e dst (feThr s l e))))) : LaneRuns s l e (.ptwr l e dst src imm) P :=
  h.runs rfl hP

theorem ptwr_sends (h : FeReady s l e fePost) {o : Option Nat} (hres : ptwrRes s l e dst (feThr s l e) =
    .go { s with ptq := s.ptq ++ [sentWrite s l e dst o] } (sendsThr s (feThr s l e)) 1) :
    LaneRuns s l e (.ptwr l e dst src imm) (fun t => FeNext s t l e 1 ∧ (feThr t l e).pack = false ∧
      (∃ w, t.ptq = s.ptq ++ [w] ∧ w.src = .fe (if l.val < 6 then 0 else 1) ∧ w.pt = lreg s l e dst % 131072 ∧
        w.val = (feThr s l e).sv ∧ w.q = (feThr s l e).sq ∧ w.ts = some ((feThr s l e).st.getD (feStamp s l e)) ∧
        w.back = .lane l e ((feThr s l e).ptN + 1)) ∧ t.points = s.points) := by
  refine h.ptwr ?_
  rw [hres]
  have hnext := feNext_wentOn (s := s) (u := { s with ptq := s.ptq ++ [sentWrite s l e dst o] }) (t := sendsThr s (feThr s l e))
    (l := l) (e := e) rfl h.run 1
  refine ⟨hnext, ?_, ⟨sentWrite s l e dst o, rfl, rfl, rfl, rfl, rfl, rfl, rfl⟩, rfl⟩
  simp only [feThr_settle, ranWord, wentOn, feThr_setFeThr_self]
  rfl

/-- A thread that runs vendor code has no customer's tenant to write for. -/
theorem ptwrRes_vendor {t : FeThr} (hv : customerWord t.pc = false ∨ t.cust = none) :
    ptwrRes s l e dst t = if (recPoints s t).contains (lreg s l e dst % 131072) then
      .go { s with ptq := s.ptq ++ [sentWrite s l e dst none] } (sendsThr s t) 1 else .go s (refusedThr t) 1 := by
  have hc : (if customerWord t.pc then t.cust else none) = none := by
    rcases hv with hv | hv
    · rw [hv]
      rfl
    · rw [hv, ite_self]
  rw [ptwrRes, hc]

theorem ptwrRes_customer {t : FeThr} {o : Nat} (hc : customerWord t.pc = true) (ho : t.cust = some o) :
    ptwrRes s l e dst t = if (s.pt (lreg s l e dst % 131072)).owner != o then .go (raise s kFE_USTAT_PTREF) (refusedThr t) 1
      else .go { s with ptq := s.ptq ++ [sentWrite s l e dst (some o)] } (sendsThr s t) 1 := by
  rw [ptwrRes, if_pos hc, ho]

theorem unitFlag_ptref : UnitFlag kFE_USTAT_PTREF := ⟨rfl, by decide, fun _ hc => .inr (Option.some.inj hc ▸ rfl)⟩
theorem unitFlag_abort : UnitFlag kFE_USTAT_ABORT := ⟨rfl, by decide, fun _ hc => .inr (Option.some.inj hc ▸ rfl)⟩

/-- Customer code that names another tenant's point is refused, and a flag says so. -/
theorem ptwr_refused (h : FeReady s l e fePost)
    (hres : ptwrRes s l e dst (feThr s l e) = .go (raise s kFE_USTAT_PTREF) (refusedThr (feThr s l e)) 1) :
    LaneRuns s l e (.ptwr l e dst src imm) (fun t => t.ptq = s.ptq ∧ FeNext s t l e 1 ∧
      (feThr t l e).pack = true ∧ (feThr t l e).ptcol = false ∧ Flagged t kFE_USTAT_PTREF) := by
  have hs := onlySignals_raise s kFE_USTAT_PTREF 0 0
  have hflag := (unitFlag_ptref.raise s).1
  have hq : (raise s kFE_USTAT_PTREF).ptq = s.ptq := hs.field (·.ptq) fun _ _ _ _ _ _ _ _ _ => rfl
  refine h.ptwr ?_
  rw [hres]
  generalize raise s kFE_USTAT_PTREF = u at hs hflag hq
  refine ⟨hq, feNext_wentOn (t := refusedThr (feThr s l e)) hs.lanes h.run 1, ?_, ?_, hflag⟩ <;>
    simp only [feThr_settle, ranWord, wentOn, feThr_setFeThr_self] <;> rfl

/-- A vendor write outside the record is dropped. -/
theorem ptwr_dropped (h : FeReady s l e fePost) (hres : ptwrRes s l e dst (feThr s l e) = .go s (refusedThr (feThr s l e)) 1) :
    LaneRuns s l e (.ptwr l e dst src imm) (fun t => t.ptq = s.ptq ∧ FeNext s t l e 1 ∧ OnlyLanes s t) := by
  refine h.ptwr ?_
  rw [hres]
  exact ⟨rfl, feNext_wentOn (t := refusedThr (feThr s l e)) rfl h.run 1, onlyLanes_setFeThr s l e _⟩

-- Starting a Plate write (R271) -----------------------------------------------------------------------------------------------------------------

/-- The record that the last LOOK found. -/
def lookRec (t : FeThr) : Option Nat := match t.look with | some (_, r) => r | none => none

theorem lookRec_some {t : FeThr} {d r : Nat} (h : t.look = some (d, some r)) : lookRec t = some r := by rw [lookRec, h]

theorem lookRec_none {t : FeThr} (h : ∀ d r, t.look ≠ some (d, some r)) : lookRec t = none := by
  unfold lookRec
  split
  · next d r hl =>
    cases r with
    | none => rfl
    | some r => exact absurd hl (h d r)
  · rfl

/-- A word of a Plate write: its acknowledgement is awaited, and without a record it carries nothing. -/
theorem plate_starts (h : FeReady s l e feVendor) {i : Instr} {n : Nat} (hexec : exec i s = feRuns s l e i (fePlate s l e dst src n)) :
    LaneRuns s l e i (fun t => FeNext s t l e 1 ∧ OnlyLanes s t ∧
      (feThr t l e).acks = (feThr s l e).acks ++ [⟨(feThr s l e).cyc + (if s.clk.slow then 19 else 15), lreg s l e 30 % 256,
        lreg s l e dst, if (lookRec (feThr s l e)).isSome then leBytes n (lreg s l e src) else [],
        (lookRec (feThr s l e)).map fun r => (lookKind (feThr s l e).lookTab, r)⟩]) :=
  h.goes (P := fun t => t.acks = _) hexec rfl rfl fun _ _ => rfl

theorem plate_starts_found (h : FeReady s l e feVendor) {i : Instr} {n d r : Nat} (hl : (feThr s l e).look = some (d, some r))
    (hexec : exec i s = feRuns s l e i (fePlate s l e dst src n)) :
    LaneRuns s l e i (fun t => FeNext s t l e 1 ∧ OnlyLanes s t ∧
      (feThr t l e).acks = (feThr s l e).acks ++ [⟨(feThr s l e).cyc + (if s.clk.slow then 19 else 15), lreg s l e 30 % 256,
        lreg s l e dst, leBytes n (lreg s l e src), some (lookKind (feThr s l e).lookTab, r)⟩]) := by
  have hp := plate_starts h hexec
  rw [lookRec_some hl] at hp
  exact hp

theorem plate_starts_none (h : FeReady s l e feVendor) {i : Instr} {n : Nat} (hl : ∀ d r, (feThr s l e).look ≠ some (d, some r))
    (hexec : exec i s = feRuns s l e i (fePlate s l e dst src n)) :
    LaneRuns s l e i (fun t => FeNext s t l e 1 ∧ OnlyLanes s t ∧
      (feThr t l e).acks = (feThr s l e).acks ++ [⟨(feThr s l e).cyc + (if s.clk.slow then 19 else 15), lreg s l e 30 % 256,
        lreg s l e dst, [], none⟩]) := by
  have hp := plate_starts h hexec
  rw [lookRec_none hl] at hp
  exact hp

end

-- The judgement of a point write (R271) --------------------------------------------------------------------------------------------------------

/-- The thread whose point write has been judged. -/
def judgedThr (t : FeThr) : FeThr := { t with pack := true, ptwr := none, cyc := max t.cyc t.ptDue }

/-- An event of a lane reaches thread e where it waits for it, and for egress the ingress thread does not run. -/
theorem feEvent_eq {s : State} {l : Nat} {e : Bool} {waits : FeThr → Bool} {f : FeThr → FeThr} (hrun : (feThr s l e).run = true)
    (hw : waits (feThr s l e) = true) (hi : e = true → (feThr s l false).run = false) :
    feEvent s l waits f = setFeThr s l e (f (feThr s l e)) := by
  unfold feEvent
  cases e with
  | false => simp only [hrun, hw, Bool.and_self, if_true]
  | true => simp only [hi rfl, hrun, hw, Bool.false_and, Bool.and_self, Bool.false_eq_true, if_false, if_true]

theorem judgedAt_idle {t : FeThr} (h : t.run = false) : judgedAt t = none := by
  unfold judgedAt
  split
  · rw [h]
    rfl
  · rfl

theorem judgedAt_back {t : FeThr} {d : Nat} (hrun : t.run = true) (h : t.ptwr = some (d + 1)) : judgedAt t = some (d + 1) := by
  rw [judgedAt, h]
  exact if_pos hrun

theorem ptwrJudged_back {s : State} {l : Lane} {e : Bool} {d : Nat} (hrun : (feThr s l e).run = true)
    (hi : e = true → (feThr s l false).run = false) (hd : (feThr s l e).ptwr = some (d + 1)) :
    Completes (exec (.ptwrJudged l) s) (fun t => (feThr t l e).pack = true ∧ (feThr t l e).ptwr = none ∧
      (feThr t l e).cyc = max (feThr s l e).cyc (feThr s l e).ptDue ∧ t.now = max s.now (d + 1)) := by
  have hj := judgedAt_back hrun hd
  have hat : ((judgedAt (feThr s l false)).orElse fun _ => judgedAt (feThr s l true)) = some (d + 1) := by
    cases e with
    | false => rw [hj]; rfl
    | true => rw [judgedAt_idle (hi rfl), hj]; rfl
  have hev : feEvent (s.advanceTo (d + 1)) l (fun t => (judgedAt t).isSome) judgedThr =
      setFeThr (s.advanceTo (d + 1)) l e (judgedThr (feThr s l e)) :=
    feEvent_eq (s := s.advanceTo (d + 1)) hrun (congrArg Option.isSome hj) hi
  have hx : exec (.ptwrJudged l) s = done (setFeThr (s.advanceTo (d + 1)) l e (judgedThr (feThr s l e))) := by
    show done (match (judgedAt (feThr s l false)).orElse fun _ => judgedAt (feThr s l true) with
      | some d => feEvent (s.advanceTo d) l (fun t => (judgedAt t).isSome) judgedThr
      | none => s) = _
    rw [hat, ← hev]
  rw [hx]
  refine completes_done ?_
  simp only [feThr_settle, feThr_setFeThr_self]
  exact ⟨rfl, rfl, rfl, advanceTo_now s _⟩

-- A Plate write lands (R24, R74, R78, R271) --------------------------------------------------------------------------------------------------------

theorem tput_tput {α : Type} (t : Tab α) (k : Nat) (a b : α) : tput (tput t k a) k b = tput t k b := by
  induction t with
  | nil => simp [tput]
  | cons x t ih =>
    obtain ⟨n, v⟩ := x
    by_cases h1 : k < n
    · simp [tput, h1]
    · by_cases h2 : k = n
      · simp [tput, h2]
      · simp [tput, h1, h2, ih]

theorem setFeThr_setFeThr (s : State) (l : Nat) (e : Bool) (t u : FeThr) :
    setFeThr (setFeThr s l e t) l e u = setFeThr s l e u := by
  have hx : ((s.lane l).withThr e t).withThr e u = (s.lane l).withThr e u := by cases e <;> rfl
  rw [setFeThr_eq (setFeThr s l e t), lane_setFeThr_self, hx, setFeThr_eq s, setFeThr_eq s]
  simp only [State.setLane, tput_tput]

/-- What a Plate write that cannot land leaves: a count, a flag, and a count against its stream. -/
def ringDropped (s : State) (l : Nat) (rc : Option (Nat × Nat)) : State :=
  let u := laneCount s l fFE_RINGDROP_CNT_CNT kFE_LSTAT_RINGDROP
  match rc with
  | some (k, i) => recDrop u k i
  | none => u

/-- The attempt of a Plate write that is acknowledged: 0, or why it does not land. -/
def landing (s : State) (a : FePlw) : Nat × State := feWrite (sampleDue s s.nowCyc) a.ten a.at_ a.bs

theorem Accessed.landing (s : State) (a : FePlw) : Accessed s (landing s a).2 := (Accessed.sampleDue _ _).trans (.feWrite _ _ _ _)

/-- A Plate write that is acknowledged: it lands, is dropped and counted, or meets poison. -/
def landed (s : State) (l : Nat) (a : FePlw) : Bool × State :=
  match landing s a with
  | (0, s) => (true, s)
  | (3, s) => (false, s)
  | (_, s) => (true, ringDropped s l a.rc)

theorem landed_ok {s : State} {l : Nat} {a : FePlw} (h : (landing s a).1 = 0) : landed s l a = (true, (landing s a).2) := by
  unfold landed
  generalize landing s a = w at h
  obtain ⟨n, u⟩ := w
  subst h
  rfl

theorem landed_poison {s : State} {l : Nat} {a : FePlw} (h : (landing s a).1 = 3) : landed s l a = (false, (landing s a).2) := by
  unfold landed
  generalize landing s a = w at h
  obtain ⟨n, u⟩ := w
  subst h
  rfl

theorem landed_dropped {s : State} {l : Nat} {a : FePlw} (h0 : (landing s a).1 ≠ 0) (h3 : (landing s a).1 ≠ 3) :
    landed s l a = (true, ringDropped (landing s a).2 l a.rc) := by
  unfold landed
  generalize landing s a = w at h0 h3
  obtain ⟨n, u⟩ := w
  match n, h0, h3 with
  | 1, _, _ => rfl
  | 2, _, _ => rfl
  | n + 4, _, _ => rfl

/-- Where only the oldest write is due, it is the only one that lands. -/
theorem feLand_oldest {s : State} {l : Nat} {e : Bool} {a : FePlw} {r : List FePlw} (ha : (feThr s l e).acks = a :: r)
    (hr : ∀ b ∈ r, a.due < b.due) :
    feLand s l e a.due = landed (setFeThr s l e { feThr s l e with acks := r }) l a := by
  have hdue : ((a :: r).filter fun w => decide (w.due ≤ a.due)) = [a] := by
    rw [List.filter_cons_of_pos (by simp), List.filter_eq_nil_iff.mpr]
    exact fun b hb => by simpa using hr b hb
  have hrest : ((a :: r).filter fun w => !decide (w.due ≤ a.due)) = r := by
    rw [List.filter_cons_of_neg (by simp), List.filter_eq_self]
    exact fun b hb => by simpa using hr b hb
  unfold feLand
  simp only [ha, List.partition_eq_filter_filter, hdue, Function.comp_def, hrest]
  rw [if_neg (by simp), List.foldl_cons, List.foldl_nil]
  dsimp only
  unfold landed landing
  generalize feWrite _ a.ten a.at_ a.bs = w
  obtain ⟨n, u⟩ := w
  match n with
  | 0 => rfl
  | 3 => rfl
  | 1 => rfl
  | 2 => rfl
  | n + 4 => rfl


theorem ringDropped_spec (s : State) (l : Lane) (rc : Option (Nat × Nat)) :
    Flagged (ringDropped s l rc) kFE_LSTAT_RINGDROP l ∧ (ringDropped s l rc).lanes = s.lanes ∧
      (ringDropped s l rc).plate = s.plate ∧ (ringDropped s l rc).poison = s.poison := by
  obtain ⟨-, hflag, hlanes⟩ := laneCount_spec s l laneCounter_ringdrop
  have hs : OnlySignals (s.bump fFE_RINGDROP_CNT_CNT l) (laneCount s l fFE_RINGDROP_CNT_CNT kFE_LSTAT_RINGDROP) :=
    onlySignals_raise _ _ _ _
  have hpoison := hs.field (·.poison) fun _ _ _ _ _ _ _ _ _ => rfl
  have hplate := hs.plate
  unfold ringDropped
  cases rc with
  | none => exact ⟨hflag, hlanes, hplate, hpoison⟩
  | some x => exact ⟨hflag, hlanes, hplate, hpoison⟩

-- A routine that is abandoned (R276) ---------------------------------------------------------------------------------------------------------------

/-- A frame that leaves its queue changes ports, and the count of refused frames. -/
theorem popFrame_rest (s : State) (l : Nat) : { popFrame s l with ports := s.ports, regs := s.regs } = s := by
  unfold popFrame
  dsimp only
  split
  · split <;> rfl
  · rfl

theorem popFrame_ing (s : State) (l : Nat) : ((popFrame s l).port l).ing = (s.port l).ing.drop 1 ∨
    ∃ q, (s.port l).lateIn = some q ∧ ((popFrame s l).port l).ing = (s.port l).ing.drop 1 ++ [q] := by
  have hport : ∀ (u : State) (f : Field) (p : Nat), (uncount u f p).port l = u.port l := fun _ _ _ => rfl
  unfold popFrame
  dsimp only
  rw [port_modPort_self]
  dsimp only
  split
  · next q hq =>
    split
    · exact .inr ⟨q, hq, by rw [hport, port_modPort_self, port_modPort_self]⟩
    · exact .inl (by rw [port_modPort_self])
  · exact .inl (by rw [port_modPort_self])

theorem popFrame_regs (s : State) (l n : Nat) (h : n ≠ fEP_RXQ_CNT_CNT.reg.key l 0) :
    tfind (popFrame s l).regs n = tfind s.regs n := by
  have hun : ∀ u : State, tfind (uncount u fEP_RXQ_CNT_CNT l).regs n = tfind u.regs n := fun u => regs_setF u _ _ _ _ n h
  unfold popFrame
  dsimp only
  split
  · split
    · rw [hun]
      rfl
    · rfl
  · rfl

section
variable (s : State) (l : Nat) (e : Bool)

theorem endThread_rest : { endThread s l e with ports := s.ports, regs := s.regs, lanes := s.lanes } = s := by
  cases e with
  | true => rfl
  | false => exact congrArg (fun u : State => { u with ports := s.ports, regs := s.regs, lanes := s.lanes }) (popFrame_rest _ l)

theorem endThread_run : (feThr (endThread s l e) l e).run = false := by
  cases e with
  | true =>
    have h : (endThread s l true).lanes = (setFeThr s l true { FeThr.init with ptN := (feThr s l true).ptN }).lanes := rfl
    rw [feThr_lanes h, feThr_setFeThr_self]
    rfl
  | false =>
    have h := fun u => congrArg State.lanes (popFrame_rest u l)
    have hl : ∀ u, (popFrame u l).lanes = u.lanes := h
    unfold endThread
    simp only [Bool.false_eq_true, if_false]
    rw [feThr_lanes (hl _)]
    simp [feThr, LaneSt.withThr, FeThr.init]

theorem endThread_ing : ((endThread s l false).port l).ing = (s.port l).ing.drop 1 ∨
    ∃ q, (s.port l).lateIn = some q ∧ ((endThread s l false).port l).ing = (s.port l).ing.drop 1 ++ [q] :=
  popFrame_ing _ l

theorem endThread_regs (n : Nat) (h : n ≠ fEP_RXQ_CNT_CNT.reg.key l 0) : tfind (endThread s l e).regs n = tfind s.regs n := by
  cases e with
  | true => rfl
  | false => exact popFrame_regs _ l n h

end

/-- The record of an abandonment: its cause and its flag; the lanes, the ports and the Plate stand. -/
theorem abandonRec_spec (s : State) (l : Lane) (t : FeThr) {c : Nat} (hc : c < 16) :
    (abandonRec s l t c).f fFE_LABORT_CAUSE l = c ∧ Flagged (abandonRec s l t c) kFE_USTAT_ABORT ∧
      (abandonRec s l t c).lanes = s.lanes ∧ (abandonRec s l t c).ports = s.ports ∧ (abandonRec s l t c).plate = s.plate ∧
      (abandonRec s l t c).poison = s.poison := by
  have hl := l.isLt
  have hcause : ∀ u : State, ((u.setF fFE_LABORT_CAUSE c l).bump fFE_LABORT_CNT_CNT l).f fFE_LABORT_CAUSE l = c := fun u => by
    have hne : fFE_LABORT_CAUSE.reg.key l 0 ≠ fFE_LABORT_CNT_CNT.reg.key l 0 := by
      simp only [Reg.key, fFE_LABORT_CAUSE, rFE_LABORT, fFE_LABORT_CNT_CNT, rFE_LABORT_CNT]
      omega
    rw [State.bump, f_setF_ne _ _ _ _ _ _ _ _ hne, f_setF_self _ _ _ _ _ (by decide)]
    exact Nat.mod_eq_of_lt hc
  have hkey : fFE_LABORT_CAUSE.reg.key l 0 = 0x510020 + 4096 * l := by
    simp only [Reg.key, fFE_LABORT_CAUSE, rFE_LABORT]
    omega
  unfold abandonRec
  refine ⟨?_, (unitFlag_abort.raise _).1, (onlySignals_raise _ _ _ _).lanes, (onlySignals_raise _ _ _ _).ports,
    (onlySignals_raise _ _ _ _).plate, (onlySignals_raise _ _ _ _).field (·.poison) fun _ _ _ _ _ _ _ _ _ => rfl⟩
  rw [f_raise_ne]
  · exact hcause _
  · rw [hkey]
    simp only [Reg.key, kFE_USTAT_ABORT, fFE_USTAT_ABORT, rFE_USTAT]
    omega
  · intro d hd
    obtain rfl : fFE_USETCNT1_ABORT_N = d := Option.some.inj hd
    rw [hkey]
    simp only [Reg.key, fFE_USETCNT1_ABORT_N, rFE_USETCNT1]
    omega
  · rw [hkey]
    exact not_sideKey (by omega)

/-- An egress routine's frame is lost with it. -/
def frameLost (s : State) (l : Nat) (e : Bool) : State :=
  if e && (feThr s l e).build.isSome then s.bump fEP_TXLOST_CNT_CNT l else s

/-- A routine that runs and awaits no Plate write ends, and its abandonment is recorded. -/
theorem abandon_eq {s : State} {l : Nat} {e : Bool} (hrun : (feThr s l e).run = true) (hacks : (feThr s l e).acks = []) (c : Nat) :
    abandon s l e c = endThread (abandonRec (frameLost s l e) l (feThr s l e) c) l e := by
  unfold abandon
  dsimp only
  rw [feLand_none (by rw [hacks]; exact fun _ h => absurd h List.not_mem_nil), hrun]
  rfl

theorem abandon_spec {s : State} {l : Lane} {e : Bool} (hrun : (feThr s l e).run = true) (hacks : (feThr s l e).acks = []) {c : Nat}
    (hc : c < 16) : (feThr (abandon s l e c) l e).run = false ∧ (e = false → RoutineOver s (abandon s l e c) l) ∧
      (abandon s l e c).f fFE_LABORT_CAUSE l = c ∧ Flagged (abandon s l e c) kFE_USTAT_ABORT ∧
      (abandon s l e c).plate = s.plate ∧ (abandon s l e c).poison = s.poison := by
  have hl := l.isLt
  have hlost : (frameLost s l e).ports = s.ports ∧ (frameLost s l e).plate = s.plate ∧ (frameLost s l e).poison = s.poison := by
    unfold frameLost
    split <;> exact ⟨rfl, rfl, rfl⟩
  obtain ⟨hports', hplate', hpoison'⟩ := hlost
  obtain ⟨hcause, hflag, -, hports, hplate, hpoison⟩ := abandonRec_spec (frameLost s l e) l (feThr s l e) hc
  rw [abandon_eq hrun hacks]
  generalize abandonRec (frameLost s l e) l (feThr s l e) c = u at hcause hflag hports hplate hpoison ⊢
  have hover := endThread_run u l e
  have hrest := endThread_rest u l e
  have hport : u.port l = s.port l := by simp only [State.port, hports, hports']
  have hkeep : ∀ (f : Field) (i : Nat), f.reg.key i 0 ≠ fEP_RXQ_CNT_CNT.reg.key l 0 → (endThread u l e).f f i = u.f f i :=
    fun f i h => by simp only [State.f, State.reg, endThread_regs u l e _ h]
  refine ⟨hover, ?_, (hkeep _ _ ?_).trans hcause, (hkeep _ _ ?_).trans hflag, ?_, ?_⟩
  · rintro rfl
    refine ⟨hover, ?_⟩
    rw [← hport]
    exact endThread_ing u l
  · simp only [Reg.key, fFE_LABORT_CAUSE, rFE_LABORT, fEP_RXQ_CNT_CNT, rEP_RXQ_CNT]
    omega
  · simp only [Reg.key, kFE_USTAT_ABORT, fFE_USTAT_ABORT, rFE_USTAT, fEP_RXQ_CNT_CNT, rEP_RXQ_CNT]
    omega
  · exact (congrArg State.plate hrest).trans (hplate.trans hplate')
  · exact (congrArg State.poison hrest).trans (hpoison.trans hpoison')

-- An acknowledgement (R271) ------------------------------------------------------------------------------------------------------------------------

/-- The lane with the thread's clock at the acknowledgement, before the write lands. -/
def ackedAt (s : State) (l : Nat) (e : Bool) (a : FePlw) (r : List FePlw) : State :=
  setFeThr s l e { feThr s l e with cyc := max (feThr s l e).cyc a.due, acks := r }

theorem feThr_landing (s : State) (l : Nat) (e : Bool) (a : FePlw) (r : List FePlw) {u : State}
    (h : u.lanes = (landing (ackedAt s l e a r) a).2.lanes) :
    feThr u l e = { feThr s l e with cyc := max (feThr s l e).cyc a.due, acks := r } := by
  rw [feThr_lanes (h.trans (Accessed.landing _ _).lanes), ackedAt, feThr_setFeThr_self]

section
variable {s : State} {l : Lane} {e : Bool} (hrun : (feThr s l e).run = true) (hi : e = true → (feThr s l false).run = false)
  {a : FePlw} {r : List FePlw} (ha : (feThr s l e).acks = a :: r) (hr : ∀ b ∈ r, a.due < b.due)
include hrun hi ha hr

theorem plateWriteAck_eq : exec (.plateWriteAck l) s = done (match landed (ackedAt s l e a r) l a with
    | (true, u) => u
    | (false, u) => abandon u l e abUE) := by
  have hold : ackOldest s l e = match landed (ackedAt s l e a r) l a with
      | (true, u) => u
      | (false, u) => abandon u l e abUE := by
    unfold ackOldest
    rw [ha]
    dsimp only
    rw [feLand_oldest (a := a) (r := r) (by rw [feThr_setFeThr_self]; exact ha) hr, setFeThr_setFeThr, feThr_setFeThr_self]
    rfl
  rw [← hold]
  show done _ = _
  cases e with
  | false => rw [hrun, ha]; rfl
  | true =>
    rw [hi rfl, hrun]
    rfl

/-- A write that meets no poison: the thread awaits the others, and one that was dropped has set the lane's flag. -/
theorem plateWriteAck_lands (h3 : (landing (ackedAt s l e a r) a).1 ≠ 3) :
    Completes (exec (.plateWriteAck l) s) (fun t => t.plate = (landing (ackedAt s l e a r) a).2.plate ∧
      t.poison = (landing (ackedAt s l e a r) a).2.poison ∧ (feThr t l e).acks = r ∧
      (feThr t l e).cyc = max (feThr s l e).cyc a.due ∧
      ((landing (ackedAt s l e a r) a).1 ≠ 0 → Flagged t kFE_LSTAT_RINGDROP l)) := by
  rw [plateWriteAck_eq hrun hi ha hr]
  refine completes_done ?_
  by_cases h0 : (landing (ackedAt s l e a r) a).1 = 0
  · rw [landed_ok h0]
    have hthr := feThr_landing s l e a r (u := settle (landing (ackedAt s l e a r) a).2) rfl
    exact ⟨rfl, rfl, by rw [hthr], by rw [hthr], fun h => absurd h0 h⟩
  · rw [landed_dropped h0 h3]
    obtain ⟨hflag, hlanes, hplate, hpoison⟩ := ringDropped_spec (landing (ackedAt s l e a r) a).2 l a.rc
    have hthr := feThr_landing s l e a r (u := settle (ringDropped (landing (ackedAt s l e a r) a).2 l a.rc)) hlanes
    exact ⟨hplate, hpoison, by rw [hthr], by rw [hthr], fun _ => hflag⟩

/-- A write that meets poison: its routine is abandoned. -/
theorem plateWriteAck_poison (h3 : (landing (ackedAt s l e a r) a).1 = 3) (hlast : r = []) :
    Completes (exec (.plateWriteAck l) s) (fun t => t.plate = (landing (ackedAt s l e a r) a).2.plate ∧
      t.poison = (landing (ackedAt s l e a r) a).2.poison ∧ (feThr t l e).run = false ∧ (e = false → RoutineOver s t l) ∧
      t.f fFE_LABORT_CAUSE l = 2 ∧ Flagged t kFE_USTAT_ABORT) := by
  have hacc := Accessed.landing (ackedAt s l e a r) a
  have hthr := feThr_landing s l e a r (u := (landing (ackedAt s l e a r) a).2) rfl
  have hport : (landing (ackedAt s l e a r) a).2.port l = s.port l := by
    simp only [State.port, hacc.ports]
    rfl
  rw [plateWriteAck_eq hrun hi ha hr, landed_poison h3]
  refine completes_done ?_
  generalize (landing (ackedAt s l e a r) a).2 = u at hthr hport ⊢
  obtain ⟨hend, hover, hcause, hflag, hplate, hpoison⟩ := abandon_spec (s := u) (l := l) (e := e) (by rw [hthr]; exact hrun)
    (by rw [hthr]; exact hlast) (c := abUE) (by decide)
  refine ⟨hplate, hpoison, hend, fun he => ?_, hcause, hflag⟩
  obtain ⟨hrun', hing⟩ := hover he
  rw [hport] at hing
  exact ⟨hrun', hing⟩

end

/-- Settles O31: every word's outcome is that of its microword, and a Plate write's acknowledgement lands the oldest write. -/
theorem laneOutputs : Obligations.LaneOutputs := by
  unfold Obligations.LaneOutputs
  intro s l e dst src imm
  refine ⟨fun h => ⟨ptv_stages h, ptq_stages h, pts_stages h⟩, fun h => ⟨?_, ?_, ?_⟩, fun h => ⟨?_, ?_⟩, fun hrun hi => ⟨?_, ?_⟩⟩
  · exact fun hv hc => ptwr_sends h (o := none) (by rw [ptwrRes_vendor hv, if_pos hc])
  · exact fun hv hc => ptwr_dropped h (by rw [ptwrRes_vendor hv, hc]; rfl)
  · refine fun hc o ho => ⟨fun hown => ?_, fun hown => ?_⟩
    · exact ptwr_sends h (o := some o) (by rw [ptwrRes_customer hc ho, hown, bne_self_eq_false]; rfl)
    · exact ptwr_refused h (by rw [ptwrRes_customer hc ho, if_pos (bne_iff_ne.mpr hown)])
  · exact fun d r hl => ⟨plate_starts_found h hl rfl, plate_starts_found h hl rfl⟩
  · exact fun hl => ⟨plate_starts_none h hl rfl, plate_starts_none h hl rfl⟩
  · exact fun d hd => ptwrJudged_back hrun hi hd
  · exact fun a r ha hr => ⟨plateWriteAck_lands hrun hi ha hr, plateWriteAck_poison hrun hi ha hr⟩

end Sys2Proof.Machine
end

section
/-! PROOFS. The commands of the rings (R330–R335): what moves of memory leave of the rings, when the head command of a set acts, and
how its end and its wait show in the set. -/

namespace Sys2Proof.Machine
open Sys2Proof

-- Moves of memory (R332) ------------------------------------------------------------------------------------------------------------------

theorem Accessed.plateOut (t n a : Nat) (s : State) (acc : List Byte) : Accessed s (plateOut t n a s acc).1 := by
  induction n generalizing a s acc with
  | zero => exact .refl s
  | succ n ih =>
    have h := Accessed.plateRead s t a 8 2
    unfold Machine.plateOut
    generalize Machine.plateRead s t a 8 2 = r at h
    obtain ⟨v, u⟩ := r
    cases v with
    | ok v => exact h.trans (ih _ u _)
    | error e => exact h

theorem Accessed.plateIn (t : Nat) (bs : List Byte) (n a k : Nat) (s : State) : Accessed s (plateIn t bs n a k s).1 := by
  induction n generalizing a k s with
  | zero => exact .refl s
  | succ n ih =>
    have h := (Accessed.sampleDue s s.nowCyc).trans (.plateWrite (Machine.sampleDue s s.nowCyc) t a 8 (imgVal bs k 8) 2)
    unfold Machine.plateIn
    generalize Machine.plateWrite (Machine.sampleDue s s.nowCyc) t a 8 (imgVal bs k 8) 2 = r at h
    obtain ⟨v, u⟩ := r
    cases v with
    | ok v => exact h.trans (ih _ _ u)
    | error e => exact h

/-- The counts of Tray errors saturate: none of them, at any index, brings a link down. -/
theorem linkUp_bump_trayErr (s : State) (c : Nat) {f : Field} (hf : f = fPLT_TRAY_ERR_CE ∨ f = fPLT_TRAY_ERR_UE)
    (h : s.fb fHI_LINK_UP = true) : (s.bump f c).fb fHI_LINK_UP = true := by
  by_cases hk : f.reg.key c 0 = linkKey
  · have hreg : ∀ u : State, (u.reg f.reg c 0).toNat / 2 ^ 31 % 2 = u.f fHI_LINK_UP := fun u => by
      have hr : u.reg f.reg c 0 = u.reg rHI_LINK 0 0 := by
        have hrst : f.reg.rst c 0 = rHI_LINK.rst 0 0 := by rcases hf with rfl | rfl <;> rfl
        rw [State.reg, State.reg, hk, hrst]
      rw [hr]
      rfl
    have hup : (s.reg f.reg c 0).toNat / 2 ^ 31 % 2 ≠ 0 := by
      rw [hreg s]
      simpa [State.fb] using h
    have hw : ((s.bump f c).reg f.reg c 0) = f.ins (s.reg f.reg c 0) (min (s.f f c + 1) (2 ^ f.w - 1)) := reg_setReg_self s _ _ _ _
    have hlt := (s.reg f.reg c 0).isLt
    have hnew : ((s.bump f c).reg f.reg c 0).toNat / 2 ^ 31 % 2 ≠ 0 := by
      rw [hw]
      rcases hf with rfl | rfl
      · have hb := bits_ins_other fPLT_TRAY_ERR_CE (s.reg rPLT_TRAY_ERR c 0) (min (s.f fPLT_TRAY_ERR_CE c + 1) (2 ^ 16 - 1)) 31 1
          (by decide) (by decide) (by decide)
        simp only [bits] at hb
        exact hb ▸ hup
      · have hb := bits_ins fPLT_TRAY_ERR_UE (s.reg rPLT_TRAY_ERR c 0) (min (s.f fPLT_TRAY_ERR_UE c + 1) (2 ^ 16 - 1)) (by decide)
        simp only [bits, State.f, show fPLT_TRAY_ERR_UE.lo = 16 from rfl, show fPLT_TRAY_ERR_UE.w = 16 from rfl,
          show fPLT_TRAY_ERR_UE.reg = rPLT_TRAY_ERR from rfl] at hb hup hlt ⊢
        generalize (fPLT_TRAY_ERR_UE.ins _ _).toNat = y at hb ⊢
        generalize (s.reg rPLT_TRAY_ERR c 0).toNat = x at hb hup hlt
        omega
    rw [hreg] at hnew
    simpa [State.fb] using hnew
  · exact linkUp_of_regs (regs_setF s f _ c 0 _ (Ne.symm hk)) h

theorem Accessed.trayErr (s : State) (c : Nat) (x : Tab Nat) {f : Field} (hf : f = fPLT_TRAY_ERR_CE ∨ f = fPLT_TRAY_ERR_UE) :
    Accessed s { s.bump f c with trayEcc := x } := ⟨rfl, linkUp_bump_trayErr s c hf, .of_same rfl rfl⟩

theorem Accessed.trayCheck (s : State) (c a : Nat) : Accessed s (trayCheck s c a).2 := by
  unfold Machine.trayCheck
  split
  · exact .refl s
  · exact .trayErr s c _ (.inl rfl)
  · exact .trayErr s c s.trayEcc (.inr rfl)

theorem Accessed.trayOut (c n a : Nat) (s : State) (acc : List Byte) : Accessed s (trayOut c n a s acc).1 := by
  induction n generalizing a s acc with
  | zero => exact .refl s
  | succ n ih =>
    have h := Accessed.trayCheck s c a
    unfold Machine.trayOut
    generalize Machine.trayCheck s c a = r at h
    obtain ⟨ok, u⟩ := r
    cases ok with
    | true => exact h.trans (ih _ u _)
    | false => exact h

theorem Accessed.dramCheck (s : State) (u : Nat) : Accessed s (dramCheck s u).2 := by
  unfold Machine.dramCheck
  split
  · exact .refl s
  · refine .trans ?_ (.raise loneFlag_ddrCe _ (by decide) (by decide))
    exact (Accessed.setF s fDDR_CE_CNT_CNT _ 0 (by decide)).trans ⟨rfl, id, .of_same rfl rfl⟩
  · refine .trans (t := (s.setReg rDDR_UE_ADDR_LO 0 0 _).setReg rDDR_UE_ADDR_HI 0 0 _) ?_
      (.raise loneFlag_ddrUe _ (by decide) (by decide))
    refine ⟨rfl, linkUp_of_regs ?_, .of_same rfl rfl⟩
    exact (tfind_tput_ne _ _ (by decide)).trans (tfind_tput_ne _ _ (by decide))

theorem dramRead_snd (s : State) (o p n : Nat) : (dramRead s o p n).2 = (dramCheck s (p / 64)).2 := by
  unfold dramRead
  generalize dramCheck s (p / 64) = r
  obtain ⟨ok, u⟩ := r
  cases ok <;> rfl

/-- What holds of a state and stays with every check of a unit stays with a read of the window. -/
theorem dramOut_keeps {P : State → Prop} (hP : ∀ s u, P s → P (dramCheck s u).2) (t m off n : Nat) (s : State) (acc : List Byte)
    (h : P s) : P (dramOut t m off n s acc).1 := by
  induction m generalizing off n s acc with
  | zero => exact h
  | succ m ih =>
    unfold dramOut
    split
    · exact h
    · split
      · exact h
      · next p _ =>
        have hr : P (dramRead s t p (dramRun p n)).2 := dramRead_snd s t p _ ▸ hP s _ h
        dsimp only
        generalize dramRead s t p (dramRun p n) = r at hr
        obtain ⟨v, u⟩ := r
        cases v with
        | some v => exact ih _ _ u _ hr
        | none => exact hr

theorem Accessed.dramOut (t m off n : Nat) (s : State) (acc : List Byte) : Accessed s (dramOut t m off n s acc).1 :=
  dramOut_keeps (P := Accessed s) (fun x u h => h.trans (.dramCheck x u)) t m off n s acc (.refl s)

theorem dram_dramOut (t m off n : Nat) (s : State) (acc : List Byte) : (dramOut t m off n s acc).1.dram = s.dram :=
  dramOut_keeps (P := fun x => x.dram = s.dram) (fun x u h => (dramCheck_rest x u).1.trans h) t m off n s acc rfl

theorem Accessed.dramWrite (s : State) (o p n v : Nat) : Accessed s (dramWrite s o p n v) := by
  unfold Machine.dramWrite
  exact .ite ⟨rfl, id, .of_same rfl rfl⟩ ⟨rfl, id, .of_same rfl rfl⟩

theorem Accessed.dramIn (t : Nat) (bs : List Byte) (m off i : Nat) (s : State) : Accessed s (dramIn t bs m off i s).1 := by
  induction m generalizing off i s with
  | zero => exact .refl s
  | succ m ih =>
    unfold Machine.dramIn
    split
    · exact .refl s
    · split
      · exact .refl s
      · next p _ =>
        dsimp only
        have h : Accessed s (if dramRun p (bs.length - i) = 64 then (true, s) else Machine.dramCheck s (p / 64)).2 := by
          split
          · exact .refl s
          · exact .dramCheck s _
        generalize (if dramRun p (bs.length - i) = 64 then (true, s) else Machine.dramCheck s (p / 64)) = r at h
        obtain ⟨ok, u⟩ := r
        cases ok with
        | true => exact (h.trans (.dramWrite u _ _ _ _)).trans (ih _ _ _)
        | false => exact h

-- Host memory (R320) -------------------------------------------------------------------------------------------------------------------------

theorem sameRings_hostWrite (s : State) (a : Nat) (bs : List Byte) : SameRings s (hostWrite s a bs) :=
  .ite ⟨fun _ => rfl, memWf_mwrite _ _ _⟩ (.refl s)

/-- A write to host memory changes nothing else. -/
theorem hostWrite_rest (s : State) (a : Nat) (bs : List Byte) : { hostWrite s a bs with host := s.host } = s := by
  unfold hostWrite
  split <;> rfl

theorem hset_hostWrite (s : State) (a : Nat) (bs : List Byte) (n : Nat) : (hostWrite s a bs).hset n = s.hset n := by
  have h := congrArg State.hi (hostWrite_rest s a bs)
  exact congrArg (fun x : HostSt => (tfind x.sets n).getD HSet.init) h

/-- A status block changes its set's count of them, and host memory. -/
theorem statusBlock_rest (s : State) (set : Nat) : { statusBlock s set with hi := s.hi, host := s.host } = s := by
  have h := fun u a bs => congrArg (fun u : State => { u with hi := s.hi, host := s.host }) (hostWrite_rest u a bs)
  exact h _ _ _

theorem statusBlock_bgPend (s : State) (set : Nat) : (statusBlock s set).hi.bgPend = s.hi.bgPend := by
  have h := fun u a bs => congrArg (fun u : State => u.hi.bgPend) (hostWrite_rest u a bs)
  exact h _ _ _

theorem hset_statusBlock (s : State) (set : Nat) : (statusBlock s set).hset set =
    { s.hset set with upd := ((s.hset set).upd + 1) % 2 ^ 32 } :=
  (hset_hostWrite _ _ _ _).trans (hset_setHset_self _ _ _)

/-- Host memory holds what is written while the link is up. -/
theorem hostHolds_hostWrite (s : State) (a : Nat) (bs : List Byte) (hup : s.fb fHI_LINK_UP = true) (hm : memWf s.host = true) :
    HostHolds (hostWrite s a bs) a bs := by
  unfold HostHolds hostWrite
  rw [if_pos hup]
  have h := mread_mwrite_in s.host (a % 2 ^ 64) 0 bs.length bs hm (by omega)
  simpa [List.take_of_length_le] using h

theorem HostHolds.congr {s t : State} {a : Nat} {bs : List Byte} (h : HostHolds s a bs) (ht : t.host = s.host) :
    HostHolds t a bs := by
  unfold HostHolds
  rw [ht]
  exact h

-- The end of a command, and its wait (R333, R334) -------------------------------------------------------------------------------------------------

/-- The end of a command changes the rings, and host memory where it has no completion of its own. -/
theorem finishCmd_rest (s : State) (set : Nat) (c : HCmd) (st d0 d1 : Nat) :
    { finishCmd s set c st d0 d1 with hi := s.hi, host := s.host } = s := by
  have hpop : { complCmd (popCmd s set) set c st d0 d1 with hi := s.hi, host := s.host } = s := by
    unfold complCmd
    dsimp only
    split <;> rfl
  unfold finishCmd
  dsimp only
  split
  · have hw := congrArg (fun u : State => { u with hi := s.hi, host := s.host })
      (statusBlock_rest (complCmd (popCmd s set) set c st d0 d1) set)
    exact hw.trans hpop
  · exact hpop

theorem finishCmd_bgPend (s : State) (set : Nat) (c : HCmd) (st d0 d1 : Nat) :
    (finishCmd s set c st d0 d1).hi.bgPend = s.hi.bgPend := by
  have hpop : (complCmd (popCmd s set) set c st d0 d1).hi.bgPend = s.hi.bgPend := by
    unfold complCmd
    dsimp only
    split <;> rfl
  unfold finishCmd
  dsimp only
  split
  · exact (statusBlock_bgPend _ _).trans hpop
  · exact hpop

/-- A command that has a completion leaves host memory. -/
theorem finishCmd_host (s : State) (set : Nat) (c : HCmd) {st : Nat} (d0 d1 : Nat) (h : st ≠ 0 ∨ bit (wd c.w 0) 9 = false) :
    (finishCmd s set c st d0 d1).host = s.host := by
  have hb : (decide (st = 0) && bit (wd c.w 0) 9) = false := by
    rcases h with h | h <;> simp [h]
  unfold finishCmd complCmd
  simp only [hb, Bool.false_eq_true, if_false]
  rfl

theorem hset_popCmd (s : State) (set : Nat) : (popCmd s set).hset set =
    { s.hset set with cmds := (s.hset set).cmds.tail, cmdCI := ((s.hset set).cmdCI + 1) % 65536 } :=
  hset_setHset_self _ _ _

section
variable {s w : State} {set : Nat} {c : HCmd} {op : Nat} (h : HostTurn s set c op) (hr : SameRings s w)
include h hr

/-- A command that ends after an access to memory has ended for its set. -/
theorem HostTurn.ended (st d0 d1 : Nat) : Ended s (settle (finishCmd w set c st d0 d1)) set c st d0 d1 := by
  have hcmds : (w.hset set).cmds = (s.hset set).cmds := hr.field (·.cmds) (fun _ _ => rfl) set
  have hci : (w.hset set).cmdCI = (s.hset set).cmdCI := hr.field (·.cmdCI) (fun _ _ => rfl) set
  have hcpls : (w.hset set).cpls = [] := (hr.field (·.cpls) (fun _ _ => rfl) set).trans h.cpls
  by_cases hn : st = 0 ∧ bit (wd c.w 0) 9 = true
  · have hset : (finishCmd w set c st d0 d1).hset set = { (popCmd w set).hset set with
        upd := (((popCmd w set).hset set).upd + 1) % 2 ^ 32 } := by
      unfold finishCmd complCmd
      simp only [hn, decide_true, Bool.and_self, if_true]
      exact hset_statusBlock _ _
    have hset' : (settle (finishCmd w set c st d0 d1)).hset set = _ := hset
    refine ⟨?_, ?_, ?_⟩
    · rw [hset', hset_popCmd, ← hcmds]
    · rw [hset', hset_popCmd, ← hci]
    · rw [hset', hset_popCmd, if_pos hn]
      exact hcpls
  · have hb : (decide (st = 0) && bit (wd c.w 0) 9) = false := by
      rw [Bool.eq_false_iff]
      simpa using hn
    have hset : (finishCmd w set c st d0 d1).hset set = { (popCmd w set).hset set with
        cpls := ((popCmd w set).hset set).cpls ++
          [⟨w32 (wd c.w 0 / 65536 + wd c.w 0 % 256 * 2 ^ 16 + st * 2 ^ 24), w32 d0, w32 d1, c.idx⟩] } := by
      unfold finishCmd complCmd
      simp only [hb, Bool.false_eq_true, if_false]
      exact hset_setHset_self _ _ _
    have hset' : (settle (finishCmd w set c st d0 d1)).hset set = _ := hset
    refine ⟨?_, ?_, ?_⟩
    · rw [hset', hset_popCmd, ← hcmds]
    · rw [hset', hset_popCmd, ← hci]
    · rw [hset', hset_popCmd, if_neg hn]
      simp only [hcpls, List.nil_append]

/-- A command that has acted waits. -/
theorem HostTurn.waiting (hw : w.hi.waits = s.hi.waits) (inst : Option RecInst) (plan : Bool) :
    Waits s (settle (waitCmd w set c inst plan)) set c inst plan := by
  have hcmds : (w.hset set).cmds = (s.hset set).cmds := hr.field (·.cmds) (fun _ _ => rfl) set
  have hcpls : (w.hset set).cpls = [] := (hr.field (·.cpls) (fun _ _ => rfl) set).trans h.cpls
  have hset : (settle (waitCmd w set c inst plan)).hset set = (popCmd w set).hset set := rfl
  refine ⟨?_, ?_, ?_⟩
  · rw [hset, hset_popCmd, ← hcmds]
  · rw [hset, hset_popCmd]
    exact hcpls
  · rw [← hw]
    rfl

end

-- The head command (R330, R331, R345) --------------------------------------------------------------------------------------------------------------

/-- The state in which a command acts: its power domain is in use. -/
def readied (s : State) (set : Nat) (c : HCmd) : State := match opDomain s set c with | some d => domUsed s d | none => s

theorem domUsed_rest (s : State) (d : Nat) : { domUsed s d with pm := s.pm } = s := by
  unfold domUsed
  split <;> rfl

theorem sameRings_domUsed (s : State) (d : Nat) : SameRings s (domUsed s d) := by
  unfold Machine.domUsed
  exact .ite (.of_same rfl rfl) (.refl s)

section
variable {s : State} {set : Nat} {c : HCmd} {op : Nat} (h : HostTurn s set c op)
include h

theorem HostTurn.starts : startable s set = some c := by
  obtain ⟨cs, hcs⟩ : ∃ cs, (s.hset set).cmds = c :: cs := List.head?_eq_some_iff.mp h.head
  unfold startable
  simp only [hcs, h.live, h.room, h.waits, h.cpls, List.isEmpty_nil, Bool.not_true, Bool.or_self, Bool.and_false, Bool.not_false,
    Bool.and_self, List.all_nil, if_true]

theorem HostTurn.taken {mine : HCmd → Bool} (hm : mine c = true) : headCmd s set mine = some c := by
  rw [headCmd, h.starts, Option.filter_some, hm, h.turn]
  rfl

theorem HostTurn.powered : opStalls s set c = false ∧ opLost s set c = false := by
  unfold opStalls opLost
  cases hd : opDomain s set c with
  | none => exact ⟨rfl, rfl⟩
  | some d =>
    have hon := beq_iff_eq.mp (h.power d hd)
    simp only [Option.any_some, domStalls, domFaulted, hon]
    exact ⟨rfl, rfl⟩

variable {mine : HCmd → Bool} (hm : mine c = true) {early : State → HCmd → Option Nat} {need : HCmd → Nat}
  {act : State → HCmd → List Byte → State}
include hm

/-- A command whose operands are bad ends with its status. -/
theorem HostTurn.refused {st : Nat} (he : early s c = some st) : hostOp s set mine early need act = finishCmd s set c st 0 0 := by
  unfold hostOp
  rw [h.taken hm]
  simp only [he]

/-- A command that reads nothing acts. -/
theorem HostTurn.acts (he : early s c = none) (hn : need c = 0) : hostOp s set mine early need act = act (readied s set c) c [] := by
  obtain ⟨hstall, hlost⟩ := h.powered
  unfold hostOp
  rw [h.taken hm]
  simp only [he, hstall, hlost, hn, Bool.false_eq_true, if_false, if_true]
  rfl

/-- A command acts on the data that it has read. -/
theorem HostTurn.actsOn (he : early s c = none) {bs : List Byte} (hd : c.data = some (.data bs)) (hl : bs.length = need c) :
    hostOp s set mine early need act = act (readied s set c) c bs := by
  by_cases hn : need c = 0
  · rw [h.acts hm he hn, List.length_eq_zero_iff.mp (hl.trans hn)]
  · obtain ⟨hstall, hlost⟩ := h.powered
    unfold hostOp
    rw [h.taken hm]
    simp only [he, hstall, hlost, hn, hd, hl, Bool.false_eq_true, if_false, if_true]
    rfl

/-- A command whose data is still to be read asks for it. -/
theorem HostTurn.asks (he : early s c = none) (hn : need c ≠ 0) (hd : c.data = none) (ha : c.asked = false) :
    ∃ x, hostOp s set mine early need act =
      hostAsk ((readied s set c).setHset set x) (.cmdData set c.idx) (cmdAddr c) (need c) := by
  obtain ⟨hstall, hlost⟩ := h.powered
  unfold hostOp
  rw [h.taken hm]
  simp only [he, hstall, hlost, hn, hd, ha, Bool.false_eq_true, if_false]
  exact ⟨_, rfl⟩

end

end Sys2Proof.Machine
end

section
/-! PROOFS. Host commands that move memory and records (R332, R334, R341, R345): each command as its act on a ready state, and the
statement HostMoves assembled from them. -/

namespace Sys2Proof.Machine
open Sys2Proof

-- The state in which a command acts -----------------------------------------------------------------------------------------------------

theorem readied_of_domain {s : State} {set : Nat} {c : HCmd} {d : Nat} (h : opDomain s set c = some d) :
    readied s set c = domUsed s d := by rw [readied, h]

theorem readied_of_none {s : State} {set : Nat} {c : HCmd} (h : opDomain s set c = none) : readied s set c = s := by
  rw [readied, h]

theorem domUsed_field {α : Type} (s : State) (d : Nat) (g : State → α) (hg : ∀ x p, g { x with pm := p } = g x) :
    g (domUsed s d) = g s := by
  have h := congrArg g (domUsed_rest s d)
  rwa [hg] at h

theorem hostWrite_field {α : Type} (s : State) (a : Nat) (bs : List Byte) (g : State → α)
    (hg : ∀ x m, g { x with host := m } = g x) : g (hostWrite s a bs) = g s := by
  have h := congrArg g (hostWrite_rest s a bs)
  rwa [hg] at h

theorem finishCmd_field {α : Type} (s : State) (set : Nat) (c : HCmd) (st d0 d1 : Nat) (g : State → α)
    (hg : ∀ x h m, g { x with hi := h, host := m } = g x) : g (finishCmd s set c st d0 d1) = g s := by
  have h := congrArg g (finishCmd_rest s set c st d0 d1)
  rwa [hg] at h

theorem place_congr {s t : State} (h : t.plan = s.plan) (n : Nat) : t.place n = s.place n := by rw [State.place, State.place, h]

theorem HostTurn.memory {s : State} {set : Nat} {c : HCmd} {op : Nat} (h : HostTurn s set c op) :
    (opIs op c && !s.ks.adv.contains (cmdTarget set c)) = true := by
  rw [opIs, h.op, beq_self_eq_true, h.adv]
  rfl

theorem HostTurn.opIs {s : State} {set : Nat} {c : HCmd} {op : Nat} (h : HostTurn s set c op) : opIs op c = true :=
  beq_iff_eq.mpr h.op

-- Reads (R332) -----------------------------------------------------------------------------------------------------------------------------

/-- The end of a command that has read bytes of a memory into host memory. -/
def gave (w : State) (set : Nat) (c : HCmd) (bs : List Byte) (st d0 d1 : Nat) : State :=
  finishCmd (hostWrite w (cmdAddr c) bs) set c st d0 d1

theorem gave_field {α : Type} (w : State) (set : Nat) (c : HCmd) (bs : List Byte) (st d0 d1 : Nat) (g : State → α)
    (hg : ∀ x h m, g { x with hi := h, host := m } = g x) : g (gave w set c bs st d0 d1) = g w :=
  (finishCmd_field _ set c st d0 d1 g hg).trans (hostWrite_field w _ _ g fun x m => hg x x.hi m)

section
variable {s w : State} {set : Nat} {c : HCmd} {op : Nat} (h : HostTurn s set c op) (hr : SameRings s w)
include hr

include h in
theorem HostTurn.gave_ended (bs : List Byte) (st d0 d1 : Nat) : Ended s (settle (gave w set c bs st d0 d1)) set c st d0 d1 :=
  h.ended (hr.trans (sameRings_hostWrite _ _ _)) st d0 d1

/-- Where the command has a completion and the link is up, host memory holds the bytes. -/
theorem gave_holds (hup : w.fb fHI_LINK_UP = true) (hm : memWf s.host = true) (bs : List Byte) {st : Nat} (d0 d1 : Nat)
    (hn : st ≠ 0 ∨ bit (wd c.w 0) 9 = false) : HostHolds (settle (gave w set c bs st d0 d1)) (cmdAddr c) bs :=
  (hostHolds_hostWrite w (cmdAddr c) bs hup (hr.wf hm)).congr (finishCmd_host _ set c d0 d1 hn)

end

/-- The end of a PLATE_RD, by what its read met. -/
def plateGave (set : Nat) (c : HCmd) (r : State × List Byte × Option Nat) : State :=
  match r.2.2 with
  | none => gave r.1 set c r.2.1 0 r.2.1.length 0
  | some e => gave r.1 set c r.2.1 (e + 3) r.2.1.length (cmdArg c + r.2.1.length)

section
variable {s : State} {set : Fin 257} {c : HCmd}

theorem plateRd_eq (h : HostTurn s set c 1) (hb : plateBad set s c = none) :
    exec (.plateRd set) s = done (plateGave set c (plateOut (cmdTarget set c) (cmdLen c / 8) (cmdArg c) s [])) := by
  have hd : opDomain s set c = none := by simp [opDomain, h.op]
  show done (plateRd s set) = _
  unfold plateRd memOp
  rw [h.acts h.memory hb rfl, readied_of_none hd]
  rfl

theorem plateRd_reads (h : HostTurn s set c 1) (hb : plateBad set s c = none) (hm : memWf s.host = true) :
    let r := plateOut (cmdTarget set c) (cmdLen c / 8) (cmdArg c) s []
    Completes (exec (.plateRd set) s) (fun t =>
      (r.2.2 = none → Ended s t set c 0 r.2.1.length 0) ∧
      (∀ e, r.2.2 = some e → Ended s t set c (e + 3) r.2.1.length (cmdArg c + r.2.1.length)) ∧
      (bit (wd c.w 0) 9 = false ∧ s.fb fHI_LINK_UP = true → HostHolds t (cmdAddr c) r.2.1) ∧ t.plate = r.1.plate) := by
  have hacc : Accessed s (plateOut (cmdTarget set c) (cmdLen c / 8) (cmdArg c) s []).1 := .plateOut _ _ _ _ _
  rw [plateRd_eq h hb]
  dsimp only
  generalize plateOut (cmdTarget set c) (cmdLen c / 8) (cmdArg c) s [] = r at hacc
  refine completes_done ?_
  obtain ⟨u, bs, e⟩ := r
  cases e with
  | none =>
    exact ⟨fun _ => h.gave_ended hacc.rings _ _ _ _, fun _ he => absurd he (by simp),
      fun hv => gave_holds hacc.rings (hacc.up hv.2) hm _ _ _ (.inr hv.1), gave_field _ _ _ _ _ _ _ (·.plate) fun _ _ _ => rfl⟩
  | some e =>
    refine ⟨fun he => absurd he (by simp), fun e' he => ?_,
      fun hv => gave_holds hacc.rings (hacc.up hv.2) hm _ _ _ (.inr hv.1), gave_field _ _ _ _ _ _ _ (·.plate) fun _ _ _ => rfl⟩
    obtain rfl := Option.some.inj he
    exact h.gave_ended hacc.rings _ _ _ _

-- Writes to the Plate (R66, R74, R332, R341) ----------------------------------------------------------------------------------------------------

/-- A PLATE_WR after some of its words have been tried: it ends, or its rest waits for the boundary. -/
def plateWrote (set : Nat) (c : HCmd) (k left : Nat) (r : State × Nat × Option Nat) : State :=
  match r.2.2 with
  | some e => finishCmd r.1 set c (plateStatus e) r.2.1 (cmdArg c + r.2.1)
  | none => if k < left then headPut r.1 set r.2.1 else finishCmd r.1 set c 0 r.2.1 0

theorem plateWr_eq (h : HostTurn s set c 2) (hb : plateBad set s c = none) {bs : List Byte} (hd : c.data = some (.data bs))
    (hl : bs.length = cmdLen c) : exec (.plateWr set) s = done (plateWrote set c (copyNow s (cmdLen c / 8)).1 (cmdLen c / 8)
      (plateIn (cmdTarget set c) bs (copyNow s (cmdLen c / 8)).1 (cmdArg c) 0 (copyNow s (cmdLen c / 8)).2)) := by
  have hdom : opDomain s set c = none := by simp [opDomain, h.op]
  show done (plateWr s set) = _
  unfold plateWr memOp
  rw [h.actsOn h.memory hb hd hl, readied_of_none hdom]
  dsimp only
  rw [h.fresh]
  rfl

/-- What a PLATE_WR leaves in the Plate is what its words left. -/
theorem plateWrote_field {α : Type} (set : Nat) (c : HCmd) (k left : Nat) (r : State × Nat × Option Nat) (g : State → α)
    (hg : ∀ x h m, g { x with hi := h, host := m } = g x) : g (plateWrote set c k left r) = g r.1 := by
  unfold plateWrote
  split
  · exact finishCmd_field _ _ _ _ _ _ g hg
  · split
    · exact hg r.1 _ r.1.host
    · exact finishCmd_field _ _ _ _ _ _ g hg

theorem HostTurn.plateWrote_fault (h : HostTurn s set c 2) {k left : Nat} {r : State × Nat × Option Nat} (hr : SameRings s r.1)
    {e : Nat} (he : r.2.2 = some e) :
    Ended s (settle (plateWrote set c k left r)) set c (e + 3) r.2.1 (cmdArg c + r.2.1) := by
  unfold plateWrote
  rw [he]
  exact h.ended hr _ _ _

theorem HostTurn.plateWrote_all (h : HostTurn s set c 2) {k : Nat} {r : State × Nat × Option Nat} (hr : SameRings s r.1)
    (he : r.2.2 = none) : Ended s (settle (plateWrote set c k k r)) set c 0 r.2.1 0 := by
  unfold plateWrote
  rw [he]
  dsimp only
  rw [if_neg (Nat.lt_irrefl k)]
  exact h.ended hr _ _ _

/-- A copy that has not reached its end keeps its command, with what it has moved. -/
theorem HostTurn.plateWrote_part (h : HostTurn s set c 2) {k left : Nat} {r : State × Nat × Option Nat} (hr : SameRings s r.1)
    (he : r.2.2 = none) (hk : k < left) :
    (((settle (plateWrote set c k left r)).hset set).cmds.head?.map (·.put)) = some r.2.1 ∧
      ((settle (plateWrote set c k left r)).hset set).cpls = [] := by
  have hcmds : (r.1.hset set).cmds = (s.hset set).cmds := hr.field (·.cmds) (fun _ _ => rfl) set
  have hcpls : (r.1.hset set).cpls = [] := (hr.field (·.cpls) (fun _ _ => rfl) set).trans h.cpls
  obtain ⟨cs, hcs⟩ : ∃ cs, (s.hset set).cmds = c :: cs := List.head?_eq_some_iff.mp h.head
  have hset : (settle (plateWrote set c k left r)).hset set = (headPut r.1 set r.2.1).hset set := by
    unfold plateWrote
    rw [he]
    dsimp only
    rw [if_pos hk]
    rfl
  rw [hset, headPut, hset_setHset_self]
  exact ⟨by simp [hcmds, hcs], hcpls⟩

theorem plateWr_writes (h : HostTurn s set c 2) (hb : plateBad set s c = none) {bs : List Byte} (hd : c.data = some (.data bs))
    (hl : bs.length = cmdLen c) (hnow : s.tai < s.plan.next ∨ s.stopped = true) :
    let r := plateIn (cmdTarget set c) bs (cmdLen c / 8) (cmdArg c) 0 s
    Completes (exec (.plateWr set) s) (fun t => t.plate = r.1.plate ∧ t.poison = r.1.poison ∧
      (r.2.2 = none → Ended s t set c 0 r.2.1 0) ∧
      ∀ e, r.2.2 = some e → Ended s t set c (e + 3) r.2.1 (cmdArg c + r.2.1)) := by
  have hcopy : copyNow s (cmdLen c / 8) = (cmdLen c / 8, s) := by
    unfold copyNow
    rw [if_pos (by simpa using hnow)]
  have hacc : Accessed s (plateIn (cmdTarget set c) bs (cmdLen c / 8) (cmdArg c) 0 s).1 := .plateIn _ _ _ _ _ _
  rw [plateWr_eq h hb hd hl, hcopy]
  refine completes_done ⟨?_, ?_, h.plateWrote_all hacc.rings, fun e he => h.plateWrote_fault hacc.rings he⟩
  · exact plateWrote_field set c _ _ _ (·.plate) fun _ _ _ => rfl
  · exact plateWrote_field set c _ _ _ (·.poison) fun _ _ _ => rfl

theorem plateWr_crosses (h : HostTurn s set c 2) (hb : plateBad set s c = none) {bs : List Byte} (hd : c.data = some (.data bs))
    (hl : bs.length = cmdLen c) (hdue : s.plan.next ≤ s.tai) (hrun : s.stopped = false) :
    let k := s.draw.1.toNat % (cmdLen c / 8 + 1)
    let r := plateIn (cmdTarget set c) bs k (cmdArg c) 0 s.draw.2
    Completes (exec (.plateWr set) s) (fun t => t.plate = r.1.plate ∧ t.poison = r.1.poison ∧
      (r.2.2 = none → k < cmdLen c / 8 → ((t.hset set).cmds.head?.map (·.put)) = some r.2.1 ∧ (t.hset set).cpls = []) ∧
      ∀ e, r.2.2 = some e → Ended s t set c (e + 3) r.2.1 (cmdArg c + r.2.1)) := by
  have hcopy : copyNow s (cmdLen c / 8) = (s.draw.1.toNat % (cmdLen c / 8 + 1), s.draw.2) := by
    unfold copyNow
    rw [if_neg (by simp [Nat.not_lt.mpr hdue, hrun])]
  have hdraw : SameRings s s.draw.2 := .of_same rfl rfl
  have hr := hdraw.trans (Accessed.plateIn (cmdTarget set c) bs (s.draw.1.toNat % (cmdLen c / 8 + 1)) (cmdArg c) 0 s.draw.2).rings
  rw [plateWr_eq h hb hd hl, hcopy]
  refine completes_done ⟨?_, ?_, h.plateWrote_part hr, fun e he => h.plateWrote_fault hr he⟩
  · exact plateWrote_field set c _ _ _ (·.plate) fun _ _ _ => rfl
  · exact plateWrote_field set c _ _ _ (·.poison) fun _ _ _ => rfl

/-- A PLATE_WR whose data has not been read asks for it. -/
theorem plateWr_asks (h : HostTurn s set c 2) (hb : plateBad set s c = none) (hn : cmdLen c ≠ 0) (hd : c.data = none)
    (ha : c.asked = false) : Completes (exec (.plateWr set) s) (fun t => t.plate = s.plate ∧
      ∃ r, t.hi.reads = s.hi.reads ++ [r] ∧ r.kind = .cmdData set c.idx ∧ r.addr = cmdAddr c % 2 ^ 64 ∧ r.len = cmdLen c) := by
  have hdom : opDomain s set c = none := by simp [opDomain, h.op]
  have hx : ∃ x, plateWr s set = hostAsk ((readied s set c).setHset set x) (.cmdData set c.idx) (cmdAddr c) (cmdLen c) := by
    unfold plateWr memOp
    exact h.asks h.memory hb hn hd ha
  rw [readied_of_none hdom] at hx
  obtain ⟨x, hx⟩ := hx
  show Completes (done (plateWr s set)) _
  rw [hx]
  exact completes_done ⟨rfl, _, rfl, rfl, rfl, rfl⟩

-- The Tray (R332) -----------------------------------------------------------------------------------------------------------------------------------

theorem trayDomain {op : Nat} (h : HostTurn s set c op) (ho : op = 3 ∨ op = 4) :
    opDomain s set c = some ((s.place (cmdTarget set c)).1 / 4) := by
  rcases ho with rfl | rfl <;> simp [opDomain, h.op]

/-- The end of a TRAY_RD, by what its read met. -/
def trayGave (set : Nat) (c : HCmd) (r : State × List Byte × Bool) : State :=
  match r.2.2 with
  | true => gave r.1 set c r.2.1 0 r.2.1.length 0
  | false => gave r.1 set c r.2.1 6 r.2.1.length (cmdArg c + r.2.1.length)

theorem trayRd_eq (h : HostTurn s set c 3) (hb : trayBad set s c = none) (hi : pmState s ≠ 1) :
    exec (.trayRd set) s = done (trayGave set c (trayOut (s.place (cmdTarget set c)).1 (cmdLen c / 8)
      (16384 * (s.place (cmdTarget set c)).2 + cmdArg c) (domUsed s ((s.place (cmdTarget set c)).1 / 4)) [])) := by
  have hplace := place_congr (domUsed_field s ((s.place (cmdTarget set c)).1 / 4) (·.plan) fun _ _ => rfl) (cmdTarget set c)
  have hidle : idleExit (domUsed s ((s.place (cmdTarget set c)).1 / 4)) = domUsed s ((s.place (cmdTarget set c)).1 / 4) := by
    have hpm : pmState (domUsed s ((s.place (cmdTarget set c)).1 / 4)) = pmState s := domUsed_field s _ pmState fun _ _ => rfl
    rw [idleExit, hpm, if_neg hi]
  show done (trayRd s set) = _
  unfold trayRd memOp
  rw [h.acts h.memory hb rfl, readied_of_domain (trayDomain h (.inl rfl))]
  generalize domUsed s ((s.place (cmdTarget set c)).1 / 4) = w at hplace hidle ⊢
  dsimp only
  rw [hplace, hidle]
  generalize trayOut _ _ _ _ _ = r
  obtain ⟨u, bs, ok⟩ := r
  cases ok with
  | true =>
    dsimp only
    rw [if_pos rfl]
    rfl
  | false =>
    dsimp only
    rw [if_neg Bool.false_ne_true]
    rfl

theorem trayRd_reads (h : HostTurn s set c 3) (hb : trayBad set s c = none) (hi : pmState s ≠ 1) (hm : memWf s.host = true) :
    let r := trayOut (s.place (cmdTarget set c)).1 (cmdLen c / 8) (16384 * (s.place (cmdTarget set c)).2 + cmdArg c)
      (domUsed s ((s.place (cmdTarget set c)).1 / 4)) []
    Completes (exec (.trayRd set) s) (fun t =>
      (r.2.2 = true → Ended s t set c 0 r.2.1.length 0) ∧
      (r.2.2 = false → Ended s t set c 6 r.2.1.length (cmdArg c + r.2.1.length)) ∧
      (bit (wd c.w 0) 9 = false ∧ s.fb fHI_LINK_UP = true → HostHolds t (cmdAddr c) r.2.1) ∧ t.tray = s.tray) := by
  have hused := sameRings_domUsed s ((s.place (cmdTarget set c)).1 / 4)
  have hup := domUsed_field s ((s.place (cmdTarget set c)).1 / 4) (·.fb fHI_LINK_UP) fun _ _ => rfl
  have htray := domUsed_field s ((s.place (cmdTarget set c)).1 / 4) (·.tray) fun _ _ => rfl
  rw [trayRd_eq h hb hi]
  dsimp only
  generalize domUsed s ((s.place (cmdTarget set c)).1 / 4) = w at hused hup htray
  have hacc : Accessed w (trayOut (s.place (cmdTarget set c)).1 (cmdLen c / 8)
    (16384 * (s.place (cmdTarget set c)).2 + cmdArg c) w []).1 := .trayOut _ _ _ _ _
  generalize trayOut (s.place (cmdTarget set c)).1 (cmdLen c / 8) (16384 * (s.place (cmdTarget set c)).2 + cmdArg c) w [] = r
    at hacc
  refine completes_done ?_
  have hr := hused.trans hacc.rings
  have hlink : s.fb fHI_LINK_UP = true → r.1.fb fHI_LINK_UP = true := fun hs => hacc.up (hup.trans hs)
  have hkept := hacc.tray.trans htray
  obtain ⟨u, bs, ok⟩ := r
  cases ok with
  | true =>
    exact ⟨fun _ => h.gave_ended hr _ _ _ _, fun he => absurd he (by simp),
      fun hv => gave_holds hr (hlink hv.2) hm _ _ _ (.inr hv.1),
      (gave_field _ _ _ _ _ _ _ (·.tray) fun _ _ _ => rfl).trans hkept⟩
  | false =>
    exact ⟨fun he => absurd he (by simp), fun _ => h.gave_ended hr _ _ _ _,
      fun hv => gave_holds hr (hlink hv.2) hm _ _ _ (.inr hv.1),
      (gave_field _ _ _ _ _ _ _ (·.tray) fun _ _ _ => rfl).trans hkept⟩

/-- The Tray after a TRAY_WR: its bytes, and no error in their words. -/
def trayPut (w : State) (co a : Nat) (bs : List Byte) (n : Nat) : State := trayFresh (putTrayBytes w co a bs) co a n

/-- A TRAY_WR leaves all but the Tray and its errors. -/
theorem trayPut_field {α : Type} (w : State) (co a : Nat) (bs : List Byte) (n : Nat) (g : State → α)
    (hg : ∀ x t e, g { x with tray := t, trayEcc := e } = g x) : g (trayPut w co a bs n) = g w := by
  rw [trayPut, trayFresh_eq]
  exact (hg (putTrayBytes w co a bs) _ _).trans (putTrayBytes_field w co a g (fun x t => hg x t x.trayEcc) bs)

theorem trayPut_tray (w : State) (co a : Nat) (bs : List Byte) (n : Nat) :
    (trayPut w co a bs n).tray = (putTrayBytes w co a bs).tray := by
  rw [trayPut, trayFresh_eq]

theorem sameRings_idleExit (s : State) : SameRings s (idleExit s) := .ite (.of_same rfl rfl) (.refl s)

theorem idleExit_field {α : Type} (s : State) (g : State → α) (hg : ∀ x p r, g { x with pm := p, regs := r } = g x) :
    g (idleExit s) = g s := by
  unfold idleExit
  split
  · exact hg s _ _
  · rfl

theorem trayWr_eq (h : HostTurn s set c 4) (hb : trayBad set s c = none) {bs : List Byte} (hd : c.data = some (.data bs))
    (hl : bs.length = cmdLen c) : exec (.trayWr set) s = done (finishCmd (trayPut
      (idleExit (domUsed s ((s.place (cmdTarget set c)).1 / 4))) (s.place (cmdTarget set c)).1
      (16384 * (s.place (cmdTarget set c)).2 + cmdArg c) bs (cmdLen c)) set c 0 (cmdLen c) 0) := by
  have hplace := place_congr (domUsed_field s ((s.place (cmdTarget set c)).1 / 4) (·.plan) fun _ _ => rfl) (cmdTarget set c)
  show done (trayWr s set) = _
  unfold trayWr memOp
  rw [h.actsOn h.memory hb hd hl, readied_of_domain (trayDomain h (.inr rfl))]
  dsimp only
  rw [hplace]
  rfl

/-- The bytes of a TRAY_WR read back once the command has ended. -/
theorem trayBytes_trayPut (w : State) (co a : Nat) (bs : List Byte) {n : Nat} (hn : bs.length = n) (hm : memWf w.tray = true)
    (set : Nat) (c : HCmd) (st d0 d1 : Nat) :
    trayBytes (settle (finishCmd (trayPut w co a bs n) set c st d0 d1)) co a n = bs := by
  have hf : ∀ (α : Type) (g : State → α),
      (∀ x h m p t e, g { x with hi := h, host := m, pm := p, tray := t, trayEcc := e } = g x) →
      g (settle (finishCmd (trayPut w co a bs n) set c st d0 d1)) = g (putTrayBytes w co a bs) := fun α g hg => by
    refine (hg (finishCmd (trayPut w co a bs n) set c st d0 d1) _ _ _ _ _).trans ?_
    refine (finishCmd_field _ _ _ _ _ _ g fun x h m => hg x h m x.pm x.tray x.trayEcc).trans ?_
    refine (trayPut_field w co a bs n g fun x t e => hg x x.hi x.host x.pm t e).trans ?_
    exact (putTrayBytes_field w co a g (fun x t => hg x x.hi x.host x.pm t x.trayEcc) bs).symm
  have htray : (settle (finishCmd (trayPut w co a bs n) set c st d0 d1)).tray = (putTrayBytes w co a bs).tray :=
    (finishCmd_field (trayPut w co a bs n) set c st d0 d1 (·.tray) fun _ _ _ => rfl).trans (trayPut_tray w co a bs n)
  have hctx : ∀ q, ((settle (finishCmd (trayPut w co a bs n) set c st d0 d1)).ctx co q).tenant =
      ((putTrayBytes w co a bs).ctx co q).tenant := fun q => hf _ (fun x => (x.ctx co q).tenant) fun _ _ _ _ _ _ => rfl
  have hback := trayBytes_putTrayBytes w co a bs hm
  subst hn
  refine (trayBytes_congr htray (fun x => trayFog_congr ?_ ?_ ?_ (fun q _ => hctx q) x) _ _).trans hback
  · exact hf _ (·.lc) fun _ _ _ _ _ _ => rfl
  · exact hf _ (·.ks) fun _ _ _ _ _ _ => rfl
  · exact hf _ (·.now) fun _ _ _ _ _ _ => rfl

theorem trayWr_writes (h : HostTurn s set c 4) (hb : trayBad set s c = none) (hm : memWf s.tray = true) {bs : List Byte}
    (hd : c.data = some (.data bs)) (hl : bs.length = cmdLen c) : Completes (exec (.trayWr set) s) (fun t =>
      Ended s t set c 0 (cmdLen c) 0 ∧ trayBytes t (s.place (cmdTarget set c)).1
        (16384 * (s.place (cmdTarget set c)).2 + cmdArg c) (cmdLen c) = bs) := by
  have htray : (idleExit (domUsed s ((s.place (cmdTarget set c)).1 / 4))).tray = s.tray :=
    (idleExit_field _ (·.tray) fun _ _ _ => rfl).trans (domUsed_field s _ (·.tray) fun _ _ => rfl)
  have hr := (sameRings_domUsed s ((s.place (cmdTarget set c)).1 / 4)).trans (sameRings_idleExit _)
  rw [trayWr_eq h hb hd hl]
  generalize idleExit (domUsed s ((s.place (cmdTarget set c)).1 / 4)) = w at htray hr
  have hput : ∀ co a, SameRings w (trayPut w co a bs (cmdLen c)) := fun co a =>
    .of_same (trayPut_field w co a bs _ (·.hi.sets) fun _ _ _ => rfl) (trayPut_field w co a bs _ (·.host) fun _ _ _ => rfl)
  exact completes_done ⟨h.ended (hr.trans (hput _ _)) _ _ _, trayBytes_trayPut w _ _ bs hl (by rw [htray]; exact hm) _ _ _ _ _⟩

-- DRAM (R332, R347) -----------------------------------------------------------------------------------------------------------------------------------

theorem dramDomain {op : Nat} (h : HostTurn s set c op) (ho : op = 5 ∨ op = 6) : opDomain s set c = some 16 := by
  rcases ho with rfl | rfl <;> simp [opDomain, h.op]

theorem dramRd_eq (h : HostTurn s set c 5) (hb : dramBad set s c = none) :
    let r := dramOut (cmdTarget set c) 1026 (cmdArg c) (cmdLen c) (domUsed s 16) []
    exec (.dramRd set) s =
      done (gave r.1 set c r.2.1 r.2.2 r.2.1.length (if r.2.2 = 0 then 0 else cmdArg c + r.2.1.length)) := by
  show done (dramRd s set) = _
  unfold dramRd memOp
  rw [h.acts h.memory hb rfl, readied_of_domain (dramDomain h (.inl rfl))]
  rfl

theorem dramRd_reads (h : HostTurn s set c 5) (hb : dramBad set s c = none) (hm : memWf s.host = true) :
    let r := dramOut (cmdTarget set c) 1026 (cmdArg c) (cmdLen c) (domUsed s 16) []
    Completes (exec (.dramRd set) s) (fun t =>
      Ended s t set c r.2.2 r.2.1.length (if r.2.2 = 0 then 0 else cmdArg c + r.2.1.length) ∧
      ((bit (wd c.w 0) 9 = false ∧ s.fb fHI_LINK_UP = true) ∨ (r.2.2 ≠ 0 ∧ s.fb fHI_LINK_UP = true) →
        HostHolds t (cmdAddr c) r.2.1) ∧ t.dram = s.dram) := by
  have hacc : Accessed (domUsed s 16) (dramOut (cmdTarget set c) 1026 (cmdArg c) (cmdLen c) (domUsed s 16) []).1 :=
    .dramOut _ _ _ _ _ _
  have hdram := (dram_dramOut (cmdTarget set c) 1026 (cmdArg c) (cmdLen c) (domUsed s 16) []).trans
    (domUsed_field s 16 (·.dram) fun _ _ => rfl)
  have hlink := domUsed_field s 16 (·.fb fHI_LINK_UP) fun _ _ => rfl
  have hr := (sameRings_domUsed s 16).trans hacc.rings
  rw [dramRd_eq h hb]
  dsimp only
  generalize dramOut (cmdTarget set c) 1026 (cmdArg c) (cmdLen c) (domUsed s 16) [] = r at hacc hdram hr
  have hup : s.fb fHI_LINK_UP = true → r.1.fb fHI_LINK_UP = true := fun hs => hacc.up (hlink.trans hs)
  refine completes_done ⟨h.gave_ended hr _ _ _ _, ?_, (gave_field _ _ _ _ _ _ _ (·.dram) fun _ _ _ => rfl).trans hdram⟩
  rintro (⟨hn, hs⟩ | ⟨he, hs⟩)
  · exact gave_holds hr (hup hs) hm _ _ _ (.inr hn)
  · exact gave_holds hr (hup hs) hm _ _ _ (.inl he)

theorem dramWr_eq (h : HostTurn s set c 6) (hb : dramBad set s c = none) {bs : List Byte} (hd : c.data = some (.data bs))
    (hl : bs.length = cmdLen c) :
    let r := dramIn (cmdTarget set c) bs 1026 (cmdArg c) 0 (domUsed s 16)
    exec (.dramWr set) s = done (finishCmd r.1 set c r.2.2 r.2.1 (if r.2.2 = 0 then 0 else cmdArg c + r.2.1)) := by
  show done (dramWr s set) = _
  unfold dramWr memOp
  rw [h.actsOn h.memory hb hd hl, readied_of_domain (dramDomain h (.inr rfl))]

theorem dramWr_writes (h : HostTurn s set c 6) (hb : dramBad set s c = none) {bs : List Byte} (hd : c.data = some (.data bs))
    (hl : bs.length = cmdLen c) :
    let r := dramIn (cmdTarget set c) bs 1026 (cmdArg c) 0 (domUsed s 16)
    Completes (exec (.dramWr set) s) (fun t => t.dram = r.1.dram ∧
      Ended s t set c r.2.2 r.2.1 (if r.2.2 = 0 then 0 else cmdArg c + r.2.1)) := by
  have hacc : Accessed (domUsed s 16) (dramIn (cmdTarget set c) bs 1026 (cmdArg c) 0 (domUsed s 16)).1 := .dramIn _ _ _ _ _ _
  rw [dramWr_eq h hb hd hl]
  exact completes_done ⟨finishCmd_field _ _ _ _ _ _ (·.dram) fun _ _ _ => rfl,
    h.ended ((sameRings_domUsed s 16).trans hacc.rings) _ _ _⟩

-- Points and activations (R287, R288, R332, R334) ------------------------------------------------------------------------------------------------

/-- The point write of a POINT_WR. -/
def hostPoint (set : Nat) (c : HCmd) : PtWrite :=
  let ts := (inl c 5 + inl c 6 % 65536 * 2 ^ 32) * sec + inl c 4
  ⟨.host, inl c 0 % 2 ^ 17, if bit (inl c 0) 31 then none else some (BitVec.ofNat 64 (inl c 2 + 2 ^ 32 * inl c 3)),
    if bit (inl c 0) 30 then none else some (inl c 1 % 2 ^ 13), if ts = 0 then none else some ts,
    if set = 256 then none else some set, none, .host set, 0, none, 0, none⟩

theorem pointWr_sends (h : HostTurn s set c 8) (hq : bits (inl c 1) 13 3 = 0) (ht : inl c 4 < sec) :
    Completes (exec (.pointWr set) s) (fun t => Waits s t set c none false ∧
      t.points = s.points ∧ ∃ w, t.ptq = s.ptq ++ [w] ∧ w.src = .host ∧ w.pt = inl c 0 % 2 ^ 17 ∧
        w.val = (if bit (inl c 0) 31 then none else some (BitVec.ofNat 64 (inl c 2 + 2 ^ 32 * inl c 3))) ∧
        w.q = (if bit (inl c 0) 30 then none else some (inl c 1 % 2 ^ 13)) ∧
        w.owner = (if set.val = 256 then none else some set.val)) := by
  have hd : opDomain s set c = none := by simp [opDomain, h.op]
  have hx : exec (.pointWr set) s = done (waitCmd { s with ptq := s.ptq ++ [hostPoint set c] } set c none false) := by
    show done (pointWr s set) = _
    unfold pointWr
    rw [h.acts h.opIs (by rw [hq, if_neg (by simpa using ht)]) rfl, readied_of_none hd]
    rfl
  rw [hx]
  exact completes_done ⟨h.waiting (.of_same rfl rfl) rfl _ _, rfl, _, rfl, rfl, rfl, rfl, rfl, rfl⟩

theorem supOnly_sup (hs : set.val = 256) : supOnly set = none := if_pos hs
theorem supOnly_tenant (hs : ¬set.val = 256) : supOnly set = some 3 := if_neg hs

/-- A command that is refused ends with its status alone. -/
theorem HostTurn.rejected {op : Nat} (h : HostTurn s set c op) {i : Instr} {st : Nat}
    (hexec : exec i s = done (finishCmd s set c st 0 0)) : Completes (exec i s) (fun t => Ended s t set c st 0 0 ∧ t.hi.bgPend = s.hi.bgPend) := by
  rw [hexec]
  exact completes_done ⟨h.ended (.refl s) _ _ _, finishCmd_bgPend _ _ _ _ _ _⟩

theorem Completes.left {o : Host.Outcome State Fault Refusal} {P Q : State → Prop} (h : Completes o fun t => P t ∧ Q t) :
    Completes o P := by
  obtain ⟨t, ho, hp, -⟩ := h
  exact ⟨t, ho, hp⟩

theorem pointCfg_waits (h : HostTurn s set c 9) (hs : set.val = 256) : Completes (exec (.pointCfg set) s) (fun t =>
    Waits s t set c none true ∧ t.points = s.points ∧ ∃ x ∈ t.ptcfg,
      x = ⟨cmdArg c % 2 ^ 17, some (w32 (inl c 0)), some (w32 (inl c 1)), some (w32 (inl c 2))⟩) := by
  have hd : opDomain s set c = none := by simp [opDomain, h.op]
  have hx : exec (.pointCfg set) s = done (waitCmd (digestBusy (holdPtCfg s (cmdArg c % 2 ^ 17) (some (w32 (inl c 0)))
      (some (w32 (inl c 1))) (some (w32 (inl c 2))))) set c none true) := by
    show done (pointCfg s set) = _
    unfold pointCfg
    rw [h.acts h.opIs (supOnly_sup hs) rfl, readied_of_none hd]
  rw [hx]
  exact completes_done ⟨h.waiting (.of_same rfl rfl) rfl _ _, rfl, _, List.mem_append_right _ List.mem_cons_self, rfl⟩

theorem pointCfg_rights (h : HostTurn s set c 9) (hs : ¬set.val = 256) :
    Completes (exec (.pointCfg set) s) (fun t => Ended s t set c 3 0 0) := by
  have hx : pointCfg s set = finishCmd s set c 3 0 0 := h.refused h.opIs (supOnly_tenant hs)
  exact (h.rejected (i := .pointCfg set) (congrArg done hx)).left

theorem actCfg_waits (h : HostTurn s set c 10) (hs : set.val = 256)
    (hi : cmdArg c % 2 ^ 17 < srcCount (bits (cmdArg c) 28 4)) : Completes (exec (.actCfg set) s) (fun t =>
      Waits s t set c none true ∧ t.hi.bg = s.hi.bg ∧
      t.hi.bgPend = s.hi.bgPend ++ [(bits (cmdArg c) 28 4, cmdArg c % 2 ^ 17, bit (inl c 0) 0)]) := by
  have hd : opDomain s set c = none := by simp [opDomain, h.op]
  have hx : exec (.actCfg set) s = done (waitCmd (digestBusy { s with hi := { s.hi with
      bgPend := s.hi.bgPend ++ [(bits (cmdArg c) 28 4, cmdArg c % 2 ^ 17, bit (inl c 0) 0)] } }) set c none true) := by
    show done (actCfg s set) = _
    unfold actCfg
    rw [h.acts h.opIs (by rw [supOnly_sup hs]; exact if_neg (Nat.not_le.mpr hi)) rfl, readied_of_none hd]
  rw [hx]
  exact completes_done ⟨h.waiting (.of_same rfl rfl) rfl _ _, rfl, rfl⟩

theorem actCfg_refused (h : HostTurn s set c 10) {st : Nat} (he : ((supOnly set).orElse fun _ =>
      if srcCount (bits (cmdArg c) 28 4) ≤ cmdArg c % 2 ^ 17 then some 2 else none) = some st) :
    Completes (exec (.actCfg set) s) (fun t => Ended s t set c st 0 0 ∧ t.hi.bgPend = s.hi.bgPend) := by
  have hx : actCfg s set = finishCmd s set c st 0 0 := h.refused h.opIs he
  exact h.rejected (i := .actCfg set) (congrArg done hx)

-- Records (R332, R334) ----------------------------------------------------------------------------------------------------------------------------

section
variable {op kind : Nat} (h : HostTurn s set c op) {i : Instr} (hexec : exec i s = done (recInstall s set kind)) (hop : 15 + kind = op)
  (hi : cmdArg c < recCount kind) (ha : cmdAddr c % 8 = 0)
include h hexec hop hi ha

theorem recInstall_foreign (hs : ¬set.val = 256) (hm : recMine s set kind (cmdArg c) = false) :
    Completes (exec i s) (fun t => Ended s t set c 3 0 0) := by
  refine (h.rejected (hexec.trans (congrArg done (h.refused (hop ▸ h.opIs) ?_)))).left
  rw [if_neg (by simpa [ha] using hi), hm]
  exact if_pos (by simpa using hs)

variable (hk : kind < 5) (hs : set.val = 256 ∨ recMine s set kind (cmdArg c) = true) {bs : List Byte}
  (hd : c.data = some (.data bs)) (hl : bs.length = recBytes kind)
include hk hs hd hl

/-- A record command of the record's own tenant acts on what it has read: its words name a tenant, which must be the own one. -/
theorem recInstall_eq : exec i s = done (
    if set.val != 256 && bits (wd (wordsOf bs (recWords kind)) 0) 16 8 != set.val then finishCmd s set c 3 0 0
    else waitCmd (digestBusy s) set c
      (some ⟨kind, cmdArg c, wordsOf bs (recWords kind), bs.drop (4 * recWords kind)⟩) true) := by
  have hdom : opDomain s set c = none := by
    have hc := h.op
    unfold opDomain
    split
    case h_8 => rfl
    all_goals omega
  have hearly : (set.val != 256 && !recMine s set kind (cmdArg c)) = false := by
    rcases hs with hs | hs <;> simp [hs]
  rw [hexec]
  unfold recInstall
  rw [h.actsOn (hop ▸ h.opIs) (by rw [if_neg (by simpa [ha] using hi), hearly]; rfl) hd hl, readied_of_none hdom]

theorem recInstall_waits (hw : set.val = 256 ∨ bits (wd (wordsOf bs (recWords kind)) 0) 16 8 = set) :
    Completes (exec i s) (fun t => Waits s t set c
      (some ⟨kind, cmdArg c, wordsOf bs (recWords kind), bs.drop (4 * recWords kind)⟩) true ∧ t.recs = s.recs) := by
  rw [recInstall_eq h hexec hop hi ha hk hs hd hl, if_neg (by rcases hw with hw | hw <;> simp [hw])]
  exact completes_done ⟨h.waiting (.of_same rfl rfl) rfl _ _, rfl⟩

theorem recInstall_renamed (hs' : ¬set.val = 256) (hw : bits (wd (wordsOf bs (recWords kind)) 0) 16 8 ≠ set) :
    Completes (exec i s) (fun t => Ended s t set c 3 0 0) := by
  refine (h.rejected ?_).left
  rw [recInstall_eq h hexec hop hi ha hk hs hd hl, if_pos (by simp [hw, hs'])]

end

section
variable (h : HostTurn s set c 0x14) (h1 : 1 ≤ bits (cmdArg c) 28 4) (h4 : bits (cmdArg c) 28 4 ≤ 4)
  (hi : cmdArg c % 65536 < recCount (bits (cmdArg c) 28 4)) (ha : cmdAddr c % 8 = 0)
include h h1 h4 hi ha

omit h in
theorem recStat_operands : (decide (bits (cmdArg c) 28 4 = 0) || decide (4 < bits (cmdArg c) 28 4) ||
    decide (recCount (bits (cmdArg c) 28 4) ≤ cmdArg c % 65536) || cmdAddr c % 8 != 0) = false := by
  simp [ha, hi, h4]
  omega

theorem recStat_foreign (hs : ¬set.val = 256) (hm : recMine s set (bits (cmdArg c) 28 4) (cmdArg c % 65536) = false) :
    Completes (exec (.recStat set) s) (fun t => Ended s t set c 3 0 0) := by
  have hx : recStat s set = finishCmd s set c 3 0 0 := h.refused h.opIs (by
    dsimp only
    rw [recStat_operands h1 h4 hi ha, if_neg Bool.false_ne_true, hm]
    exact if_pos (by simpa using hs))
  exact (h.rejected (i := .recStat set) (congrArg done hx)).left

/-- The state of a record's counters after a REC_STAT. -/
def countsTaken (s : State) (c : HCmd) (kind i : Nat) : State :=
  let w := hostWrite s (cmdAddr c) ((s.rst kind i).cnt.flatMap (leBytes 4))
  if bit (wd c.w 0) 10 then w.setRst kind i { s.rst kind i with cnt := List.replicate 8 0 } else w

omit h h1 h4 hi ha in
theorem rst_countsTaken (s : State) (c : HCmd) (kind i : Nat) : ((countsTaken s c kind i).rst kind i).cnt =
    if bit (wd c.w 0) 10 then List.replicate 8 0 else (s.rst kind i).cnt := by
  unfold countsTaken
  dsimp only
  split
  · simp [State.rst, State.setRst]
  · exact congrArg RecSt.cnt (hostWrite_field s _ _ (·.rst kind i) fun _ _ => rfl)

omit h h1 h4 hi ha in
theorem countsTaken_host (s : State) (c : HCmd) (kind i : Nat) : (countsTaken s c kind i).host =
    (hostWrite s (cmdAddr c) ((s.rst kind i).cnt.flatMap (leBytes 4))).host := by
  unfold countsTaken
  dsimp only
  split <;> rfl

omit h h1 h4 hi ha in
theorem sameRings_countsTaken (s : State) (c : HCmd) (kind i : Nat) : SameRings s (countsTaken s c kind i) :=
  (sameRings_hostWrite s _ _).trans (.ite (.of_same rfl rfl) (.refl _))

theorem recStat_eq (hs : set.val = 256 ∨ recMine s set (bits (cmdArg c) 28 4) (cmdArg c % 65536) = true) :
    exec (.recStat set) s = done (finishCmd (countsTaken s c (bits (cmdArg c) 28 4) (cmdArg c % 65536)) set c 0 32 0) := by
  have hdom : opDomain s set c = none := by simp [opDomain, h.op]
  have hearly : (set.val != 256 && !recMine s set (bits (cmdArg c) 28 4) (cmdArg c % 65536)) = false := by
    rcases hs with hs | hs <;> simp [hs]
  show done (recStat s set) = _
  unfold recStat
  rw [h.acts h.opIs (by
    dsimp only
    rw [recStat_operands h1 h4 hi ha, if_neg Bool.false_ne_true, hearly, if_neg Bool.false_ne_true]) rfl, readied_of_none hdom]
  rfl

theorem recStat_reads (hs : set.val = 256 ∨ recMine s set (bits (cmdArg c) 28 4) (cmdArg c % 65536) = true) :
    Completes (exec (.recStat set) s) (fun t => Ended s t set c 0 32 0 ∧
      (t.rst (bits (cmdArg c) 28 4) (cmdArg c % 65536)).cnt = (if bit (wd c.w 0) 10 then List.replicate 8 0
        else (s.rst (bits (cmdArg c) 28 4) (cmdArg c % 65536)).cnt) ∧
      (memWf s.host = true → s.fb fHI_LINK_UP = true → bit (wd c.w 0) 9 = false →
        HostHolds t (cmdAddr c) ((s.rst (bits (cmdArg c) 28 4) (cmdArg c % 65536)).cnt.flatMap (leBytes 4)))) := by
  rw [recStat_eq h h1 h4 hi ha hs]
  generalize bits (cmdArg c) 28 4 = kind
  generalize cmdArg c % 65536 = n
  refine completes_done ⟨h.ended (sameRings_countsTaken s c kind n) _ _ _, ?_, fun hm hup hn => ?_⟩
  · exact (congrArg RecSt.cnt (finishCmd_field (countsTaken s c kind n) set c 0 32 0 (·.rst kind n) fun _ _ _ => rfl)).trans
      (rst_countsTaken s c kind n)
  · exact (hostHolds_hostWrite s (cmdAddr c) _ hup hm).congr
      ((finishCmd_host _ set c 32 0 (.inr hn)).trans (countsTaken_host s c kind n))

end

end

-- The statement -----------------------------------------------------------------------------------------------------------------------------------

theorem hostMemoryCommands : Clause.HostMemoryCommands := by
  unfold Clause.HostMemoryCommands
  intro s set c bs hhost htray _
  refine ⟨fun h hb => plateRd_reads h hb hhost, fun h hb hg hnow => plateWr_writes h hb hg.1 hg.2 hnow,
    fun h hb hg hdue hrun => plateWr_crosses h hb hg.1 hg.2 hdue hrun, fun h hb hn hd ha => plateWr_asks h hb hn hd ha,
    fun h hb hi => trayRd_reads h hb hi hhost, fun h hb hg => trayWr_writes h hb htray hg.1 hg.2,
    fun h hb => dramRd_reads h hb hhost, fun h hb hg => dramWr_writes h hb hg.1 hg.2⟩

theorem hostRecordCommands : Clause.HostRecordCommands := by
  unfold Clause.HostRecordCommands
  intro s set c bs
  refine ⟨fun h hq ht => pointWr_sends h hq ht, fun h hs => pointCfg_waits h hs, fun h hs => pointCfg_rights h hs,
    fun h hs hi => actCfg_waits h hs hi, fun h hs hi => ?_, fun h hs => ?_, ?_, ?_, ?_, ?_, ?recStat⟩
  · exact actCfg_refused h (by rw [supOnly_sup hs]; exact if_pos hi)
  · exact (actCfg_refused h (by rw [supOnly_tenant hs]; rfl)).left
  case recStat => exact fun h h1 h4 hi ha => ⟨recStat_foreign h h1 h4 hi ha, recStat_reads h h1 h4 hi ha⟩
  all_goals exact fun h hi ha => ⟨recInstall_foreign h rfl rfl hi ha, fun hs hd hl =>
    ⟨recInstall_waits h rfl rfl hi ha (by decide) hs hd hl, recInstall_renamed h rfl rfl hi ha (by decide) hs hd hl⟩⟩

/-- Settles O41: each command is its act on a ready state, and what acts on a memory leaves the rings to the command's end. -/
theorem hostMoves : Obligations.HostMoves := ⟨hostMemoryCommands, hostRecordCommands⟩

end Sys2Proof.Machine
end

section
/-! PROOFS. The registers of a core that software writes: its control register, the port of its instruction RAM, its trap
enables, and the scheduler's capacity request. -/

namespace Sys2Proof.Machine
open Sys2Proof

section
variable (s : State) (c : Nat) (v : Word)

-- EZ_CTL -------------------------------------------------------------------------------------------------------------------------

theorem ezCtl_open (h : s.fb fEZ_CTL_LOCK c = false) :
    ezCtl s c v = ((s.setF fEZ_CTL_HALT (b2n (bit v.toNat 1)) c).setF fEZ_CTL_REMAP (b2n (bit v.toNat 0)) c).setF
      fEZ_CTL_LOCK (b2n (bit v.toNat 31)) c := by
  have hl : (s.setF fEZ_CTL_HALT (b2n (bit v.toNat 1)) c).fb fEZ_CTL_LOCK c = false := by
    rw [← h]
    simp only [State.fb, f_setF_field s fEZ_CTL_HALT fEZ_CTL_LOCK _ _ _ (by decide) (by decide) rfl (by decide) (by decide)]
  exact if_neg (by simp [hl])

theorem ezCtl_locked (h : s.fb fEZ_CTL_LOCK c = true) : ezCtl s c v = s.setF fEZ_CTL_HALT (b2n (bit v.toNat 1)) c := by
  have hl : (s.setF fEZ_CTL_HALT (b2n (bit v.toNat 1)) c).fb fEZ_CTL_LOCK c = true := by
    rw [← h]
    simp only [State.fb, f_setF_field s fEZ_CTL_HALT fEZ_CTL_LOCK _ _ _ (by decide) (by decide) rfl (by decide) (by decide)]
  exact if_pos hl

/-- A field of one bit holds the bit put into it. -/
theorem f_setF_bit (f : Field) (i j n : Nat) (hf : f.lo + f.w ≤ 32) (hw : f.w = 1) :
    (s.setF f (b2n (bit v.toNat n)) i j).f f i j = bits v.toNat n 1 := by
  rw [f_setF_self s f _ i j hf, b2n_bit, hw]
  exact Nat.mod_eq_of_lt (bits_lt _ _ _)

theorem ezCtl_fields_open (h : s.fb fEZ_CTL_LOCK c = false) :
    (ezCtl s c v).f fEZ_CTL_HALT c = bits v.toNat 1 1 ∧ (ezCtl s c v).f fEZ_CTL_REMAP c = bits v.toNat 0 1 ∧
      (ezCtl s c v).f fEZ_CTL_LOCK c = bits v.toNat 31 1 := by
  rw [ezCtl_open s c v h]
  refine ⟨?_, ?_, f_setF_bit _ v _ _ _ _ (by decide) rfl⟩
  · rw [f_setF_field _ fEZ_CTL_LOCK fEZ_CTL_HALT _ _ _ (by decide) (by decide) rfl (by decide) (by decide),
      f_setF_field _ fEZ_CTL_REMAP fEZ_CTL_HALT _ _ _ (by decide) (by decide) rfl (by decide) (by decide)]
    exact f_setF_bit _ v _ _ _ _ (by decide) rfl
  · rw [f_setF_field _ fEZ_CTL_LOCK fEZ_CTL_REMAP _ _ _ (by decide) (by decide) rfl (by decide) (by decide)]
    exact f_setF_bit _ v _ _ _ _ (by decide) rfl

theorem ezCtl_fields_locked (h : s.fb fEZ_CTL_LOCK c = true) :
    (ezCtl s c v).f fEZ_CTL_HALT c = bits v.toNat 1 1 ∧ (ezCtl s c v).f fEZ_CTL_REMAP c = s.f fEZ_CTL_REMAP c ∧
      (ezCtl s c v).fb fEZ_CTL_LOCK c = true := by
  rw [← h, ezCtl_locked s c v h]
  refine ⟨f_setF_bit _ v _ _ _ _ (by decide) rfl, ?_, ?_⟩
  · exact f_setF_field s fEZ_CTL_HALT fEZ_CTL_REMAP _ _ _ (by decide) (by decide) rfl (by decide) (by decide)
  · simp only [State.fb, f_setF_field s fEZ_CTL_HALT fEZ_CTL_LOCK _ _ _ (by decide) (by decide) rfl (by decide) (by decide)]

/-- The write reaches EZ_CTL only. -/
theorem ezCtl_frame : (ezCtl s c v).cores = s.cores ∧
    ∀ n, n ≠ rEZ_CTL.key c 0 → tfind (ezCtl s c v).regs n = tfind s.regs n := by
  cases h : s.fb fEZ_CTL_LOCK c with
  | true =>
    rw [ezCtl_locked s c v h]
    exact ⟨rfl, fun n hn => regs_setF _ _ _ _ _ _ hn⟩
  | false =>
    rw [ezCtl_open s c v h]
    refine ⟨rfl, fun n hn => ?_⟩
    rw [regs_setF _ _ _ _ _ _ hn, regs_setF _ _ _ _ _ _ hn, regs_setF _ _ _ _ _ _ hn]

-- EZ_IDATA -----------------------------------------------------------------------------------------------------------------------

theorem imemWord_putImem (w : Nat) (h : memWf s.imem = true) : imemWord (putImem s c w v.toNat) c w = v.toNat := by
  simp only [imemWord, putImem]
  rw [mread_leBytes _ _ _ _ h, leVal_leBytes]
  exact Nat.mod_eq_of_lt v.isLt

theorem ezIdata_free (h : imemBusy s c (s.f fEZ_IADDR_WORD c) = false) :
    ezIdata s c v = digestBusy ((putImem s c (s.f fEZ_IADDR_WORD c) v.toNat).setF fEZ_IADDR_WORD (s.f fEZ_IADDR_WORD c + 1) c) :=
  if_neg (by simp [h])

theorem ezIdata_busy (h : imemBusy s c (s.f fEZ_IADDR_WORD c) = true) : ezIdata s c v = raise s kEZ_STAT_IWREF c := if_pos h

theorem ezIdata_lands (hm : memWf s.imem = true) (h : imemBusy s c (s.f fEZ_IADDR_WORD c) = false) (hc : c < 128) :
    imemWord (ezIdata s c v) c (s.f fEZ_IADDR_WORD c) = v.toNat ∧
      (ezIdata s c v).f fEZ_IADDR_WORD c = (s.f fEZ_IADDR_WORD c + 1) % 2 ^ 14 ∧
      ∀ a, a < c * 65536 + 4 * s.f fEZ_IADDR_WORD c ∨ c * 65536 + 4 * s.f fEZ_IADDR_WORD c + 4 ≤ a →
        mget (ezIdata s c v).imem a = mget s.imem a := by
  rw [ezIdata_free s c v h]
  refine ⟨imemWord_putImem s c v _ hm, ?_, fun a ha => ?_⟩
  · have hk : fEZ_IADDR_WORD.reg.key c 0 ≠ fKS_PSTAT_BUSY.reg.key 0 0 := by
      simp only [Reg.key, fEZ_IADDR_WORD, rEZ_IADDR, fKS_PSTAT_BUSY, rKS_PSTAT]
      omega
    rw [digestBusy, f_setF_ne _ _ _ _ _ _ _ _ hk, f_setF_self _ _ _ _ _ (by decide)]
    rfl
  · exact mget_mwrite_out _ _ _ _ (by rwa [length_leBytes])

theorem ezIdata_refused (h : imemBusy s c (s.f fEZ_IADDR_WORD c) = true) (hc : c < 128) :
    (ezIdata s c v).imem = s.imem ∧ Flagged (ezIdata s c v) kEZ_STAT_IWREF c ∧
      (ezIdata s c v).f fEZ_IADDR_WORD c = s.f fEZ_IADDR_WORD c := by
  rw [ezIdata_busy s c v h]
  refine ⟨(onlySignals_raise s _ c 0).field State.imem fun _ _ _ _ _ _ _ _ _ => rfl, ?_, ?_⟩
  · refine flagged_raise s _ _ _ rfl (by decide) (fun f hf => ?_) (not_sideKey (Or.inl ?_))
    · obtain rfl : fEZ_SETCNT_IWREF_N = f := Option.some.inj hf
      simp only [Reg.key, kEZ_STAT_IWREF, fEZ_STAT_IWREF, rEZ_STAT, fEZ_SETCNT_IWREF_N, rEZ_SETCNT]
      omega
    · simp only [Reg.key, kEZ_STAT_IWREF, fEZ_STAT_IWREF, rEZ_STAT]
      omega
  · refine f_raise_ne s ?_ (fun f hf => ?_) (not_sideKey (Or.inl ?_))
    · simp only [Reg.key, kEZ_STAT_IWREF, fEZ_STAT_IWREF, rEZ_STAT, fEZ_IADDR_WORD, rEZ_IADDR]
      omega
    · obtain rfl : fEZ_SETCNT_IWREF_N = f := Option.some.inj hf
      simp only [Reg.key, fEZ_IADDR_WORD, rEZ_IADDR, fEZ_SETCNT_IWREF_N, rEZ_SETCNT]
      omega
    · simp only [Reg.key, fEZ_IADDR_WORD, rEZ_IADDR]
      omega

-- EZ_XCFG and SCH_CAP ------------------------------------------------------------------------------------------------------------

theorem ezXcfg_reg (k : Nat) (hk : k < 8) :
    (ezXcfg s c k v).reg rEZ_XCFG c k = (v &&& 0x8000003F#32) ||| (s.reg rEZ_XCFG c k &&& 0x80000000#32) ∧
      (ezXcfg s c k v).eff = s.eff := by
  obtain ⟨-, heff, -, hreg⟩ := deferWrite_spec s rEZ_XCFG c k ((v &&& 0x8000003F#32) ||| (s.reg rEZ_XCFG c k &&& 0x80000000#32))
  exact ⟨hreg (by simp only [Reg.key, rEZ_XCFG, rKS_PSTAT]; omega), heff⟩

/-- RETURN collects the cores asked for. -/
theorem schCap_maint (h : s.maint = true) :
    (schCap s v).f fSCH_CAP_RETURN = s.f fSCH_CAP_RETURN ||| bits v.toNat 16 8 := by
  rw [schCap, if_pos h, f_setF_self _ _ _ _ _ (by decide)]
  exact Nat.mod_eq_of_lt (Nat.or_lt_two_pow (bits_lt _ _ _) (bits_lt _ _ _))

theorem schCap_run (h : s.maint = false) : schCap s v = s := if_neg (by simp [h])

end

theorem ezCtlWrites (s : State) (c : Core) (v : Word) :
    Completes (exec (.ezCtl c v) s) (fun t => t.f fEZ_CTL_HALT c = bits v.toNat 1 1 ∧
      (s.fb fEZ_CTL_LOCK c = false → t.f fEZ_CTL_REMAP c = bits v.toNat 0 1 ∧ t.f fEZ_CTL_LOCK c = bits v.toNat 31 1) ∧
      (s.fb fEZ_CTL_LOCK c = true → t.f fEZ_CTL_REMAP c = s.f fEZ_CTL_REMAP c ∧ t.fb fEZ_CTL_LOCK c = true) ∧
      t.cores = s.cores ∧ ∀ n, n ≠ rEZ_CTL.key c 0 → tfind t.regs n = tfind s.regs n) := by
  refine completes_done (s := ezCtl s c v) ⟨?_, fun h => ?_, fun h => ?_, ezCtl_frame s c v⟩
  · cases h : s.fb fEZ_CTL_LOCK c with
    | true => exact (ezCtl_fields_locked s c v h).1
    | false => exact (ezCtl_fields_open s c v h).1
  · exact (ezCtl_fields_open s c v h).2
  · exact (ezCtl_fields_locked s c v h).2

/-- Settles O24: each register's own write, with LOCK, the busy windows and MAINTENANCE as its cases. -/
theorem coreRegisters : Obligations.CoreRegisters := by
  intro s c k v
  have hc : c.val < 128 := by omega
  refine ⟨ezCtlWrites s c v, fun hm => ⟨fun h => ?_, fun h => ?_⟩, ?_, fun h => ?_, fun h => ?_⟩
  · exact completes_done (ezIdata_lands s c v hm h hc)
  · exact completes_done (ezIdata_refused s c v h hc)
  · exact completes_done (ezXcfg_reg s c v k k.isLt)
  · exact completes_done (schCap_maint s v h)
  · exact completes_done (congrArg settle (schCap_run s v h))

end Sys2Proof.Machine
end

section
/-! PROOFS. Writes through a core's ports, and through a point write port: what an OUT of a ready core does, and the V
that a PWR's judgement writes. -/

namespace Sys2Proof.Machine
open Sys2Proof

-- A core with nothing pending ----------------------------------------------------------------------------------------------------

/-- A register set has no long operation pending and no PWR without its V. -/
structure ThrDone (t : Thr) : Prop where
  pend : t.pend = []
  pwr  : t.pwr = none

theorem ThrCalm.done {t : Thr} (h : ThrCalm t) : ThrDone t := ⟨h.pend, h.pwr⟩

/-- No register set that may issue at core c has an event to come. -/
structure SetsCalm (s : State) (c : Nat) : Prop where
  sup : ThrDone (s.thr c none)
  own : ∀ q, vOwner s c = some q → ThrDone (s.thr c (some q))

/-- Neither the span of core c nor a register set that may issue there has anything pending. -/
structure Quiet (s : State) (c : Nat) : Prop where
  sets : SetsCalm s c
  jobs : (s.core c).jobs = []
  vq   : (s.core c).vq = []
  br   : (s.core c).br = none

section
variable {s t : State} {c : Nat} {k : Option Nat}

theorem Ready.quiet {n : Nat} (h : Ready s c k n) : Quiet s c := ⟨⟨h.sup.done, fun q hq => (h.own q hq).done⟩, h.jobs, h.vq, h.br⟩

/-- The issuer of a ready core is its supervisor or the owner of its span. -/
theorem Ready.vOwner {n q : Nat} (h : Ready s c (some q) n) : Machine.vOwner s c = some q := by
  have hw := h.who
  rw [curCtx, sup_of_curCtx hw] at hw
  exact hw

/-- The next event of core c, while the device runs: the span's, then the register sets'. -/
theorem nextEvent_going (h : s.stopped = false) : nextEvent s c =
    sooner (sooner (sooner ((s.core c).br.map fun b => (b.due, CEv.verdict b))
        ((picks (s.core c).jobs).foldl (fun b p => sooner b (some (p.1.fin, .expire p.1 p.2))) none))
      ((headStart s c).map fun t => (t, CEv.start)))
    (sooner ((vOwner s c).bind fun q => thrEvent s c (some q)) (thrEvent s c none)) := by
  unfold nextEvent
  rw [if_neg (by simp [h])]
  cases vOwner s c <;> rfl

theorem sooner_none_left (b : Option (Nat × CEv)) : sooner none b = b := by cases b <;> rfl

theorem sooner_none_right (a : Option (Nat × CEv)) : sooner a none = a := by cases a <;> rfl

theorem thrEvent_done (h : ThrDone (s.thr c k)) : thrEvent s c k = none := by
  simp [thrEvent, h.pend, h.pwr, picks, sooner]

theorem headStart_empty (h : (s.core c).vq = []) : headStart s c = none := by
  simp [headStart, h]

/-- The span has no event. -/
theorem nextEvent_thr (hg : s.stopped = false) (hj : (s.core c).jobs = []) (hq : (s.core c).vq = [])
    (hb : (s.core c).br = none) : nextEvent s c =
      sooner ((vOwner s c).bind fun q => thrEvent s c (some q)) (thrEvent s c none) := by
  rw [nextEvent_going hg, hj, hb, headStart_empty hq]
  exact sooner_none_left _

/-- The register sets have no event. -/
theorem SetsCalm.thrEvents (h : SetsCalm s c) :
    sooner ((vOwner s c).bind fun q => thrEvent s c (some q)) (thrEvent s c none) = none := by
  rw [thrEvent_done h.sup, sooner_none_right]
  cases ho : vOwner s c with
  | none => rfl
  | some q => exact thrEvent_done (h.own q ho)

theorem Quiet.nextEvent (h : Quiet s c) : Machine.nextEvent s c = none := by
  cases hg : s.stopped with
  | true => simp [Machine.nextEvent, hg]
  | false => rw [nextEvent_thr hg h.jobs h.vq h.br, h.sets.thrEvents]

theorem vOwner_modThr (f : Thr → Thr) : vOwner (s.modThr c k f) c = vOwner s c :=
  congrArg (Option.map _) (core_modThr_field s c k (·.run) (fun _ _ => rfl) f)

/-- A pending operation of the issuer is the only event of a core that is otherwise ready. -/
theorem Ready.nextEvent_modThr {n : Nat} (h : Ready s c k n) (f : Thr → Thr) :
    Machine.nextEvent (s.modThr c k f) c = thrEvent (s.modThr c k f) c k := by
  have hg : (s.modThr c k f).stopped = false := by
    rw [← h.stopped]
    cases k <;> rfl
  rw [nextEvent_thr hg ((core_modThr_field s c k (·.jobs) (fun _ _ => rfl) f).trans h.jobs)
    ((core_modThr_field s c k (·.vq) (fun _ _ => rfl) f).trans h.vq)
    ((core_modThr_field s c k (·.br) (fun _ _ => rfl) f).trans h.br), vOwner_modThr]
  cases k with
  | none =>
    cases ho : Machine.vOwner s c with
    | none => exact sooner_none_left _
    | some q =>
      have hc : ThrDone ((s.modThr c none f).thr c (some q)) := (h.own q ho).done
      rw [Option.bind_some, thrEvent_done hc, sooner_none_left]
  | some q =>
    have hc : ThrDone ((s.modThr c (some q) f).thr c none) := h.sup.done
    rw [h.vOwner, thrEvent_done hc]
    exact sooner_none_right _

/-- A step that writes the issuer's own register set leaves the core's other sets. -/
theorem OwnSet.thr_ne (g : OwnSet s t c k) {x : Option Nat} (hx : x ≠ k) : t.thr c x = s.thr c x := by
  cases x with
  | none => exact g.sup (Ne.symm hx)
  | some q =>
    have e : t.ctx c q = s.ctx c q := by
      unfold State.ctx
      rw [g.ctxs _ fun e => hx ?_]
      obtain ⟨y, rfl, hy⟩ := Option.map_eq_some_iff.mp e
      exact congrArg some (by omega)
    exact congrArg Ctx.thr e

/-- A step that writes the issuer's own register set only leaves the sets calm when that one is done afterwards. -/
theorem SetsCalm.ownSet (h : SetsCalm s c) (g : OwnSet s t c k) (ht : ThrDone (t.thr c k)) : SetsCalm t c where
  sup := by
    by_cases hk : k = none
    · exact hk ▸ ht
    · exact g.thr_ne (Ne.symm hk) ▸ h.sup
  own q hq := by
    have hq' : vOwner s c = some q := hq ▸ (congrArg (Option.map _) (g.core_field (·.run) fun _ _ => rfl)).symm
    by_cases hk : k = some q
    · exact hk ▸ ht
    · exact g.thr_ne (Ne.symm hk) ▸ h.own q hq'

theorem Quiet.ownSet (h : Quiet s c) (g : OwnSet s t c k) (ht : ThrDone (t.thr c k)) : Quiet t c where
  sets := h.sets.ownSet g ht
  jobs := (g.core_field (·.jobs) fun _ _ => rfl).trans h.jobs
  vq := (g.core_field (·.vq) fun _ _ => rfl).trans h.vq
  br := (g.core_field (·.br) fun _ _ => rfl).trans h.br

-- Running a core's events ----------------------------------------------------------------------------------------------------------

theorem runTo_quiet (h : Quiet s c) (n fuel : Nat) : runTo s c n fuel = s := by
  cases fuel <;> simp [runTo, h.nextEvent]

/-- An event that is due is run, with fuel left. -/
theorem runTo_due {n m : Nat} {e : CEv} (h : nextEvent s c = some (m, e)) (hm : m ≤ n) (fuel : Nat) :
    runTo s c n (fuel + 1) = runTo (runEvent s c m e) c n fuel := by
  simp [runTo, h, hm]

end

-- OUT (R143) -----------------------------------------------------------------------------------------------------------------------

section
variable {s : State} {c : Nat} {k : Option Nat}

/-- The core's register set, flags and next issue after an OUT. -/
def PortKeeps (s : State) (c : Nat) (k : Option Nat) (t : State) : Prop :=
  (∀ n, gpr t c k n = gpr s c k n) ∧ nzcv t c k = nzcv s c k ∧ Took s t c 4

/-- An OUT of a ready core does what its port's act says. -/
theorem outI_ok (h : Ready s c k 4) {rd ra n p : Nat} {imm : BitVec 16} {x : State} (hp : portOf (s.thr c k).r ra imm = p)
    (hx : outAct (begun s c k 4) c k (pcOf s c k) p (gpr s c k rd) = .ok x n) :
    outI s c rd ra imm = x.modCore c fun y => { y with cyc := issueCyc s c + n } := by
  have hg (j : Nat) : ((begun s c k 4).thr c k).r.get j = (s.thr c k).r.get j := begun_gpr s c k 4 j
  unfold outI
  rw [issueI_ready (u := { reads := [ra, rd], outAt := some (ra, imm) }) _ h (fun e => by simp at e) rfl
    (fun e => by simp at e) (fun e => by simp at e)]
  rw [← hp, portOf, gpr] at hx
  simp only [portOf, hg, hx]
  rfl

/-- An act that keeps its issuer's registers and flags ends as an OUT that keeps them. -/
theorem portKeeps_concluded {x : State} (hr : ∀ n, gpr x c k n = gpr (begun s c k 4) c k n)
    (hf : nzcv x c k = nzcv (begun s c k 4) c k) :
    PortKeeps s c k (settle (x.modCore c fun y => { y with cyc := issueCyc s c + 4 })) := by
  refine ⟨fun n => ?_, ?_, took_concluded s x c 4⟩
  · rw [gpr, thr_concluded, ← gpr, hr, begun_gpr]
  · rw [nzcv, thr_concluded, ← nzcv, hf, begun_nzcv]

theorem portKeeps_of_thr {x : State} (h : x.thr c k = (begun s c k 4).thr c k) :
    PortKeeps s c k (settle (x.modCore c fun y => { y with cyc := issueCyc s c + 4 })) :=
  portKeeps_concluded (fun _ => by rw [gpr, h, ← gpr]) (by rw [nzcv, h, ← nzcv])

/-- An instruction that leaves its issuer's architectural registers as it acts with them passes on to the next. -/
theorem passes_of_rset {u : State} (h : (u.thr c k).r = ((begun s c k 4).thr c k).r) (n : Nat) :
    Passes s (settle (u.modCore c fun y => { y with cyc := issueCyc s c + n })) c k n where
  regs m := by rw [gpr, thr_concluded, h, ← gpr, begun_gpr]
  flags := by rw [nzcv, thr_concluded, h, ← nzcv, begun_nzcv]
  next := by
    simp only [Advanced, thr_concluded, h, begun_thr, and_self]
  took := took_concluded s u c n

theorem secOf_begun {n : Nat} (h : secOf s c k = none) : secOf (begun s c k n) c k = none := by
  cases k with
  | none => rfl
  | some q => exact begun_sec_none h

theorem pointOwner_begun (n : Nat) : pointOwner (begun s c k n) c k = pointOwner s c k := by
  cases k with
  | none => rfl
  | some q => exact congrArg some ((ownSet_begun s c (some q) n).tenant q)

-- VCOUNT (R103)

theorem thr_setVcount (x : State) (v : Nat) : (setVcount x c k v).thr c k = x.thr c k := by
  cases k <;> simp [setVcount, State.thr]

theorem thr_setVceil (x : State) (v : Nat) : (setVceil x c k v).thr c k = x.thr c k := by
  cases k <;> simp [setVceil, State.thr]

theorem vcountOf_setVcount (x : State) (v : Nat) : vcountOf (setVcount x c k v) c k = v := by
  cases k <;> simp [setVcount, vcountOf]

theorem vcountOf_setVceil (x : State) (v : Nat) : vcountOf (setVceil x c k v) c k = vcountOf x c k := by
  cases k <;> simp [setVceil, vcountOf]

theorem vceilOf_setVceil (x : State) (v : Nat) : vceilOf (setVceil x c k v) c k = v := by
  cases k <;> simp [setVceil, vceilOf]

theorem vcountOf_concluded (x : State) (n : Nat) :
    vcountOf (settle (x.modCore c fun y => { y with cyc := n })) c k = vcountOf x c k := by
  cases k with
  | none => simp only [vcountOf, core_concluded]
  | some q => rfl

theorem vceilOf_concluded (x : State) (n : Nat) :
    vceilOf (settle (x.modCore c fun y => { y with cyc := n })) c k = vceilOf x c k := by
  cases k with
  | none => simp only [vceilOf, core_concluded]
  | some q => rfl

/-- No vector instruction holds VCOUNT at a ready core. -/
theorem Ready.countBusy_begun {n : Nat} (h : Ready s c k n) (m : Nat) (out : Bool) : countBusy c k out (begun s c k m) = false := by
  have ho := ownSet_begun s c k m
  have hvq : ((begun s c k m).core c).vq = [] := (ho.core_field (·.vq) fun _ _ => rfl).trans h.vq
  have hjobs : ((begun s c k m).core c).jobs = [] := (ho.core_field (·.jobs) fun _ _ => rfl).trans h.jobs
  simp [countBusy, hvq, hjobs]

theorem outAct_vcount (h : Ready s c k 4) (pc : Nat) {v : Word} (hv : v.toNat ≤ 0x100000) :
    outAct (begun s c k 4) c k pc 0 v = .ok (setVceil (setVcount (begun s c k 4) c k v.toNat) c k v.toNat) 4 := by
  simp [outAct, vcountAct, h.countBusy_begun, Nat.not_lt.mpr hv]

-- The other ports (R143, R144, R259)

/-- Outside a section PUB asks for a publication of its issuer's control block. -/
theorem pubAct_plain {x : State} (pc cb : Nat) (hsec : secOf x c k = none) (hen : bit (wd (x.recw 3 cb) 0) 31 = true)
    (hmine : ∀ t, pointOwner x c k = some t → bits (wd (x.recw 3 cb) 0) 16 8 = t) :
    pubAct x c k pc cb = .ok { toIssue x c with
      pubq := (toIssue x c).pubq ++ [⟨cb, false, none, false, none, (toIssue x c).now⟩] } 4 := by
  cases k with
  | none => simp [pubAct, hen, pointOwner]
  | some q => simp [pubAct, hen, hsec, pointOwner, hmine _ rfl]

theorem toIssue_begun (n : Nat) : (toIssue (begun s c k n) c).now = (toIssue s c).now := by
  have ho := ownSet_begun s c k n
  have hnow : (begun s c k n).now = s.now := ho.dev_field (·.now) fun _ _ _ => rfl
  have hcyc : (begun s c k n).cyc = s.cyc := ho.dev_field (·.cyc) fun _ _ _ => rfl
  rw [toIssue, toIssue, advanceTo_now, advanceTo_now, ho.issueCyc, hnow, hcyc]

end

/-- The first part of the statement. -/
theorem portWrites : Clause.PortWrites := by
  intro s c k rd ra imm h
  have ho := ownSet_begun s c k 4
  dsimp only
  refine ⟨fun hp hv => runs_of_exec rfl ?_, fun hp => runs_of_exec rfl ?_, fun hp hk => runs_of_exec rfl ?_,
    fun hp hsec hen hmine => runs_of_exec rfl ?_⟩
  · rw [outI_ok h hp (outAct_vcount h _ hv)]
    refine ⟨portKeeps_of_thr ?_, ?_, ?_⟩
    · rw [thr_setVceil, thr_setVcount]
    · rw [vcountOf_concluded, vcountOf_setVceil, vcountOf_setVcount]
    · rw [vceilOf_concluded, vceilOf_setVceil]
  · rw [outI_ok h hp rfl]
    refine ⟨portKeeps_concluded (fun n => ?_) ?_, ?_⟩
    · rw [gpr, thr_modThr_self]
      rfl
    · rw [nzcv, thr_modThr_self]
      rfl
    · rw [thr_concluded, thr_modThr_self]
      rfl
  · subst hk
    rw [outI_ok h hp rfl]
    refine ⟨portKeeps_of_thr ?_, ?_⟩
    · simp [State.thr]
    · rw [core_concluded, core_modCore_self]
  · have hrecw : (begun s c k 4).recw 3 ((gpr s c k rd).toNat % 1024) = s.recw 3 ((gpr s c k rd).toNat % 1024) :=
      ho.dev_field (·.recw 3 _) fun _ _ _ => rfl
    have hact := pubAct_plain (pcOf s c k) ((gpr s c k rd).toNat % 1024) (secOf_begun hsec) (hrecw ▸ hen)
      (by rw [pointOwner_begun, hrecw]; exact hmine)
    rw [outI_ok h hp hact]
    refine ⟨portKeeps_of_thr ?_, ?_, ?_⟩
    · cases k <;> rfl
    · exact congrArg₂ (fun q n => q ++ [⟨(gpr s c k rd).toNat % 1024, false, none, false, none, n⟩])
        (ho.dev_field (·.pubq) fun _ _ _ => rfl) (toIssue_begun 4)
    · exact ho.dev_field (·.ptq) fun _ _ _ => rfl

-- The point write port (R145, R294, R295) -------------------------------------------------------------------------------------------

section
variable {s : State} {c : Nat} {k : Option Nat}

theorem trayBytes_take (a : Nat) {m n : Nat} (h : m ≤ n) : (trayBytes s c a n).take m = trayBytes s c a m := by
  induction m generalizing a n with
  | zero => rfl
  | succ m ih =>
    obtain ⟨n, rfl⟩ := Nat.exists_eq_succ_of_ne_zero (show n ≠ 0 by omega)
    rw [trayBytes, trayBytes, List.take_succ_cons, ih _ (Nat.succ_le_succ_iff.mp h)]

theorem trayBytes_drop (a m n : Nat) : (trayBytes s c a (m + n)).drop m = trayBytes s c (a + m) n := by
  induction m generalizing a with
  | zero => rw [Nat.zero_add, List.drop_zero, Nat.add_zero]
  | succ m ih => rw [Nat.succ_add, trayBytes, List.drop_succ_cons, ih, Nat.add_assoc, Nat.add_comm 1]

/-- While keys are derived the keystream of a Tray does not hang on the time (R346). -/
theorem trayFog_advanceTo (h : keyless s = false) (m a : Nat) : trayFog (s.advanceTo m) c a = trayFog s c a := by
  have h' : keyless (s.advanceTo m) = false := h
  unfold trayFog
  rw [if_neg (ne_true_of_eq_false h), if_neg (ne_true_of_eq_false h')]
  rfl

theorem keyless_begun (n : Nat) : keyless (begun s c k n) = keyless s :=
  (ownSet_begun s c k n).dev_field keyless fun _ _ _ => rfl

/-- The bytes of the Tray are the same when an instruction acts, and at its issue. -/
theorem trayBytes_toIssue (h : keyless s = false) (m a n : Nat) :
    trayBytes (toIssue (begun s c k m) c) c a n = trayBytes s c a n := by
  have ho := ownSet_begun s c k m
  have htray : (toIssue (begun s c k m) c).tray = s.tray := ho.dev_field (·.tray) fun _ _ _ => rfl
  refine trayBytes_congr htray (fun x => ?_) a n
  rw [toIssue, trayFog_advanceTo (by rwa [keyless_begun]), ho.trayFog]

theorem trayCheck_clean {a : Nat} (h : TrayClean s c a) : trayCheck s c a = (true, s) := by
  unfold trayCheck
  simp only [show tget 0 s.trayEcc (trayKey c a / 8) = 0 from h]

/-- A write of the sheet by its issuer's own point, of a type that takes writes. -/
theorem writeAllowed_own {p : Point} {w : PtWrite} (hty : p.ty ≠ 0) (ho : ∀ t, w.owner = some t → p.owner = t)
    (hsrc : w.src ≠ .host) : writeAllowed p w = true := by
  unfold writeAllowed
  cases hw : w.owner with
  | none => simp [hty, hsrc]
  | some t => simp [hty, hsrc, ho t hw]

/-- The point write that a PWR of the write block at Tray address p sends. -/
def pwrWrite (x : State) (c : Nat) (k : Option Nat) (p : Nat) : PtWrite := blockWrite (toIssue x c) c k (trayBytes (toIssue x c) c p 16)

/-- The state after a PWR outside a section: the write is on its way, and V waits for its judgement. -/
def pwrSent (x : State) (c : Nat) (k : Option Nat) (p : Nat) : State :=
  ({ toIssue x c with ptq := x.ptq ++ [pwrWrite x c k p] } : State).modThr c k fun t => { t with pwr := some none }

/-- A PWR of a sound, aligned block that its issuer may write. -/
theorem pwrAct_sent {x : State} (pc : Nat) {a : Nat} (ha : a % 16 = 0) (ha' : a < 0x3F00)
    (h0 : TrayClean x c (blockAddr k a)) (h8 : TrayClean x c (blockAddr k a + 8)) (hsec : secOf x c k = none)
    (hq : leVal (((trayBytes (toIssue x c) c (blockAddr k a) 16).drop 4).take 2) < 2 ^ 13)
    (hw : writeAllowed ((toIssue x c).pt (pwrWrite x c k (blockAddr k a)).pt) (pwrWrite x c k (blockAddr k a)) = true) :
    pwrAct x c k pc a = .ok (pwrSent x c k (blockAddr k a)) 4 := by
  have hal : (a % 16 != 0 || decide (0x3F00 ≤ a)) = false := by simp [ha, ha']
  have hok : (leVal (((trayBytes (toIssue x c) c (blockAddr k a) 16).drop 4).take 2) / 2 ^ 13 != 0 ||
      !writeAllowed ((toIssue x c).pt (pwrWrite x c k (blockAddr k a)).pt) (pwrWrite x c k (blockAddr k a))) = false := by
    rw [hw, Nat.div_eq_of_lt hq]
    rfl
  rw [pwrWrite] at hok
  unfold pwrAct
  simp only [hal, trayCheck_clean h0, trayCheck_clean h8, hok, hsec, if_true, Bool.and_self, Bool.not_true,
    Bool.false_eq_true, if_false]
  cases k <;> rfl

/-- What the write block at Tray address p says (R294). -/
theorem pwrWrite_fields (hk : keyless s = false) (n p : Nat) :
    let x := pwrWrite (begun s c k n) c k p
    let w := leVal (trayBytes s c p 4)
    x.src = .ez ∧ x.pt = w % 2 ^ 17 ∧ x.owner = pointOwner s c k ∧
      x.val = (if w.testBit 31 then none else some (BitVec.ofNat 64 (leVal (trayBytes s c (p + 8) 8)))) ∧
      x.q = (if w.testBit 30 then none else some (leVal (trayBytes s c (p + 4) 2))) := by
  intro x w
  have hx : x = blockWrite (toIssue (begun s c k n) c) c k (trayBytes s c p 16) := by
    rw [← trayBytes_toIssue (k := k) hk n]
    rfl
  have h0 : (trayBytes s c p 16).take 4 = trayBytes s c p 4 := trayBytes_take p (by decide)
  have h4 : ((trayBytes s c p 16).drop 4).take 2 = trayBytes s c (p + 4) 2 := by
    rw [trayBytes_drop p 4 12, trayBytes_take _ (by decide)]
  have h8 : ((trayBytes s c p 16).drop 8).take 8 = trayBytes s c (p + 8) 8 := by
    rw [trayBytes_drop p 8 8, trayBytes_take _ (by decide)]
  rw [hx]
  simp only [blockWrite, h0, h4, h8, bit, w, true_and, and_true]
  exact pointOwner_begun n

end

/-- The point write goes to the sheet; its V is still to come. -/
theorem pwrSends {s : State} {c : Core} {k : Option Nat} {rd ra : Reg5} {imm : BitVec 16} (h : Ready s c k 4)
    (hport : portOf (s.thr c k).r ra imm = 0x108) (hsec : secOf s c k = none) (hkey : keyless s = false)
    (hal : (gpr s c k rd).toNat % 16 = 0) (hlt : (gpr s c k rd).toNat < 0x3F00)
    (hc0 : TrayClean s c (blockAddr k (gpr s c k rd).toNat)) (hc8 : TrayClean s c (blockAddr k (gpr s c k rd).toNat + 8))
    (hq : leVal (trayBytes s c (blockAddr k (gpr s c k rd).toNat + 4) 2) < 2 ^ 13)
    (hty : (s.pt (leVal (trayBytes s c (blockAddr k (gpr s c k rd).toNat) 4) % 2 ^ 17)).ty ≠ 0)
    (hown : ∀ t, pointOwner s c k = some t →
      (s.pt (leVal (trayBytes s c (blockAddr k (gpr s c k rd).toNat) 4) % 2 ^ 17)).owner = t) :
    outI s c rd ra imm = (pwrSent (begun s c k 4) c k (blockAddr k (gpr s c k rd).toNat)).modCore c fun y =>
      { y with cyc := issueCyc s c + 4 } := by
  obtain ⟨hsrc, hpt, hwown, -, -⟩ := pwrWrite_fields (c := c) (k := k) hkey 4 (blockAddr k (gpr s c k rd).toNat)
  have ho := ownSet_begun s c k 4
  have hclean {a : Nat} (ha : TrayClean s c a) : TrayClean (begun s c k 4) c a := by
    unfold TrayClean
    rwa [ho.dev_field (·.trayEcc) fun _ _ _ => rfl]
  have hpts (n : Nat) : (toIssue (begun s c k 4) c).pt n = s.pt n := ho.dev_field (·.pt n) fun _ _ _ => rfl
  refine outI_ok h hport (pwrAct_sent _ hal hlt (hclean hc0) (hclean hc8) (secOf_begun hsec) ?_ ?_)
  · rwa [trayBytes_toIssue hkey, trayBytes_drop _ 4 12, trayBytes_take _ (by decide)]
  · rw [hpts, hpt]
    exact writeAllowed_own hty (by rwa [hwown]) (by rw [hsrc]; decide)

-- The judgement (R145)

section
variable {s : State} {c : Nat} {k : Option Nat}

theorem thr_writeV (x : State) (v : Bool) : (writeV x c k v).thr c k =
    { x.thr c k with pwr := none, r := { (x.thr c k).r with v := v } } := by
  simp [writeV, RSet.flags]

theorem ownSet_writeV (x : State) (v : Bool) : OwnSet x (writeV x c k v) c k :=
  (ownSet_modThr x c k _).trans (ownSet_putFlags _ c k _)

/-- A ready core whose issuer's PWR has been judged. -/
def pwrJudged (s : State) (c : Nat) (k : Option Nat) (v : Bool) (m : Nat) : State :=
  s.modThr c k fun t => { t with pwr := some (some (v, m)) }

theorem thr_pwrJudged (v : Bool) (m : Nat) : (pwrJudged s c k v m).thr c k = { s.thr c k with pwr := some (some (v, m)) } :=
  thr_modThr_self s c k _

/-- The judgement's return is the one event of the core. -/
theorem Ready.nextEvent_pwrJudged {n : Nat} (h : Ready s c k n) (v : Bool) (m : Nat) :
    Machine.nextEvent (pwrJudged s c k v m) c = some (cdiv m (pwrJudged s c k v m).cyc, .flagV k v) := by
  rw [pwrJudged, h.nextEvent_modThr, thrEvent, ← pwrJudged, thr_pwrJudged, h.calm.pend]
  exact sooner_none_left _

theorem Ready.quiet_writeV {n : Nat} (h : Ready s c k n) (v : Bool) (m : Nat) : Quiet (writeV (pwrJudged s c k v m) c k v) c := by
  refine h.quiet.ownSet ((ownSet_modThr s c k _).trans (ownSet_writeV _ v)) ?_
  rw [thr_writeV, thr_pwrJudged]
  exact ⟨h.calm.pend, rfl⟩

theorem thr_waitTo (x : State) (n : Nat) : (waitTo x c n).thr c k = x.thr c k := by
  cases k <;> simp [waitTo, State.thr]

/-- The judgement writes V, and issue waits for it. -/
theorem pwrJudgement_eq {n : Nat} (h : Ready s c k n) (v : Bool) (m : Nat) : pwrJudgement (pwrJudged s c k v m) c =
    waitTo (writeV (pwrJudged s c k v m) c k v) c (cdiv m (pwrJudged s c k v m).cyc) := by
  have hcur : curCtx (pwrJudged s c k v m) c = k := (curCtx_modThr s c k _).trans h.who
  have hthr : (writeV (pwrJudged s c k v m) c k v).thr c k = _ := thr_writeV _ v
  have hrun : runTo (pwrJudged s c k v m) c (cdiv m (pwrJudged s c k v m).cyc) (eventFuel (pwrJudged s c k v m) c) =
      writeV (pwrJudged s c k v m) c k v := by
    rw [eventFuel, runTo_due (h.nextEvent_pwrJudged v m) (Nat.le_refl _)]
    exact runTo_quiet (h.quiet_writeV v m) _ _
  unfold pwrJudgement
  simp only [hcur, thr_pwrJudged, hrun, thr_waitTo, hthr, Option.isSome_none, Bool.false_eq_true, if_false]

end

/-- The second part of the statement. -/
theorem pointWritePort : Clause.PointWritePort := by
  intro s c k rd ra imm h
  refine ⟨?_, fun v m => completes_done (s := pwrJudgement (pwrJudged s c k v m) c) ?_⟩
  · intro hport hsec hkey a p w q pt hal hlt hc0 hc8 hq hty hown
    refine runs_of_exec rfl ?_
    rw [pwrSends h hport hsec hkey hal hlt hc0 hc8 hq hty hown]
    have hthr : (pwrSent (begun s c k 4) c k p).thr c k = { (begun s c k 4).thr c k with pwr := some none } := by
      rw [pwrSent, thr_modThr_self]
      cases k <;> rfl
    refine ⟨passes_of_rset (by rw [hthr]) 4, by rw [thr_concluded, hthr], pwrWrite (begun s c k 4) c k p, ?_,
      pwrWrite_fields hkey 4 p⟩
    refine Eq.trans ?_ (congrArg (· ++ [pwrWrite (begun s c k 4) c k p])
      ((ownSet_begun s c k 4).dev_field (·.ptq) fun _ _ _ => rfl))
    cases k <;> rfl
  · have hthr : (settle (pwrJudgement (pwrJudged s c k v m) c)).thr c k =
        { s.thr c k with pwr := none, r := { (s.thr c k).r with v := v } } := by
      have hs (x : State) : (settle x).thr c k = x.thr c k := by cases k <;> rfl
      rw [hs, pwrJudgement_eq h, thr_waitTo, thr_writeV, thr_pwrJudged]
    refine ⟨?_, ?_, fun n => ?_⟩
    · rw [nzcv, hthr]
      rfl
    · rw [hthr]
    · rw [gpr, hthr]
      rfl

/-- Settles O15: each port's own act at a ready core, and the one event that a judged PWR leaves. -/
theorem portWritesAndPoints : Obligations.PortWritesAndPoints := ⟨portWrites, pointWritePort⟩

end Sys2Proof.Machine
end

section
/-! PROOFS. The issue of a vector instruction: it takes its place in the span's queue with the scalar registers as they
stand (R84, R110). -/

namespace Sys2Proof.Machine
open Sys2Proof

section
variable {s : State} {c : Nat} {k : Option Nat}

/-- The bytes of a vector instruction (R110, R134). -/
def vSize : VOp → Nat
  | .str _ _ => 8
  | .sht _ _ => 4

theorem joinPair_none {e : VEnt} (hj : (s.core c).jobs = []) : joinPair s c e = none := by
  simp [joinPair, hj, takeOut]

/-- What enters the empty queue of a span that runs nothing is all that is there. -/
theorem core_enqueueV (e : VEnt) (hq : (s.core c).vq = []) (hj : (s.core c).jobs = []) :
    (enqueueV s c e).core c = { s.core c with vq := [e], jobs := [] } := by
  unfold enqueueV
  cases e.op with
  | sht op x =>
    rw [core_modCore_self, hq, ← hj]
    rfl
  | str op x =>
    dsimp only
    rw [joinPair_none (by simp [hj])]
    simp [hq, hj]

/-- Entering the queue writes nothing but the core. -/
theorem enqueueV_rest (e : VEnt) (hj : (s.core c).jobs = []) : { enqueueV s c e with cores := s.cores } = s := by
  unfold enqueueV
  cases e.op with
  | sht op x => rfl
  | str op x =>
    dsimp only
    rw [joinPair_none (by simp [hj])]
    rfl

theorem enqueueV_field {α : Type} (g : State → α) (hg : ∀ x r, g { x with cores := r } = g x) (e : VEnt)
    (hj : (s.core c).jobs = []) : g (enqueueV s c e) = g s :=
  (hg (enqueueV s c e) s.cores).symm.trans (congrArg g (enqueueV_rest e hj))

theorem thr_enqueueV (e : VEnt) (hq : (s.core c).vq = []) (hj : (s.core c).jobs = []) :
    (enqueueV s c e).thr c k = s.thr c k := by
  cases k with
  | none =>
    unfold State.thr
    rw [core_enqueueV e hq hj]
  | some q =>
    exact enqueueV_field (·.thr c (some q)) (fun _ _ => rfl) e hj

theorem Ready.vq_begun {n : Nat} (h : Ready s c k n) (m : Nat) : ((begun s c k m).core c).vq = [] :=
  ((ownSet_begun s c k m).core_field (·.vq) fun _ _ => rfl).trans h.vq

theorem Ready.jobs_begun {n : Nat} (h : Ready s c k n) (m : Nat) : ((begun s c k m).core c).jobs = [] :=
  ((ownSet_begun s c k m).core_field (·.jobs) fun _ _ => rfl).trans h.jobs

/-- The state after the issue of a vector instruction at an empty span. -/
def vQueued (s : State) (c : Nat) (k : Option Nat) (op : VOp) : State :=
  enqueueV (begun s c k (vSize op)) c (newEnt s c k op (s.thr c k).r.pc (issueCyc s c) false false)

theorem strictOf_enqueueV (e : VEnt) (hj : (s.core c).jobs = []) : strictOf (enqueueV s c e) c k = strictOf s c k := by
  cases k with
  | none => rfl
  | some q => exact enqueueV_field (strictOf · c (some q)) (fun _ _ => rfl) e hj

theorem strictOf_begun (n : Nat) : strictOf (begun s c k n) c k = strictOf s c k := by
  cases k with
  | none => rfl
  | some q => exact (ownSet_begun s c (some q) n).ctx_field (·.strict) fun _ _ _ => rfl

/-- The instruction takes the registers and the cycle of its issue with it, not those it acts in. -/
theorem newEnt_begun {n : Nat} (h : Ready s c k n) (op : VOp) (m : Nat) :
    newEnt (begun s c k m) c k op (w32 (pcOf s c k)) (issueCyc (begun s c k m) c) ((begun s c k m).core c).br.isSome false =
      newEnt s c k op (s.thr c k).r.pc (issueCyc s c) false false := by
  have ho := ownSet_begun s c k m
  have hbr : ((begun s c k m).core c).br = none := (ho.core_field (·.br) fun _ _ => rfl).trans h.br
  have hplain : ((begun s c k m).thr c k).r.plain.s = (s.thr c k).r.plain.s := by
    rw [begun_thr]
    unfold RSet.plain RSet.flip
    rw [nextPc_inv]
    split
    · simp only [nextPc_s]
    · exact nextPc_s _ _ _
  have hpc : w32 (pcOf s c k) = (s.thr c k).r.pc := by simp [w32, pcOf]
  unfold newEnt
  rw [hplain, hbr, ho.issueCyc, hpc]
  rfl

theorem issueV_ready {op : VOp} (h : Ready s c k (vSize op)) (hsh : vShad op = false) (hl : vLegal op = true)
    (hns : noSpan s c = false) (hst : strictOf s c k = false) :
    issueV s c op = (vQueued s c k op).modCore c fun y => { y with cyc := issueCyc s c + 1 } := by
  have hvq := h.vq_begun (vSize op)
  have hjobs := h.jobs_begun (vSize op)
  have hstrict : strictOf (vQueued s c k op) c k = false := by rw [vQueued, strictOf_enqueueV _ hjobs, strictOf_begun, hst]
  unfold issueV
  rw [if_neg (by simp [hsh])]
  change issueI s c { reads := vReads op, writes := vWrites op, ill := !vLegal op || noSpan s c, size := vSize op } _ = _
  rw [issueI_ready (u := { reads := vReads op, writes := vWrites op, ill := !vLegal op || noSpan s c, size := vSize op })
    _ h (fun e => by simp at e) (by simp [hl, hns]) (fun e => by simp at e) (fun e => by simp at e)]
  dsimp only
  rw [hvq, newEnt_begun h, ← vQueued, hstrict]
  rfl

/-- A ready core that controls its span, and has no dispatched activation beside its supervisor, may issue to it. -/
theorem Ready.noSpan {n : Nat} (h : Ready s c k n) (ho : spanOwner s c = true) (hr : k = none → (s.core c).run = none) :
    Machine.noSpan s c = false := by
  unfold Machine.noSpan
  cases k with
  | none => simp [ho, hr rfl]
  | some q => simp [ho, sup_of_curCtx h.who]

end

/-- The issue of one vector instruction, whichever it is. -/
theorem vectorIssued {s : State} {c : Core} {k : Option Nat} {i : Instr} {op : VOp} {size : Nat}
    (he : exec i s = runsV s c i (vShad op) (issueV s c op)) (hz : vSize op = size) (h : Ready s c k size)
    (hsh : vShad op = false) (hl : vLegal op = true) (hst : strictOf s c k = false) (ho : spanOwner s c = true)
    (hr : k = none → (s.core c).run = none) : Runs s c i (fun t =>
      (t.core c).vq = [newEnt s c k op (s.thr c k).r.pc (issueCyc s c) false false] ∧
      (t.core c).jobs = [] ∧ (∀ n, gpr t c k n = gpr s c k n) ∧ nzcv t c k = nzcv s c k ∧ Advanced s t c k size ∧
      Took s t c 1 ∧ { t with cores := s.cores, ctxs := s.ctxs, pm := s.pm } = s) := by
  subst hz
  have hvq := h.vq_begun (vSize op)
  have hjobs := h.jobs_begun (vSize op)
  have hthr : (vQueued s c k op).thr c k = (begun s c k (vSize op)).thr c k := thr_enqueueV _ hvq hjobs
  rw [hsh] at he
  refine runs_of_exec (t := issueV s c op) he ?_
  rw [issueV_ready h hsh hl (h.noSpan ho hr) hst]
  refine ⟨?_, ?_, fun n => ?_, ?_, ?_, took_concluded s _ c 1, ?_⟩
  · rw [core_concluded, vQueued, core_enqueueV _ hvq hjobs]
  · rw [core_concluded, vQueued, core_enqueueV _ hvq hjobs]
  · rw [gpr, thr_concluded, hthr, ← gpr, begun_gpr]
  · rw [nzcv, thr_concluded, hthr, ← nzcv, begun_nzcv]
  · simp only [Advanced, thr_concluded, hthr, begun_thr, and_self]
  · have hrest := enqueueV_rest (s := begun s c k (vSize op))
      (newEnt s c k op (s.thr c k).r.pc (issueCyc s c) false false) hjobs
    exact (congrArg (fun x : State => { x with cores := s.cores, ctxs := s.ctxs, pm := s.pm }) hrest).trans
      (congrArg (fun x : State => { x with pm := s.pm }) (begun_rest s c k (vSize op)))

/-- The first part of the statement. -/
theorem vectorIssue : Clause.VectorIssue := by
  intro s c k
  refine ⟨fun x => ?_, fun x => ?_⟩
  · repeat' apply And.intro
    all_goals exact vectorIssued rfl rfl
  · repeat' apply And.intro
    all_goals exact vectorIssued rfl rfl

end Sys2Proof.Machine
end

section
/-! PROOFS. What an access that finds an error changes, and what the operations on a span leave of its queue (R72, R74, R84,
R92). -/

namespace Sys2Proof.Machine
open Sys2Proof

section
variable {s t u : State} {c : Nat} {k : Option Nat}

-- Errors that are found (R72, R74, R76) -------------------------------------------------------------------------------------------

/-- What finding an error in a memory, and the signals that it raises, leave: everything but time, registers, interrupt
bookkeeping, and the Plate and the errors of the memories; and the cores do the same work. -/
structure Found (s t : State) : Prop where
  rest : { t with
    clk := s.clk, regs := s.regs, setAt := s.setAt, cores := s.cores, hi := s.hi, host := s.host, evq := s.evq, vault := s.vault
    sl := s.sl, plate := s.plate, plateEcc := s.plateEcc, poison := s.poison, trayEcc := s.trayEcc } = s
  work : SameWork s t

theorem Found.trans (h : Found s t) (g : Found t u) : Found s u where
  rest := by
    have hs := h.rest
    have ht := g.rest
    rw [← ht] at hs
    exact hs
  work := h.work.trans g.work

theorem Found.refl (s : State) : Found s s := ⟨rfl, .of_cores rfl⟩

theorem Found.ite {p : Prop} [Decidable p] (ht : Found s t) (hu : Found s u) : Found s (if p then t else u) := by
  split <;> assumption

theorem Found.setF (s : State) (f : Field) (v i : Nat) : Found s (s.setF f v i) := ⟨rfl, .of_cores rfl⟩

theorem Found.advanceTo (s : State) (m : Nat) : Found s (s.advanceTo m) := ⟨rfl, .of_cores rfl⟩

theorem Found.of_signals (h : OnlySignals s t) (hw : SameWork s t) : Found s t where
  rest := by
    unfold OnlySignals at h
    rw [← h]
  work := hw

theorem Found.raise (s : State) (f : Flag) (i j : Nat) : Found s (raise s f i j) :=
  .of_signals (onlySignals_raise s f i j) (sameWork_raise s f i j)

theorem Found.raiseIf (b : Bool) (s : State) (f : Flag) : Found s (raiseIf b s f) := .ite (.raise s f 0 0) (.refl s)

theorem Found.foldl {β : Type} (f : State → β → State) (hf : ∀ x b, Found x (f x b)) (bs : List β) (s : State) :
    Found s (bs.foldl f s) := by
  induction bs generalizing s with
  | nil => exact .refl s
  | cons b bs ih => exact (hf s b).trans (ih _)

theorem Found.foldl_snd {α β : Type} (f : α × State → β → α × State) (hf : ∀ p b, Found p.2 (f p b).2) (bs : List β)
    (p : α × State) : Found p.2 (bs.foldl f p).2 := by
  induction bs generalizing p with
  | nil => exact .refl p.2
  | cons b bs ih => exact (hf p b).trans (ih _)

theorem Found.plateCe (s : State) (wa : Nat) : Found s (plateCe s wa) := by
  obtain ⟨b, h⟩ := plateCe_eq s wa
  rw [h]
  have hc : Found s (corrected s wa) := ⟨rfl, .of_cores rfl⟩
  exact (hc.trans (.raise _ _ 0 0)).trans (.raiseIf _ _ _)

theorem Found.plateUe (s : State) (wa m : Nat) : Found s (plateUe s wa m) := by
  rw [plateUe_eq]
  have hp : Found s (poisoned s wa) := .ite (.refl s) ⟨rfl, .of_cores rfl⟩
  refine (hp.trans ?_).trans (.raise _ _ 0 0)
  exact (((Found.setF _ _ _ 0).trans (.setF _ _ _ 0)).trans (.setF _ _ _ 0)).trans (.setF _ _ _ 0)

theorem Found.plateCheck (s : State) (wa m : Nat) : Found s (plateCheck s wa m).2 := by
  unfold Machine.plateCheck
  split
  · exact .refl s
  · split
    · exact .refl s
    · exact .plateCe s wa
    · exact .plateUe s wa m

theorem Found.plateReadPhys (s : State) (wa off n m : Nat) : Found s (plateReadPhys s wa off n m).2 := by
  have h := Found.plateCheck s wa m
  unfold Machine.plateReadPhys
  generalize Machine.plateCheck s wa m = r at h
  obtain ⟨ok, w⟩ := r
  dsimp only
  split <;> exact h

theorem Found.plateWritePhys (s : State) (wa off n v m : Nat) : Found s (plateWritePhys s wa off n v m).2 := by
  have h := Found.plateCheck s wa m
  unfold Machine.plateWritePhys
  split
  · exact ⟨rfl, .of_cores rfl⟩
  · generalize Machine.plateCheck s wa m = r at h
    obtain ⟨ok, w⟩ := r
    dsimp only
    split
    · exact h.trans ⟨rfl, .of_cores rfl⟩
    · exact h

theorem Found.plateWrite (s : State) (m a n v x : Nat) : Found s (plateWrite s m a n v x).2 := by
  unfold Machine.plateWrite
  split
  · exact .raiseIf _ s _
  · exact .plateWritePhys s _ _ n v x

theorem Found.trayCheck (s : State) (c a : Nat) : Found s (trayCheck s c a).2 := by
  unfold Machine.trayCheck
  split
  · exact .refl s
  · exact ⟨rfl, .of_cores rfl⟩
  · exact ⟨rfl, .of_cores rfl⟩

theorem Found.sampleOp (s : State) (o : LongOp) : Found s (sampleOp s o).2 := by
  unfold Machine.sampleOp
  split
  · exact .refl s
  · next x _ =>
    dsimp only
    have h1 : Found s (if tget 0 s.plateEcc x.wa = 0 then s else s.advanceTo (x.cyc * s.cyc)) :=
      .ite (.refl s) (.advanceTo _ _)
    generalize (if tget 0 s.plateEcc x.wa = 0 then s else s.advanceTo (x.cyc * s.cyc)) = w at h1
    have h2 := Found.plateReadPhys w x.wa x.off x.size 0
    generalize Machine.plateReadPhys w x.wa x.off x.size 0 = r at h2
    obtain ⟨v, u⟩ := r
    cases v <;> exact h1.trans h2

theorem Found.sampleThr (s : State) (x : Thr) (n : Nat) : Found s (sampleThr s x n).2 := by
  unfold Machine.sampleThr
  refine Found.foldl_snd _ (fun acc o => ?_) x.pend ({ x with pend := [] }, s)
  dsimp only
  split
  · exact .sampleOp acc.2 o
  · exact .refl acc.2

theorem Found.raiseArith (s : State) (c : Nat) (k : Option Nat) (e : Nat) : Found s (raiseArith s c k e) := by
  cases k with
  | none => exact .raise s (aflag true e) c 0
  | some q => exact .raise s (aflag false e) c q

theorem Found.landEcc (s : State) (ws : List (Nat × Nat)) : Found s (landEcc s ws) := by
  unfold Machine.landEcc
  refine .foldl _ (fun x w => ?_) _ s
  exact .ite (.plateCe x w.1) (.ite (.raise x kMX_STAT_DECERR 0 0) (.plateUe x w.1 0))

theorem Found.landBlk (s : State) (c : Nat) (e : VEnt) : Found s (landBlk s c e) := by
  unfold Machine.landBlk
  exact .foldl _ (fun x a => .trayCheck x c a) _ s

theorem Found.landPlate (s : State) (m : Nat) (bs : Tab Byte) : Found s (landPlate s m bs) := by
  unfold Machine.landPlate
  refine .foldl _ (fun x w => ?_) _ s
  exact .ite (.plateWrite x m _ _ _ 0) (.foldl _ (fun y b => .plateWrite y m _ _ _ 0) _ x)

theorem Found.ctxs (h : Found s t) : t.ctxs = s.ctxs := by rw [← h.rest]
theorem Found.vreg (h : Found s t) : t.vreg = s.vreg := by rw [← h.rest]
theorem Found.dram (h : Found s t) : t.dram = s.dram := by rw [← h.rest]

/-- Finding an error touches no register set. -/
theorem Found.thr (h : Found s t) (c : Nat) (k : Option Nat) : t.thr c k = s.thr c k := by
  cases k with
  | none => exact h.work.field (·.thr) (fun _ _ => rfl) c
  | some q =>
    unfold State.thr State.ctx
    rw [h.ctxs]

-- What the register sets have pending --------------------------------------------------------------------------------------------

/-- The register sets of core c, and the owner of its span, are the same. -/
structure SetsKept (s t : State) (c : Nat) : Prop where
  thr : ∀ k, t.thr c k = s.thr c k
  own : vOwner t c = vOwner s c

theorem SetsCalm.kept (h : SetsCalm s c) (g : SetsKept s t c) : SetsCalm t c where
  sup := g.thr none ▸ h.sup
  own q hq := g.thr (some q) ▸ h.own q (g.own ▸ hq)

theorem SetsKept.trans (h : SetsKept s t c) (g : SetsKept t u c) : SetsKept s u c :=
  ⟨fun k => (g.thr k).trans (h.thr k), g.own.trans h.own⟩

theorem Found.setsKept (h : Found s t) (c : Nat) : SetsKept s t c :=
  ⟨h.thr c, congrArg (Option.map _) (h.work.field (·.run) (fun _ _ => rfl) c)⟩

theorem setsKept_modCore (s : State) (c : Nat) (f : CoreSt → CoreSt) (ht : ∀ y, (f y).thr = y.thr) (hr : ∀ y, (f y).run = y.run) :
    SetsKept s (s.modCore c f) c where
  thr k := by
    cases k with
    | none => simp [State.thr, ht]
    | some q => rfl
  own := by simp [vOwner, hr]

-- What the span holds ---------------------------------------------------------------------------------------------------------------

/-- The queue of core c's span, what runs there, the outstanding verdict and the times its pipes were freed are the same. -/
structure SpanKept (s t : State) (c : Nat) : Prop where
  vq   : (t.core c).vq = (s.core c).vq
  jobs : (t.core c).jobs = (s.core c).jobs
  br   : (t.core c).br = (s.core c).br
  vfin : (t.core c).vfin = (s.core c).vfin

theorem SpanKept.trans (h : SpanKept s t c) (g : SpanKept t u c) : SpanKept s u c :=
  ⟨g.vq.trans h.vq, g.jobs.trans h.jobs, g.br.trans h.br, g.vfin.trans h.vfin⟩

theorem SpanKept.of_core (h : t.core c = s.core c) : SpanKept s t c := by constructor <;> rw [h]

theorem SpanKept.refl (s : State) (c : Nat) : SpanKept s s c := .of_core rfl

theorem SpanKept.ite {p : Prop} [Decidable p] (ht : SpanKept s t c) (hu : SpanKept s u c) : SpanKept s (if p then t else u) c := by
  split <;> assumption

theorem SpanKept.foldl {β : Type} (f : State → β → State) (hf : ∀ x b, SpanKept x (f x b) c) (bs : List β) (s : State) :
    SpanKept s (bs.foldl f s) c := by
  induction bs generalizing s with
  | nil => exact .refl s c
  | cons b bs ih => exact (hf s b).trans (ih _)

theorem Found.spanKept (h : Found s t) (c : Nat) : SpanKept s t c :=
  ⟨h.work.field (·.vq) (fun _ _ => rfl) c, h.work.field (·.jobs) (fun _ _ => rfl) c, h.work.field (·.br) (fun _ _ => rfl) c,
    h.work.field (·.vfin) (fun _ _ => rfl) c⟩

theorem OwnSet.spanKept (h : OwnSet s t c k) : SpanKept s t c :=
  ⟨h.core_field (·.vq) fun _ _ => rfl, h.core_field (·.jobs) fun _ _ => rfl, h.core_field (·.br) fun _ _ => rfl,
    h.core_field (·.vfin) fun _ _ => rfl⟩

/-- A change of a core that keeps what its span holds. -/
theorem spanKept_modCore (s : State) (c n : Nat) (f : CoreSt → CoreSt)
    (hf : ∀ y, (f y).vq = y.vq ∧ (f y).jobs = y.jobs ∧ (f y).br = y.br ∧ (f y).vfin = y.vfin) : SpanKept s (s.modCore n f) c := by
  by_cases hn : c = n
  · subst hn
    obtain ⟨hq, hj, hb, hv⟩ := hf (s.core c)
    constructor <;> rw [core_modCore_self] <;> assumption
  · exact .of_core (core_setCore_ne s _ hn)

theorem spanKept_setVcount (s : State) (c : Nat) (k : Option Nat) (v : Nat) : SpanKept s (setVcount s c k v) c := by
  cases k
  · exact spanKept_modCore s c c (fun x => { x with vcount := v }) fun _ => ⟨rfl, rfl, rfl, rfl⟩
  · exact .of_core rfl

theorem spanKept_setVceil (s : State) (c : Nat) (k : Option Nat) (v : Nat) : SpanKept s (setVceil s c k v) c := by
  cases k
  · exact spanKept_modCore s c c (fun x => { x with vceil := v }) fun _ => ⟨rfl, rfl, rfl, rfl⟩
  · exact .of_core rfl

theorem spanKept_setGroup (s : State) (c : Nat) (k : Option Nat) (v : Nat) : SpanKept s (setGroup s c k v) c := by
  cases k
  · exact spanKept_modCore s c c (fun x => { x with g := v }) fun _ => ⟨rfl, rfl, rfl, rfl⟩
  · exact .of_core rfl

/-- A signed write that touches no core. -/
theorem spanKept_sign {kind key v : Nat} (h : t.core c = s.core c) : SpanKept s (sign t c k kind key v) c :=
  (SpanKept.of_core h).trans (ownSet_sign t c k kind key v).spanKept

/-- A held write lands beside the queue. -/
theorem spanKept_landOne (c : Nat) (k : Option Nat) (x : Sel) (p : State × Tab Byte) (w : VWrite) :
    SpanKept p.1 (landOne c k x p w).1 c := by
  obtain ⟨s, pl⟩ := p
  cases w with
  | plate a bs => exact spanKept_sign rfl
  | vreg r o bs cls => exact spanKept_sign rfl
  | mask m v =>
    unfold landOne
    dsimp only
    split
    · exact .refl s c
    · exact spanKept_sign rfl
  | tpush t h v sz cls => exact spanKept_sign rfl
  | tpop t h n => exact .of_core rfl
  | tclear t h => exact .of_core rfl
  | sreg r v => exact (ownSet_putReg s c k r v).spanKept
  | vcount v => exact spanKept_setVcount s c k v
  | vceil v => exact spanKept_setVceil s c k v
  | group g => exact spanKept_setGroup s c k g

/-- Loads that sample before another master writes leave every span alone. -/
theorem spanKept_sampleDue (s : State) (n : Nat) : SpanKept s (sampleDue s n) c := by
  unfold sampleDue
  refine SpanKept.trans (.foldl _ (fun x e => ?_) s.ctxs s) (.foldl _ (fun x e => ?_) _ _)
  · refine .ite ?_ (.refl x c)
    exact ((Found.sampleThr x e.2.thr n).spanKept c).trans (.of_core rfl)
  · refine .ite ?_ (.refl x c)
    exact ((Found.sampleThr x e.2.thr n).spanKept c).trans (spanKept_modCore _ c _ _ fun _ => ⟨rfl, rfl, rfl, rfl⟩)

end

end Sys2Proof.Machine
end

section
/-! PROOFS. The events of a span: a start, the expiry of a count, a verdict; and the retirement of a long operation (R84, R92,
R151, R155). -/

namespace Sys2Proof.Machine
open Sys2Proof

section
variable {s t u : State} {c : Nat} {k : Option Nat}

-- Events of the register sets -------------------------------------------------------------------------------------------------------

/-- An event of a register set, not of the span. -/
def CEv.ofSet : CEv → Prop
  | .sample .. | .retire .. | .flagV .. => True
  | .expire .. | .verdict _ | .start => False

/-- What is next, if anything, is an event of a register set. -/
def SetsOnly (o : Option (Nat × CEv)) : Prop := ∀ p, o = some p → p.2.ofSet

theorem setsOnly_sooner {a b : Option (Nat × CEv)} (ha : SetsOnly a) (hb : SetsOnly b) : SetsOnly (sooner a b) := by
  unfold sooner
  split
  · exact hb
  · exact ha
  · split
    · exact hb
    · exact ha

theorem setsOnly_none : SetsOnly none := fun _ h => absurd h (by simp)

theorem setsOnly_some {n : Nat} {e : CEv} (h : e.ofSet) : SetsOnly (some (n, e)) := by
  rintro p hp
  obtain rfl : (n, e) = p := Option.some.inj hp
  exact h

theorem setsOnly_foldl {β : Type} (f : β → Option (Nat × CEv)) (hf : ∀ x, SetsOnly (f x)) (xs : List β)
    {o : Option (Nat × CEv)} (ho : SetsOnly o) : SetsOnly (xs.foldl (fun b x => sooner b (f x)) o) := by
  induction xs generalizing o with
  | nil => exact ho
  | cons x xs ih => exact ih (setsOnly_sooner ho (hf x))

theorem setsOnly_thrEvent (s : State) (c : Nat) (k : Option Nat) : SetsOnly (thrEvent s c k) := by
  unfold thrEvent
  refine setsOnly_sooner (setsOnly_foldl _ (fun x => ?_) _ setsOnly_none) ?_
  · cases x.1.samp with
    | none => exact setsOnly_some trivial
    | some y => exact setsOnly_some trivial
  · split
    · exact setsOnly_some trivial
    · exact setsOnly_none

/-- An empty span has no event of its own. -/
theorem setsOnly_nextEvent (hj : (s.core c).jobs = []) (hq : (s.core c).vq = []) (hb : (s.core c).br = none) :
    SetsOnly (nextEvent s c) := by
  cases hg : s.stopped with
  | true =>
    unfold nextEvent
    rw [if_pos hg]
    exact setsOnly_none
  | false =>
    rw [nextEvent_thr hg hj hq hb]
    refine setsOnly_sooner ?_ (setsOnly_thrEvent s c none)
    cases vOwner s c with
    | none => exact setsOnly_none
    | some q => exact setsOnly_thrEvent s c (some q)

/-- The first part of a retirement: the operation leaves, and its exception sets its flag. -/
def retiring (s : State) (c : Nat) (k : Option Nat) (o : LongOp) (rest : List LongOp) : State :=
  let s := s.modThr c k fun t => { t with pend := rest }
  match o.arith with
  | some e => raiseArith (s.advanceTo (o.ready * s.cyc)) c k e
  | none => s

theorem found_retiring (s : State) (c : Nat) (k : Option Nat) (o : LongOp) (rest : List LongOp) :
    Found (s.modThr c k fun t => { t with pend := rest }) (retiring s c k o rest) := by
  unfold retiring
  cases o.arith with
  | none => exact .refl _
  | some e => exact (Found.advanceTo _ _).trans (.raiseArith _ c k e)

/-- An operation that faults leaves its fault to be delivered. -/
theorem retireOp_fault {o : LongOp} {f : FaultRec} (h : o.fault = some f) (rest : List LongOp) :
    retireOp s c k o rest = holdFault (retiring s c k o rest) c k f := by
  unfold retireOp
  rw [h]
  rfl

/-- An operation that does not fault writes its registers. -/
theorem retireOp_sound {o : LongOp} (h : o.fault = none) (rest : List LongOp) :
    retireOp s c k o rest = putRegs (retiring s c k o rest) c k o.res := by
  unfold retireOp
  rw [h]
  rfl

theorem ownSet_putRegs (s : State) (c : Nat) (k : Option Nat) (xs : List (Nat × Word)) : OwnSet s (putRegs s c k xs) c k := by
  induction xs generalizing s with
  | nil => exact OwnSet.refl s c k
  | cons x xs ih => exact (ownSet_putReg s c k x.1 x.2).trans (ih _)

/-- The events of a register set keep what the span holds. -/
theorem spanKept_runEvent (n : Nat) {e : CEv} (h : e.ofSet) : SpanKept s (runEvent s c n e) c := by
  cases e with
  | expire j rest => exact absurd h (by simp [CEv.ofSet])
  | verdict b => exact absurd h (by simp [CEv.ofSet])
  | start => exact absurd h (by simp [CEv.ofSet])
  | sample k o rest =>
    exact ((Found.sampleOp s o).spanKept c).trans
      (ownSet_modThr _ c k fun t => { t with pend := (sampleOp s o).1 :: rest }).spanKept
  | retire k o rest =>
    have hk : SpanKept s (retiring s c k o rest) c :=
      (ownSet_modThr s c k _).spanKept.trans ((found_retiring s c k o rest).spanKept c)
    change SpanKept s (retireOp s c k o rest) c
    cases ho : o.fault with
    | none =>
      rw [retireOp_sound ho]
      exact hk.trans (ownSet_putRegs _ c k _).spanKept
    | some f =>
      rw [retireOp_fault ho]
      exact hk.trans (ownSet_modThr _ c k _).spanKept
  | flagV k v => exact (ownSet_writeV s v).spanKept

/-- Running the events of a core whose span is empty keeps it so. -/
theorem spanKept_runTo (n fuel : Nat) (hj : (s.core c).jobs = []) (hq : (s.core c).vq = []) (hb : (s.core c).br = none) :
    SpanKept s (runTo s c n fuel) c := by
  induction fuel generalizing s with
  | zero => exact .refl s c
  | succ fuel ih =>
    have hsets := setsOnly_nextEvent hj hq hb
    unfold runTo
    cases he : nextEvent s c with
    | none => exact .refl s c
    | some p =>
      obtain ⟨m, e⟩ := p
      have hk : SpanKept s (runEvent s c m e) c := spanKept_runEvent m (hsets _ he)
      dsimp only
      refine .ite ?_ (.refl s c)
      exact hk.trans (ih (hk.jobs.trans hj) (hk.vq.trans hq) (hk.br.trans hb))

/-- There is always fuel for the next event. -/
theorem runTo_next {n m : Nat} {e : CEv} (h : nextEvent s c = some (m, e)) (hm : m ≤ n) :
    runTo s c n (eventFuel s c) = runTo (runEvent s c m e) c n (eventFuel s c - 1) := by
  rw [← runTo_due h hm, Nat.sub_add_cancel (by unfold eventFuel; dsimp only; omega)]

-- Events of the span -----------------------------------------------------------------------------------------------------------------

/-- While the register sets of a core have nothing pending, its next event is the span's. -/
theorem SetsCalm.nextEvent (h : SetsCalm s c) (hg : s.stopped = false) : Machine.nextEvent s c =
    sooner (sooner ((s.core c).br.map fun b => (b.due, CEv.verdict b))
        ((picks (s.core c).jobs).foldl (fun b p => sooner b (some (p.1.fin, .expire p.1 p.2))) none))
      ((headStart s c).map fun t => (t, CEv.start)) := by
  rw [nextEvent_going hg, h.thrEvents, sooner_none_right]

theorem spanKept_waitTo (s : State) (c n : Nat) : SpanKept s (waitTo s c n) c :=
  spanKept_modCore s c c _ fun _ => ⟨rfl, rfl, rfl, rfl⟩

-- The expiry of a count (R92) ----------------------------------------------------------------------------------------------------------

/-- A job's count has expired: its pipes are free, and the errors that its reads found are counted. -/
def jobEnded (s : State) (c : Nat) (j : VJob) (rest : List VJob) : State :=
  let s := s.modCore c fun y => setFreed { y with jobs := rest } j.h j.fin
  let s := if j.flags.isEmpty && j.ecc.isEmpty && s.plateEcc.isEmpty then s else s.advanceTo (j.fin * s.cyc)
  j.ents.foldl (fun s e => landBlk s c e) (landEcc s j.ecc)

/-- A job's writes land. -/
def jobLanded (s : State) (c : Nat) (k : Option Nat) (x : Sel) (j : VJob) : State :=
  let p := j.writes.foldl (landOne c k x) (s, [])
  if p.2.isEmpty then p.1 else landPlate (sampleDue p.1 j.fin) (ownerOf p.1 c k) p.2

/-- The exceptions of a job's elements set their flags. -/
def jobFlagged (s : State) (c : Nat) (k : Option Nat) (j : VJob) : State := j.flags.foldl (fun s e => raiseArith s c k e) s

/-- What waits for the VCOUNT that a job wrote may start from now on. -/
def countGiven (s : State) (c : Nat) (j : VJob) : State :=
  if j.ents.any fun e => vSetsCount e.op then
    s.modCore c fun y => { y with vq := y.vq.map fun e => if readsCount s c e then { e with issue := max e.issue j.fin } else e }
  else s

/-- The selection that a job of core c's span writes to. -/
def jobSel (s : State) (c : Nat) (j : VJob) : Sel := selOf c (spanLog s c) j.h (negOf s c (vOwner s c))

theorem expireJob_sound {j : VJob} (h : j.fault = none) (rest : List VJob) : expireJob s c j rest =
    countGiven (jobFlagged (jobLanded (jobEnded s c j rest) c (vOwner s c) (jobSel s c j) j) c (vOwner s c) j) c j := by
  unfold expireJob
  simp only [h]
  rfl

/-- Apart from the errors found, the end of a count changes the core's jobs and the times of its pipes. -/
theorem found_jobEnded (j : VJob) (rest : List VJob) :
    Found (s.modCore c fun y => setFreed { y with jobs := rest } j.h j.fin) (jobEnded s c j rest) := by
  unfold jobEnded
  dsimp only
  generalize (s.modCore c fun y => setFreed { y with jobs := rest } j.h j.fin) = w
  have h1 : Found w (if j.flags.isEmpty && j.ecc.isEmpty && w.plateEcc.isEmpty then w else w.advanceTo (j.fin * w.cyc)) :=
    .ite (.refl w) (.advanceTo w _)
  exact (h1.trans (.landEcc _ _)).trans (.foldl _ (fun x e => .landBlk x c e) _ _)

theorem found_jobFlagged (j : VJob) : Found s (jobFlagged s c k j) := .foldl _ (fun x e => .raiseArith x c k e) _ s

theorem spanKept_jobLanded (x : Sel) (j : VJob) : SpanKept s (jobLanded s c k x j) c := by
  have h (ws : List VWrite) (p : State × Tab Byte) : SpanKept p.1 (ws.foldl (landOne c k x) p).1 c := by
    induction ws generalizing p with
    | nil => exact .refl p.1 c
    | cons w ws ih => exact (spanKept_landOne c k x p w).trans (ih _)
  refine (h j.writes (s, [])).trans (.ite (.refl _ c) ?_)
  exact (spanKept_sampleDue _ j.fin).trans ((Found.landPlate _ _ _).spanKept c)

theorem setsKept_countGiven (j : VJob) : SetsKept s (countGiven s c j) c := by
  unfold countGiven
  split
  · exact setsKept_modCore s c _ (fun _ => rfl) fun _ => rfl
  · exact ⟨fun _ => rfl, rfl⟩

theorem spanKept_countGiven (j : VJob) (hq : (s.core c).vq = []) : SpanKept s (countGiven s c j) c := by
  unfold countGiven
  split
  · constructor <;> rw [core_modCore_self]
    rw [hq]
    rfl
  · exact .refl s c

theorem vreg_countGiven (j : VJob) : (countGiven s c j).vreg = s.vreg := by
  unfold countGiven
  split <;> rfl

theorem freedAt_setFreed (y : CoreSt) (n : Nat) {h : Nat} (hh : h < 3) :
    freedAt (setFreed y h n) h = max (freedAt y h) n := by
  interval_cases h
  · simp only [freedAt, setFreed]
    simp
  · simp [freedAt, setFreed]
  · simp [freedAt, setFreed]

/-- What a span holds once its only job has expired without a fault. -/
theorem span_expireJob {j : VJob} (hf : j.fault = none) (hq : (s.core c).vq = []) (hb : (s.core c).br = none) :
    let t := expireJob s c j []
    (t.core c).jobs = [] ∧ (t.core c).vq = [] ∧ (t.core c).br = none ∧ (t.core c).vfin = (setFreed (s.core c) j.h j.fin).vfin := by
  intro t
  have h1 := (found_jobEnded (s := s) (c := c) j []).spanKept c
  have h2 := h1.trans ((spanKept_jobLanded (k := vOwner s c) (jobSel s c j) j).trans
    ((found_jobFlagged (c := c) (k := vOwner s c) j).spanKept c))
  have hcore : (s.modCore c fun y => setFreed { y with jobs := [] } j.h j.fin).core c =
      setFreed { s.core c with jobs := [] } j.h j.fin := core_modCore_self s c _
  have h3 := h2.trans (spanKept_countGiven j (by rw [h2.vq, hcore]; exact hq))
  rw [← expireJob_sound hf] at h3
  exact ⟨by rw [h3.jobs, hcore]; rfl, by rw [h3.vq, hcore]; exact hq, by rw [h3.br, hcore]; exact hb, by rw [h3.vfin, hcore]; rfl⟩

/-- The rest of an expiry leaves the register sets as the writes left them. -/
theorem setsKept_expireJob {j : VJob} (hf : j.fault = none) (rest : List VJob) :
    SetsKept (jobLanded (jobEnded s c j rest) c (vOwner s c) (jobSel s c j) j) (expireJob s c j rest) c := by
  rw [expireJob_sound hf]
  exact ((found_jobFlagged j).setsKept c).trans (setsKept_countGiven j)

theorem vreg_expireJob {j : VJob} (hf : j.fault = none) (rest : List VJob) : (expireJob s c j rest).vreg =
    (jobLanded (jobEnded s c j rest) c (vOwner s c) (jobSel s c j) j).vreg := by
  rw [expireJob_sound hf, vreg_countGiven, (found_jobFlagged j).vreg]

theorem setsKept_jobEnded (j : VJob) (rest : List VJob) : SetsKept s (jobEnded s c j rest) c :=
  (setsKept_modCore s c (fun y => setFreed { y with jobs := rest } j.h j.fin) (fun _ => rfl) fun _ => rfl).trans
    ((found_jobEnded j rest).setsKept c)

theorem jobLanded_sreg {j : VJob} {r : Nat} {v : Word} (x : Sel) (h : j.writes = [.sreg r v]) :
    jobLanded s c k x j = putReg s c k r v := by
  unfold jobLanded
  rw [h]
  rfl

/-- The state after a write of bytes of a v register, before it is signed. -/
def vregPut (s : State) (x : Sel) (r o : Nat) (bs : List Byte) (cls : Nat) : State :=
  { s with
    vreg := mwrite s.vreg (vKey x r o) (leBytes bs.length (heldAs x.neg cls (vKey x r o % 8) bs.length (leVal bs)))
    vcls := (List.range bs.length).foldl (fun t i => tset 0 t (vKey x r o + i) cls) s.vcls }

theorem jobLanded_vreg {j : VJob} {r o cls : Nat} {bs : List Byte} (x : Sel) (h : j.writes = [.vreg r o bs cls]) :
    jobLanded s c k x j = sign (vregPut s x r o bs cls) c k sgVreg (r * 65536 + o) (leVal bs) := by
  unfold jobLanded
  rw [h]
  rfl

theorem SetsCalm.owner (h : SetsCalm s c) : ThrDone (s.thr c (vOwner s c)) := by
  cases ho : vOwner s c with
  | none => exact h.sup
  | some q => exact h.own q ho

/-- Writing a register leaves the register sets with nothing pending. -/
theorem SetsCalm.putReg (h : SetsCalm s c) (hk : ThrDone (s.thr c k)) (r : Nat) (v : Word) :
    SetsCalm (Machine.putReg s c k r v) c := by
  refine h.ownSet (ownSet_putReg s c k r v) ?_
  rw [thr_putReg]
  exact ⟨hk.pend, hk.pwr⟩

theorem SetsCalm.sign {kind key v : Nat} (h : SetsCalm s c) (hk : ThrDone (s.thr c k)) : SetsCalm (Machine.sign s c k kind key v) c :=
  h.ownSet (ownSet_sign s c k kind key v) (by rwa [thr_sign])

/-- Putting the bytes of a number that has as many gives the bytes. -/
theorem leBytes_leVal (bs : List Byte) : leBytes bs.length (leVal bs) = bs := by
  induction bs with
  | nil => rfl
  | cons b bs ih =>
    have hb := b.isLt
    have h1 : (b.toNat + 256 * leVal bs) / 256 = leVal bs := by omega
    have h2 : BitVec.ofNat 8 (b.toNat + 256 * leVal bs) = b := by
      apply BitVec.eq_of_toNat_eq
      rw [BitVec.toNat_ofNat]
      omega
    rw [List.length_cons, leBytes, leVal, h1, ih, h2]

end

-- The state of the statement: a ready core at which one job runs

section
variable {s : State} {c : Nat} {k : Option Nat}

/-- A core at which one job runs. -/
def running (s : State) (c : Nat) (j : VJob) : State := s.modCore c fun y => { y with jobs := [j] }

theorem core_running (j : VJob) : (running s c j).core c = { s.core c with jobs := [j] } := core_modCore_self s c _

theorem setsKept_running (j : VJob) : SetsKept s (running s c j) c := setsKept_modCore s c _ (fun _ => rfl) fun _ => rfl

/-- The expiry of the one job is the next event. -/
theorem Ready.nextEvent_running {n : Nat} (h : Ready s c k n) (j : VJob) :
    Machine.nextEvent (running s c j) c = some (j.fin, .expire j []) := by
  have hq : ((running s c j).core c).vq = [] := by rw [core_running]; exact h.vq
  rw [(h.quiet.sets.kept (setsKept_running j)).nextEvent h.stopped, headStart_empty hq, core_running]
  dsimp only
  rw [h.br]
  rfl

/-- What a COUNT_EXPIRY makes of it. -/
theorem execCountExpiry_running {n : Nat} (h : Ready s c k n) {j : VJob} {co : Core} (hco : co.val = c) {half : Half}
    (hh : j.h = (match half with | .whole => 0 | .lower => 1 | .upper => 2)) : ∃ fuel,
      exec (.countExpiry co half) (running s c j) =
        done (waitTo (runTo (expireJob (running s c j) c j []) c j.fin fuel) c j.fin) := by
  subst hco
  have hjobs : ((running s co j).core co).jobs = [j] := by rw [core_running]
  have hstop : (running s co j).stopped = false := h.stopped
  have hrun := runTo_next (h.nextEvent_running j) (Nat.le_refl j.fin)
  refine ⟨eventFuel (running s co j) co - 1, ?_⟩
  change execCountExpiry co half _ = _
  cases half <;>
  · dsimp only at hh
    simp only [execCountExpiry, hjobs, List.find?_cons, hh, beq_self_eq_true, hstop, Bool.false_eq_true, if_false]
    exact congrArg (fun x => done (waitTo x co j.fin)) hrun

/-- A sound job's expiry frees its pipes, whatever its writes do. -/
theorem countExpiry_frees {s : State} {c : Core} {n : Nat} (h : Ready s c k n) {j : VJob} {half : Half}
    (hh : j.h = (match half with | .whole => 0 | .lower => 1 | .upper => 2)) (hf : j.fault = none) :
    Completes (exec (.countExpiry c half) (running s c j)) (fun t => (t.core c).jobs = [] ∧ (t.core c).vq = [] ∧
      freedAt (t.core c) j.h = max (freedAt (s.core c) j.h) j.fin) := by
  obtain ⟨fuel, he⟩ := execCountExpiry_running h rfl hh
  rw [he]
  obtain ⟨hj, hq, hb, hv⟩ := span_expireJob (s := running s c j) (c := c) hf (by rw [core_running]; exact h.vq)
    (by rw [core_running]; exact h.br)
  have hk := (spanKept_runTo j.fin fuel hj hq hb).trans (spanKept_waitTo _ c j.fin)
  have hh3 : j.h < 3 := by cases half <;> simp [hh]
  refine completes_done ⟨hk.jobs.trans hj, hk.vq.trans hq, ?_⟩
  rw [core_settle, ← freedAt_setFreed (s.core c) j.fin hh3]
  have hvf := hk.vfin.trans hv
  rw [core_running] at hvf
  unfold freedAt
  rw [hvf]
  rfl

/-- Where the register sets have nothing pending after the writes, an expiry is the last thing that happens. -/
theorem countExpiry_quiet {s : State} {c : Core} {n : Nat} (h : Ready s c k n) {j : VJob} {half : Half}
    (hh : j.h = (match half with | .whole => 0 | .lower => 1 | .upper => 2)) (hf : j.fault = none)
    (hl : SetsCalm (jobLanded (jobEnded (running s c j) c j []) c (vOwner s c) (jobSel (running s c j) c j) j) c)
    {P : State → Prop} (hP : P (settle (waitTo (expireJob (running s c j) c j []) c j.fin))) :
    Completes (exec (.countExpiry c half) (running s c j)) P := by
  obtain ⟨fuel, he⟩ := execCountExpiry_running h rfl hh
  obtain ⟨hj, hq, hb, -⟩ := span_expireJob (s := running s c j) (c := c) hf (by rw [core_running]; exact h.vq)
    (by rw [core_running]; exact h.br)
  have hown : vOwner (running s c j) c = vOwner s c := (setsKept_running j).own
  rw [← hown] at hl
  have hquiet : Quiet (expireJob (running s c j) c j []) c := ⟨hl.kept (setsKept_expireJob hf []), hj, hq, hb⟩
  rw [he, runTo_quiet hquiet]
  exact completes_done hP

theorem countExpiry_sreg {s : State} {c : Core} {n : Nat} (h : Ready s c k n) {j : VJob} {half : Half}
    (hh : j.h = (match half with | .whole => 0 | .lower => 1 | .upper => 2)) (hf : j.fault = none) {r : Nat} {v : Word}
    (hw : j.writes = [.sreg r v]) :
    Completes (exec (.countExpiry c half) (running s c j)) (fun t => RegIs s t c (vOwner s c) r v) := by
  have hown : vOwner (running s c j) c = vOwner s c := (setsKept_running j).own
  have hkept : SetsKept s (jobEnded (running s c j) c j []) c := (setsKept_running j).trans (setsKept_jobEnded j [])
  have hcalm := h.quiet.sets.kept hkept
  refine countExpiry_quiet h hh hf ?_ fun n => ?_
  · rw [jobLanded_sreg _ hw]
    exact hcalm.putReg (by rw [hkept.thr]; exact h.quiet.sets.owner) r v
  · have hthr : (settle (waitTo (expireJob (running s c j) c j []) c j.fin)).thr c (vOwner s c) =
        { s.thr c (vOwner s c) with r := (s.thr c (vOwner s c)).r.put r v } := by
      rw [waitTo, thr_concluded, (setsKept_expireJob hf []).thr, hown, jobLanded_sreg _ hw, thr_putReg, hkept.thr]
    rw [gpr, hthr, get_put]
    rfl

theorem jobSel_running (j : VJob) : jobSel (running s c j) c j = selOf c (spanLog s c) j.h (negOf s c (vOwner s c)) := by
  have hlog : spanLog (running s c j) c = spanLog s c := by
    unfold spanLog
    rw [core_running]
    rfl
  rw [jobSel, hlog, (setsKept_running j).own]
  rfl

theorem vreg_jobEnded (j : VJob) (rest : List VJob) : (jobEnded s c j rest).vreg = s.vreg := (found_jobEnded j rest).vreg

theorem countExpiry_vreg {s : State} {c : Core} {n : Nat} (h : Ready s c k n) {j : VJob} {half : Half}
    (hh : j.h = (match half with | .whole => 0 | .lower => 1 | .upper => 2)) (hf : j.fault = none) {r o cls : Nat}
    {bs : List Byte} (hw : j.writes = [.vreg r o bs cls]) (hm : memWf s.vreg = true) :
    let sel := selOf c (spanLog s c) j.h (negOf s c (vOwner s c))
    let key := vKey sel r o
    Completes (exec (.countExpiry c half) (running s c j)) (fun t =>
      mread t.vreg key bs.length = leBytes bs.length (heldAs sel.neg cls (key % 8) bs.length (leVal bs)) ∧
      (sel.neg = false → mread t.vreg key bs.length = bs) ∧
      ∀ a, a < key ∨ key + bs.length ≤ a → mget t.vreg a = mget s.vreg a) := by
  intro sel key
  have hown : vOwner (running s c j) c = vOwner s c := (setsKept_running j).own
  have hkept : SetsKept s (jobEnded (running s c j) c j []) c := (setsKept_running j).trans (setsKept_jobEnded j [])
  have hcalm := h.quiet.sets.kept hkept
  have hput : SetsKept (jobEnded (running s c j) c j []) (vregPut (jobEnded (running s c j) c j []) sel r o bs cls) c :=
    ⟨fun k => by cases k <;> rfl, rfl⟩
  have hvreg : (settle (waitTo (expireJob (running s c j) c j []) c j.fin)).vreg =
      mwrite s.vreg key (leBytes bs.length (heldAs sel.neg cls (key % 8) bs.length (leVal bs))) := by
    have e : (expireJob (running s c j) c j []).vreg = (vregPut (jobEnded (running s c j) c j []) sel r o bs cls).vreg := by
      rw [vreg_expireJob hf, jobLanded_vreg _ hw, jobSel_running]
      exact (ownSet_sign _ c _ _ _ _).dev_field (·.vreg) fun _ _ _ => rfl
    refine e.trans ?_
    rw [vregPut, vreg_jobEnded]
    rfl
  refine countExpiry_quiet h hh hf ?_ ?_
  · rw [jobLanded_vreg _ hw, jobSel_running]
    refine (hcalm.kept hput).sign ?_
    rw [hput.thr, hkept.thr]
    exact h.quiet.sets.owner
  · have hback : mread (settle (waitTo (expireJob (running s c j) c j []) c j.fin)).vreg key bs.length =
        leBytes bs.length (heldAs sel.neg cls (key % 8) bs.length (leVal bs)) := by
      rw [hvreg, mread_leBytes _ _ _ _ hm]
    refine ⟨hback, fun hn => ?_, fun a ha => ?_⟩
    · rw [hback, hn]
      exact leBytes_leVal bs
    · rw [hvreg]
      exact mget_mwrite_out _ _ _ _ (by rwa [length_leBytes])

end

end Sys2Proof.Machine
end

section
/-! PROOFS. The start of a vector instruction, the verdict of a branch, the retirement of a long operation; and the statement
VectorsOnSpans assembled (R84, R151, R155, R377). -/

namespace Sys2Proof.Machine
open Sys2Proof

section
variable {s : State} {c : Nat} {k : Option Nat}

-- The start of the head of the queue (R84, R97) -----------------------------------------------------------------------------------------

/-- A core whose span's queue holds one instruction. -/
def waitingOne (s : State) (c : Nat) (e : VEnt) : State := s.modCore c fun y => { y with vq := [e], frozen := false }

theorem core_waitingOne (e : VEnt) : (waitingOne s c e).core c = { s.core c with vq := [e], frozen := false } := core_modCore_self s c _

theorem setsKept_waitingOne (e : VEnt) : SetsKept s (waitingOne s c e) c := setsKept_modCore s c _ (fun _ => rfl) fun _ => rfl

/-- When the one instruction in the queue starts: at its issue, once its pipes are free, and in issue order. -/
def startCyc (s : State) (c : Nat) (e : VEnt) : Nat := max (s.core c).vlast (max e.issue (freedAt (s.core c) (vHalf e.op)))

theorem Ready.nextEvent_waitingOne {n : Nat} (h : Ready s c k n) (e : VEnt) :
    Machine.nextEvent (waitingOne s c e) c = some (startCyc s c e, .start) := by
  have hhead : headStart (waitingOne s c e) c = some (startCyc s c e) := by
    unfold headStart
    rw [core_waitingOne]
    simp only [h.jobs, List.any_nil, Bool.false_and, Bool.or_self, Bool.false_eq_true, if_false]
    rfl
  rw [(h.quiet.sets.kept (setsKept_waitingOne e)).nextEvent h.stopped, hhead, core_waitingOne]
  dsimp only
  rw [h.jobs, h.br]
  rfl

theorem snapEnt_spec (e : VEnt) : (snapEnt s c k e).first = e.first ∧ (snapEnt s c k e).op = e.op ∧
    (snapEnt s c k e).regs = e.regs ∧ (snapEnt s c k e).issue = e.issue := by
  unfold snapEnt
  split <;> exact ⟨rfl, rfl, rfl, rfl⟩

/-- An instruction that starts from its first element has nothing to drop from its tanks. -/
theorem dropTaken_first {e : VEnt} (h : e.first = 0) : dropTaken s c e = (s, e) := if_pos (by omega)

/-- The queue of a core runs empty with the start of job j at cycle t. -/
def lastStart (j : VJob) (t : Nat) (y : CoreSt) : CoreSt := { y with vq := [], jobs := y.jobs ++ [j], vlast := max y.vlast t }

/-- The head of a queue of one starts alone. -/
theorem startHead_one {e : VEnt} (hq : (s.core c).vq = [e]) (hf : e.first = 0) (t : Nat) : startHead s c t =
    { s.modCore c (lastStart (startOne s c t (snapEnt s c (vOwner s c) e)).1 t) with
      fresh := (startOne s c t (snapEnt s c (vOwner s c) e)).2 } := by
  have hd : dropTaken s c (snapEnt s c (vOwner s c) e) = (s, snapEnt s c (vOwner s c) e) :=
    dropTaken_first ((snapEnt_spec e).1.trans hf)
  unfold startHead
  rw [hq]
  simp only [hd]
  rfl

theorem startOne_spec (t : Nat) (e : VEnt) : (startOne s c t e).1.start = t ∧ t ≤ (startOne s c t e).1.fin ∧
    (startOne s c t e).1.h = vHalf e.op ∧ (startOne s c t e).1.ents = [e] := ⟨rfl, Nat.le_add_right _ _, rfl, rfl⟩

/-- The state in which the one instruction has started. -/
def startedOne (s : State) (c : Nat) (e : VEnt) : State := startHead (waitingOne s c e) c (startCyc s c e)

/-- The job that it has become. -/
def startedJob (s : State) (c : Nat) (e : VEnt) : VJob :=
  (startOne (waitingOne s c e) c (startCyc s c e) (snapEnt (waitingOne s c e) c (vOwner (waitingOne s c e) c) e)).1

theorem startedOne_eq {e : VEnt} (hf : e.first = 0) : ∃ v, startedOne s c e =
    { (waitingOne s c e).modCore c (lastStart (startedJob s c e) (startCyc s c e)) with fresh := v } := by
  refine ⟨_, startHead_one ?_ hf (startCyc s c e)⟩
  rw [core_waitingOne]

theorem core_startedOne {e : VEnt} (hf : e.first = 0) (hj : (s.core c).jobs = []) : (startedOne s c e).core c = { s.core c with
    vq := [], frozen := false, jobs := [startedJob s c e], vlast := max (s.core c).vlast (startCyc s c e) } := by
  obtain ⟨v, h⟩ := startedOne_eq (s := s) (c := c) hf
  rw [h]
  refine (core_modCore_self (waitingOne s c e) c (lastStart (startedJob s c e) (startCyc s c e))).trans ?_
  rw [core_waitingOne, lastStart, hj]
  rfl

theorem waitFor_next {busy : State → Bool} {m : Nat} {e : CEv} (hb : busy s = true) (he : nextEvent s c = some (m, e))
    (fuel : Nat) : waitFor s c busy (fuel + 1) = waitFor (waitTo (runEvent s c m e) c m) c busy fuel := by
  simp [waitFor, hb, he]

theorem execVectorStart_waitingOne {n : Nat} (h : Ready s c k n) {co : Core} (hco : co.val = c) {e : VEnt} (hf : e.first = 0) :
    exec (.vectorStart co) (waitingOne s c e) = done (waitTo (startedOne s c e) c (startCyc s c e)) := by
  subst hco
  have hq : ((waitingOne s co e).core co).vq = [e] := by rw [core_waitingOne]
  have hq' : ((waitTo (startedOne s co e) co (startCyc s co e)).core co).vq = [] := by
    rw [waitTo, core_modCore_self, core_startedOne hf h.jobs]
  have hfuel : eventFuel (waitingOne s co e) co = eventFuel (waitingOne s co e) co - 2 + 1 + 1 := by
    have : 2 ≤ eventFuel (waitingOne s co e) co := by unfold eventFuel; dsimp only; omega
    omega
  change done (waitFor _ co _ _) = _
  rw [hfuel, waitFor_next (by simp [hq]) (h.nextEvent_waitingOne e), waitFor_idle]
  · rfl
  · change (((waitTo (startedOne s co e) co (startCyc s co e)).core co).vq.length == _ && _) = false
    simp [hq, hq']

end

theorem vectorStarts {s : State} {c : Core} {k : Option Nat} {n : Nat} (h : Ready s c k n) {e : VEnt} (hf : e.first = 0) :
    Completes (exec (.vectorStart c) (waitingOne s c e)) (fun t =>
      (t.core c).vq = [] ∧ t.plate = s.plate ∧ t.vreg = s.vreg ∧ (∀ n, gpr t c k n = gpr s c k n) ∧
      ∃ j, (t.core c).jobs = [j] ∧ j.start = startCyc s c e ∧ j.start ≤ j.fin ∧
        j.h = vHalf e.op ∧ j.ents.map (fun f => (f.op, f.regs, f.issue)) = [(e.op, e.regs, e.issue)]) := by
  rw [execVectorStart_waitingOne h rfl hf]
  obtain ⟨-, hop, hregs, hissue⟩ := snapEnt_spec (s := waitingOne s c e) (c := c) (k := vOwner (waitingOne s c e) c) e
  obtain ⟨hstart, hfin, hh, hents⟩ := startOne_spec (s := waitingOne s c e) (c := c) (startCyc s c e)
    (snapEnt (waitingOne s c e) c (vOwner (waitingOne s c e) c) e)
  obtain ⟨v, hst⟩ := startedOne_eq (s := s) (c := c) hf
  have hcore := core_startedOne hf h.jobs
  have hthr : (startedOne s c e).thr c k = s.thr c k := by
    cases k with
    | none =>
      unfold State.thr
      rw [hcore]
    | some q =>
      rw [hst]
      rfl
  refine completes_done ⟨?_, ?_, ?_, fun n => ?_, startedJob s c e, ?_, hstart, hstart.trans_le hfin,
    hh.trans (congrArg vHalf hop), ?_⟩
  · rw [waitTo, core_concluded, hcore]
  · rw [hst]
    rfl
  · rw [hst]
    rfl
  · rw [gpr, waitTo, thr_concluded, hthr, ← gpr]
  · rw [waitTo, core_concluded, hcore]
  · rw [startedJob, hents, List.map_cons, hop, hregs, hissue]
    rfl

-- The verdict (R155) ------------------------------------------------------------------------------------------------------------

section
variable {s : State} {c : Nat} {k : Option Nat}

/-- A core at which one job runs and one verdict is outstanding. -/
def judging (s : State) (c : Nat) (b : Branch) (j : VJob) : State := s.modCore c fun y => { y with br := some b, jobs := [j] }

theorem core_judging (b : Branch) (j : VJob) : (judging s c b j).core c = { s.core c with br := some b, jobs := [j] } :=
  core_modCore_self s c _

theorem setsKept_judging (b : Branch) (j : VJob) : SetsKept s (judging s c b j) c :=
  setsKept_modCore s c _ (fun _ => rfl) fun _ => rfl

/-- The verdict comes before the end of a longer count. -/
theorem Ready.nextEvent_judging {n : Nat} (h : Ready s c k n) {b : Branch} {j : VJob} (hb : b.due < j.fin) :
    Machine.nextEvent (judging s c b j) c = some (b.due, .verdict b) := by
  have hq : ((judging s c b j).core c).vq = [] := by rw [core_judging]; exact h.vq
  rw [(h.quiet.sets.kept (setsKept_judging b j)).nextEvent h.stopped, headStart_empty hq, core_judging]
  simp only [Option.map_some, Option.map_none, picks, List.map_nil, List.foldl_cons, List.foldl_nil, sooner]
  rw [if_neg (by omega)]

/-- The verdict's effect on a core where one plain job runs and nothing waits. -/
theorem core_applyVerdict {b : Branch} {j : VJob} (hj : (s.core c).jobs = [j]) (hq : (s.core c).vq = []) (hc : j.chain = false) :
    ∃ v, (applyVerdict s c b).core c = { s.core c with
      br := none, vfin := v, jobs := if b.taken && j.shad then [] else [{ j with pre := false, shad := false }] } := by
  unfold applyVerdict
  simp only [core_setCore_self, hj, hq, List.filter_nil, List.foldl_cons, List.foldl_nil, hc, Bool.false_and, Bool.false_eq_true,
    if_false, List.nil_append]
  cases b.taken
  · exact ⟨(s.core c).vfin, by simp [hj, hq, hc]⟩
  · cases j.shad
    · exact ⟨(s.core c).vfin, by simp [hc]⟩
    · exact ⟨(setFreed (s.core c) j.h b.due).vfin, by simp [setFreed, hq]⟩

/-- After its verdict a core has nothing to do until its job's count ends. -/
theorem nextEvent_judged {t : State} {j : VJob} {shown : Bool} (h : SetsCalm t c) (hq : (t.core c).vq = [])
    (hb : (t.core c).br = none) (hj : (t.core c).jobs = if shown then [] else [j]) {n : Nat} (hn : n < j.fin) :
    ∀ p, nextEvent t c = some p → n < p.1 := by
  intro p hp
  cases hg : t.stopped with
  | true => simp [nextEvent, hg] at hp
  | false =>
    rw [h.nextEvent hg, headStart_empty hq, hb, hj] at hp
    cases shown with
    | true => exact absurd hp (by simp [picks, sooner])
    | false =>
      obtain rfl : (j.fin, CEv.expire j []) = p := Option.some.inj hp
      exact hn

theorem runTo_later {t : State} {n : Nat} (h : ∀ p, nextEvent t c = some p → n < p.1) (fuel : Nat) : runTo t c n fuel = t := by
  cases fuel with
  | zero => rfl
  | succ fuel =>
    unfold runTo
    cases he : nextEvent t c with
    | none => rfl
    | some p => exact if_neg (Nat.not_le.mpr (h p he))

/-- A verdict writes nothing but the core. -/
theorem applyVerdict_field {α : Type} (g : State → α) (hg : ∀ x r, g { x with cores := r } = g x) (b : Branch) :
    g (applyVerdict s c b) = g s := hg s _

end

theorem verdictReaches {s : State} {c : Core} {k : Option Nat} {n : Nat} (h : Ready s c k n) {b : Branch} {j : VJob}
    (hb : b.due < j.fin) (hc : j.chain = false) :
    Completes (exec (.verdict c) (judging s c b j)) (fun t =>
      (t.core c).br = none ∧ t.plate = s.plate ∧ t.vreg = s.vreg ∧ (∀ n, gpr t c k n = gpr s c k n) ∧
      (t.core c).jobs = if b.taken && j.shad then [] else [{ j with pre := false, shad := false }]) := by
  obtain ⟨v, hcore⟩ := core_applyVerdict (s := judging s c b j) (c := c) (b := b) (j := j) (by rw [core_judging])
    (by rw [core_judging]; exact h.vq) hc
  rw [core_judging] at hcore
  have hkept : SetsKept s (applyVerdict (judging s c b j) c b) c := by
    refine ⟨fun q => ?_, ?_⟩
    · cases q with
      | none =>
        unfold State.thr
        rw [hcore]
      | some q => rfl
    · unfold vOwner
      rw [hcore]
  have hlater := nextEvent_judged (j := { j with pre := false, shad := false }) (shown := b.taken && j.shad)
    (h.quiet.sets.kept hkept) (by rw [hcore]; exact h.vq) (by rw [hcore]) (by rw [hcore]) hb
  have hexec : exec (.verdict c) (judging s c b j) = done (waitTo (applyVerdict (judging s c b j) c b) c b.due) := by
    have hbr : ((judging s c b j).core c).br = some b := by rw [core_judging]
    have hstop : (judging s c b j).stopped = false := h.stopped
    change execVerdict c _ = _
    unfold execVerdict
    rw [hbr]
    simp only [hstop, Bool.false_eq_true, if_false]
    rw [runTo_next (h.nextEvent_judging hb) (Nat.le_refl _)]
    exact congrArg (fun x => done (waitTo x c b.due)) (runTo_later hlater _)
  rw [hexec]
  refine completes_done ⟨?_, ?_, ?_, fun n => ?_, ?_⟩
  · rw [waitTo, core_concluded, hcore]
  · exact applyVerdict_field (s := judging s c b j) (c := c) (·.plate) (fun _ _ => rfl) b
  · exact applyVerdict_field (s := judging s c b j) (c := c) (·.vreg) (fun _ _ => rfl) b
  · rw [gpr, waitTo, thr_concluded, hkept.thr, ← gpr]
  · rw [waitTo, core_concluded, hcore]

-- Long operations (R151) --------------------------------------------------------------------------------------------------------

section
variable {s : State} {c : Nat} {k : Option Nat}

/-- A core whose issuer has one long operation pending. -/
def pendingOne (s : State) (c : Nat) (k : Option Nat) (o : LongOp) : State := s.modThr c k fun t => { t with pend := [o] }

theorem thr_pendingOne (o : LongOp) : (pendingOne s c k o).thr c k = { s.thr c k with pend := [o] } := thr_modThr_self s c k _

theorem Ready.nextEvent_pendingOne {n : Nat} (h : Ready s c k n) {o : LongOp} (ho : o.samp = none) :
    Machine.nextEvent (pendingOne s c k o) c = some (o.ready, .retire k o []) := by
  rw [pendingOne, h.nextEvent_modThr, thrEvent, ← pendingOne, thr_pendingOne, h.calm.pwr]
  simp only [picks, List.map_nil, List.foldl_cons, List.foldl_nil, ho, sooner]

/-- The issuer's set while the operation retires: the operation is gone. -/
theorem thr_retiring (o : LongOp) (hp : (s.thr c k).pend = []) : (retiring (pendingOne s c k o) c k o []).thr c k = s.thr c k := by
  rw [(found_retiring _ c k o []).thr, thr_modThr_self, thr_pendingOne, ← hp]

theorem setsCalm_retiring {n : Nat} (h : Ready s c k n) (o : LongOp) : SetsCalm (retiring (pendingOne s c k o) c k o []) c := by
  refine SetsCalm.kept (s := (pendingOne s c k o).modThr c k fun t => { t with pend := [] }) ?_ ((found_retiring _ c k o []).setsKept c)
  refine h.quiet.sets.ownSet ((ownSet_modThr s c k _).trans (ownSet_modThr _ c k _)) ?_
  rw [thr_modThr_self, thr_pendingOne]
  exact ⟨rfl, h.calm.pwr⟩

theorem spanKept_retiring (o : LongOp) : SpanKept s (retiring (pendingOne s c k o) c k o []) c :=
  ((ownSet_modThr s c k _).trans (ownSet_modThr _ c k _)).spanKept.trans ((found_retiring _ c k o []).spanKept c)

/-- A retired operation that faults leaves its fault. -/
theorem thr_retireOp_fault {o : LongOp} (hp : (s.thr c k).pend = []) {f : FaultRec} (hf : o.fault = some f) :
    (retireOp (pendingOne s c k o) c k o []).thr c k = { s.thr c k with held := (s.thr c k).held ++ [f] } := by
  rw [retireOp_fault hf, holdFault, thr_modThr_self, thr_retiring o hp]

/-- A retired operation that does not fault leaves its result. -/
theorem thr_retireOp_sound {o : LongOp} (hp : (s.thr c k).pend = []) (hf : o.fault = none) {r : Nat} {v : Word}
    (hr : o.res = [(r, v)]) :
    (retireOp (pendingOne s c k o) c k o []).thr c k = { s.thr c k with r := (s.thr c k).r.put r v } := by
  rw [retireOp_sound hf, hr]
  exact (thr_putReg _ c k r v).trans (by rw [thr_retiring o hp])

/-- Nothing follows the retirement. -/
theorem quiet_retireOp {n : Nat} (h : Ready s c k n) {o : LongOp} {r : Nat} {v : Word} (hr : o.res = [(r, v)]) :
    Quiet (retireOp (pendingOne s c k o) c k o []) c := by
  have hq : Quiet (retiring (pendingOne s c k o) c k o []) c :=
    ⟨setsCalm_retiring h o, (spanKept_retiring o).jobs.trans h.jobs, (spanKept_retiring o).vq.trans h.vq,
      (spanKept_retiring o).br.trans h.br⟩
  cases ho : o.fault with
  | some f =>
    refine hq.ownSet (k := k) ?_ (by rw [thr_retireOp_fault h.calm.pend ho]; exact ⟨h.calm.pend, h.calm.pwr⟩)
    rw [retireOp_fault ho]
    exact ownSet_modThr _ c k _
  | none =>
    refine hq.ownSet (k := k) ?_ (by rw [thr_retireOp_sound h.calm.pend ho hr]; exact ⟨h.calm.pend, h.calm.pwr⟩)
    rw [retireOp_sound ho]
    exact ownSet_putRegs _ c k _

theorem execLongOperationRetire_pendingOne {n : Nat} {co : Core} (h : Ready s co k n) {o : LongOp} {r : Nat} {v : Word}
    (hr : o.res = [(r, v)]) (hs : o.samp = none) : exec (.longOperationRetire co) (pendingOne s co k o) =
      done (waitTo (retireOp (pendingOne s co k o) co k o []) co o.ready) := by
  have hcur : curCtx (pendingOne s co k o) co = k := (curCtx_modThr s co k _).trans h.who
  have hstop : (pendingOne s co k o).stopped = false := by
    rw [← h.stopped]
    cases k <;> rfl
  change execLongOperationRetire co _ = _
  unfold execLongOperationRetire
  simp only [hcur, thr_pendingOne, hstop, List.foldl_nil, Bool.false_eq_true, if_false]
  rw [runTo_next (h.nextEvent_pendingOne hs) (Nat.le_refl _)]
  exact congrArg (fun x => done (waitTo x co o.ready)) (runTo_quiet (quiet_retireOp h hr) _ _)

end

theorem flags_put (r : RSet) (n : Nat) (v : Word) : (r.put n v).flags = r.flags := by
  unfold RSet.put
  split <;> rfl

theorem longOperationRetires {s : State} {c : Core} {k : Option Nat} {n : Nat} (h : Ready s c k n) {o : LongOp} {r : Nat}
    {v : Word} (hr : o.res = [(r, v)]) (hs : o.samp = none) :
    Completes (exec (.longOperationRetire c) (pendingOne s c k o)) (fun t =>
      (t.thr c k).pend = [] ∧ nzcv t c k = nzcv s c k ∧
      (o.fault = none → RegIs s t c k r v ∧ (t.thr c k).held = []) ∧
      (∀ f, o.fault = some f → (∀ n, gpr t c k n = gpr s c k n) ∧ (t.thr c k).held = [f])) := by
  rw [execLongOperationRetire_pendingOne h hr hs]
  cases ho : o.fault with
  | none =>
    have hthr : (settle (waitTo (retireOp (pendingOne s c k o) c k o []) c o.ready)).thr c k = _ :=
      (thr_concluded _ c k _).trans (thr_retireOp_sound h.calm.pend ho hr)
    refine completes_done ⟨?_, ?_, fun _ => ⟨fun n => ?_, ?_⟩, fun f hf => absurd hf (by simp)⟩
    · rw [hthr]
      exact h.calm.pend
    · rw [nzcv, hthr]
      exact flags_put _ _ _
    · rw [gpr, hthr, get_put]
      rfl
    · rw [hthr]
      exact h.calm.held
  | some f =>
    have hthr : (settle (waitTo (retireOp (pendingOne s c k o) c k o []) c o.ready)).thr c k = _ :=
      (thr_concluded _ c k _).trans (thr_retireOp_fault h.calm.pend ho)
    refine completes_done ⟨?_, ?_, fun hf => absurd hf (by simp), fun g hg => ⟨fun n => ?_, ?_⟩⟩
    · rw [hthr]
      exact h.calm.pend
    · rw [nzcv, hthr]
      rfl
    · rw [gpr, hthr]
      rfl
    · obtain rfl : f = g := Option.some.inj hg
      rw [hthr, h.calm.held]
      rfl

-- Narrow writes (R377) ----------------------------------------------------------------------------------------------------------

/-- Only one element of a list contributes. -/
theorem flatMap_single {α β : Type} {f : α → List β} {a : α} {l : List α} (hn : l.Nodup) (ha : a ∈ l)
    (hf : ∀ x ∈ l, x ≠ a → f x = []) : l.flatMap f = f a := by
  induction l with
  | nil => exact absurd ha (by simp)
  | cons x l ih =>
    obtain ⟨hx, hl⟩ := List.nodup_cons.mp hn
    rw [List.flatMap_cons]
    by_cases hxa : x = a
    · subst hxa
      have hrest : l.flatMap f = [] := List.flatMap_eq_nil_iff.mpr fun y hy =>
        hf y (List.mem_cons_of_mem _ hy) fun e => hx (e ▸ hy)
      rw [hrest, List.append_nil]
    · rw [hf x List.mem_cons_self hxa, List.nil_append]
      exact ih hl ((List.mem_cons.mp ha).resolve_left fun e => hxa e.symm) fun y hy => hf y (List.mem_cons_of_mem _ hy)

/-- The pending narrow writes of one register set. -/
def storesOf (s : State) (c : Nat) (k : Option Nat) : List (Option Nat × LongOp × List LongOp) :=
  (picks (s.thr c k).pend).filterMap fun p => if p.1.kind == .store then some (k, p.1, p.2) else none

/-- The pending narrow writes of a core are the issuer's. -/
theorem stores_pendingOne {s : State} {c : Nat} {k : Option Nat} {n : Nat} (h : Ready s c k n) {o : LongOp} (hk : o.kind = .store)
    (hother : ∀ q, q < 8 → (s.thr c (some q)).pend = []) :
    ((none : Option Nat) :: (List.range 8).map some).flatMap (storesOf (pendingOne s c k o) c) = [(k, o, [])] := by
  rw [flatMap_single (a := k) (by decide)]
  · unfold storesOf
    rw [thr_pendingOne]
    simp [picks, hk]
  · cases k with
    | none => simp
    | some q => simp [h.ctx8 q rfl]
  · intro x hx hxk
    have hthr : (pendingOne s c k o).thr c x = s.thr c x := (ownSet_modThr s c k _).thr_ne hxk
    have hpend : (s.thr c x).pend = [] := by
      rcases List.mem_cons.mp hx with rfl | hx
      · exact h.sup.pend
      · obtain ⟨q, hq, rfl⟩ := List.mem_map.mp hx
        exact hother q (List.mem_range.mp hq)
    unfold storesOf
    rw [hthr, hpend]
    rfl

theorem cyc_pos (s : State) : 0 < s.cyc := by
  unfold State.cyc
  split <;> decide

/-- Time brought to a cycle is at that cycle or later. -/
theorem nowCyc_advanceTo (s : State) (n : Nat) : (s.advanceTo (n * s.cyc)).nowCyc = max s.nowCyc n := by
  have hc : (s.advanceTo (n * s.cyc)).cyc = s.cyc := rfl
  have hm : (s.advanceTo (n * s.cyc)).clk.mono = max s.clk.mono (n * s.cyc) := advanceTo_now s _
  unfold State.nowCyc
  rw [hc, hm]
  rcases Nat.le_total s.clk.mono (n * s.cyc) with h | h
  · rw [Nat.max_eq_right h, Nat.mul_div_cancel _ (cyc_pos s), Nat.max_eq_right]
    exact (Nat.div_le_div_right h).trans_eq (Nat.mul_div_cancel _ (cyc_pos s))
  · rw [Nat.max_eq_left h, Nat.max_eq_left]
    exact (Nat.le_div_iff_mul_le (cyc_pos s)).mpr h

/-- Where issue waits for an operation that retires, the time that its exception takes does not show. -/
theorem issueCyc_retiring (s : State) (c : Nat) (k : Option Nat) (o : LongOp) :
    max (issueCyc (retiring (pendingOne s c k o) c k o []) c) o.ready = max (issueCyc s c) o.ready := by
  have hset : OwnSet s ((pendingOne s c k o).modThr c k fun t => { t with pend := [] }) c k :=
    (ownSet_modThr s c k _).trans (ownSet_modThr _ c k _)
  have hcyc : ((retiring (pendingOne s c k o) c k o []).core c).cyc = (s.core c).cyc :=
    ((found_retiring _ c k o []).work.field (·.cyc) (fun _ _ => rfl) c).trans (hset.core_field (·.cyc) fun _ _ => rfl)
  have hnow : max (retiring (pendingOne s c k o) c k o []).nowCyc o.ready = max s.nowCyc o.ready := by
    have hown : ((pendingOne s c k o).modThr c k fun t => { t with pend := [] }).nowCyc = s.nowCyc :=
      hset.dev_field (·.nowCyc) fun _ _ _ => rfl
    unfold retiring
    dsimp only
    generalize ((pendingOne s c k o).modThr c k fun t => { t with pend := [] }) = w at hown
    cases o.arith with
    | none => rw [hown]
    | some e =>
      have hr : (raiseArith (w.advanceTo (o.ready * w.cyc)) c k e).nowCyc = (w.advanceTo (o.ready * w.cyc)).nowCyc := by
        cases k
        · exact (onlySignals_raise _ _ _ _).field (·.nowCyc) fun _ _ _ _ _ _ _ _ _ => rfl
        · exact (onlySignals_raise _ _ _ _).field (·.nowCyc) fun _ _ _ _ _ _ _ _ _ => rfl
      dsimp only
      rw [hr, nowCyc_advanceTo, hown, Nat.max_assoc, Nat.max_self]
  unfold issueCyc
  rw [hcyc, Nat.max_assoc, hnow, Nat.max_assoc]

theorem narrowWriteRetires {s : State} {c : Core} {k : Option Nat} {n : Nat} (h : Ready s c k n) {o : LongOp}
    (hk : o.kind = .store) (hr : o.res = []) (hf : o.fault = none) (hother : ∀ q, q < 8 → (s.thr c (some q)).pend = []) :
    Completes (exec (.narrowWriteRetire c) (pendingOne s c k o)) (fun t =>
      (t.thr c k).pend = [] ∧ (∀ n, gpr t c k n = gpr s c k n) ∧ t.dram = s.dram ∧
      (t.core c).cyc = max (issueCyc s c) o.ready) := by
  have hret : retireOp (pendingOne s c k o) c k o [] = retiring (pendingOne s c k o) c k o [] := by
    rw [retireOp_sound hf, hr]
    rfl
  have hexec : exec (.narrowWriteRetire c) (pendingOne s c k o) =
      done (waitTo (retiring (pendingOne s c k o) c k o []) c o.ready) := by
    have hstop : (pendingOne s c k o).stopped = false := by
      rw [← h.stopped]
      cases k <;> rfl
    change execNarrowWriteRetire c _ = _
    unfold execNarrowWriteRetire
    dsimp only
    rw [if_neg (by simp [hstop])]
    generalize hxs : List.flatMap _ _ = xs
    obtain rfl : xs = [(k, o, [])] := hxs.symm.trans (stores_pendingOne h hk hother)
    exact congrArg (fun x => done (waitTo x c o.ready)) hret
  have hthr : (settle (waitTo (retiring (pendingOne s c k o) c k o []) c o.ready)).thr c k = s.thr c k :=
    (thr_concluded _ c k _).trans (thr_retiring o h.calm.pend)
  rw [hexec]
  refine completes_done ⟨by rw [hthr]; exact h.calm.pend, fun n => by rw [gpr, hthr, ← gpr], ?_, ?_⟩
  · refine (found_retiring (pendingOne s c k o) c k o []).dram.trans ?_
    cases k <;> rfl
  · rw [waitTo, core_concluded]
    exact issueCyc_retiring s c k o

/-- The second part of the statement. -/
theorem spanEngine : Clause.SpanEngine := by
  intro s c k h
  refine ⟨fun e hf => vectorStarts h hf, fun j half hh hf => ⟨countExpiry_frees h hh hf, fun r v hw => countExpiry_sreg h hh hf hw,
    fun r o bs cls hw hm => countExpiry_vreg h hh hf hw hm⟩, fun b j hb hc => verdictReaches h hb hc,
    fun o r v hr hs => longOperationRetires h hr hs, fun o hk hr hf _ hother => narrowWriteRetires h hk hr hf hother⟩

/-- Settles O17: the issue of each vector instruction is one act on a ready core, and each event of the span is the next one of a
core that has nothing else pending. -/
theorem vectorsOnSpans : Obligations.VectorsOnSpans := ⟨vectorIssue, spanEngine⟩

end Sys2Proof.Machine
end

section
/-! PROOFS. Integer elements (R122): the signed value of an encoding, wrapping and saturating results, and shifts by any amount. -/

namespace Sys2Proof.Machine
open Sys2Proof

section
variable {w : Nat}

-- Signed values and their encodings (R88, R122) ----------------------------------------------------------------------------

theorem uenc_modEq (w : Nat) (x : Int) : (uenc w x : Int) ≡ x [ZMOD 2 ^ w] := by
  rw [uenc, Int.toNat_of_nonneg (Int.emod_nonneg _ (by positivity))]
  exact Int.mod_modEq x _

theorem sval_modEq (w v : Nat) : sval w v ≡ v [ZMOD 2 ^ w] := by
  have hu : ((v % 2 ^ w : Nat) : Int) ≡ v [ZMOD 2 ^ w] := by
    push_cast
    exact Int.mod_modEq _ _
  unfold sval
  dsimp only
  split
  · exact hu
  · exact (Int.modEq_sub_modulus_iff.mpr hu.symm).symm

/-- An encoding that is congruent to a number is its residue. -/
theorem uenc_eq_mod {x : Int} {n : Nat} (h : x ≡ n [ZMOD 2 ^ w]) : uenc w x = n % 2 ^ w := by
  rw [uenc, h]
  exact Int.toNat_natCast _

theorem two_pow_pred_add (hw : 0 < w) : (2 : Int) ^ (w - 1) + 2 ^ (w - 1) = 2 ^ w := by
  rw [← two_mul, ← pow_succ', Nat.sub_add_cancel hw]

/-- A signed value of w bits lies within the limits of its type. -/
theorem sval_mem (hw : 0 < w) (v : Nat) : -(2 ^ (w - 1)) ≤ sval w v ∧ sval w v ≤ 2 ^ (w - 1) - 1 := by
  have hp := two_pow_pred_add hw
  have hu : ((v % 2 ^ w : Nat) : Int) < 2 ^ w := by exact_mod_cast Nat.mod_lt v (Nat.two_pow_pos w)
  unfold sval
  dsimp only
  split
  · next h =>
    have h' : ((v % 2 ^ w : Nat) : Int) < 2 ^ (w - 1) := by exact_mod_cast h
    omega
  · next h =>
    have h' : (2 : Int) ^ (w - 1) ≤ (v % 2 ^ w : Nat) := by exact_mod_cast Nat.not_lt.mp h
    omega

/-- A number within the limits is the value of its encoding. -/
theorem sval_uenc (hw : 0 < w) {x : Int} (hlo : -(2 ^ (w - 1)) ≤ x) (hhi : x ≤ 2 ^ (w - 1) - 1) : sval w (uenc w x) = x := by
  have hp := two_pow_pred_add hw
  obtain ⟨lo, hi⟩ := sval_mem hw (uenc w x)
  obtain ⟨k, hk⟩ := ((sval_modEq w _).trans (uenc_modEq w x)).dvd
  generalize sval w (uenc w x) = y at *
  have h1 : (2 : Int) ^ w * k < 2 ^ w * 1 := by omega
  have h2 : (2 : Int) ^ w * (-1) < 2 ^ w * k := by omega
  have h3 := lt_of_mul_lt_mul_left h1 (by positivity)
  have h4 := lt_of_mul_lt_mul_left h2 (by positivity)
  obtain rfl : k = 0 := by omega
  omega

theorem sval_zero (w : Nat) : sval w 0 = 0 := by simp [sval]

-- Wrapping and saturating (R122) -------------------------------------------------------------------------------------------

theorem intRes_wraps {x : Int} {n : Nat} (h : x ≡ n [ZMOD 2 ^ w]) : intRes w false x = n % 2 ^ w := uenc_eq_mod h

theorem sval_intRes_saturates (hw : 0 < w) (x : Int) :
    sval w (intRes w true x) = max (-(2 ^ (w - 1))) (min (2 ^ (w - 1) - 1) x) := by
  have hp : (0 : Int) < 2 ^ (w - 1) := by positivity
  have hc : (if x < -(2 ^ (w - 1)) then -(2 ^ (w - 1)) else if 2 ^ (w - 1) - 1 < x then 2 ^ (w - 1) - 1 else x) =
      max (-(2 ^ (w - 1))) (min (2 ^ (w - 1) - 1) x) := by
    split
    · omega
    · split <;> omega
  unfold intRes
  dsimp only
  rw [if_pos rfl, hc]
  exact sval_uenc hw (le_max_left _ _) (by omega)

/-- The encoding with only its top bit set is that of the lower limit. -/
theorem sval_low (hw : 0 < w) : sval w (2 ^ (w - 1)) = -(2 ^ (w - 1)) := by
  have hp := two_pow_pred_add hw
  have hlt : 2 ^ (w - 1) < 2 ^ w := Nat.pow_lt_pow_right (by norm_num) (by omega)
  unfold sval
  dsimp only
  rw [Nat.mod_eq_of_lt hlt, if_neg (lt_irrefl _)]
  push_cast
  omega

/-- One more than the upper limit wraps to the encoding of the lower one. -/
theorem intRes_wraps_past_limit (hw : 0 < w) : intRes w false (2 ^ (w - 1)) = 2 ^ (w - 1) := by
  have hlt : 2 ^ (w - 1) < 2 ^ w := Nat.pow_lt_pow_right (by norm_num) (by omega)
  rw [intRes_wraps (n := 2 ^ (w - 1)) (by push_cast; rfl), Nat.mod_eq_of_lt hlt]

/-- One more than the upper limit saturates to it. -/
theorem intRes_saturates_past_limit (hw : 0 < w) : intRes w true (2 ^ (w - 1)) = 2 ^ (w - 1) - 1 := by
  have hlt : 2 ^ (w - 1) < 2 ^ w := Nat.pow_lt_pow_right (by norm_num) (by omega)
  have hpos : (0 : Int) < 2 ^ (w - 1) := by positivity
  have hhi : intRes w true (2 ^ (w - 1)) = uenc w (2 ^ (w - 1) - 1) := by
    unfold intRes
    dsimp only
    rw [if_pos rfl, if_neg (show ¬(2 : Int) ^ (w - 1) < -(2 ^ (w - 1)) by omega), if_pos (sub_one_lt _)]
  rw [hhi, uenc_eq_mod (n := 2 ^ (w - 1) - 1) (by rw [Nat.cast_sub Nat.one_le_two_pow]; push_cast; rfl)]
  exact Nat.mod_eq_of_lt ((Nat.sub_le _ _).trans_lt hlt)

-- Shifts (R122) ------------------------------------------------------------------------------------------------------------

/-- Wrapping, a shift left is a product: by the width or more it gives 0. -/
theorem shlRes_wraps (w a n : Nat) : shlRes w false a n = a * 2 ^ n % 2 ^ w := by
  unfold shlRes
  dsimp only
  rw [if_neg (by simp)]
  split
  · next h => exact (Nat.mod_eq_zero_of_dvd (Dvd.dvd.mul_left (pow_dvd_pow 2 h) a)).symm
  · refine uenc_eq_mod ?_
    push_cast
    exact (sval_modEq w a).mul_right _

/-- A value other than 0 that is shifted by the width or more is at its limit, as the shift that the model writes is. -/
theorem sval_shlRes_saturates (hw : 0 < w) (a n : Nat) :
    sval w (shlRes w true a n) = max (-(2 ^ (w - 1))) (min (2 ^ (w - 1) - 1) (sval w a * 2 ^ n)) := by
  have hp := two_pow_pred_add hw
  have hpos : (0 : Int) < 2 ^ (w - 1) := by positivity
  unfold shlRes
  dsimp only
  rw [if_pos rfl]
  generalize sval w a = x
  by_cases hx : x = 0
  · rw [if_pos hx, hx, sval_zero, zero_mul]
    omega
  rw [if_neg hx]
  by_cases hn : n < w
  · rw [if_pos hn, sval_intRes_saturates hw]
  rw [if_neg hn, sval_intRes_saturates hw]
  have hle : (2 : Int) ^ w ≤ 2 ^ n := pow_le_pow_right₀ (by norm_num) (Nat.not_lt.mp hn)
  by_cases hs : 0 < x
  · have hb : (2 : Int) ^ n ≤ x * 2 ^ n := le_mul_of_one_le_left (by positivity) hs
    rw [if_pos hs]
    omega
  · have hb : x * 2 ^ n ≤ (-1) * 2 ^ n := mul_le_mul_of_nonneg_right (by omega) (by positivity)
    rw [if_neg hs]
    omega

/-- A logical shift right is a quotient: by the width or more it gives 0. -/
theorem shrRes_logical {a : Nat} (ha : a < 2 ^ w) (n : Nat) : shrRes w false a n = a / 2 ^ n := by
  unfold shrRes
  rw [if_neg (by simp), Nat.mod_eq_of_lt ha]
  split
  · next h => exact (Nat.div_eq_of_lt (ha.trans_le (Nat.pow_le_pow_right (by norm_num) h))).symm
  · rfl

/-- A quotient by a positive number stays within limits that hold -1, 0 and the dividend. -/
theorem ediv_within {lo hi x d : Int} (hd : 0 < d) (hlo : lo ≤ x) (hhi : x ≤ hi) (hlo0 : lo ≤ -1) (hhi0 : 0 ≤ hi) :
    lo ≤ x / d ∧ x / d ≤ hi := by
  constructor
  · rw [Int.le_ediv_iff_mul_le hd]
    nlinarith
  · rw [← Int.lt_add_one_iff, Int.ediv_lt_iff_lt_mul hd]
    nlinarith

/-- Shifting a value of w bits right by more than w gives its sign, as shifting by w does. -/
theorem ediv_two_pow_min {x : Int} (hlo : -(2 ^ w) ≤ x) (hhi : x < 2 ^ w) (n : Nat) : x / 2 ^ min n w = x / 2 ^ n := by
  rcases Nat.le_total n w with h | h
  · rw [Nat.min_eq_left h]
  · rw [Nat.min_eq_right h]
    have hle : (2 : Int) ^ w ≤ 2 ^ n := pow_le_pow_right₀ (by norm_num) h
    rcases lt_or_ge x 0 with hx | hx
    · rw [Int.ediv_eq_neg_one_of_neg_of_le hx (by omega), Int.ediv_eq_neg_one_of_neg_of_le hx (by omega)]
    · rw [Int.ediv_eq_zero_of_lt hx hhi, Int.ediv_eq_zero_of_lt hx (by omega)]

theorem sval_shrRes_arithmetic (hw : 0 < w) (a n : Nat) : sval w (shrRes w true a n) = sval w a / 2 ^ n := by
  have hp := two_pow_pred_add hw
  have hpos : (0 : Int) < 2 ^ (w - 1) := by positivity
  obtain ⟨lo, hi⟩ := sval_mem hw a
  obtain ⟨qlo, qhi⟩ := ediv_within (d := 2 ^ n) (by positivity) lo hi (by omega) (by omega)
  unfold shrRes
  rw [if_pos rfl, ediv_two_pow_min (by omega) (by omega)]
  exact sval_uenc hw qlo qhi

end

/-- Settles O18: a wrapped result is congruent to the operation on the encodings, a saturated one is the signed result within the
limits, and a shift by the width or more reaches 0, the sign or the limit. -/
theorem integerElements : Obligations.IntegerElements := by
  unfold Obligations.IntegerElements
  intro w a b c r hw ha hb hc x y n op clamp
  have hx : x ≡ a [ZMOD 2 ^ w] := sval_modEq w a
  have hy : y ≡ b [ZMOD 2 ^ w] := sval_modEq w b
  have hz : sval w c ≡ c [ZMOD 2 ^ w] := sval_modEq w c
  have hsub : x - y ≡ (a + 2 ^ w - b : Nat) [ZMOD 2 ^ w] := by
    rw [Nat.cast_sub (by omega)]
    push_cast
    exact (Int.modEq_add_modulus_iff.mpr hx).sub hy
  have hneg : -x ≡ (2 ^ w - a : Nat) [ZMOD 2 ^ w] := by
    rw [Nat.cast_sub ha.le]
    push_cast
    exact neg_sub (a : Int) (2 ^ w) ▸ (Int.modEq_sub_modulus_iff.mpr hx).neg
  refine ⟨intRes_wraps (by exact_mod_cast hx.add hy), sval_intRes_saturates hw _, intRes_wraps hsub, sval_intRes_saturates hw _,
    intRes_wraps (by exact_mod_cast hx.mul hy), sval_intRes_saturates hw _,
    intRes_wraps (by exact_mod_cast (hx.mul hy).add hz), sval_intRes_saturates hw _,
    intRes_wraps hneg, sval_intRes_saturates hw _, fun hlow => ?_,
    shlRes_wraps w a n, sval_shlRes_saturates hw a n, shrRes_logical ha n, sval_shrRes_arithmetic hw a n, ?_, ?_⟩
  · have hv : x = -(2 ^ (w - 1)) := (congrArg (sval w) hlow).trans (sval_low hw)
    have habs : (if x < 0 then -x else x) = 2 ^ (w - 1) := by
      rw [if_pos (hv ▸ neg_lt_zero.mpr (by positivity)), hv, neg_neg]
    exact ⟨(congrArg (intRes w false) habs).trans (intRes_wraps_past_limit hw),
      (congrArg (intRes w true) habs).trans (intRes_saturates_past_limit hw)⟩
  · change sval w (if x ≤ y then a else b) = min x y
    rw [apply_ite (sval w), min_def]
  · change sval w (if y ≤ x then a else b) = max x y
    rw [apply_ite (sval w), max_def']

end Sys2Proof.Machine
end

section
/-! PROOFS. Precise exceptions of scalar instructions (R177–R184): what stands where one is taken, how the supervisor is entered,
and the faults of data addresses and of illegal encodings. -/

namespace Sys2Proof.Machine
open Sys2Proof

-- Where an exception is taken (R177, R178) ---------------------------------------------------------------------------------

/-- What the steps before an entry into supervisor mode leave of the state s in which the instruction was fetched. -/
structure AtBoundary (s u : State) (c : Nat) (k : Option Nat) : Prop where
  cyc   : issueCyc u c = issueCyc s c
  base  : u.f fEZ_XBASE_BASE c = s.f fEZ_XBASE_BASE c
  ml    : mlOf u c k = mlOf s c k
  sec   : secOf u c k = secOf s c k
  regs  : (u.thr c k).r = (s.thr c k).r
  plate : u.plate = s.plate
  tray  : u.tray = s.tray
  dram  : u.dram = s.dram

section
variable {s u v : State} {c : Nat} {k : Option Nat}

theorem AtBoundary.refl (s : State) (c : Nat) (k : Option Nat) : AtBoundary s s c k := ⟨rfl, rfl, rfl, rfl, rfl, rfl, rfl, rfl⟩

theorem AtBoundary.trans (h : AtBoundary s u c k) (g : AtBoundary u v c k) : AtBoundary s v c k where
  cyc := g.cyc.trans h.cyc
  base := g.base.trans h.base
  ml := g.ml.trans h.ml
  sec := g.sec.trans h.sec
  regs := g.regs.trans h.regs
  plate := g.plate.trans h.plate
  tray := g.tray.trans h.tray
  dram := g.dram.trans h.dram

/-- Taking what stands in the delay slot touches no register. -/
theorem atBoundary_takeSlot (s : State) (c : Nat) (k : Option Nat) : AtBoundary s (takeSlot s c k).2 c k where
  cyc := issueCyc_modThr s c k _
  base := (ownSet_modThr s c k _).dev_field (·.f fEZ_XBASE_BASE c) fun _ _ _ => rfl
  ml := by
    cases k with
    | none => exact core_modThr_field s c none (·.ml) (fun _ _ => rfl) _
    | some q => exact (ownSet_modThr s c (some q) _).ctx_field (·.ml) fun _ _ _ => rfl
  sec := by
    cases k with
    | none => rfl
    | some q => exact (congrArg Ctx.sec (ctx_modCtx_self s c q _)).trans rfl
  regs := (congrArg Thr.r (thr_modThr_self s c k _)).trans rfl
  plate := (ownSet_modThr s c k _).dev_field (·.plate) fun _ _ _ => rfl
  tray := (ownSet_modThr s c k _).dev_field (·.tray) fun _ _ _ => rfl
  dram := (ownSet_modThr s c k _).dev_field (·.dram) fun _ _ _ => rfl

/-- Bringing time to the cycle of issue does not move that cycle. -/
theorem issueCyc_toIssue (s : State) (c : Nat) : issueCyc (toIssue s c) c = issueCyc s c := by
  have h : (toIssue s c).nowCyc = max s.nowCyc (issueCyc s c) := nowCyc_advanceTo s _
  have hc : ((toIssue s c).core c).cyc = (s.core c).cyc := rfl
  rw [issueCyc, h, hc, issueCyc]
  omega

/-- A flag of EZ_STAT that is set in the cycle of issue leaves the issuer and the place of its handlers. -/
theorem atBoundary_raise (hc : c < 32) {b : Flag} (hr : b.f.reg = rEZ_STAT) (hn : ∀ d, b.cnt = some d → d.reg = rEZ_SETCNT) :
    AtBoundary s (raise (toIssue s c) b c) c k := by
  have hsig : OnlySignals (toIssue s c) (raise (toIssue s c) b c) := onlySignals_raise _ _ _ _
  have hwork : SameWork (toIssue s c) (raise (toIssue s c) b c) := sameWork_raise _ _ _ _
  have hfound : Found (toIssue s c) (raise (toIssue s c) b c) := .raise _ _ _ _
  have hctx (q : Nat) : (raise (toIssue s c) b c).ctx c q = s.ctx c q := by
    unfold State.ctx
    rw [hfound.ctxs]
    rfl
  have hkey : (fEZ_XBASE_BASE.reg.key c 0) = 0x3000c8 + c * 4096 := rfl
  exact {
    cyc := by
      rw [← issueCyc_toIssue s c, issueCyc, issueCyc, hwork.field (·.cyc) (fun _ _ => rfl),
        hsig.field (·.nowCyc) fun _ _ _ _ _ _ _ _ _ => rfl]
    base := by
      refine f_raise_ne (toIssue s c) ?_ (fun d hd => ?_) (not_sideKey ?_)
      · rw [hr, hkey]
        simp only [Reg.key, rEZ_STAT]
        omega
      · rw [hn d hd, hkey]
        simp only [Reg.key, rEZ_SETCNT]
        omega
      · rw [hkey]
        omega
    ml := by
      cases k with
      | none => exact hwork.field (·.ml) (fun _ _ => rfl) c
      | some q => exact congrArg Ctx.ml (hctx q)
    sec := by
      cases k with
      | none => rfl
      | some q => exact congrArg Ctx.sec (hctx q)
    regs := congrArg Thr.r (hfound.thr c k)
    plate := hsig.field (·.plate) fun _ _ _ _ _ _ _ _ _ => rfl
    tray := hsig.field (·.tray) fun _ _ _ _ _ _ _ _ _ => rfl
    dram := hsig.field (·.dram) fun _ _ _ _ _ _ _ _ _ => rfl }

/-- The state in which fault f is taken: an illegal instruction, one of the wrong mode and a loop error have set their flag of
EZ_STAT (R163). -/
def faultMarked (s : State) (c : Nat) (f : FaultRec) : State :=
  if f.code = cILLEGAL then raise (toIssue s c) kEZ_STAT_ILLEGAL c
  else if f.code = cPRIV then raise (toIssue s c) kEZ_STAT_PRIV c
  else if f.code = cLOOPERR then raise (toIssue s c) kEZ_STAT_LOOPERR c else s

theorem atBoundary_faultMarked (hc : c < 32) (f : FaultRec) : AtBoundary s (faultMarked s c f) c k := by
  have raised (b : Flag) (d : Field) (hr : b.f.reg = rEZ_STAT) (hb : b.cnt = some d) (hd : d.reg = rEZ_SETCNT) :
      AtBoundary s (raise (toIssue s c) b c) c k :=
    atBoundary_raise hc hr fun e he => Option.some.inj (hb.symm.trans he) ▸ hd
  unfold faultMarked
  split
  · exact raised kEZ_STAT_ILLEGAL _ rfl rfl rfl
  split
  · exact raised kEZ_STAT_PRIV _ rfl rfl rfl
  split
  · exact raised kEZ_STAT_LOOPERR _ rfl rfl rfl
  · exact .refl s c k

-- Entry (R180–R184) --------------------------------------------------------------------------------------------------------

/-- The bank that fault f of an issuer saves at level l, for a return to `pc`. -/
def faultBank (u : State) (c : Nat) (k : Option Nat) (l : Nat) (f : FaultRec) (pc : Nat) : Bank :=
  ⟨causeWord f (ctxNo u c k) k.isNone false l, w32 pc, f.pc, f.info, 0, mlOf u c k, ctxNo u c k, k.isNone⟩

/-- Outside a section, a fault that has a level left enters supervisor mode there (R180, R182). -/
theorem takeFault_enters {f : FaultRec} (pc : Nat) (hs : secOf (faultMarked s c f) c k = none)
    (hl : max f.level (mlOf (faultMarked s c f) c k + 1) ≤ 7) : takeFault s c k f pc =
      let u := faultMarked s c f
      let l := max f.level (mlOf u c k + 1)
      enter (u.setReg rEZ_CAUSE c 0 (faultBank u c k l f pc).cause) c k l (faultBank u c k l f pc) := by
  unfold takeFault
  change (match k, secOf (faultMarked s c f) c k with | some q, some _ => _ | _, _ => _) = _
  rw [hs]
  have hn : ¬7 < max f.level (mlOf (faultMarked s c f) c k + 1) := by omega
  cases k <;> exact if_neg hn

/-- The low bits of a cause word are the exception's code, and those above them its level (R190). -/
theorem causeWord_code_level (f : FaultRec) (n : Nat) (sup q : Bool) {l : Nat} (hf : f.code < 256) (hl : l ≤ 7) :
    bits (causeWord f n sup q l).toNat 0 8 = f.code ∧ bits (causeWord f n sup q l).toNat 8 3 = l := by
  simp only [causeWord, w32, bits, BitVec.toNat_ofNat]
  omega

theorem core_enter (u : State) (c : Nat) (k : Option Nat) (l : Nat) (b : Bank) : (enter u c k l b).core c =
    { u.core c with
      banks := tput (u.core c).banks l b, ml := l, sup := true, waiting := false, frozen := (u.core c).frozen || k.isSome
      cyc := issueCyc u c + 14
      thr := { (u.core c).thr with r := { (u.core c).thr.r with pc := w32 (handlerPc u c l) } } } := by
  simp [enter, setPc, State.modThr, State.setThr, State.thr, handlerPc]
  rfl

/-- Entering supervisor mode writes no register but the supervisor's PC. -/
theorem gpr_enter (u : State) (c : Nat) (k : Option Nat) (l : Nat) (b : Bank) (n : Nat) :
    gpr (settle (enter u c k l b)) c k n = gpr u c k n := by
  cases k with
  | none =>
    rw [gpr, State.thr, core_settle, core_enter]
    rfl
  | some q => rfl

/-- Fault f of an issuer has been taken at level l, with `pc` as the return address, and nothing was written. -/
structure Trapped (s t : State) (c : Nat) (k : Option Nat) (l : Nat) (f : FaultRec) (pc : Nat) : Prop where
  entered : Entered s t c k l f.code pc
  info    : (tget Bank.init (t.core c).banks l).info = f.info
  regs    : ∀ n, gpr t c k n = gpr s c k n
  plate   : t.plate = s.plate
  tray    : t.tray = s.tray
  dram    : t.dram = s.dram

theorem AtBoundary.trapped (h : AtBoundary s u c k) {f : FaultRec} (hf : f.code < 256) {l : Nat} (hl : l ≤ 7) (w : Word)
    (pc : Nat) : Trapped s (settle (enter (u.setReg rEZ_CAUSE c 0 w) c k l (faultBank u c k l f pc))) c k l f pc := by
  have hcore := core_enter (u.setReg rEZ_CAUSE c 0 w) c k l (faultBank u c k l f pc)
  have hbank : tget Bank.init ((settle (enter (u.setReg rEZ_CAUSE c 0 w) c k l (faultBank u c k l f pc))).core c).banks l =
      faultBank u c k l f pc := by
    rw [core_settle, hcore]
    exact tget_tput_self _ _ _ _
  have hbase : handlerPc (u.setReg rEZ_CAUSE c 0 w) c l = handlerPc s c l := by
    have hx : (u.setReg rEZ_CAUSE c 0 w).f fEZ_XBASE_BASE c = u.f fEZ_XBASE_BASE c :=
      f_setReg_ne u rEZ_CAUSE fEZ_XBASE_BASE c 0 c 0 w (by simp only [Reg.key, fEZ_XBASE_BASE, rEZ_XBASE, rEZ_CAUSE]; omega)
    rw [handlerPc, hx, h.base, handlerPc]
  have hcause := causeWord_code_level f (ctxNo u c k) k.isNone false hf hl
  exact {
    entered := {
      sup := by rw [core_settle, hcore]
      ml := by rw [core_settle, hcore]
      start := by
        rw [core_settle, hcore, hbase]
        rfl
      code := by rw [hbank]; exact hcause.1
      level := by rw [hbank]; exact hcause.2
      saved := by rw [hbank]; rfl
      rml := by rw [hbank]; exact h.ml
      rsup := by rw [hbank]; rfl
      took := by
        rw [Took, core_settle, hcore, ← h.cyc]
        rfl }
    info := by rw [hbank]; rfl
    regs := fun n => (gpr_enter _ c k l _ n).trans (congrArg (RSet.get · n) h.regs)
    plate := h.plate
    tray := h.tray
    dram := h.dram }

/-- A precise fault of an instruction that no load precedes is taken at its level, or above the level that runs (R178–R180). -/
theorem preciseFault_trapped (hc : c < 32) (hd : (s.thr c k).dslot = []) (hs : secOf s c k = none) {f : FaultRec}
    (hf : f.code < cTRAP) (hl : max f.level (mlOf s c k + 1) ≤ 7) (pc : Nat) :
    Trapped s (settle (preciseFault s c k f pc)) c k (max f.level (mlOf s c k + 1)) f pc := by
  have hb : AtBoundary s (faultMarked (takeSlot s c k).2 c f) c k :=
    (atBoundary_takeSlot s c k).trans (atBoundary_faultMarked hc f)
  have hcode : f.code < 256 ∧ f.code ≠ cTRAP := by
    unfold cTRAP at *
    omega
  have he : preciseFault s c k f pc = takeFault (takeSlot s c k).2 c k f pc := by
    unfold preciseFault
    simp only [takeSlot, hd, landSlot, putRegs, List.filter_nil, List.foldl_nil, if_neg hcode.2]
  rw [he, takeFault_enters pc (hb.sec.trans hs) (by rw [hb.ml]; exact hl), ← hb.ml]
  exact hb.trapped hcode.1 (by rw [hb.ml]; exact hl) _ pc

end

-- Illegal encodings (R113, R147–R149) --------------------------------------------------------------------------------------

section
variable {s : State} {c : Core} {q : Nat} {i : Instr} {u : Use} {act : State → Option Nat → Nat → Out}

/-- ILLEGAL has been taken from context q, and nothing was written. -/
def TookIllegal (s : State) (c q : Nat) (t : State) : Prop :=
  Entered s t c (some q) (max 5 (mlOf s c (some q) + 1)) 0x20 (pcOf s c (some q)) ∧
    (∀ n, gpr t c (some q) n = gpr s c (some q) n) ∧ s.plate = t.plate ∧ s.tray = t.tray

theorem tookIllegal_preciseFault (hd : (s.thr c (some q)).dslot = []) (hs : secOf s c (some q) = none)
    (hm : mlOf s c (some q) < 7) (info n : Nat) :
    TookIllegal s c q (settle (preciseFault s c (some q) (scalarFault cILLEGAL (pcOf s c (some q)) info n)
      (pcOf s c (some q)))) := by
  have h := preciseFault_trapped c.isLt hd hs (f := scalarFault cILLEGAL (pcOf s c (some q)) info n)
    (by decide : cILLEGAL < cTRAP) (show max 5 _ ≤ 7 by omega) (pcOf s c (some q))
  exact ⟨h.entered, h.regs, h.plate.symm, h.tray.symm⟩

theorem issueFault_illegal {k : Option Nat} (h : Ready s c k u.size) (hp : u.supOnly = false) (hi : u.ill = true) :
    ∃ info n, issueFault s c k u (pcOf s c k) = some (scalarFault cILLEGAL (pcOf s c k) info n) := by
  refine ⟨(fetchWord s c (pcOf s c k)).toNat, issueCyc s c, ?_⟩
  unfold issueFault
  simp only [h.first, h.last, h.word, hp, hi, Bool.and_self, Bool.not_true, Bool.false_and, Bool.true_or, Bool.false_eq_true,
    if_false, if_true]

/-- An instruction of a context whose encoding is illegal raises ILLEGAL (R148, R149). -/
theorem Ready.illegal (h : Ready s c (some q) u.size) (hs : secOf s c (some q) = none) (hm : mlOf s c (some q) < 7)
    (he : exec i s = runs s c i (issueI s c u act)) (hp : u.supOnly = false) (hi : u.ill = true) :
    Runs s c i (TookIllegal s c q) := by
  refine runs_of_exec he ?_
  obtain ⟨info, n, hf⟩ := issueFault_illegal h hp hi
  rw [issueI_fault act h hf]
  exact tookIllegal_preciseFault h.calm.slot hs hm info n

/-- A ready core whose instruction RAM holds other words has nothing to do before it issues, as with its own. -/
theorem Ready.catchUp_imem {k : Option Nat} {n : Nat} (h : Ready s c k n) (m : Tab Byte) :
    Machine.catchUp { s with imem := m } c = { s with imem := m } :=
  runTo_quiet (s := { s with imem := m }) ⟨⟨h.sup.done, fun q hq => (h.own q hq).done⟩, h.jobs, h.vq, h.br⟩ _ _

theorem Ready.loupe_imem {k : Option Nat} {n : Nat} (h : Ready s c k n) (m : Tab Byte) :
    loupeReplay (pastBreak { s with imem := m } c) c k = { s with imem := m } := by
  have hgo : (State.core { s with imem := m } c).loupe.go = false := h.go
  have hlog : (loupeNow { s with imem := m } c k).1 = [] := h.log
  rw [pastBreak, hgo, if_neg Bool.false_ne_true]
  unfold loupeReplay
  cases k with
  | none => rfl
  | some q =>
    generalize loupeNow _ c (some q) = p at hlog
    obtain ⟨a, b⟩ := p
    obtain rfl : a = [] := hlog
    rfl

theorem issueFault_unspelt {k : Option Nat} (hf : fetchOk s c k (pcOf s c k) = true) (hb : fetchBad s c (pcOf s c k) = true) :
    ∃ info n, issueFault s c k {} (pcOf s c k) = some (scalarFault cILLEGAL (pcOf s c k) info n) := by
  refine ⟨(fetchWord s c (pcOf s c k)).toNat, issueCyc s c, ?_⟩
  unfold issueFault
  simp only [hf, hb, Nat.add_sub_cancel, Bool.and_self, Bool.not_true, Bool.false_eq_true, if_false, if_true]

/-- A word that spells no instruction raises ILLEGAL where the core would issue a word that spells one at once (R113). -/
theorem Ready.unspelt {n : Nat} (h : Ready s c (some q) n) (hs : secOf s c (some q) = none) (hm : mlOf s c (some q) < 7)
    (m : Tab Byte) (hb : fetchBad { s with imem := m } c (pcOf s c (some q)) = true) :
    Runs { s with imem := m } c (.nop c) (TookIllegal { s with imem := m } c q) := by
  refine runs_of_exec (t := issueI { s with imem := m } c {} fun s _ _ => .ok s 1) rfl ?_
  have hcatch := h.catchUp_imem m
  have hloupe := h.loupe_imem m
  obtain ⟨info, x, hfault⟩ := issueFault_unspelt (s := { s with imem := m }) (k := some q) h.first hb
  have hwho : curCtx { s with imem := m } c = some q := h.who
  have hup : canIssue { s with imem := m } c = true := h.up
  have hheld : Machine.heldDue { s with imem := m } c (some q) = false := h.heldDue
  have hwin : windowOver { s with imem := m } c (some q) = false := h.win
  have hbrk : atBreak { s with imem := m } c (some q) = false := h.brk
  have hissue : issueI { s with imem := m } c {} (fun s _ _ => .ok s 1) = preciseFault { s with imem := m } c (some q)
      (scalarFault cILLEGAL (pcOf { s with imem := m } c (some q)) info x) (pcOf { s with imem := m } c (some q)) := by
    unfold issueI
    simp only [hcatch, hwho, hup, hheld, hwin, hbrk, hloupe, hfault, Bool.not_true, Bool.false_eq_true, if_false]
  rw [hissue]
  exact tookIllegal_preciseFault (s := { s with imem := m }) h.calm.slot hs hm info x

end

/-- The second part of the statement. -/
theorem illegalEncodings : Clause.IllegalEncodings := by
  intro s c q rd ra rb cond sb imm h hs hm l traps
  have odd (hr : rd.val % 2 = 1) : ((8 == 8) && rd.val % 2 == 1) = true := by simp [hr]
  have nonzero {r : Reg5} (hr : r.val ≠ 0) : (r.val != 0) = true := by simpa using hr
  refine ⟨h.illegal hs hm rfl rfl rfl, h.illegal hs hm rfl rfl rfl, h.illegal hs hm rfl rfl rfl, h.illegal hs hm rfl rfl rfl,
    h.illegal hs hm rfl rfl rfl, h.illegal hs hm rfl rfl rfl, h.illegal hs hm rfl rfl rfl, h.illegal hs hm rfl rfl rfl,
    h.illegal hs hm rfl rfl rfl, h.illegal hs hm rfl rfl rfl, h.illegal hs hm rfl rfl rfl, h.illegal hs hm rfl rfl rfl,
    h.illegal hs hm rfl rfl rfl, h.illegal hs hm rfl rfl rfl, h.illegal hs hm rfl rfl rfl, h.illegal hs hm rfl rfl rfl,
    fun hr => ⟨h.illegal hs hm rfl rfl (odd hr), h.illegal hs hm rfl rfl (odd hr), h.illegal hs hm rfl rfl (odd hr),
      h.illegal hs hm rfl rfl (odd hr)⟩,
    fun hr => ⟨h.illegal hs hm rfl rfl (nonzero hr), h.illegal hs hm rfl rfl (nonzero hr)⟩,
    fun hr => h.illegal hs hm rfl rfl ?_, fun m hb hf => ?_⟩
  · rcases hr with hr | hr
    · exact Bool.or_eq_true_iff.mpr (.inl (nonzero hr))
    · exact Bool.or_eq_true_iff.mpr (.inr (nonzero hr))
  · obtain ⟨t, ht, hentered, hregs, -, -⟩ := h.unspelt hs hm m hb hf
    exact ⟨t, ht, hentered, hregs⟩

-- Data addresses (R141, R142) ----------------------------------------------------------------------------------------------

section
variable {s : State} {c : Nat} {k : Option Nat} {a n : Nat}

theorem dataSpace_misaligned (ha : a < 0x80000000) (hn : a % n ≠ 0) : dataSpace s c k a n = .error cALIGN := by
  unfold dataSpace
  rw [if_neg (by simp [ha]), if_pos (by simpa using hn)]

/-- A context's slice ends at 0x3F00, and between the Plate space and the DRAM window lies nothing. -/
theorem dataSpace_unmapped {q : Nat} (hn : a % n = 0)
    (ha : 0x3F00 ≤ a ∧ a < 0x01000000 ∨ 0x02000000 ≤ a ∧ a < 0x80000000) :
    dataSpace s c (some q) a n = .error cDUNMAP := by
  have hlow : a < 0x80000000 := by omega
  have hplate : ¬(0x01000000 ≤ a ∧ a < 0x02000000) := by omega
  unfold dataSpace
  rw [if_neg (by simp [hlow]), if_neg (by simp [hn]), if_neg (by omega), if_neg (by simpa using hplate)]
  exact if_neg (by omega)

theorem dataSpace_dramdl {q : Nat} (ha : 0x80000000 ≤ a) (hd : (s.ctx c q).dl = true) :
    dataSpace s c (some q) a n = .error cDRAMDL := by
  unfold dataSpace
  exact if_pos (by simp [ha, dlSet, hd])

/-- A data fault that no lost domain causes is precise. -/
theorem lostFault_mapped {e : Nat} (h : e = cDUNMAP → a < 0x80000000) (f : FaultRec) :
    lostFault (e == cDUNMAP && dramLost s c k a) c f = .flt f := by
  refine if_neg ?_
  simp only [Bool.and_eq_true, beq_iff_eq, dramLost, decide_eq_true_eq]
  rintro ⟨he, ⟨-, ha⟩, -⟩
  exact absurd (h he) (by omega)

end

section
variable {s : State} {c : Nat} {k : Option Nat} {rd ra e n : Nat} {imm : BitVec 16}

/-- The address of a load or store as its act computes it. -/
theorem dataAddr_begun : (((begun s c k 4).thr c k).r.get ra + imm.signExtend 32).toNat = dataAddr s c k ra imm := by
  have hg : ((begun s c k 4).thr c k).r.get ra = gpr s c k ra := begun_gpr s c k 4 ra
  rw [hg, dataAddr]

variable (h : Ready s c k 4) (hpair : (n == 8 && rd % 2 == 1) = false)
  (hd : dataSpace (begun s c k 4) c k (dataAddr s c k ra imm) n = .error e)
  (hlow : e = cDUNMAP → dataAddr s c k ra imm < 0x80000000)
include h hpair hd hlow

theorem load_faults (signed : Bool) : load s c rd ra imm n signed =
    preciseFault s c k (dataFault (begun s c k 4) c e (pcOf s c k) (dataAddr s c k ra imm)) (pcOf s c k) := by
  unfold load
  dsimp only
  rw [issueI_ready (k := k) (u := { reads := [ra], writes := _, ill := n == 8 && rd % 2 == 1 }) _ h (fun x => by simp at x) hpair
    (fun x => by simp at x) (fun x => by simp at x)]
  dsimp only
  rw [dataAddr_begun, hd]
  dsimp only
  rw [lostFault_mapped hlow]
  rfl

theorem store_faults : store s c rd ra imm n =
    preciseFault s c k (dataFault (begun s c k 4) c e (pcOf s c k) (dataAddr s c k ra imm)) (pcOf s c k) := by
  unfold store
  dsimp only
  rw [issueI_ready (k := k) (u := { reads := _, ill := n == 8 && rd % 2 == 1 }) _ h (fun x => by simp at x) hpair
    (fun x => by simp at x) (fun x => by simp at x)]
  dsimp only
  rw [dataAddr_begun, hd]
  dsimp only
  rw [lostFault_mapped hlow]
  rfl

end

section
variable {s : State} {c : Core} {q a code : Nat}

/-- A data fault of context q has been taken, and nothing was read or written. -/
def TookDataFault (s : State) (c q a code : Nat) (t : State) : Prop :=
  let l := max 4 (mlOf s c (some q) + 1)
  Entered s t c (some q) l code (pcOf s c (some q)) ∧ (tget Bank.init (t.core c).banks l).info = w32 a ∧
    (∀ n, gpr t c (some q) n = gpr s c (some q) n) ∧ t.plate = s.plate ∧ t.tray = s.tray ∧ t.dram = s.dram

theorem Ready.dataFault {i : Instr} {u x : State} (h : Ready s c (some q) 4) (hs : secOf s c (some q) = none)
    (hm : mlOf s c (some q) < 7) (hcode : levelOf code = 4)
    (he : exec i s = runs s c i x)
    (hx : x = preciseFault s c (some q) (Machine.dataFault u c code (pcOf s c (some q)) a) (pcOf s c (some q))) :
    Runs s c i (TookDataFault s c q a code) := by
  subst hx
  have hlt : code < cTRAP := by
    unfold levelOf at hcode
    unfold cTRAP
    split_ifs at hcode
    all_goals omega
  have hlevel : (Machine.dataFault u c code (pcOf s c (some q)) a).level = 4 := hcode
  have ht := preciseFault_trapped c.isLt h.calm.slot hs (f := Machine.dataFault u c code (pcOf s c (some q)) a) hlt
    (by rw [hlevel]; omega) (pcOf s c (some q))
  rw [hlevel] at ht
  exact runs_of_exec he ⟨ht.entered, ht.info, ht.regs, ht.plate, ht.tray, ht.dram⟩

end

/-- The first part of the statement. -/
theorem dataFaults : Clause.DataFaults := by
  intro s c q rd ra imm h hs hm k a l faults all
  have hdl : ((begun s c k 4).ctx c q).dl = (s.ctx c q).dl := (ownSet_begun s c k 4).ctx_field (·.dl) fun _ _ _ => rfl
  have hall (n code : Nat) (hcode : levelOf code = 4) (hd : dataSpace (begun s c k 4) c k a n = .error code)
      (hlow : code = cDUNMAP → a < 0x80000000) : all n code := by
    have loads {i : Instr} {signed : Bool} (hp : (n == 8 && rd.val % 2 == 1) = false)
        (he : exec i s = runs s c i (load s c rd ra imm n signed)) : faults i code :=
      h.dataFault hs hm hcode he (load_faults h hp hd hlow signed)
    have stores {i : Instr} (hp : (n == 8 && rd.val % 2 == 1) = false)
        (he : exec i s = runs s c i (store s c rd ra imm n)) : faults i code :=
      h.dataFault hs hm hcode he (store_faults h hp hd hlow)
    refine ⟨fun hn => ?_, fun hn => ?_, fun hn => ?_, fun hn hr => ?_⟩
    all_goals subst hn
    · exact ⟨loads rfl rfl, loads rfl rfl, stores rfl rfl⟩
    · exact ⟨loads rfl rfl, loads rfl rfl, stores rfl rfl⟩
    · exact ⟨loads rfl rfl, stores rfl rfl⟩
    · have hp : (8 == 8 && rd.val % 2 == 1) = false := by simp [hr]
      exact ⟨loads hp rfl, stores hp rfl⟩
  intro n
  refine ⟨fun ha hn => hall n _ rfl (dataSpace_misaligned ha hn) (fun e => absurd e (by decide)),
    fun hn ha => hall n _ rfl (dataSpace_unmapped hn ha) (fun _ => by omega),
    fun ha hd => hall n _ rfl (dataSpace_dramdl ha (hdl.trans hd)) (fun e => absurd e (by decide))⟩

/-- Settles O7: each such instruction of a context is found faulty before it acts or by its address alone, and a precise fault
outside a section enters supervisor mode at its level or above the level that runs. That alignment is judged before the map, and
that a word which spells no instruction issues as any command, are the model's (log entries 73 and 8). -/
theorem scalarFaults : Obligations.ScalarFaults := ⟨dataFaults, illegalEncodings⟩

end Sys2Proof.Machine
end

section
/-! PROOFS. Instructions that compute (R137, R138, R147, R148, R164, R165): what the shared shapes of the ALU leave of a ready core,
the results and flags as operations on bit vectors, and the statements about them. -/

namespace Sys2Proof.Machine
open Sys2Proof

-- The shapes of the ALU ----------------------------------------------------------------------------------------------------

/-- Issuer k may issue an instruction of 4 bytes of this use where it stands (R113, R149, R154). -/
structure Allowed (s : State) (c : Nat) (k : Option Nat) (u : Use) : Prop where
  size : u.size = 4
  ill  : u.ill = false
  sup  : u.supOnly = true → k = none
  ten  : u.tenOnly = true → k ≠ none
  ends : u.ends = true → NotAtEnd s c k 4

section
variable {s : State} {c : Core} {k : Option Nat} {i : Instr}

/-- Both modes have the instruction, and it may end a loop's body. -/
theorem allowed_anywhere {u : Use} (hs : u.size = 4) (hi : u.ill = false) (hp : u.supOnly = false) (ht : u.tenOnly = false)
    (he : u.ends = false) : Allowed s c k u :=
  ⟨hs, hi, fun e => absurd (hp.symm.trans e) Bool.false_ne_true, fun e => absurd (ht.symm.trans e) Bool.false_ne_true,
    fun e => absurd (he.symm.trans e) Bool.false_ne_true⟩

/-- What an instruction of a ready core leaves, by the outcome of its act. -/
theorem Ready.runs_act (h : Ready s c k 4) {u : Use} (hu : Allowed s c k u) {act : State → Option Nat → Nat → Out} {o : Out}
    {P : State → Prop} (he : exec i s = runs s c i (issueI s c u act)) (hx : act (begun s c k 4) k (pcOf s c k) = o)
    (hP : P (settle (concluded s c k u act o))) : Runs s c i P := by
  refine runs_of_exec he ?_
  rw [issueI_ready _ (hu.size.symm ▸ h) hu.sup hu.ill hu.ten (fun e => hu.size.symm ▸ hu.ends e), hu.size, hx]
  exact hP

/-- What an instruction of a ready core leaves whose act completes in n cycles. -/
theorem Ready.runs_ok (h : Ready s c k 4) {u : Use} (hu : Allowed s c k u) {act : State → Option Nat → Nat → Out} {x : State}
    {n : Nat} {P : State → Prop} (he : exec i s = runs s c i (issueI s c u act))
    (hx : act (begun s c k 4) k (pcOf s c k) = .ok x n)
    (hP : P (settle (x.modCore c fun y => { y with cyc := issueCyc s c + n }))) : Runs s c i P :=
  h.runs_act hu he hx hP

/-- A register set that reads as that of issuer k, flags included. -/
structure Reads (s : State) (c : Nat) (k : Option Nat) (r : RSet) : Prop where
  get   : ∀ n, r.get n = gpr s c k n
  flags : r.flags = nzcv s c k

theorem reads_begun (n : Nat) : Reads s c k ((begun s c k n).thr c k).r := ⟨begun_gpr s c k n, begun_nzcv s c k n⟩

theorem Reads.carry {r : RSet} (h : Reads s c k r) : r.c = (nzcv s c k).c := congrArg Nzcv.c h.flags

variable {rd : Nat} {rs : List Nat} {x : Word} {fl : Nzcv}

/-- A function with flags writes its result, and its flags where S = 1 (R148). -/
theorem Ready.alu (h : Ready s c k 4) {sb cin : Bool} {f : RSet → Word × Nzcv}
    (he : exec i s = runs s c i (Machine.alu s c rd rs sb cin f)) (hf : ∀ r, Reads s c k r → f r = (x, fl)) :
    Runs s c i (fun t => Computes s t c k rd x (if sb then fl else nzcv s c k) 1) := by
  have hw := computes_wrote h rd x (if sb then fl else nzcv s c k) sb 1 fun e => by rw [e, if_neg Bool.false_ne_true]
  refine h.runs_ok (x := wrote s c k rd x sb fl) (n := 1) (allowed_anywhere rfl rfl rfl rfl rfl) he ?_ ?_
  · simp only [hf _ (reads_begun 4), wrote]
  · cases sb <;> exact hw

/-- A function without flags writes its result (R147, R148). -/
theorem Ready.result (h : Ready s c k 4) {u : Use} (hu : Allowed s c k u) {f : RSet → Word}
    (he : exec i s = runs s c i (issueReg s c u rd f)) (hf : ∀ r, Reads s c k r → f r = x) :
    Runs s c i (fun t => Computes s t c k rd x (nzcv s c k) 1) :=
  h.runs_ok (x := wrote s c k rd x false (nzcv s c k)) hu he (by rw [hf _ (reads_begun 4)]; rfl)
    (computes_wrote h rd x (nzcv s c k) false 1 fun _ => rfl)

/-- Flags alone: a compare writes no register (R148). -/
theorem Ready.flags (h : Ready s c k 4) {f : RSet → Nzcv} (he : exec i s = runs s c i (aluFlags s c 0 rs f))
    (hf : ∀ r, Reads s c k r → f r = fl) : Runs s c i (fun t => Computes s t c k 0 0 fl 1) :=
  h.runs_ok (x := wrote s c k 0 0 true fl) (allowed_anywhere rfl rfl rfl rfl rfl) he (by rw [hf _ (reads_begun 4)]; rfl)
    (computes_wrote h 0 0 fl true 1 fun e => absurd e.symm Bool.false_ne_true)

end

-- Sums and differences (R138, R164) ----------------------------------------------------------------------------------------

theorem addNzcv_eq (a b : Word) (cin : Bool) : addNzcv a b cin =
    (a + b + BitVec.ofNat 32 (b2n cin), nzFlags (a + b + BitVec.ofNat 32 (b2n cin))
      (decide (2 ^ 32 ≤ a.toNat + b.toNat + b2n cin)) (overflows (a.toInt + b.toInt + b2n cin))) := by
  have hsum : w32 (a.toNat + b.toNat + b2n cin) = a + b + BitVec.ofNat 32 (b2n cin) := by
    apply BitVec.eq_of_toNat_eq
    simp [w32]
  simp only [addNzcv, hsum, nzFlags, overflows]

/-- Subtraction adds the complement, and its carry is the absence of a borrow. -/
theorem subNzcv_eq (a b : Word) (nb : Bool) : subNzcv a b nb =
    (a - b - BitVec.ofNat 32 (b2n !nb), nzFlags (a - b - BitVec.ofNat 32 (b2n !nb))
      (decide (b.toNat + b2n (!nb) ≤ a.toNat)) (overflows (a.toInt - b.toInt - b2n !nb))) := by
  have hb : (~~~b).toNat = 2 ^ 32 - 1 - b.toNat := BitVec.toNat_not
  have hlt := b.isLt
  have hi : (~~~b).toInt = -b.toInt - 1 := by
    rw [BitVec.toInt_eq_toNat_cond, BitVec.toInt_eq_toNat_cond, hb]
    split_ifs
    all_goals omega
  have hn : b2n nb + b2n (!nb) = 1 := by cases nb <;> rfl
  have hdiff : a + ~~~b + BitVec.ofNat 32 (b2n nb) = a - b - BitVec.ofNat 32 (b2n !nb) := by
    cases nb
    all_goals
      simp only [b2n, Bool.not_false, Bool.not_true, Bool.false_eq_true, if_true, if_false]
      bv_omega
  have hc : (2 ^ 32 ≤ a.toNat + (~~~b).toNat + b2n nb) = (b.toNat + b2n (!nb) ≤ a.toNat) := by
    rw [hb]
    exact propext ⟨fun _ => by omega, fun _ => by omega⟩
  have hv : a.toInt + (~~~b).toInt + b2n nb = a.toInt - b.toInt - b2n !nb := by
    rw [hi]
    omega
  rw [subNzcv, addNzcv_eq, hdiff, hv]
  simp only [hc]

theorem addNzcv_noCarry (a b : Word) : addNzcv a b false =
    (a + b, nzFlags (a + b) (decide (2 ^ 32 ≤ a.toNat + b.toNat)) (overflows (a.toInt + b.toInt))) := by
  simp [addNzcv_eq, b2n]

theorem subNzcv_noBorrow (a b : Word) : subNzcv a b true =
    (a - b, nzFlags (a - b) (decide (b.toNat ≤ a.toNat)) (overflows (a.toInt - b.toInt))) := by
  simp [subNzcv_eq, b2n]

/-- Settles O1: each is the sum or difference of `addNzcv_eq` and `subNzcv_eq`, written as `Ready.alu` says. -/
theorem addAndSubtract : Obligations.AddAndSubtract := by
  unfold Obligations.AddAndSubtract
  intro s c k rd ra rb sb imm h
  refine ⟨?_, ?_, ?_, ?_, ?_⟩
  · exact h.alu rfl fun r hr => by rw [addNzcv_noCarry, hr.get, hr.get]
  · exact h.alu rfl fun r hr => by rw [subNzcv_noBorrow, hr.get, hr.get]
  · exact h.alu rfl fun r hr => by rw [addNzcv_eq, hr.get, hr.get, hr.carry]; rfl
  · exact h.alu rfl fun r hr => by rw [subNzcv_eq, hr.get, hr.get, hr.carry]; cases (nzcv s c k).c <;> rfl
  · exact h.alu (sb := true) rfl fun r hr => by rw [addNzcv_noCarry, hr.get]; rfl

-- Logic, products and shifts (R148, R165) ----------------------------------------------------------------------------------

theorem nzOf_eq (f : Nzcv) (x : Word) : nzOf f x = nzFlags x f.c f.v := rfl

theorem Ready.logic {s : State} {c : Core} {k : Option Nat} (h : Ready s c k 4) {i : Instr} {rd ra rb : Nat} {sb : Bool}
    {f : Word → Word → Word} (he : exec i s = runs s c i (aluLogic s c rd ra rb sb f)) :
    Runs s c i (fun t => let x := f (gpr s c k ra) (gpr s c k rb)
      Computes s t c k rd x (if sb then nzFlags x (nzcv s c k).c (nzcv s c k).v else nzcv s c k) 1) :=
  h.alu he fun r hr => by simp only [hr.get, hr.flags, nzOf_eq]

theorem shiftNzcv_eq (f : Nzcv) (x : Word) (o : Option Bool) : shiftNzcv f (x, o) = nzFlags x (o.getD f.c) f.v := rfl

/-- A shift is an operation on bit vectors whose carry is the last bit shifted out, unless the amount is 0. -/
def ShiftIs (kind : Shift) (a : Word) (n : Nat) (x : Word) (last : Bool) : Prop :=
  shiftRes kind a n = (x, if n = 0 then none else some last)

/-- The two's complement encoding of an integer is the bit vector of that integer. -/
theorem ofNat_uenc (w : Nat) (x : Int) : BitVec.ofNat w (uenc w x) = BitVec.ofInt w x := by
  have hlt : uenc w x < 2 ^ w := by
    have hpos : (0 : Int) < 2 ^ w := by positivity
    have := Int.emod_lt_of_pos x hpos
    have := Int.emod_nonneg x hpos.ne'
    unfold uenc
    zify
    omega
  apply BitVec.eq_of_toNat_eq
  rw [BitVec.toNat_ofInt, BitVec.toNat_ofNat, Nat.mod_eq_of_lt hlt]
  norm_cast

theorem shl_shiftIs (a : Word) (n : Nat) : ShiftIs .shl a n (a <<< n) (decide (n ≤ 32) && a.getLsbD (32 - n)) := by
  unfold ShiftIs shiftRes
  by_cases h0 : n = 0
  · simp [h0]
  simp only [h0, if_false, bit, BitVec.getLsbD]
  congr 1
  apply BitVec.eq_of_toNat_eq
  rw [BitVec.toNat_shiftLeft, Nat.shiftLeft_eq, w32, BitVec.toNat_ofNat]
  split
  · rfl
  · next hn =>
    have hdvd : 2 ^ 32 ∣ 2 ^ n := Nat.pow_dvd_pow 2 (Nat.le_of_not_lt hn)
    rw [Nat.mod_eq_zero_of_dvd (hdvd.mul_left _)]

theorem shrl_shiftIs (a : Word) (n : Nat) : ShiftIs .shrl a n (a >>> n) ((a >>> (n - 1)).getLsbD 0) := by
  unfold ShiftIs shiftRes
  by_cases h0 : n = 0
  · simp [h0]
  simp only [h0, if_false, bit, BitVec.getLsbD]
  congr 1
  apply BitVec.eq_of_toNat_eq
  rw [BitVec.toNat_ushiftRight, Nat.shiftRight_eq_div_pow, w32, BitVec.toNat_ofNat, Nat.mod_eq_of_lt]
  exact lt_of_le_of_lt (Nat.div_le_self _ _) a.isLt

theorem shra_shiftIs (a : Word) (n : Nat) : ShiftIs .shra a n (a.sshiftRight n) ((a.sshiftRight (n - 1)).getLsbD 0) := by
  unfold ShiftIs shiftRes
  by_cases h0 : n = 0
  · simp [h0]
  have hres : w32 (uenc 32 (a.toInt / 2 ^ min n 32)) = a.sshiftRight n := by
    have hlo := BitVec.le_toInt a
    have hhi := BitVec.toInt_lt (x := a)
    rw [w32, ofNat_uenc, ediv_two_pow_min (by omega) (by omega), BitVec.sshiftRight, Int.shiftRight_eq_div_pow]
    norm_cast
  have hlast : a.toNat.testBit (min (n - 1) 31) = (a.sshiftRight (n - 1)).getLsbD 0 := by
    rw [BitVec.getLsbD_sshiftRight, Nat.add_zero]
    split
    · next hn =>
      rw [Nat.min_eq_left (by omega)]
      rfl
    · next hn =>
      rw [Nat.min_eq_right (by omega), BitVec.msb_eq_getLsbD_last]
      rfl
  simp only [h0, if_false, bit, hres, hlast]

/-- Two fields of a word side by side: the low part of x above the q that fits below it. -/
theorem rotated_fields {n m q : Nat} (x : Nat) (hq : q < 2 ^ m) :
    (q + x * 2 ^ m) % (2 ^ n * 2 ^ m) = x % 2 ^ n * 2 ^ m ||| q := by
  have hor : x % 2 ^ n * 2 ^ m ||| q = x % 2 ^ n * 2 ^ m + q := by
    rw [← Nat.shiftLeft_eq, Nat.shiftLeft_add_eq_or_of_lt hq]
  have hfit : q + x % 2 ^ n * 2 ^ m < 2 ^ n * 2 ^ m := by
    have hle := Nat.mul_le_mul_right (2 ^ m) (Nat.succ_le_of_lt (Nat.mod_lt x (Nat.two_pow_pos n)))
    rw [Nat.succ_mul] at hle
    omega
  calc (q + x * 2 ^ m) % (2 ^ n * 2 ^ m)
      = (q + x % 2 ^ n * 2 ^ m) % (2 ^ n * 2 ^ m) := by
        rw [Nat.add_mod, Nat.add_mod q, Nat.mul_mod_mul_right, Nat.mul_mod_mul_right, Nat.mod_mod]
    _ = x % 2 ^ n * 2 ^ m ||| q := by rw [Nat.mod_eq_of_lt hfit, hor, Nat.add_comm]

theorem ror_shiftIs (a : Word) {n : Nat} (hn : n < 32) : ShiftIs .ror a n (a.rotateRight n) ((a >>> (n - 1)).getLsbD 0) := by
  unfold ShiftIs shiftRes
  by_cases h0 : n = 0
  · subst h0
    simp [BitVec.rotateRight_def]
  simp only [h0, if_false, bit, BitVec.getLsbD]
  congr 1
  apply BitVec.eq_of_toNat_eq
  have hsplit : 2 ^ 32 = 2 ^ n * 2 ^ (32 - n) := by rw [← Nat.pow_add, Nat.add_sub_cancel' (Nat.le_of_lt hn)]
  have hlt : a.toNat / 2 ^ n < 2 ^ (32 - n) := Nat.div_lt_of_lt_mul (hsplit ▸ a.isLt)
  rw [BitVec.toNat_rotateRight, Nat.mod_eq_of_lt hn, w32, BitVec.toNat_ofNat, Nat.shiftRight_eq_div_pow, Nat.shiftLeft_eq, hsplit,
    Nat.mul_mod_mul_right, Nat.or_comm, rotated_fields _ hlt]

theorem Ready.shift {s : State} {c : Core} {k : Option Nat} (h : Ready s c k 4) {i : Instr} {rd ra : Nat} {rs : List Nat}
    {sb : Bool} {kind : Shift} {amt : RSet → Nat} {n : Nat} {x : Word} {last : Bool}
    (he : exec i s = runs s c i (aluShift s c rd ra rs sb kind amt)) (hn : ∀ r, Reads s c k r → amt r = n)
    (hx : ShiftIs kind (gpr s c k ra) n x last) :
    Runs s c i (fun t => Computes s t c k rd x
      (if sb then nzFlags x (if n = 0 then (nzcv s c k).c else last) (nzcv s c k).v else nzcv s c k) 1) := by
  refine h.alu he fun r hr => ?_
  rw [ShiftIs] at hx
  simp only [hr.get, hr.flags, hn r hr, hx, shiftNzcv_eq]
  split <;> rfl

/-- Settles O2: logic and products are the operations themselves, and `shl_shiftIs` to `ror_shiftIs` say what each shift is. -/
theorem logicShiftMultiply : Obligations.LogicShiftMultiply := by
  unfold Obligations.LogicShiftMultiply
  intro s c k rd ra rb sb sh h a b f n r i logic shift lastLeft lastRight lastSigned
  have hmul : a * b = w32 (a.toNat * b.toNat) := by
    apply BitVec.eq_of_toNat_eq
    simp [w32]
  have byReg (kind : Shift) (hk : kind ≠ .ror) (r : RSet) (hr : Reads s c k r) : shiftAmt kind (r.get rb) = n := by
    rw [shiftAmt, if_neg hk, hr.get]
  refine ⟨h.logic rfl, h.logic rfl, h.logic rfl, h.logic (f := fun a b => a &&& ~~~b) rfl, ?_,
    h.shift rfl (byReg _ nofun) (shl_shiftIs a n), h.shift rfl (byReg _ nofun) (shrl_shiftIs a n),
    h.shift rfl (byReg _ nofun) (shra_shiftIs a n), h.shift rfl (fun r hr => ?_) (ror_shiftIs a (Nat.mod_lt _ (by decide))),
    h.shift rfl (fun _ _ => rfl) (shl_shiftIs a i), h.shift rfl (fun _ _ => rfl) (shrl_shiftIs a i),
    h.shift rfl (fun _ _ => rfl) (shra_shiftIs a i), h.shift rfl (fun _ _ => rfl) (ror_shiftIs a sh.isLt)⟩
  · rw [hmul]
    exact h.logic (f := fun a b => w32 (a.toNat * b.toNat)) rfl
  · rw [hr.get]
    rfl

-- Results without flags (R137, R147, R148) ---------------------------------------------------------------------------------

/-- A function without flags writes its result where S = 0 (R148). -/
theorem Ready.plain {s : State} {c : Core} {k : Option Nat} (h : Ready s c k 4) {i : Instr} {rd : Nat} {rs : List Nat}
    {f : RSet → Word} {x : Word} (he : exec i s = runs s c i (aluPlain s c rd rs false f)) (hf : ∀ r, Reads s c k r → f r = x) :
    Runs s c i (fun t => Computes s t c k rd x (nzcv s c k) 1) :=
  h.result (allowed_anywhere rfl rfl rfl rfl rfl) he hf

theorem mulRes_signed (a b : Word) : BitVec.ofNat 64 (mulRes true a b) = a.signExtend 64 * b.signExtend 64 := by
  rw [mulRes, if_pos rfl, ofNat_uenc, BitVec.ofInt_mul]
  rfl

theorem mulRes_unsigned (a b : Word) : BitVec.ofNat 64 (mulRes false a b) = a.zeroExtend 64 * b.zeroExtend 64 := by
  rw [mulRes, if_neg Bool.false_ne_true, BitVec.ofNat_mul, BitVec.ofNat_toNat, BitVec.ofNat_toNat]

theorem mulRes_lt (signed : Bool) (a b : Word) : mulRes signed a b < 2 ^ 64 := by
  cases signed
  · exact lt_of_lt_of_le (Nat.mul_lt_mul'' a.isLt b.isLt) (by norm_num)
  · show uenc 64 _ < 2 ^ 64
    unfold uenc
    omega

/-- The low and the high word of a number of 64 bits. -/
theorem low_word (n : Nat) : w32 n = (BitVec.ofNat 64 n).truncate 32 := by
  apply BitVec.eq_of_toNat_eq
  simp [w32]

theorem high_word {n : Nat} (h : n < 2 ^ 64) : w32 (n / 2 ^ 32) = (BitVec.ofNat 64 n >>> 32).truncate 32 := by
  apply BitVec.eq_of_toNat_eq
  rw [w32, BitVec.truncate, BitVec.toNat_setWidth, BitVec.toNat_ushiftRight, BitVec.toNat_ofNat, BitVec.toNat_ofNat,
    Nat.mod_eq_of_lt h, Nat.shiftRight_eq_div_pow]

theorem clzOf_eq (x : Word) : w32 (clzOf x) = x.clz := by
  unfold clzOf
  split
  · next h =>
    subst h
    rfl
  · next h =>
    have hlt : x.clz.toNat < 32 := BitVec.clz_lt_iff_ne_zero.mpr h
    have hlog : Nat.log2 x.toNat = 31 - x.clz.toNat := by
      rw [Nat.log2_eq_iff fun e => h (BitVec.eq_of_toNat_eq e)]
      refine ⟨BitVec.two_pow_sub_clz_le_toNat_of_ne_zero (by decide) h, ?_⟩
      rw [show 31 - x.clz.toNat + 1 = 32 - x.clz.toNat by omega]
      exact BitVec.toNat_lt_two_pow_sub_clz
    rw [hlog, Nat.sub_sub_self (by omega), w32, BitVec.ofNat_toNat, BitVec.setWidth_eq]

theorem sval_eq_toInt (n v : Nat) : sval n v = (BitVec.ofNat n v).toInt := by
  simp only [sval, BitVec.toInt_eq_toNat_cond, BitVec.toNat_ofNat]
  cases n with
  | zero => simp [Nat.mod_one]
  | succ n =>
    have hsign : v % 2 ^ (n + 1) < 2 ^ n ↔ 2 * (v % 2 ^ (n + 1)) < 2 ^ (n + 1) := by omega
    simp only [Nat.add_sub_cancel, hsign, Nat.cast_pow, Nat.cast_ofNat]

theorem sextW_eq (n v : Nat) : sextW n v = (BitVec.ofNat n v).signExtend 32 := by
  rw [sextW, w32, ofNat_uenc, sval_eq_toInt]
  rfl

/-- Which of two equal values a minimum or maximum takes makes no difference. -/
theorem ite_le_eq_ite_lt {α : Type} [LinearOrder α] {x y : α} {a b : Word} (h : x = y → a = b) :
    (if x ≤ y then a else b) = if x < y then a else b := by
  by_cases he : x = y
  · rw [h he, ite_self, ite_self]
  · simp only [lt_iff_le_and_ne, he, ne_eq, not_false_eq_true, and_true]

/-- An even/odd pair is written (R137). -/
def pairPut (s : State) (c : Nat) (k : Option Nat) (rd : Nat) (lo hi : Word) : State := putRegs s c k [(rd, lo), (rd + 1, hi)]

theorem thr_pairPut (s : State) (c : Nat) (k : Option Nat) (rd : Nat) (lo hi : Word) :
    (pairPut s c k rd lo hi).thr c k = { s.thr c k with r := ((s.thr c k).r.put rd lo).put (rd + 1) hi } := by
  simp only [pairPut, putRegs, List.foldl_cons, List.foldl_nil, thr_putReg]

/-- Writing a register moves neither the PC nor the loops. -/
theorem put_frame (r : RSet) (n : Nat) (v : Word) : { r.put n v with s := r.s } = r := by
  unfold RSet.put
  split <;> rfl

theorem put_field {α : Type} (g : RSet → α) (hg : ∀ r x, g { r with s := x } = g r) (r : RSet) (n : Nat) (v : Word) :
    g (r.put n v) = g r := by
  rw [← hg (r.put n v) r.s, put_frame]

/-- A product's pair of registers (R137). -/
theorem Ready.pair {s : State} {c : Core} {k : Option Nat} (h : Ready s c k 4) {i : Instr} {rd ra rb : Nat} {signed : Bool}
    (he : exec i s = runs s c i (aluMull s c rd ra rb false signed)) (hrd : rd % 2 = 0) {p : BitVec 64}
    (hp : BitVec.ofNat 64 (mulRes signed (gpr s c k ra) (gpr s c k rb)) = p) : Runs s c i (fun t =>
      (∀ n, n ≠ rd → n ≠ rd + 1 → gpr t c k n = gpr s c k n) ∧
      (rd ≠ 0 → gpr t c k rd = p.truncate 32) ∧ gpr t c k (rd + 1) = (p >>> 32).truncate 32 ∧
      nzcv t c k = nzcv s c k ∧ Advanced s t c k 4 ∧ Took s t c 2 ∧ ScalarFrame s t c k) := by
  have hg := (reads_begun (s := s) (c := c) (k := k) 4).get
  refine h.runs_ok (n := 2) (x := pairPut (begun s c k 4) c k rd (p.truncate 32) ((p >>> 32).truncate 32))
    (allowed_anywhere rfl (by simp [hrd]) rfl rfl rfl) he ?_ ?_
  · rw [← hp, ← low_word, ← high_word (mulRes_lt _ _ _)]
    simp only [hg]
    rfl
  have hthr := thr_pairPut (begun s c k 4) c k rd (p.truncate 32) ((p >>> 32).truncate 32)
  refine ⟨fun n h0 h1 => ?_, fun h0 => ?_, ?_, ?_, ?_, took_concluded s _ c 2, ?_⟩
  · rw [gpr, thr_concluded, hthr, get_put, get_put, if_neg (fun e => h1 e.1), if_neg (fun e => h0 e.1), hg]
  · rw [gpr, thr_concluded, hthr, get_put, get_put, if_neg (by omega), if_pos ⟨rfl, h0⟩]
  · rw [gpr, thr_concluded, hthr, get_put, if_pos ⟨rfl, by omega⟩]
  · rw [nzcv, thr_concluded, hthr, flags_put, flags_put, ← nzcv, begun_nzcv]
  · simp only [Advanced, thr_concluded, hthr, begun_thr, put_field (·.pc) (fun _ _ => rfl), put_field (·.l0) (fun _ _ => rfl),
      put_field (·.l1) (fun _ _ => rfl), put_field (·.l2) (fun _ _ => rfl), and_self]
  · refine scalarFrame_concluded ((ownSet_begun s c k 4).trans (ownSet_putRegs _ c k _)) ?_
    rw [hthr, begun_thr, ← h.calm.slot]

/-- The first part of the statement. -/
theorem plainResults : Clause.PlainResults := by
  intro s c k rd ra rb cond imm h a b f result pair
  refine ⟨?_, ?_, fun hrd => h.pair rfl hrd (mulRes_signed a b), fun hrd => h.pair rfl hrd (mulRes_unsigned a b),
    ?_, ?_, ?_, ?_, ?_, ?_, ?_, ?_, ?_, ?_, ?_, ?_, ?_⟩
  · exact h.plain rfl fun r hr => by rw [hr.get, hr.get, high_word (mulRes_lt _ _ _), mulRes_signed]
  · exact h.plain rfl fun r hr => by rw [hr.get, hr.get, high_word (mulRes_lt _ _ _), mulRes_unsigned]
  · exact h.plain rfl fun r hr => by simp only [hr.get]; exact ite_le_eq_ite_lt BitVec.eq_of_toInt_eq
  · exact h.plain rfl fun r hr => by simp only [hr.get]; exact ite_le_eq_ite_lt fun e => (BitVec.eq_of_toInt_eq e).symm
  · exact h.plain rfl fun r hr => by simp only [hr.get]; exact ite_le_eq_ite_lt BitVec.eq_of_toNat_eq
  · exact h.plain rfl fun r hr => by simp only [hr.get]; exact ite_le_eq_ite_lt fun e => (BitVec.eq_of_toNat_eq e).symm
  · exact h.plain rfl fun r hr => by rw [hr.get, clzOf_eq]
  · exact h.result (allowed_anywhere rfl rfl rfl rfl rfl) rfl fun r hr => by rw [hr.flags, hr.get, hr.get]
  · exact h.plain rfl fun r hr => by rw [hr.get, sextW_eq, BitVec.ofNat_toNat]
  · exact h.plain rfl fun r hr => by rw [hr.get, sextW_eq, BitVec.ofNat_toNat]
  · exact h.result (allowed_anywhere rfl rfl rfl rfl rfl) rfl fun r hr => by rw [hr.get]; rfl
  · exact h.result (allowed_anywhere rfl rfl rfl rfl rfl) rfl fun r hr => by rw [hr.get]; rfl
  · exact h.result (allowed_anywhere rfl rfl rfl rfl rfl) rfl fun r hr => by rw [hr.get]; rfl
  · exact h.result (allowed_anywhere rfl rfl rfl rfl rfl) rfl fun r hr => by rw [hr.get]; rfl
  · exact h.result (allowed_anywhere rfl rfl rfl rfl rfl) rfl fun r hr => rfl

/-- The second part of the statement. -/
theorem compares : Clause.Compares := by
  intro s c k ra rb sb imm h a b m f flags
  refine ⟨?_, ?_, ?_⟩
  · exact h.flags rfl fun r hr => by rw [subNzcv_noBorrow, hr.get, hr.get]
  · exact h.flags rfl fun r hr => by rw [subNzcv_noBorrow, hr.get, simm]
  · exact h.flags rfl fun r hr => by rw [hr.get, hr.get, hr.flags, nzOf_eq]

/-- Settles O3: results without flags go through `Ready.result`, pairs through `Ready.pair`, compares through `Ready.flags`. -/
theorem resultsAndCompares : Obligations.ResultsAndCompares := ⟨plainResults, compares⟩

end Sys2Proof.Machine
end

section
/-! PROOFS. Branches, jumps and hardware loops (R147, R150, R152–R156): where the next instruction lies, which levels of loops a
jump leaves active, how a level is set up, and loop errors. -/

namespace Sys2Proof.Machine
open Sys2Proof

-- The end test (R152, R153) ------------------------------------------------------------------------------------------------

section
variable {s : State} {c : Nat} {k : Option Nat}

/-- No level ends here: the end test changes nothing. -/
theorem endTest_notAt {r : RSet} {a : Nat} {ls : List Nat} (h : ∀ l ∈ ls, ¬((r.loop l).act = true ∧ (r.loop l).le.toNat = a)) :
    endTest r a ls = (r, none) := by
  induction ls with
  | nil => rfl
  | cons l ls ih =>
    have hl : ¬((r.loop l).act && (r.loop l).le.toNat == a) = true := by
      simpa using h l List.mem_cons_self
    rw [endTest, if_neg hl]
    exact ih fun j hj => h j (List.mem_cons_of_mem l hj)

theorem nextPc_notAtEnd (h : NotAtEnd s c k 4) :
    nextPc (s.thr c k).r (pcOf s c k) 4 = { (s.thr c k).r with pc := (s.thr c k).r.pc + 4 } := by
  have he : endTest (s.thr c k).r (pcOf s c k + 4 - 4) [2, 1, 0] = ((s.thr c k).r, none) :=
    endTest_notAt fun l hl => h l (by simp at hl; omega)
  have hpc : w32 (pcOf s c k + 4) = (s.thr c k).r.pc + 4 := by
    apply BitVec.eq_of_toNat_eq
    simp [w32, pcOf]
  simp only [nextPc, he, Option.getD_none, hpc]

end

-- Jumps (R153) -------------------------------------------------------------------------------------------------------------

/-- A jump leaves registers and flags alone. -/
theorem freeLevels_frame (r : RSet) (tgt : Nat) :
    { freeLevels r tgt with l0 := r.l0, l1 := r.l1, l2 := r.l2 } = r := by
  simp only [freeLevels]
  split_ifs <;> rfl

/-- A jump to the target leaves the body of an active level (R153). -/
def Loop.left (x : Loop) (tgt : Nat) : Bool := x.act && !(x.lb.toNat ≤ tgt && tgt ≤ x.le.toNat)

theorem Loop.left_eq_false {x : Loop} {tgt : Nat} :
    x.left tgt = false ↔ (x.act = true → x.lb.toNat ≤ tgt ∧ tgt ≤ x.le.toNat) := by
  cases h : x.act <;> simp [Loop.left, h]

/-- A jump writes no level but its activity. -/
theorem freeLevels_loop (r : RSet) (tgt l : Nat) : { (freeLevels r tgt).loop l with act := (r.loop l).act } = r.loop l := by
  simp only [freeLevels]
  split_ifs
  all_goals
    unfold RSet.loop
    split <;> rfl

/-- A jump that leaves a level frees it and every level inside it. -/
theorem freeLevels_eq (r : RSet) (tgt : Nat) : freeLevels r tgt =
    let a0 := r.l0.act && !r.l0.left tgt
    let a1 := r.l1.act && !r.l0.left tgt && !r.l1.left tgt
    let a2 := r.l2.act && !r.l0.left tgt && !r.l1.left tgt && !r.l2.left tgt
    { r with l0 := { r.l0 with act := a0 }, l1 := { r.l1 with act := a1 }, l2 := { r.l2 with act := a2 } } := by
  change (if r.l0.left tgt = true then _ else if r.l1.left tgt = true then _ else if r.l2.left tgt = true then _ else _) = _
  cases r.l0.left tgt <;> cases r.l1.left tgt <;> cases r.l2.left tgt <;> simp

/-- A level stays active while the target lies in its body and in those of the levels around it. -/
theorem freeLevels_act (r : RSet) (tgt : Nat) {l : Nat} (hl : l < 3) : ((freeLevels r tgt).loop l).act = true ↔
    (r.loop l).act = true ∧ ∀ j ≤ l, (r.loop j).act = true → (r.loop j).lb.toNat ≤ tgt ∧ tgt ≤ (r.loop j).le.toNat := by
  simp only [← Loop.left_eq_false, freeLevels_eq]
  obtain rfl | rfl | rfl : l = 0 ∨ l = 1 ∨ l = 2 := by omega
  · simp [RSet.loop]
  · simp [RSet.loop, Nat.le_succ_iff, and_assoc]
  · simp [RSet.loop, Nat.le_succ_iff, or_imp, forall_and, and_assoc]

/-- From r to r', a jump to the target frees the levels that it leaves and writes no loop register (R153). -/
def LevelsLeft (r r' : RSet) (tgt : Word) : Prop := ∀ l < 3, { r'.loop l with act := (r.loop l).act } = r.loop l ∧
  ((r'.loop l).act = true ↔ (r.loop l).act = true ∧ ∀ j ≤ l, (r.loop j).act = true →
    (r.loop j).lb.toNat ≤ tgt.toNat ∧ tgt.toNat ≤ (r.loop j).le.toNat)

/-- The register set behind a jump. -/
def jumped (r : RSet) (tgt : Nat) : RSet := { freeLevels r (tgt % 2 ^ 32) with pc := w32 tgt }

theorem levelsLeft_jumped (r : RSet) (tgt : Nat) : LevelsLeft r (jumped r tgt) (w32 tgt) := fun l hl => by
  have hloop : (jumped r tgt).loop l = (freeLevels r (tgt % 2 ^ 32)).loop l := by
    unfold RSet.loop
    split <;> rfl
  have htgt : (w32 tgt).toNat = tgt % 2 ^ 32 := BitVec.toNat_ofNat ..
  rw [hloop, htgt]
  exact ⟨freeLevels_loop r _ l, freeLevels_act r _ hl⟩

theorem jumped_field {α : Type} (g : RSet → α) (hg : ∀ r pc x y z, g { r with pc := pc, l0 := x, l1 := y, l2 := z } = g r)
    (r : RSet) (tgt : Nat) : g (jumped r tgt) = g r := by
  rw [jumped, freeLevels_eq]
  exact hg r _ _ _ _

theorem thr_jumpTo (x : State) (c : Nat) (k : Option Nat) (tgt : Nat) :
    (jumpTo x c k tgt).thr c k = { x.thr c k with r := jumped (x.thr c k).r tgt } := by
  cases k with
  | none => simp [jumpTo, State.thr, State.modThr, State.setThr, State.modCore, State.core, State.setCore, jumped]
  | some q => exact thr_modThr_self x c (some q) fun t => { t with r := jumped t.r tgt }

/-- A relative target is the PC and the signed offset in words (R146). -/
theorem relTarget_eq (pc : Word) {n : Nat} (off : BitVec n) :
    w32 (relTarget pc.toNat n off.toNat) = pc + (off.signExtend 32 <<< 2) := by
  rw [w32, relTarget, ofNat_uenc, sval_eq_toInt, BitVec.ofNat_toNat, BitVec.setWidth_eq, BitVec.ofInt_add, BitVec.ofInt_mul,
    BitVec.shiftLeft_eq_mul_twoPow, BitVec.mul_comm]
  congr 1
  rw [BitVec.ofInt_natCast, BitVec.ofNat_toNat, BitVec.setWidth_eq]

theorem shiftRight_shiftLeft_two (x : Word) : (x >>> 2) <<< 2 = x &&& 0xFFFFFFFC := by
  ext i hi
  simp only [BitVec.getElem_shiftLeft, BitVec.getElem_and]
  interval_cases i <;> simp

/-- The two low bits of a jump's target are 0 (R147). -/
theorem div_four_mul_four (x : Word) : w32 (x.toNat / 4 * 4) = x &&& 0xFFFFFFFC := by
  rw [← shiftRight_shiftLeft_two]
  apply BitVec.eq_of_toNat_eq
  rw [w32, BitVec.toNat_ofNat, BitVec.toNat_shiftLeft, BitVec.toNat_ushiftRight, Nat.shiftRight_eq_div_pow, Nat.shiftLeft_eq]

section
variable {s : State} {c : Core} {k : Option Nat}

theorem w32_pcOf_add (s : State) (c : Nat) (k : Option Nat) (n : Nat) :
    w32 (pcOf s c k + n) = (s.thr c k).r.pc + BitVec.ofNat 32 n := by
  rw [w32, BitVec.ofNat_add, pcOf, BitVec.ofNat_toNat, BitVec.setWidth_eq]

/-- The register set in which an instruction acts that is not the last of a loop's body. -/
theorem thr_begun_notAtEnd (h : NotAtEnd s c k 4) :
    ((begun s c k 4).thr c k).r = { (s.thr c k).r with pc := (s.thr c k).r.pc + 4 } := by
  rw [begun_thr]
  exact nextPc_notAtEnd h

theorem loop_pc (r : RSet) (pc : Word) (l : Nat) : ({ r with pc := pc } : RSet).loop l = r.loop l := by
  unfold RSet.loop
  split <;> rfl

theorem loop_put (r : RSet) (n l : Nat) (v : Word) : (r.put n v).loop l = r.loop l :=
  put_field (·.loop l) (fun _ _ => by unfold RSet.loop; split <;> rfl) r n v

/-- Behind an instruction that is not the last of a body, issue goes on and the levels stand. -/
theorem Advanced.inside {t : State} (h : Advanced s t c k 4) (hend : NotAtEnd s c k 4) :
    (t.thr c k).r.pc = (s.thr c k).r.pc + 4 ∧ ∀ l, (t.thr c k).r.loop l = (s.thr c k).r.loop l := by
  rw [Advanced, nextPc_notAtEnd hend] at h
  obtain ⟨hpc, h0, h1, h2⟩ := h
  refine ⟨hpc, fun l => ?_⟩
  unfold RSet.loop
  split
  · exact h0
  · exact h1
  · exact h2

/-- A jump has been taken: its link register is written, and the levels that it leaves are free. -/
def JumpTaken (s t : State) (c : Nat) (k : Option Nat) (link : Nat) (v tgt : Word) : Prop :=
  RegIs s t c k link v ∧ nzcv t c k = nzcv s c k ∧ (t.thr c k).r.pc = tgt ∧ LevelsLeft (s.thr c k).r (t.thr c k).r tgt

theorem jumpTaken_concluded {x : State} {link : Nat} {v pc : Word}
    (hx : (x.thr c k).r = ({ (s.thr c k).r with pc := pc } : RSet).put link v) (tgt n : Nat) :
    JumpTaken s (settle ((jumpTo x c k tgt).modCore c fun y => { y with cyc := n })) c k link v (w32 tgt) := by
  have hthr := (thr_concluded (jumpTo x c k tgt) c k n).trans (thr_jumpTo x c k tgt)
  have hloop (l : Nat) : (x.thr c k).r.loop l = (s.thr c k).r.loop l := by rw [hx, loop_put, loop_pc]
  refine ⟨fun m => ?_, ?_, ?_, fun l hl => ?_⟩
  · rw [gpr, hthr, jumped_field (·.get m) (fun _ _ _ _ _ => rfl), hx, get_put]
    rfl
  · rw [nzcv, hthr, jumped_field (·.flags) (fun _ _ _ _ _ => rfl), hx, flags_put]
    rfl
  · rw [hthr]
    rfl
  · rw [hthr]
    simpa only [hloop] using levelsLeft_jumped (x.thr c k).r tgt l hl

/-- An instruction of both modes that may not end a loop's body. -/
theorem allowed_inside {u : Use} (hs : u.size = 4) (hi : u.ill = false) (hp : u.supOnly = false) (ht : u.tenOnly = false)
    (he : NotAtEnd s c k 4) : Allowed s c k u :=
  ⟨hs, hi, fun e => absurd (hp.symm.trans e) Bool.false_ne_true, fun e => absurd (ht.symm.trans e) Bool.false_ne_true, fun _ => he⟩

/-- JAL and JALR (R147). -/
theorem Ready.jumps (h : Ready s c k 4) (hend : NotAtEnd s c k 4) {i : Instr} {rd : Nat} {rs : List Nat}
    {tgt : RSet → Nat → Nat} {n : Nat} (he : exec i s = runs s c i (jump s c rd rs tgt))
    (hn : ∀ r, Reads s c k r → tgt r (pcOf s c k) = n) :
    Runs s c i (fun t => JumpTaken s t c k rd ((s.thr c k).r.pc + 4) (w32 n) ∧ Took s t c 2) := by
  let x := putReg (begun s c k 4) c k rd ((s.thr c k).r.pc + 4)
  refine h.runs_ok (x := jumpTo x c k n) (n := 2) (allowed_inside rfl rfl rfl rfl hend) he ?_
    ⟨jumpTaken_concluded (pc := (s.thr c k).r.pc + 4) ?_ n _, took_concluded s _ c 2⟩
  · rw [hn _ (reads_begun 4), w32_pcOf_add]
    rfl
  · rw [thr_putReg, thr_begun_notAtEnd hend]

/-- A branch in flight: its verdict reaches the span three cycles after issue (R155). -/
def branching (s : State) (c : Nat) (k : Option Nat) (taken : Bool) : State :=
  (begun s c k 4).modCore c fun y => { y with br := some ⟨issueCyc s c + 3, taken, false, pcOf s c k + 4⟩ }

theorem core_jumpTo_br (x : State) (tgt : Nat) : ((jumpTo x c k tgt).core c).br = (x.core c).br := by
  rw [jumpTo, core_modCore_self]
  exact core_modThr_field x c k (·.br) (fun _ _ => rfl) _

theorem thr_branching (taken : Bool) : (branching s c k taken).thr c k = (begun s c k 4).thr c k :=
  (setsKept_modCore (begun s c k 4) c (fun y => { y with br := some ⟨issueCyc s c + 3, taken, false, pcOf s c k + 4⟩ }) (fun _ => rfl) fun _ => rfl).thr k

theorem ctOf_begun (n : Nat) : ctOf (begun s c k n) c k = ctOf s c k := by
  cases k with
  | none => rfl
  | some q => exact (ownSet_begun s c (some q) n).ctx_field (·.ct) fun _ _ _ => rfl

/-- What the act of a branch leaves of a ready core. -/
theorem Ready.branch (h : Ready s c k 4) (hend : NotAtEnd s c k 4) (cond : BitVec 4) (off : BitVec 22) :
    Runs s c (.bCond c cond off) (fun t =>
      let taken := condTrue (nzcv s c k) cond.toNat
      (t.core c).br = some ⟨issueCyc s c + 3, taken, false, pcOf s c k + 4⟩ ∧
      (if taken then JumpTaken s t c k 0 0 (w32 (relTarget (pcOf s c k) 22 off.toNat)) ∧ Took s t c 2
       else Passes s t c k (if ctOf s c k then 2 else 1))) := by
  have hbr : ((begun s c k 4).core c).br = none := ((ownSet_begun s c k 4).core_field (·.br) fun _ _ => rfl).trans h.br
  have hcyc : issueCyc (begun s c k 4) c = issueCyc s c := (ownSet_begun s c k 4).issueCyc
  have hfl : ((begun s c k 4).thr c k).r.flags = nzcv s c k := begun_nzcv s c k 4
  have hct (taken : Bool) : ctOf (branching s c k taken) c k = ctOf s c k := ctOf_begun (k := k) 4
  have hu : Allowed s c k { flags := true, ends := true } := allowed_inside rfl rfl rfl rfl hend
  cases htaken : condTrue (nzcv s c k) cond.toNat with
  | true =>
    refine h.runs_ok (x := jumpTo (branching s c k true) c k (relTarget (pcOf s c k) 22 off.toNat)) (n := 2) hu rfl ?_
      ⟨?_, jumpTaken_concluded (pc := (s.thr c k).r.pc + 4) ?_ _ _, took_concluded s _ c 2⟩
    · simp only [hbr, hcyc, hfl, htaken]
      rfl
    · rw [core_concluded]
      change ((jumpTo _ c k _).core c).br = _
      rw [core_jumpTo_br, branching, core_modCore_self]
    · rw [thr_branching, thr_begun_notAtEnd hend]
      rfl
  | false =>
    refine h.runs_ok (x := branching s c k false) (n := if ctOf s c k then 2 else 1) hu rfl ?_
      ⟨?_, passes_concluded (thr_branching false) _⟩
    · simp only [hbr, hcyc, hfl, htaken]
      exact congrArg (fun b => Out.ok _ (if b = true then 2 else 1)) (hct false)
    · rw [core_concluded, branching, core_modCore_self]

/-- Settles O8: `Ready.jumps` and `Ready.branch` say what each leaves, and `relTarget_eq` and `div_four_mul_four` where it goes. -/
theorem branchesAndJumps : Obligations.BranchesAndJumps := by
  unfold Obligations.BranchesAndJumps
  intro s c k cond off far rd ra imm h hend pc loop stays jumps
  have jump {i : Instr} {link : Nat} {rs : List Nat} {tgt : RSet → Nat → Nat} {n : Nat}
      (he : exec i s = runs s c i (Machine.jump s c link rs tgt)) (hn : ∀ r, Reads s c k r → tgt r (pcOf s c k) = n) :
      jumps i link (w32 n) := fun hf =>
    (h.jumps hend he hn hf).imp fun t ⟨⟨hreg, hfl, hpc, hleft⟩, htook⟩ => ⟨hreg, hfl, hpc, hleft, htook⟩
  refine ⟨?_, ?_, fun hf => (h.branch hend cond off hf).imp fun t ⟨hbr, hway⟩ => ?_⟩
  · rw [← relTarget_eq]
    exact jump rfl fun _ _ => rfl
  · rw [← div_four_mul_four]
    exact jump rfl fun r hr => by rw [hr.get]
  · have htgt : w32 (relTarget (pcOf s c k) 22 off.toNat) = pc + (off.signExtend 32 <<< 2) := relTarget_eq pc off
    intro tgt taken
    change if taken then _ else _ at hway
    by_cases htaken : taken = true
    · rw [if_pos htaken, htgt] at hway
      obtain ⟨⟨hreg, hfl, hpc, hleft⟩, htook⟩ := hway
      refine ⟨fun n => (hreg n).trans (if_neg fun e => e.2 e.1), hfl, hbr, ?_⟩
      rw [if_pos htaken]
      exact ⟨hpc, hleft, htook⟩
    · rw [if_neg htaken] at hway
      refine ⟨hway.regs, hway.flags, hbr, ?_⟩
      rw [if_neg htaken]
      obtain ⟨hpc, hloop⟩ := hway.next.inside hend
      exact ⟨hpc, fun l _ => hloop l, hway.took⟩

end

end Sys2Proof.Machine
end

section
/-! PROOFS. A loop error of a supervisor whose core runs a context 16: the refutation of HardwareLoops. -/

namespace Sys2Proof.Machine
open Sys2Proof

/-- The supervisor of core 0 is about to set up a loop in the last instruction of another loop's body, while the core runs an
activation in a context 16, which no core has (R157). -/
def strayLooper : State :=
  { State.reset with
    bist := { BistSt.init with running := false }
    imem := mwrite [] 0 (leBytes 4 0x94000000)
    cores := [(0, { atStart { Thr.init with r := { RSet.init with pc := 0x10000, l0 := ⟨0x10000, 0x10000, 1, true⟩ } } with
      run := some { runOfZero 0 with ctx := 16 } })] }

theorem ready_strayLooper : Ready strayLooper 0 none 4 where
  who   := by decide +kernel
  ctx8  := by simp
  up    := by decide +kernel
  jobs  := by decide +kernel
  vq    := by decide +kernel
  br    := by decide +kernel
  calm  := ⟨rfl, rfl, rfl, rfl⟩
  sup   := ⟨rfl, rfl, rfl, rfl⟩
  own   := fun q hq => by
    obtain rfl : 16 = q := Option.some.inj hq
    exact ⟨rfl, rfl, rfl, rfl⟩
  win   := by decide +kernel
  brk   := by decide +kernel
  go    := by decide +kernel
  log   := by decide +kernel
  first := by decide +kernel
  last  := by decide +kernel
  word  := by decide +kernel

/-- The number 16 in the cause's field of three bits runs over into the sub-cause. -/
theorem sub_strayLooper : bits (tget Bank.init
    ((settle (startLoop strayLooper 0 [] 0 fun _ => w32 (0 : BitVec 10).toNat)).core 0).banks 5).cause.toNat 20 4 = 4 := by
  decide +kernel

/-- Refutes O9: the statement does not say that the context of the activation at hand is one of the core's eight. EZ_CAUSE has
three bits for it (R190), and the supervisor's loop error LAST beside an activation in a context 16 reads as sub-cause 4. -/
theorem not_hardwareLoops : ¬ Obligations.HardwareLoops := by
  rintro ⟨-, -, herr⟩
  obtain ⟨-, -, -, hlast⟩ := herr strayLooper 0 none 0 0 0 ready_strayLooper rfl (by decide +kernel)
  have hend : ¬NotAtEnd strayLooper 0 none 4 := fun h => h 0 (by decide) (by decide +kernel)
  have hf : fetched strayLooper 0 (.loopi 0 0 0) = true := by decide +kernel
  obtain ⟨t, ht, -, hsub, -⟩ := (hlast hend).2 hf
  have he : exec (.loopi 0 0 0) strayLooper = done (startLoop strayLooper 0 [] 0 fun _ => w32 (0 : BitVec 10).toNat) :=
    congrArg done (if_pos hf)
  rw [he] at ht
  cases ht
  exact absurd (sub_strayLooper.symm.trans hsub) (by decide)

end Sys2Proof.Machine
end

section
/-! PROOFS. A supervisor that reads its own program counter through the BAR0 window: the refutation of SupervisorPorts. -/

namespace Sys2Proof.Machine
open Sys2Proof

/-- The supervisor of core 0 is about to read its own EZ_SUPPC through the window. -/
def pcReader : State :=
  { State.reset with
    bist := { BistSt.init with running := false }
    imem := mwrite [] 0 (leBytes 4 0xA0208030)
    cores := [(0, { atStart { Thr.init with r := { RSet.init with pc := 0x10000 } } with sio := 24 })] }

theorem ready_pcReader : Ready pcReader 0 none 4 where
  who   := by decide +kernel
  ctx8  := by simp
  up    := by decide +kernel
  jobs  := by decide +kernel
  vq    := by decide +kernel
  br    := by decide +kernel
  calm  := ⟨rfl, rfl, rfl, rfl⟩
  sup   := ⟨rfl, rfl, rfl, rfl⟩
  own   := fun q hq => absurd (show (none : Option Nat) = some q from hq) (by simp)
  win   := by decide +kernel
  brk   := by decide +kernel
  go    := by decide +kernel
  log   := by decide +kernel
  first := by decide +kernel
  last  := by decide +kernel
  word  := by decide +kernel

/-- A read of EZ_SUPPC before the IN finds its own address. -/
theorem busRead_pcReader : (busRead (toIssue pcReader 0) .supervisor (barOff pcReader 0 0x8030)).resp =
    .data (leBytes 4 0x10000) := by
  decide +kernel

/-- The IN itself delivers the address behind it. -/
theorem res_inI_pcReader : ((settle (inI pcReader 0 1 0 0x8030)).thr 0 none).pend.map (·.res) = [[(1, 0x10004)]] := by
  decide +kernel

/-- Refutes O16: the statement takes what the window's IN reads from the state before the instruction, and the instruction reads
BAR0 when its program counter has moved on. Where it reads its own core's EZ_SUPPC (R163), the two differ by 4. -/
theorem not_supervisorPorts : ¬ Obligations.SupervisorPorts := by
  intro h
  obtain ⟨-, -, -, -, hwindow, -⟩ := h pcReader 0 1 0 0x8030 ready_pcReader
  have hf : fetched pcReader 0 (.bar0Window 0 false 1 0 0x8030) = true := by decide +kernel
  obtain ⟨t, ht, -, -, o, hpend, hres, -⟩ := (hwindow (by decide +kernel)).1 _ busRead_pcReader hf
  have he : exec (.bar0Window 0 false 1 0 0x8030) pcReader = done (inI pcReader 0 1 0 0x8030) := congrArg done (if_pos hf)
  rw [he] at ht
  cases ht
  have hread : [o.res] = [[(1, 0x10004)]] := (congrArg (List.map LongOp.res) hpend).symm.trans res_inI_pcReader
  rw [hres] at hread
  exact absurd hread (by decide +kernel)

end Sys2Proof.Machine
end

section
/-! PROOFS. IN (R143, R145, R293, R304): what the act of each port leaves of a ready core. -/

namespace Sys2Proof.Machine
open Sys2Proof

section
variable {s t : State} {c : Core} {k : Option Nat} {i : Instr} {rd ra p n : Nat} {imm : BitVec 16} {P : State → Prop} {x : State}

/-- The time of issue does not depend on the issuer's registers. -/
theorem OwnSet.toIssue (h : OwnSet s t c k) : toIssue t c = { Machine.toIssue s c with cores := t.cores, ctxs := t.ctxs } := by
  have hcyc : Machine.issueCyc t c * t.cyc = Machine.issueCyc s c * s.cyc := by rw [h.issueCyc, h.dev_field (·.cyc) fun _ _ _ => rfl]
  have ht : t = { s with cores := t.cores, ctxs := t.ctxs } :=
    congrArg (fun x => { x with cores := t.cores, ctxs := t.ctxs }) h.rest
  calc Machine.toIssue t c
      = t.advanceTo (Machine.issueCyc s c * s.cyc) := by rw [Machine.toIssue, hcyc]
    _ = ({ s with cores := t.cores, ctxs := t.ctxs } : State).advanceTo (Machine.issueCyc s c * s.cyc) := by rw [← ht]
    _ = { Machine.toIssue s c with cores := t.cores, ctxs := t.ctxs } := rfl

theorem thr_toIssue (s : State) (c m : Nat) (k : Option Nat) : (toIssue s c).thr m k = s.thr m k := by
  cases k <;> rfl

/-- What an IN of a ready core leaves whose port's act completes. -/
theorem Ready.runs_in (h : Ready s c k 4) (he : exec i s = runs s c i (inI s c rd ra imm))
    (hp : portOf (s.thr c k).r ra imm = p)
    (hx : inAct (begun s c k 4) c k (pcOf s c k) rd p ((gpr s c k rd).toNat % 2 ^ 17) = .ok x n)
    (hP : P (settle (x.modCore c fun y => { y with cyc := issueCyc s c + n }))) : Runs s c i P := by
  have hg := (reads_begun (s := s) (c := c) (k := k) 4).get
  have hport : portOf ((begun s c k 4).thr c k).r ra imm = p := by rw [← hp, portOf, portOf, hg]; rfl
  refine h.runs_ok (n := n) (allowed_anywhere rfl rfl rfl rfl rfl) he ?_ hP
  dsimp only
  rw [hport, hg]
  exact hx

theorem vcountOf_begun (n : Nat) : vcountOf (begun s c k n) c k = vcountOf s c k := by
  cases k with
  | none => exact (ownSet_begun s c none n).core_field (·.vcount) fun _ _ => rfl
  | some q => exact (ownSet_begun s c (some q) n).ctx_field (·.vcount) fun _ _ _ => rfl

theorem groupOf_begun (n : Nat) : groupOf (begun s c k n) c k = groupOf s c k := by
  cases k with
  | none => exact (ownSet_begun s c none n).core_field (·.g) fun _ _ => rfl
  | some q => exact (ownSet_begun s c (some q) n).ctx_field (·.g) fun _ _ _ => rfl

theorem replays_none (h : secOf s c k = none) : replays s c k = false := by simp [replays, h]

theorem loggedIn_plain (h : secOf s c k = none) (pc rd port : Nat) (fresh : Word × State) : loggedIn s c k pc rd port fresh =
    if 0x100 ≤ port then .ok (addLong fresh.2 c k ⟨.point, [(rd, fresh.1)], issueCyc s c + 14, w32 pc, none, none, none⟩) 4
    else .ok (putReg fresh.2 c k rd fresh.1) 4 := by
  unfold loggedIn logIn
  cases k with
  | none => rfl
  | some q => simp only [h]

/-- The state in which TNOW_NS writes its register: the seconds are latched (R304). -/
def timeLatched (s : State) (c : Nat) (k : Option Nat) (sec : Nat) : State :=
  let x := toIssue (begun s c k 4) c
  { x with tu := { x.tu with latCtx := tput x.tu.latCtx (timeKey c k) sec } }

theorem timePort_ns : timePort (begun s c k 4) c k 0x30 =
    let ns := replicaTime (toIssue s c) (clusterIsl c)
    (w32 (taiNs ns), timeLatched s c k (taiSec ns)) := by
  have ht : replicaTime (toIssue (begun s c k 4) c) (clusterIsl c) = replicaTime (toIssue s c) (clusterIsl c) := by
    rw [(ownSet_begun s c k 4).toIssue]
    rfl
  simp only [timePort, ht]
  rfl

theorem thr_timeLatched (sec : Nat) : (timeLatched s c k sec).thr c k = (begun s c k 4).thr c k := by
  cases k <;> rfl

/-- A PRD has taken its snapshot (R293). -/
def pointLatched (s : State) (c : Nat) (k : Option Nat) (i : Nat) : State :=
  (toIssue (begun s c k 4) c).modThr c k fun t => { t with latch := (List.range 8).map (ptWord (s.pt i)) }

theorem pt_begun (i : Nat) : (toIssue (begun s c k 4) c).pt i = s.pt i :=
  (ownSet_begun s c k 4).dev_field (·.pt i) fun _ _ _ => rfl

theorem thr_pointLatched (i : Nat) : (pointLatched s c k i).thr c k =
    { (begun s c k 4).thr c k with latch := (List.range 8).map (ptWord (s.pt i)) } := by
  rw [pointLatched, thr_modThr_self, thr_toIssue]

theorem pointPort_latches (i : Nat) : pointPort (begun s c k 4) c k 0x100 i = (ptWord (s.pt i) 0, pointLatched s c k i) := by
  have hl : ((pointLatched s c k i).thr c k).latch.getD 0 0 = ptWord (s.pt i) 0 := by
    rw [thr_pointLatched]
    rfl
  rw [← hl, pointLatched]
  simp only [pointPort, pt_begun, if_true]

theorem thr_addLong (x : State) (c : Nat) (k : Option Nat) (o : LongOp) :
    (addLong x c k o).thr c k = { x.thr c k with pend := (x.thr c k).pend ++ [o] } :=
  thr_modThr_self x c k _

/-- The long operation that a PRD leaves. -/
def pointRead (s : State) (c : Nat) (k : Option Nat) (rd i : Nat) : LongOp :=
  ⟨.point, [(rd, ptWord (s.pt i) 0)], issueCyc s c + 14, w32 (pcOf s c k), none, none, none⟩

/-- Outside a section an allowed PRD reads word 0 of the record, and the others into the latch. -/
theorem inAct_prd (hsec : secOf s c k = none) (i : Nat) (hread : readAllowed (s.pt i) (pointOwner s c k) = true) :
    inAct (begun s c k 4) c k (pcOf s c k) rd 0x100 i =
      .ok (addLong (pointLatched s c k i) c k (pointRead s c k rd i)) 4 := by
  have hsec' := secOf_begun (n := 4) hsec
  have hread' : readAllowed ((begun s c k 4).pt i) (pointOwner (begun s c k 4) c k) = true := by
    rw [pointOwner_begun, (ownSet_begun s c k 4).dev_field (·.pt i) fun _ _ _ => rfl]
    exact hread
  simp [inAct, replays_none hsec', hread', loggedIn_plain hsec', pointPort_latches, (ownSet_begun s c k 4).issueCyc, pointRead]

theorem inAct_tnow (hsec : secOf s c k = none) (m : Nat) :
    let ns := replicaTime (toIssue s c) (clusterIsl c)
    inAct (begun s c k 4) c k (pcOf s c k) rd 0x30 m =
      .ok (putReg (timeLatched s c k (taiSec ns)) c k rd (w32 (taiNs ns))) 4 := by
  have hsec' := secOf_begun (n := 4) hsec
  simp [inAct, replays_none hsec', loggedIn_plain hsec', timePort_ns]

end

section
variable {s : State} {c : Core} {k : Option Nat} {rd ra : Reg5} {imm : BitVec 16}

/-- TNOW_NS reads the cluster's nanoseconds and latches its seconds (R143, R304). -/
theorem Ready.tnow (h : Ready s c k 4) (hp : portOf (s.thr c k).r ra imm = 0x30) (hsec : secOf s c k = none) :
    Runs s c (.tnowNs c rd ra imm) (fun t =>
      let ns := replicaTime (toIssue s c) (clusterIsl c)
      RegIs s t c k rd (w32 (taiNs ns)) ∧ nzcv t c k = nzcv s c k ∧ Took s t c 4 ∧
      tget 0 t.tu.latCtx (timeKey c k) = taiSec ns ∧ t.clk = (toIssue s c).clk) := by
  have hput (x : State) (v : Word) := ownSet_putReg x c k rd v
  refine h.runs_in rfl hp (inAct_tnow hsec _) ⟨fun m => ?_, ?_, took_concluded s _ c 4, ?_, ?_⟩
  · rw [gpr, thr_concluded, thr_putReg, thr_timeLatched, get_put, ← gpr, begun_gpr]
  · rw [nzcv, thr_concluded, thr_putReg, thr_timeLatched, flags_put, ← nzcv, begun_nzcv]
  · exact ((hput _ _).dev_field (fun x => tget 0 x.tu.latCtx (timeKey c k)) fun _ _ _ => rfl).trans (tget_tput_self _ _ _ _)
  · have hclk : (toIssue (begun s c k 4) c).clk = (toIssue s c).clk := by
      rw [(ownSet_begun s c k 4).toIssue]
    exact ((hput _ _).dev_field (·.clk) fun _ _ _ => rfl).trans hclk

/-- PRD takes its snapshot and leaves a long operation for word 0 (R145, R293). -/
theorem Ready.prd (h : Ready s c k 4) (hp : portOf (s.thr c k).r ra imm = 0x100) (hsec : secOf s c k = none) {i : Nat}
    (hi : (gpr s c k rd).toNat % 2 ^ 17 = i) (hread : readAllowed (s.pt i) (pointOwner s c k) = true) :
    Runs s c (.prd c rd ra imm) (fun t =>
      (t.thr c k).latch = (List.range 8).map (ptWord (s.pt i)) ∧ (t.thr c k).pend = [pointRead s c k rd i] ∧
      Passes s t c k 4 ∧ t.points = s.points) := by
  have hthr : (addLong (pointLatched s c k i) c k (pointRead s c k rd i)).thr c k = { (begun s c k 4).thr c k with
      latch := (List.range 8).map (ptWord (s.pt i)), pend := [pointRead s c k rd i] } := by
    rw [thr_addLong, thr_pointLatched, begun_thr, h.calm.pend]
    rfl
  refine h.runs_in (n := 4) (x := addLong (pointLatched s c k i) c k (pointRead s c k rd i)) rfl hp
    (hi.symm ▸ inAct_prd hsec i hread) ⟨?_, ?_, passes_of_rset ?_ 4, ?_⟩
  · rw [thr_concluded, hthr]
  · rw [thr_concluded, hthr]
  · rw [hthr]
  · exact ((ownSet_modThr _ c k _).dev_field (·.points) fun _ _ _ => rfl).trans
      (((ownSet_modThr _ c k _).dev_field (·.points) fun _ _ _ => rfl).trans
        ((ownSet_begun s c k 4).dev_field (·.points) fun _ _ _ => rfl))

/-- IN of a port whose value the core holds (R143). -/
theorem Ready.inPlain (h : Ready s c k 4) {p : Nat} (hp : portOf (s.thr c k).r ra imm = p) {v : Word}
    (hx : ∀ m, inAct (begun s c k 4) c k (pcOf s c k) rd p m = .ok (putReg (begun s c k 4) c k rd v) 4) :
    Runs s c (.inp c rd ra imm) (fun t => Computes s t c k rd v (nzcv s c k) 4) :=
  h.runs_in (x := wrote s c k rd v false (nzcv s c k)) rfl hp (hx _) (computes_wrote h rd v _ false 4 fun _ => rfl)

end

/-- Settles O14: the two counts are ports that the core holds, and `Ready.tnow` and `Ready.prd` say what the others leave. -/
theorem portReads : Obligations.PortReads := by
  unfold Obligations.PortReads
  intro s c k rd ra imm h port i
  refine ⟨fun hp => h.inPlain hp fun m => ?_, fun hp => h.inPlain hp fun m => ?_, fun hp hsec => h.tnow hp hsec,
    fun hp hsec hread hf => (h.prd hp hsec rfl hread hf).imp fun t ⟨hlatch, hpend, hpass, hpts⟩ =>
      ⟨hlatch, ⟨_, hpend, rfl, rfl⟩, hpass, hpts⟩⟩
  · simp [inAct, h.countBusy_begun, plainPort, vcountOf_begun]
  · simp [inAct, plainPort, groupOf_begun]

end Sys2Proof.Machine
end

section
/-! PROOFS. Issue beside pending work (R113, R151, R225): a core that differs from a ready one only in what its issuer has pending
issues the same instruction, when its waits are over. -/

namespace Sys2Proof.Machine
open Sys2Proof

-- What decides whether an instruction issues ----------------------------------------------------------------------------------

/-- A section but for its signature (R219). -/
def Sec.unsigned (x : Sec) : Sec := { x with sig := 0 }

/-- Between s and t the issuer's own set may differ, and its section's signature, but not the program counter. -/
structure OtherSet (s t : State) (c : Nat) (k : Option Nat) : Prop where
  own : OwnSet s t c k
  pc  : (t.thr c k).r.pc = (s.thr c k).r.pc
  sec : (secOf t c k).map Sec.unsigned = (secOf s c k).map Sec.unsigned

section
variable {s t u : State} {c : Nat} {k : Option Nat}

theorem OtherSet.trans (h : OtherSet s t c k) (g : OtherSet t u c k) : OtherSet s u c k :=
  ⟨h.own.trans g.own, g.pc.trans h.pc, g.sec.trans h.sec⟩

theorem secOf_modThr (s : State) (c : Nat) (k : Option Nat) (f : Thr → Thr) : secOf (s.modThr c k f) c k = secOf s c k := by
  cases k with
  | none => rfl
  | some q => exact (congrArg Ctx.sec (ctx_modCtx_self s c q _)).trans rfl

theorem otherSet_modThr (s : State) (c : Nat) (k : Option Nat) (f : Thr → Thr) (hf : ∀ t, (f t).r.pc = t.r.pc) :
    OtherSet s (s.modThr c k f) c k where
  own := ownSet_modThr s c k f
  pc := by rw [thr_modThr_self, hf]
  sec := by rw [secOf_modThr]

theorem otherSet_sign (s : State) (c : Nat) (k : Option Nat) (kind key v : Nat) : OtherSet s (sign s c k kind key v) c k where
  own := ownSet_sign s c k kind key v
  pc := by rw [thr_sign]
  sec := by
    cases k with
    | none => rfl
    | some q =>
      unfold sign
      dsimp only
      split
      · have hsec (f : Sec → Sec) : (modSec s c q f).ctx c q = { s.ctx c q with sec := (s.ctx c q).sec.map f } :=
          ctx_modCtx_self s c q _
        rw [secOf, secOf, hsec, Option.map_map]
        rfl
      · rfl

theorem otherSet_putReg (s : State) (c : Nat) (k : Option Nat) (n : Nat) (v : Word) : OtherSet s (putReg s c k n v) c k := by
  unfold putReg
  split
  · exact ⟨.refl s c k, rfl, rfl⟩
  · exact (otherSet_modThr s c k _ fun t => put_field (·.pc) (fun _ _ => rfl) t.r n v).trans (otherSet_sign _ c k _ _ _)

/-- What a section records beside its signature is the same. -/
theorem OtherSet.sec_field {α : Type} (h : OtherSet s t c k) (g : Sec → α) (hg : ∀ x, g x.unsigned = g x) :
    (secOf t c k).map g = (secOf s c k).map g := by
  have he : g ∘ Sec.unsigned = g := funext hg
  rw [← he, ← Option.map_map, ← Option.map_map, h.sec]

theorem OtherSet.pcOf (h : OtherSet s t c k) : pcOf t c k = pcOf s c k := congrArg BitVec.toNat h.pc

theorem OtherSet.curCtx (h : OtherSet s t c k) : curCtx t c = curCtx s c :=
  h.own.core_field (fun y => if y.sup then none else y.run.map Run.ctx) fun _ _ => rfl

theorem negOf_eq (s : State) (c : Nat) (k : Option Nat) : negOf s c k = ((secOf s c k).map (·.neg)).getD false := by
  unfold negOf
  cases secOf s c k <;> rfl

theorem OtherSet.negOf (h : OtherSet s t c k) : negOf t c k = negOf s c k := by
  rw [negOf_eq, negOf_eq, h.sec_field (·.neg) fun _ => rfl]

/-- A core may issue whose delay slot is empty; one whose slot is not empty may too (R163). -/
theorem OtherSet.canIssue {n : Nat} (h : OtherSet s t c k) (hr : Ready s c k n) : canIssue t c = true := by
  have hup := hr.up
  have hlive : tenantLive t c = tenantLive s c :=
    h.own.core_field (fun y => match y.run with | some r => !r.ended | none => false) fun _ _ => rfl
  have hheld : loupeHolds t c = loupeHolds s c := by
    rw [loupeHolds, loupeHolds, h.curCtx, hr.who, h.negOf, h.own.core_field (·.loupe.halt) fun _ _ => rfl]
  have hcore : coreUp t c = coreUp s c := h.own.dev_field (coreUp · c) fun _ _ _ => rfl
  have hhalt : t.fb fEZ_CTL_HALT c = s.fb fEZ_CTL_HALT c := h.own.dev_field (·.fb fEZ_CTL_HALT c) fun _ _ _ => rfl
  have hbath : t.stopped = s.stopped := h.own.dev_field (·.stopped) fun _ _ _ => rfl
  simp only [Machine.canIssue, hr.who, hr.calm.slot, List.isEmpty_nil, Bool.and_true, Bool.and_eq_true, Bool.not_eq_true'] at hup
  obtain ⟨⟨⟨⟨⟨⟨hstop, hres⟩, hwait⟩, hon⟩, hgo⟩, hmode⟩, hloupe⟩ := hup
  simp only [Machine.canIssue, hlive, hheld, hcore, hhalt, hbath, hloupe, hon, hgo, hmode,
    h.own.core_field (·.stopped) (fun _ _ => rfl), h.own.core_field (·.held) (fun _ _ => rfl),
    h.own.core_field (·.waiting) (fun _ _ => rfl), h.own.core_field (·.sup) (fun _ _ => rfl), hstop, hres, hwait]
  rfl

theorem OtherSet.windowOver (h : OtherSet s t c k) : windowOver t c k = windowOver s c k := by
  cases k with
  | none => rfl
  | some q =>
    have hover (x : State) : Machine.windowOver x c (some q) =
        ((secOf x c (some q)).map fun y => y.neg && decide (windowEnd x c q y < issueCyc x c)).getD false := by
      unfold Machine.windowOver secOf
      dsimp only
      cases (x.ctx c q).sec <;> rfl
    have hend (y : Sec) : windowEnd t c q y = windowEnd s c q y := by
      have heff : t.effReg rNEG_TN_CFG (s.ctx c q).tenant 0 = s.effReg rNEG_TN_CFG (s.ctx c q).tenant 0 :=
        h.own.dev_field (·.effReg rNEG_TN_CFG (s.ctx c q).tenant 0) fun _ _ _ => rfl
      rw [windowEnd, windowEnd, h.own.tenant, heff]
    simp only [hover, hend, h.own.issueCyc]
    rw [h.sec_field _ fun _ => rfl]

theorem OtherSet.atBreak (h : OtherSet s t c k) : atBreak t c k = atBreak s c k := by
  simp only [Machine.atBreak, h.negOf, h.pcOf, h.own.core_field (·.loupe) fun _ _ => rfl]

theorem OtherSet.loupeNow (h : OtherSet s t c k) : (loupeNow t c k).1 = (loupeNow s c k).1 := by
  have hlog (x : State) : (Machine.loupeNow x c k).1 = ((secOf x c k).map fun y =>
      if y.neg then (y.llog.partition fun e => e.1 ≤ y.retired).1 else []).getD [] := by
    unfold Machine.loupeNow
    cases secOf x c k with
    | none => rfl
    | some y => exact (apply_ite Prod.fst _ _ _)
  rw [hlog, hlog, h.sec_field _ fun _ => rfl]

theorem OtherSet.ramBase (h : OtherSet s t c k) : ramBase t c = ramBase s c :=
  h.own.core_field (fun y => if y.remap then 0 else 0x10000) fun _ _ => rfl

theorem OtherSet.fetchOk (h : OtherSet s t c k) (a : Nat) : fetchOk t c k a = fetchOk s c k a := by
  have hbase : (t.core c).remap = (s.core c).remap := h.own.core_field (·.remap) fun _ _ => rfl
  have hlow (q : Nat) : t.e fEZ_IWIN_BASE c q = s.e fEZ_IWIN_BASE c q := h.own.dev_field (·.e fEZ_IWIN_BASE c q) fun _ _ _ => rfl
  have hhigh (q : Nat) : t.e fEZ_IWIN_LIMIT c q = s.e fEZ_IWIN_LIMIT c q :=
    h.own.dev_field (·.e fEZ_IWIN_LIMIT c q) fun _ _ _ => rfl
  unfold Machine.fetchOk
  rw [h.ramBase, hbase]
  cases k with
  | none => rfl
  | some q =>
    dsimp only
    rw [hlow, hhigh]

theorem OtherSet.fetchWord (h : OtherSet s t c k) (a : Nat) : fetchWord t c a = fetchWord s c a := by
  have hword (w : Nat) : imemWord t c w = imemWord s c w := h.own.dev_field (imemWord · c w) fun _ _ _ => rfl
  unfold Machine.fetchWord
  rw [h.ramBase]
  dsimp only
  rw [hword]

theorem OtherSet.fetchBad (h : OtherSet s t c k) (a : Nat) : fetchBad t c a = fetchBad s c a := by
  rw [Machine.fetchBad, Machine.fetchBad, h.fetchWord, h.fetchWord]

end

-- Issue ------------------------------------------------------------------------------------------------------------------------

section
variable {s t : State} {c : Nat} {k : Option Nat} {u : Use}

/-- An instruction that both modes have, wherever it stands. -/
structure Use.Plain (u : Use) : Prop where
  size : u.size = 4
  sup  : u.supOnly = false
  ill  : u.ill = false
  ten  : u.tenOnly = false
  ends : u.ends = false

theorem OtherSet.issueFault (h : OtherSet s t c k) (hr : Ready s c k 4) (hu : u.Plain) :
    issueFault t c k u (Machine.pcOf t c k) = none := by
  have hlast : Machine.fetchOk s c k (Machine.pcOf s c k + u.size - 4) = true := hu.size.symm ▸ hr.last
  unfold Machine.issueFault
  simp only [h.pcOf, h.fetchOk, h.fetchBad, hr.first, hlast, hr.word, hu.sup, hu.ill, hu.ten, hu.ends, Bool.and_self,
    Bool.not_true, Bool.false_and, Bool.or_self, Bool.false_eq_true, if_false]

theorem OtherSet.loupe (h : OtherSet s t c k) (hr : Ready s c k 4) : loupeReplay (pastBreak t c) c k = t := by
  have hgo : (t.core c).loupe.go = false := (h.own.core_field (·.loupe.go) fun _ _ => rfl).trans hr.go
  have hlog := h.loupeNow.trans hr.log
  rw [pastBreak, hgo, if_neg Bool.false_ne_true]
  unfold loupeReplay
  cases k with
  | none => rfl
  | some q =>
    generalize Machine.loupeNow t c (some q) = p at hlog
    obtain ⟨a, b⟩ := p
    obtain rfl : a = [] := hlog
    rfl

/-- Beside a ready core's pending work an instruction issues when its waits are over. -/
theorem OtherSet.issueI (h : OtherSet s t c k) (hr : Ready s c k 4) (hu : u.Plain) (hheld : (t.thr c k).held = [])
    (hc : catchUp t c = t) (act : State → Option Nat → Nat → Out) :
    issueI t c u act = issueGo c k u (Machine.pcOf t c k) act 4 (issueWaits t c k u) := by
  have hdue : heldDue t c k = false := by simp [heldDue, hheld]
  have hcan := h.canIssue hr
  have hwin := h.windowOver.trans hr.win
  have hbrk := h.atBreak.trans hr.brk
  unfold Machine.issueI
  simp only [hc, h.curCtx, hr.who, hcan, hdue, hwin, hbrk, h.loupe hr, h.issueFault hr hu, Bool.not_true, Bool.false_eq_true,
    if_false]

/-- Where nothing is pending, there is nothing to wait for. -/
theorem issueWaits_done (hd : ThrDone (t.thr c k)) (hq : (t.core c).vq = []) (hj : (t.core c).jobs = []) (u : Use) :
    issueWaits t c k u = t := by
  have hregs (rs : List Nat) : waitRegs t c k rs = t := by
    apply waitFor_idle
    simp [regBusy, hd.pend, hq, hj]
  have hflags : waitFlags t c k = t := by
    unfold waitFlags
    simp only [judgePwr_none hd.pwr]
    exact waitFor_idle (by simp [hd.pwr]) _
  have hall : waitAll t c k = t := by
    unfold waitAll
    simp only [judgePwr_none hd.pwr]
    exact waitFor_idle (by simp [anyBusy, vBusy, hq, hj, hd.pend, hd.pwr]) _
  unfold issueWaits
  split
  · exact hall
  · simp only [hregs, hflags, ite_self]

/-- An act that completes, of an instruction in whose delay slot nothing stands. -/
theorem issueGo_ok (hheld : (t.thr c k).held = []) (hslot : (t.thr c k).dslot = []) {act : State → Option Nat → Nat → Out}
    {x : State} {n : Nat} (hx : act (begun t c k u.size) k (Machine.pcOf t c k) = .ok x n) (fuel : Nat) :
    issueGo c k u (Machine.pcOf t c k) act (fuel + 1) t = x.modCore c fun y => { y with cyc := issueCyc t c + n } := by
  have hdue : heldDue t c k = false := by simp [heldDue, hheld]
  have hb : countRetired ((t.modThr c k fun t => { t with dslot := [] }).modThr c k fun y =>
      { y with r := nextPc y.r (Machine.pcOf t c k) u.size }) c k = begun t c k u.size := rfl
  unfold issueGo
  simp only [hdue, takeSlot, hslot, landSlot, putRegs, List.filter_nil, List.foldl_nil, ite_self, Bool.false_eq_true, if_false,
    hb, hx]

end
end Sys2Proof.Machine
end

section
/-! PROOFS. System instructions (R149, R151, R160, R176, R184): NOP, SYNC and what SYNC waits for, TRAP, WAIT, and the mode that an
instruction needs. -/

namespace Sys2Proof.Machine
open Sys2Proof

section
variable {s t w : State} {c : Nat} {k : Option Nat}

-- The end test reads no register ----------------------------------------------------------------------------------------------

theorem endTest_s (r : RSet) (x : Tab Word) (a : Nat) (ls : List Nat) :
    endTest { r with s := x } a ls = ({ (endTest r a ls).1 with s := x }, (endTest r a ls).2) := by
  induction ls generalizing r with
  | nil => rfl
  | cons l ls ih =>
    have hloop : ({ r with s := x } : RSet).loop l = r.loop l := by
      unfold RSet.loop
      split <;> rfl
    have hset (y : Loop) : ({ r with s := x } : RSet).setLoop l y = { r.setLoop l y with s := x } := by
      unfold RSet.setLoop
      split <;> rfl
    simp only [endTest, hloop, hset, ih]
    split_ifs <;> rfl

/-- Where issue goes on does not depend on the registers. -/
theorem nextPc_put (r : RSet) (n : Nat) (v : Word) (pc size : Nat) :
    let x := nextPc (r.put n v) pc size
    let y := nextPc r pc size
    x.pc = y.pc ∧ x.l0 = y.l0 ∧ x.l1 = y.l1 ∧ x.l2 = y.l2 := by
  have hput : r.put n v = { r with s := (r.put n v).s } := by
    unfold RSet.put
    split <;> rfl
  rw [hput]
  simp only [nextPc, endTest_s, and_self]

-- SYNC waits (R151, R176) ----------------------------------------------------------------------------------------------------

/-- What an instruction does that finds nothing due depends on the state when all that is due has happened. -/
theorem issueI_caughtUp (hc : catchUp t c = w) (hw : catchUp w c = w) (u : Use) (act : State → Option Nat → Nat → Out) :
    issueI t c u act = issueI w c u act := by
  unfold issueI
  rw [hc, hw]

/-- A long operation with one result, and neither an exception nor a fault, that is ready at this cycle. -/
def plainOp (kind : LongKind) (rd : Nat) (v pc : Word) (ready : Nat) : LongOp := ⟨kind, [(rd, v)], ready, pc, none, none, none⟩

variable {kind : LongKind} {rd m : Nat} {v pc : Word}

/-- The core whose issuer's only operation has retired. -/
def retiredOne (s : State) (c : Nat) (k : Option Nat) (o : LongOp) : State := retireOp (pendingOne s c k o) c k o []

theorem otherSet_pendingOne (o : LongOp) : OtherSet s (pendingOne s c k o) c k := otherSet_modThr s c k _ fun _ => rfl

theorem otherSet_retiredOne : OtherSet s (retiredOne s c k (plainOp kind rd v pc m)) c k :=
  ((otherSet_pendingOne _).trans (otherSet_modThr _ c k (fun t => { t with pend := [] }) fun _ => rfl)).trans (otherSet_putReg _ c k rd v)

theorem thr_retiredOne (h : Ready s c k 4) : (retiredOne s c k (plainOp kind rd v pc m)).thr c k =
    { s.thr c k with r := (s.thr c k).r.put rd v } := thr_retireOp_sound h.calm.pend rfl rfl

/-- An operation that is ready by the cycle of issue retires before the instruction. -/
theorem catchUp_pendingOne_due (h : Ready s c k 4) (hm : m ≤ issueCyc s c) :
    catchUp (pendingOne s c k (plainOp kind rd v pc m)) c = retiredOne s c k (plainOp kind rd v pc m) := by
  have hcyc := (otherSet_pendingOne (s := s) (c := c) (k := k) (plainOp kind rd v pc m)).own.issueCyc
  rw [catchUp, runTo_next (h.nextEvent_pendingOne rfl) (by rw [hcyc]; exact hm)]
  exact runTo_quiet (quiet_retireOp h (o := plainOp kind rd v pc m) (r := rd) (v := v) rfl) _ _

theorem catchUp_pendingOne_later (h : Ready s c k 4) (hm : issueCyc s c < m) :
    catchUp (pendingOne s c k (plainOp kind rd v pc m)) c = pendingOne s c k (plainOp kind rd v pc m) := by
  have hcyc := (otherSet_pendingOne (s := s) (c := c) (k := k) (plainOp kind rd v pc m)).own.issueCyc
  have hnext := h.nextEvent_pendingOne (o := plainOp kind rd v pc m) rfl
  rw [catchUp, hcyc]
  cases eventFuel (pendingOne s c k (plainOp kind rd v pc m)) c with
  | zero => rfl
  | succ fuel => rw [runTo, hnext]; exact if_neg (Nat.not_le.mpr hm)

theorem core_waitTo (x : State) (n : Nat) : (waitTo x c n).core c = { x.core c with cyc := max (issueCyc x c) n } :=
  core_modCore_self x c _

theorem issueCyc_waitTo (x : State) (n : Nat) : issueCyc (waitTo x c n) c = max (issueCyc x c) n := by
  have hnow : x.nowCyc ≤ issueCyc x c := Nat.le_max_right _ _
  rw [issueCyc, core_waitTo]
  exact Nat.max_eq_left (hnow.trans (Nat.le_max_left _ _))

/-- Waiting until everything has retired, with one operation pending. -/
theorem waitAll_pendingOne (h : Ready s c k 4) (hk : (kind != .store) = true) :
    waitAll (pendingOne s c k (plainOp kind rd v pc m)) c k = waitTo (retiredOne s c k (plainOp kind rd v pc m)) c m := by
  have hpwr : ((pendingOne s c k (plainOp kind rd v pc m)).thr c k).pwr = none := by rw [thr_pendingOne]; exact h.calm.pwr
  have hbusy : anyBusy c k (pendingOne s c k (plainOp kind rd v pc m)) = true := by
    simp only [anyBusy, thr_pendingOne, plainOp, List.any_cons, List.any_nil, hk, Bool.or_true, Bool.true_or]
  have hnext := h.nextEvent_pendingOne (o := plainOp kind rd v pc m) rfl
  have own := (otherSet_retiredOne (s := s) (c := c) (k := k) (kind := kind) (rd := rd) (m := m) (v := v) (pc := pc)).own
  have hfree : anyBusy c k (waitTo (retiredOne s c k (plainOp kind rd v pc m)) c m) = false := by
    simp only [anyBusy, vBusy, thr_waitTo, thr_retiredOne h, h.calm.pend, h.calm.pwr, core_waitTo, own.core_field (·.vq)
      (fun _ _ => rfl), own.core_field (·.jobs) (fun _ _ => rfl), h.vq, h.jobs]
    simp
  unfold waitAll
  simp only [judgePwr_none hpwr]
  rw [eventFuel, waitFor_next hbusy hnext]
  exact waitFor_idle hfree _

end

section
variable {s w : State} {c : Core} {k : Option Nat} {kind : LongKind} {rd n : Nat} {v pc : Word}

section
variable (hthr : w.thr c k = { s.thr c k with r := (s.thr c k).r.put rd v })
include hthr

theorem pcOf_of_put : pcOf w c k = pcOf s c k := by
  rw [pcOf, hthr, put_field (·.pc) fun _ _ => rfl, ← pcOf]

/-- SYNC completes behind the retirement of the only pending operation. -/
theorem issueGo_sync (h : Ready s c k 4) (fuel : Nat) :
    issueGo c k { all := true } (pcOf s c k) (fun x _ _ => .ok x 1) (fuel + 1) w =
      (begun w c k 4).modCore c fun y => { y with cyc := issueCyc w c + 1 } := by
  rw [← pcOf_of_put hthr]
  exact issueGo_ok (by rw [hthr]; exact h.calm.held) (by rw [hthr]; exact h.calm.slot) rfl fuel

theorem retired_concluded (h : Ready s c k 4) (hcyc : issueCyc w c = issueCyc s c + n) :
    let t := settle ((begun w c k 4).modCore c fun y => { y with cyc := issueCyc w c + 1 })
    RegIs s t c k rd v ∧ nzcv t c k = nzcv s c k ∧ (t.thr c k).pend = [] ∧ Took s t c (n + 1) ∧ Advanced s t c k 4 := by
  intro t
  have ht : t.thr c k = (begun w c k 4).thr c k := thr_concluded _ c k _
  refine ⟨fun m => ?_, ?_, ?_, ?_, ?_⟩
  · rw [gpr, ht, ← gpr, begun_gpr, gpr, hthr, get_put]
    rfl
  · rw [nzcv, ht, ← nzcv, begun_nzcv, nzcv, hthr, flags_put]
    rfl
  · rw [ht, begun_thr, hthr]
    exact h.calm.pend
  · rw [Took, core_concluded, hcyc]
    rfl
  · rw [Advanced, ht, begun_thr, pcOf_of_put hthr, hthr]
    exact nextPc_put _ rd v _ 4

end

/-- SYNC behind a pending operation that is ready n cycles from issue. -/
theorem Ready.sync_pendingOne (h : Ready s c k 4) (hk : (kind != .store) = true) :
    Runs (pendingOne s c k (plainOp kind rd v pc (issueCyc s c + n))) c (.sync c) (fun t =>
      RegIs s t c k rd v ∧ nzcv t c k = nzcv s c k ∧ (t.thr c k).pend = [] ∧ Took s t c (n + 1) ∧ Advanced s t c k 4) := by
  set o := plainOp kind rd v pc (issueCyc s c + n)
  have hu : Use.Plain { all := true } := ⟨rfl, rfl, rfl, rfl, rfl⟩
  have hret : (retiredOne s c k o).thr c k = { s.thr c k with r := (s.thr c k).r.put rd v } := thr_retiredOne h
  have hother : OtherSet s (retiredOne s c k o) c k := otherSet_retiredOne
  refine runs_of_exec (t := sync (pendingOne s c k o) c) rfl ?_
  unfold sync
  rcases Nat.eq_zero_or_pos n with rfl | hn
  · have hquiet : Quiet (retiredOne s c k o) c := quiet_retireOp h (o := o) (r := rd) (v := v) rfl
    have hdue : Machine.catchUp (pendingOne s c k o) c = retiredOne s c k o := catchUp_pendingOne_due h (Nat.le_refl _)
    have hdone : Machine.catchUp (retiredOne s c k o) c = retiredOne s c k o := runTo_quiet hquiet _ _
    have hw : Machine.issueWaits (retiredOne s c k o) c k { all := true } = retiredOne s c k o :=
      issueWaits_done (by rw [hret]; exact ⟨h.calm.pend, h.calm.pwr⟩) hquiet.vq hquiet.jobs _
    rw [issueI_caughtUp hdue hdone, hother.issueI h hu (by rw [hret]; exact h.calm.held) hdone, hw, pcOf_of_put hret,
      issueGo_sync hret h]
    exact retired_concluded hret h hother.own.issueCyc
  · have hlater : Machine.catchUp (pendingOne s c k o) c = pendingOne s c k o :=
      catchUp_pendingOne_later h (Nat.lt_add_of_pos_right hn)
    have hw : Machine.issueWaits (pendingOne s c k o) c k { all := true } = waitTo (retiredOne s c k o) c (issueCyc s c + n) :=
      waitAll_pendingOne h hk
    have hthr : (waitTo (retiredOne s c k o) c (issueCyc s c + n)).thr c k = _ := (thr_waitTo _ _).trans hret
    have hcyc : issueCyc (waitTo (retiredOne s c k o) c (issueCyc s c + n)) c = issueCyc s c + n := by
      rw [issueCyc_waitTo, hother.own.issueCyc]
      exact Nat.max_eq_right (Nat.le_add_right _ _)
    rw [(otherSet_pendingOne o).issueI h hu (by rw [thr_pendingOne]; exact h.calm.held) hlater, hw,
      (otherSet_pendingOne o).pcOf, issueGo_sync hthr h]
    exact retired_concluded hthr h hcyc

end

-- NOP and SYNC (R149) -------------------------------------------------------------------------------------------------------

section
variable {s : State} {c : Core} {k : Option Nat} {i : Instr} {u : Use} {act : State → Option Nat → Nat → Out}

/-- An instruction of one cycle without an effect. -/
theorem Ready.nothing (h : Ready s c k 4) (hu : Allowed s c k u) (he : exec i s = runs s c i (issueI s c u fun x _ _ => .ok x 1)) :
    Runs s c i (fun t => Computes s t c k 0 0 (nzcv s c k) 1) := by
  refine h.runs_ok (x := begun s c k 4) (n := 1) hu he rfl ?_
  obtain ⟨hregs, hflags, hnext, htook⟩ := passes_concluded (s := s) (c := c) (k := k) (u := begun s c k 4) rfl 1
  refine ⟨fun m => (hregs m).trans (if_neg fun e => e.2 e.1).symm, hflags, hnext, htook,
    scalarFrame_concluded (ownSet_begun s c k 4) ?_⟩
  rw [begun_thr, ← h.calm.slot]

-- The wrong mode (R149, R160) -----------------------------------------------------------------------------------------------

/-- An exception of the instruction set has been taken at level 5 or above the level that runs. -/
def TookFault (s : State) (c : Nat) (k : Option Nat) (code : Nat) (t : State) : Prop :=
  Entered s t c k (max 5 (mlOf s c k + 1)) code (pcOf s c k) ∧ ∀ n, gpr t c k n = gpr s c k n

theorem Ready.runs_fault (h : Ready s c k 4) (hs : secOf s c k = none) (hm : mlOf s c k < 7)
    (he : exec i s = runs s c i (issueI s c u act)) (hsize : u.size = 4) {code info n : Nat} (hcode : levelOf code = 5)
    (hf : issueFault s c k u (pcOf s c k) = some (scalarFault code (pcOf s c k) info n)) :
    Runs s c i (TookFault s c k code) := by
  have hlt : code < cTRAP := by
    unfold levelOf at hcode
    unfold cTRAP
    split_ifs at hcode
    all_goals omega
  have hlevel : (scalarFault code (pcOf s c k) info n).level = 5 := hcode
  refine runs_of_exec he ?_
  rw [issueI_fault act (hsize.symm ▸ h) hf]
  have ht := preciseFault_trapped c.isLt h.calm.slot hs (f := scalarFault code (pcOf s c k) info n) hlt
    (by rw [hlevel]; omega) (pcOf s c k)
  rw [hlevel] at ht
  exact ⟨ht.entered, ht.regs⟩

/-- A function of the supervisor in tenant mode (R160). -/
theorem Ready.priv (h : Ready s c k 4) (hs : secOf s c k = none) (hm : mlOf s c k < 7)
    (he : exec i s = runs s c i (issueI s c u act)) (hsize : u.size = 4) (hp : u.supOnly = true) (hk : k ≠ none) :
    Runs s c i (TookFault s c k cPRIV) := by
  have hsome : k.isSome = true := Option.isSome_iff_ne_none.mpr hk
  have hlast : fetchOk s c k (pcOf s c k + u.size - 4) = true := hsize.symm ▸ h.last
  refine h.runs_fault hs hm he hsize rfl (info := (fetchWord s c (pcOf s c k)).toNat) (n := issueCyc s c) ?_
  unfold issueFault
  simp only [h.first, hlast, h.word, hp, hsome, Bool.and_self, Bool.not_true, Bool.false_eq_true, if_false, if_true]

/-- A function of the tenants in supervisor mode (R149). -/
theorem Ready.tenantOnly (h : Ready s c none 4) (hm : mlOf s c none < 7)
    (he : exec i s = runs s c i (issueI s c u act)) (hsize : u.size = 4) (hp : u.supOnly = false) (ht : u.tenOnly = true) :
    Runs s c i (TookFault s c none cILLEGAL) := by
  have hlast : fetchOk s c none (pcOf s c none + u.size - 4) = true := hsize.symm ▸ h.last
  refine h.runs_fault rfl hm he hsize rfl (info := (fetchWord s c (pcOf s c none)).toNat) (n := issueCyc s c) ?_
  unfold issueFault
  simp only [h.first, hlast, h.word, hp, ht, Option.isNone_none, Bool.and_self, Bool.or_true, Bool.not_true, Bool.false_and,
    Bool.false_eq_true, if_false, if_true]

/-- The third part of the statement. -/
theorem wrongMode : Clause.WrongMode := by
  intro s c k imm h hs hm traps
  refine ⟨fun hk => ⟨h.priv hs hm rfl rfl rfl hk, h.priv hs hm rfl rfl rfl hk, h.priv hs hm rfl rfl rfl hk⟩, fun hk => ?_⟩
  subst hk
  exact ⟨h.tenantOnly hm rfl rfl rfl rfl, h.tenantOnly hm rfl rfl rfl rfl, h.tenantOnly hm rfl rfl rfl rfl,
    h.tenantOnly hm rfl rfl rfl rfl⟩

/-- The second part of the statement. -/
theorem syncWaits : Clause.SyncWaits := fun _ _ _ _ _ _ _ h => h.sync_pendingOne rfl

end

-- TRAP (R160, R184) -----------------------------------------------------------------------------------------------------------

section
variable {s : State} {c : Core} {q : Nat}

/-- TRAP's fault (R147). -/
def trapFault (s : State) (c : Nat) (k : Option Nat) (n : Nat) : FaultRec :=
  { scalarFault cTRAP (pcOf s c k) 0 (issueCyc s c) with trap := n % 256 }

/-- TRAP of a context enters supervisor mode, and returns behind itself. -/
theorem preciseFault_trap (hd : (s.thr c (some q)).dslot = []) (hs : secOf s c (some q) = none) (hm : mlOf s c (some q) < 7)
    (n : Nat) :
    let u := (takeSlot s c (some q)).2
    let l := max 1 (mlOf s c (some q) + 1)
    let b := faultBank u c (some q) l (trapFault s c (some q) n) (pcOf s c (some q) + 4)
    preciseFault s c (some q) (trapFault s c (some q) n) (pcOf s c (some q)) =
      enter (u.setReg rEZ_CAUSE c 0 b.cause) c (some q) l b := by
  intro u l b
  have hu : AtBoundary s u c (some q) := atBoundary_takeSlot s c (some q)
  have he : preciseFault s c (some q) (trapFault s c (some q) n) (pcOf s c (some q)) =
      takeFault u c (some q) (trapFault s c (some q) n) (pcOf s c (some q) + 4) := by
    unfold preciseFault
    simp only [takeSlot, hd, landSlot, putRegs, List.filter_nil, List.foldl_nil]
    rfl
  have hl : max (trapFault s c (some q) n).level (mlOf u c (some q) + 1) = l := by rw [hu.ml]; rfl
  have hle : l ≤ 7 := by omega
  have henter := takeFault_enters (s := u) (c := c) (k := some q) (f := trapFault s c (some q) n) (pcOf s c (some q) + 4)
    (hu.sec.trans hs) (hl.trans_le hle)
  rw [he, henter]
  have hmark : faultMarked u c (trapFault s c (some q) n) = u := rfl
  simp only [hmark, hl]
  rfl

/-- Bits 31–24 of the cause word hold the number of a TRAP (R190). -/
theorem trap_number {f : FaultRec} (hsub : f.sub = 0) (himp : f.imp = false) (hlevel : f.level ≤ 7) (hcode : f.code < 256)
    (hq : q < 8) {l : Nat} (hl : l ≤ 7) : bits (causeWord f q false false l).toNat 24 8 = f.trap % 256 := by
  simp only [causeWord, w32, bits, BitVec.toNat_ofNat, hsub, himp, b2n, Bool.false_eq_true, if_false]
  omega

theorem Ready.trap (h : Ready s c (some q) 4) (hend : NotAtEnd s c (some q) 4) (hs : secOf s c (some q) = none)
    (hm : mlOf s c (some q) < 7) (imm : BitVec 16) :
    let l := max 1 (mlOf s c (some q) + 1)
    Runs s c (.trap c 0 0 imm) (fun t =>
      Entered s t c (some q) l 0x50 (pcOf s c (some q) + 4) ∧
      bits (tget Bank.init (t.core c).banks l).cause.toNat 24 8 = imm.toNat % 256 ∧
      (∀ n, gpr t c (some q) n = gpr s c (some q) n) ∧ nzcv t c (some q) = nzcv s c (some q)) := by
  intro l
  have hle : l ≤ 7 := by omega
  have hu : AtBoundary s (takeSlot s c (some q)).2 c (some q) := atBoundary_takeSlot s c (some q)
  refine h.runs_act (o := .flt (trapFault s c (some q) imm.toNat))
    ⟨rfl, rfl, fun e => absurd e (by simp), fun _ => by simp, fun _ => hend⟩ rfl ?_ ?_
  · have hsec : inSection (begun s c (some q) 4) c (some q) = false := by simp [inSection, secOf_begun hs]
    simp only [hsec, (ownSet_begun s c (some q) 4).issueCyc]
    rfl
  rw [concluded, preciseFault_trap h.calm.slot hs hm]
  have ht := hu.trapped (f := trapFault s c (some q) imm.toNat) (l := l) (show cTRAP < 256 by decide) hle
    (faultBank (takeSlot s c (some q)).2 c (some q) l (trapFault s c (some q) imm.toNat) (pcOf s c (some q) + 4)).cause
    (pcOf s c (some q) + 4)
  refine ⟨ht.entered, ?_, ht.regs, congrArg RSet.flags hu.regs⟩
  rw [core_settle, core_enter, tget_tput_self]
  exact (trap_number rfl rfl (show levelOf cTRAP ≤ 7 by decide) (show cTRAP < 256 by decide) (h.ctx8 q rfl) hle).trans (Nat.mod_mod _ _)

end

-- WAIT (R149) ---------------------------------------------------------------------------------------------------------------

section
variable {s t : State} {c : Core}

theorem Quiet.kept {c : Nat} (h : Quiet s c) (hs : SetsKept s t c) (hp : SpanKept s t c) : Quiet t c :=
  ⟨h.sets.kept hs, hp.jobs.trans h.jobs, hp.vq.trans h.vq, hp.br.trans h.br⟩

theorem Quiet.toIssue {c : Nat} (h : Quiet s c) : Quiet (Machine.toIssue s c) c :=
  ⟨⟨h.sets.sup, h.sets.own⟩, h.jobs, h.vq, h.br⟩

theorem Quiet.settle {c : Nat} (h : Quiet s c) : Quiet (Machine.settle s) c := ⟨⟨h.sets.sup, h.sets.own⟩, h.jobs, h.vq, h.br⟩

theorem sameWork_idleRelease (s : State) (c : Nat) : SameWork s (idleRelease s c) := by
  unfold idleRelease
  refine .ite (sameWork_foldl _ (fun x e => ?_) _ s) (.of_cores rfl)
  exact sameWork_setCore x c _ rfl

theorem ctxs_idleRelease (s : State) (c : Nat) : (idleRelease s c).ctxs = s.ctxs :=
  (onlySignals_idleRelease s c).field (·.ctxs) fun _ _ _ _ _ _ _ _ _ => rfl

theorem setsKept_idleRelease (s : State) (c : Nat) : SetsKept s (idleRelease s c) c where
  thr k := by
    cases k with
    | none => exact (sameWork_idleRelease s c).field (·.thr) (fun _ _ => rfl) c
    | some q => rw [State.thr, State.ctx, ctxs_idleRelease]; rfl
  own := congrArg (Option.map Run.ctx) ((sameWork_idleRelease s c).field (·.run) (fun _ _ => rfl) c)

theorem spanKept_idleRelease (s : State) (c : Nat) : SpanKept s (idleRelease s c) c where
  vq := (sameWork_idleRelease s c).field (·.vq) (fun _ _ => rfl) c
  jobs := (sameWork_idleRelease s c).field (·.jobs) (fun _ _ => rfl) c
  br := (sameWork_idleRelease s c).field (·.br) (fun _ _ => rfl) c
  vfin := (sameWork_idleRelease s c).field (·.vfin) (fun _ _ => rfl) c

/-- A core that has entered WAIT, before its request line is looked at. -/
def waiting (s : State) (c : Nat) : State := (toIssue (begun s c none 4) c).modCore c fun y => { y with waiting := true }

theorem thr_waited : (idleRelease (waiting s c) c).thr c none = (begun s c none 4).thr c none := by
  rw [(setsKept_idleRelease _ c).thr, waiting,
    (setsKept_modCore _ c (fun y => { y with waiting := true }) (fun _ => rfl) fun _ => rfl).thr, thr_toIssue]

theorem waiting_waited : ((idleRelease (waiting s c) c).core c).waiting = true := by
  rw [(sameWork_idleRelease _ c).field (·.waiting) fun _ _ => rfl, waiting, core_modCore_self]

/-- Without a request that is enabled the line stays low. -/
theorem lineHigh_waited (hen : s.fb fIC_CTL_EN c = false) : lineHigh (idleRelease (waiting s c) c) c = false := by
  have hregs : (idleRelease (waiting s c) c).regs = s.regs :=
    (regs_idleRelease _ c).trans ((ownSet_begun s c none 4).dev_field (·.regs) fun _ _ _ => rfl)
  have hfb : (idleRelease (waiting s c) c).fb fIC_CTL_EN c = false := by
    rw [← hen]
    simp only [State.fb, State.f, State.reg, hregs]
  unfold lineHigh
  simp only [hfb, Bool.false_and]

/-- Nothing is due at a core that has entered WAIT. -/
theorem Ready.quiet_waited (h : Ready s c none 4) (n : Nat) :
    Quiet (settle ((idleRelease (waiting s c) c).modCore c fun y => { y with cyc := n })) c := by
  have hbegun : Quiet (begun s c none 4) c := h.quiet.ownSet (ownSet_begun s c none 4) (by
    rw [begun_thr]
    exact ⟨h.calm.pend, h.calm.pwr⟩)
  have hwait : Quiet (waiting s c) c := hbegun.toIssue.kept
    (setsKept_modCore _ c (fun y => { y with waiting := true }) (fun _ => rfl) fun _ => rfl)
    (spanKept_modCore _ c c (fun y => { y with waiting := true }) fun _ => ⟨rfl, rfl, rfl, rfl⟩)
  have hcyc (x : State) : Quiet x c → Quiet (x.modCore c fun y => { y with cyc := n }) c := fun hx => hx.kept
    (setsKept_modCore x c (fun y => { y with cyc := n }) (fun _ => rfl) fun _ => rfl)
    (spanKept_modCore x c c (fun y => { y with cyc := n }) fun _ => ⟨rfl, rfl, rfl, rfl⟩)
  exact (hcyc _ (hwait.kept (setsKept_idleRelease _ c) (spanKept_idleRelease _ c))).settle

theorem Ready.wait (h : Ready s c none 4) (hend : NotAtEnd s c none 4) (hen : s.fb fIC_CTL_EN c = false) :
    Runs s c (.wait c) (fun t => (t.core c).waiting = true ∧ Took s t c 1 ∧ (∀ n, gpr t c none n = gpr s c none n) ∧
      exec (.nop c) t = .next t) := by
  refine h.runs_ok (x := idleRelease (waiting s c) c) (n := 1)
    ⟨rfl, rfl, fun _ => rfl, fun e => absurd e (by simp), fun _ => hend⟩ rfl ?_ ?_
  · exact congrArg (Out.ok · 1) (if_neg (by rw [← waiting, lineHigh_waited hen]; simp))
  have hquiet := h.quiet_waited (issueCyc s c + 1)
  have hwait : ((settle ((idleRelease (waiting s c) c).modCore c fun y => { y with cyc := issueCyc s c + 1 })).core c).waiting =
      true := by
    rw [core_concluded]
    exact waiting_waited
  generalize hx : settle ((idleRelease (waiting s c) c).modCore c fun y => { y with cyc := issueCyc s c + 1 }) = x at *
  have hset : settle x = x := by rw [← hx, settle_settle]
  refine ⟨hwait, ?_, fun n => ?_, ?_⟩
  · rw [← hx]
    exact took_concluded s _ c 1
  · rw [← hx, gpr, thr_concluded, thr_waited, ← gpr, begun_gpr]
  · have hcan : canIssue x c = false := by simp [canIssue, hwait]
    have hheld : issueI x c {} (fun y _ _ => .ok y 1) = x := issueI_held _ (runTo_quiet hquiet _ _) hcan
    change runs x c (.nop c) (issueI x c {} fun y _ _ => .ok y 1) = _
    rw [hheld, runs, ite_self, done, hset]

/-- The first part of the statement. -/
theorem systemRuns : Clause.SystemRuns :=
  ⟨fun _ _ _ h => ⟨h.nothing (allowed_anywhere rfl rfl rfl rfl rfl) rfl, h.nothing (allowed_anywhere rfl rfl rfl rfl rfl) rfl⟩,
    fun _ _ _ imm h hend hs hm => h.trap hend hs hm imm, fun _ _ h hend hen => h.wait hend hen⟩

/-- Settles O10: what passes, waits or traps at a ready core, SYNC behind a pending operation, and the wrong modes. -/
theorem systemInstructions : Obligations.SystemInstructions := ⟨systemRuns, syncWaits, wrongMode⟩

end
end Sys2Proof.Machine
end

section
/-! PROOFS. Loads (R141, R142, R147, R150, R151): what a load of a ready core leaves of the Tray, the Plate and the DRAM, and the
delay slot of a Tray load. -/

namespace Sys2Proof.Machine
open Sys2Proof

-- What a load sees of the device ----------------------------------------------------------------------------------------------

section
variable {s t : State} {c : Nat} {k : Option Nat}

theorem ctx_tenant (s : State) (n q : Nat) :
    (s.ctx n q).tenant = ((tfind s.ctxs (8 * n + q)).map Ctx.tenant).getD (8 * n + q) := by
  unfold State.ctx
  cases tfind s.ctxs (8 * n + q) <;> rfl

/-- No context's tenant changes with the issuer's own set. -/
theorem OwnSet.tenants (h : OwnSet s t c k) (n q : Nat) : (t.ctx n q).tenant = (s.ctx n q).tenant := by
  by_cases hk : k.map (8 * c + ·) = some (8 * n + q)
  · obtain ⟨x, rfl, hx⟩ := Option.map_eq_some_iff.mp hk
    have hown := h.tenant x
    rw [ctx_tenant, ctx_tenant, hx] at hown
    rw [ctx_tenant, ctx_tenant, hown]
  · rw [ctx_tenant, ctx_tenant, h.ctxs _ hk]

theorem OwnSet.ownerOf (h : OwnSet s t c k) : ownerOf t c k = ownerOf s c k := by
  cases k with
  | none => rfl
  | some q => exact h.tenant q

theorem any_run_modThr (P : Nat → Option Run → Bool) (hP : ∀ n, P n none = false) (s : State) (c : Nat) (k : Option Nat)
    (f : Thr → Thr) : ((s.modThr c k f).cores.any fun e => P e.1 e.2.run) = s.cores.any fun e => P e.1 e.2.run := by
  cases k with
  | none => exact any_run_tput P hP s.cores c _ rfl
  | some q => rfl

theorem cores_countRetired (s : State) (c : Nat) (k : Option Nat) : (countRetired s c k).cores = s.cores := by
  cases k with
  | none => rfl
  | some q =>
    unfold countRetired
    dsimp only
    split <;> rfl

/-- Which owners have an activation running does not change as an instruction begins. -/
theorem ownerRuns_begun (n o : Nat) : ownerRuns (begun s c k n) o = ownerRuns s o := by
  have hten := (ownSet_begun s c k n).tenants
  have hany := fun P hP => (any_run_modThr P hP (s.modThr c k fun t => { t with dslot := [] }) c k
    fun t => { t with r := nextPc t.r (pcOf s c k) n }).trans (any_run_modThr P hP s c k fun t => { t with dslot := [] })
  simp only [ownerRuns, hten]
  rw [begun, cores_countRetired]
  exact hany (fun m r => match r with | some r => (s.ctx m r.ctx).tenant == o | none => false) fun _ => rfl

theorem plateResolve_begun (n m a : Nat) (wr : Bool) : plateResolve (begun s c k n) m a wr = plateResolve s m a wr := by
  have ho := ownSet_begun s c k n
  have hmap : (begun s c k n).effReg rSHM_MAP m (a / 2 ^ 18) = s.effReg rSHM_MAP m (a / 2 ^ 18) :=
    ho.dev_field (·.effReg rSHM_MAP m (a / 2 ^ 18)) fun _ _ _ => rfl
  have hheld (x : Nat) : sheetHeld (begun s c k n) x = sheetHeld s x := by
    have hown : (begun s c k n).f fSHM_OWNER_OWNER x = s.f fSHM_OWNER_OWNER x := ho.dev_field (·.f fSHM_OWNER_OWNER x) fun _ _ _ => rfl
    have hst : (begun s c k n).f fSHM_OWNER_STATE x = s.f fSHM_OWNER_STATE x := ho.dev_field (·.f fSHM_OWNER_STATE x) fun _ _ _ => rfl
    have hks : (begun s c k n).ks = s.ks := ho.dev_field (·.ks) fun _ _ _ => rfl
    simp only [sheetHeld, hown, hst, hks, ownerRuns_begun]
  have hword : sheetWord (begun s c k n) m a wr = sheetWord s m a wr := by simp only [sheetWord, hmap, hheld]
  have hquad (w : Nat) : quadFailed (begun s c k n) w = quadFailed s w := ho.dev_field (quadFailed · w) fun _ _ _ => rfl
  have hlost : wordLost (begun s c k n) m a wr = wordLost s m a wr := by
    unfold wordLost
    rw [hword]
    cases sheetWord s m a wr with
    | ok w => exact hquad w
    | error e => rfl
  rw [plateResolve, plateResolve, hlost, hword]

theorem dataSpace_plate {a n b : Nat} (h : InPlate a n b) : dataSpace s c k a n = .ok (.plate b) := by
  obtain ⟨rfl, hb, hn⟩ := h
  unfold dataSpace
  rw [if_neg (by simp; omega), if_neg (by simp [hn]), if_neg (by omega), if_pos (by simp; omega), Nat.add_sub_cancel_left]

theorem dataSpace_dram {a n p : Nat} (h : InDram s c k a n p) : dataSpace (begun s c k 4) c k a n = .ok (.dram p) := by
  obtain ⟨ha, hn, hdl, hp, -, -⟩ := h
  have ho := ownSet_begun s c k 4
  have hdl' : dlSet (begun s c k 4) c k = false := by
    rw [← hdl]
    cases k with
    | none => rfl
    | some q => exact ho.ctx_field (·.dl) fun _ _ _ => rfl
  have hp' : dramAddr (begun s c k 4) (ownerOf (begun s c k 4) c k) (a - 0x80000000) = some p := by
    rw [ho.ownerOf, ← hp]
    exact ho.dev_field (dramAddr · _ _) fun _ _ _ => rfl
  unfold dataSpace
  rw [if_neg (by simp [hdl']), if_neg (by simp [hn]), if_pos ha, hp']

/-- No vector work holds a Plate or DRAM access of a ready core (R84). -/
theorem Ready.vBusyOf_begun {n : Nat} (h : Ready s c k n) (m : Nat) : vBusyOf c k (begun s c k m) = false := by
  have ho := ownSet_begun s c k m
  have hvq : ((begun s c k m).core c).vq = [] := (ho.core_field (·.vq) fun _ _ => rfl).trans h.vq
  have hjobs : ((begun s c k m).core c).jobs = [] := (ho.core_field (·.jobs) fun _ _ => rfl).trans h.jobs
  simp [vBusyOf, vBusy, hvq, hjobs]

end

-- The registers of a loaded value (R147) ---------------------------------------------------------------------------------------

theorem length_trayBytes (s : State) (c a n : Nat) : (trayBytes s c a n).length = n := by
  induction n generalizing a with
  | zero => rfl
  | succ n ih => rw [trayBytes, List.length_cons, ih]

theorem loadRegs_signed (rd : Nat) {n : Nat} (hn : n ≠ 8) (v : Nat) :
    loadRegs rd n v true = [(rd, (BitVec.ofNat (8 * n) v).signExtend 32)] := by
  rw [loadRegs, if_neg hn, if_pos rfl, sextW_eq]

theorem loadRegs_unsigned (rd : Nat) {n v : Nat} (hn : n ≠ 8) (hv : v < 2 ^ (8 * n)) :
    loadRegs rd n v false = [(rd, (BitVec.ofNat (8 * n) v).zeroExtend 32)] := by
  have hx : w32 v = (BitVec.ofNat (8 * n) v).zeroExtend 32 := by
    apply BitVec.eq_of_toNat_eq
    rw [w32, BitVec.toNat_setWidth, BitVec.toNat_ofNat, BitVec.toNat_ofNat, Nat.mod_eq_of_lt hv]
  rw [loadRegs, if_neg hn, hx]
  rfl

theorem loadRegs_pair (rd : Nat) {v : Nat} (hv : v < 2 ^ 64) (signed : Bool) : loadRegs rd 8 v signed =
    [(rd, (BitVec.ofNat 64 v).truncate 32), (rd + 1, (BitVec.ofNat 64 v >>> 32).truncate 32)] := by
  rw [loadRegs, if_pos rfl, low_word, high_word hv]

-- Loads (R147, R150) -----------------------------------------------------------------------------------------------------------

section
variable {s : State} {c : Core} {k : Option Nat} {i : Instr} {rd ra n b : Nat} {imm : BitVec 16} {signed : Bool} {P : State → Prop}

/-- What a load of a ready core leaves whose address resolves. -/
theorem Ready.runs_load (h : Ready s c k 4) (he : exec i s = runs s c i (load s c rd ra imm n signed))
    (hodd : n = 8 → rd % 2 = 0) {d : DSpace} (hd : dataSpace (begun s c k 4) c k (dataAddr s c k ra imm) n = .ok d)
    {x : State} {m : Nat}
    (hx : loadAct (begun s c k 4) c k (pcOf s c k) (dataAddr s c k ra imm) rd n signed d = .ok x m)
    (hP : P (settle (x.modCore c fun y => { y with cyc := issueCyc s c + m }))) : Runs s c i P := by
  have hill : (n == 8 && rd % 2 == 1) = false := by
    by_cases h8 : n = 8
    · simp [h8, hodd h8]
    · simp [h8]
  refine h.runs_ok (n := m) (allowed_anywhere rfl hill rfl rfl rfl) he ?_ hP
  dsimp only
  rw [dataAddr_begun, hd]
  exact hx

/-- The state that a Tray load leaves: its result waits for the delay slot. -/
def slotted (s : State) (c : Nat) (k : Option Nat) (rs : List (Nat × Word)) : State :=
  (begun s c k 4).modThr c k fun t => { t with dslot := rs }

/-- A Tray load reads the bytes as they stand, and leaves the rest alone (R141, R151). -/
theorem Ready.loadTray (h : Ready s c k 4) (he : exec i s = runs s c i (load s c rd ra imm n signed))
    (hodd : n = 8 → rd % 2 = 0) (ha : InTray k (dataAddr s c k ra imm) n b) (hclean : TrayClean s c b) :
    Runs s c i (fun t => (t.thr c k).dslot = loadRegs rd n (leVal (trayBytes s c b n)) signed ∧ Passes s t c k 1 ∧
      { t with cores := s.cores, ctxs := s.ctxs, pm := s.pm } = s) := by
  have ho := ownSet_begun s c k 4
  have hclean' : TrayClean (begun s c k 4) c b := (ho.dev_field (tget 0 ·.trayEcc (trayKey c b / 8)) fun _ _ _ => rfl).trans hclean
  have hbytes : trayBytes (begun s c k 4) c b n = trayBytes s c b n :=
    trayBytes_congr (ho.dev_field (·.tray) fun _ _ _ => rfl) ho.trayFog b n
  let rs := loadRegs rd n (leVal (trayBytes s c b n)) signed
  have hthr : (slotted s c k rs).thr c k = { (begun s c k 4).thr c k with dslot := rs } := thr_modThr_self _ c k _
  refine h.runs_load (x := slotted s c k rs) (m := 1) he hodd (dataSpace_tray _ c ha) ?_ ⟨?_, passes_of_rset ?_ 1, ?_⟩
  · simp only [loadAct, trayCheck_clean hclean', hbytes, if_true]
    rfl
  · rw [thr_concluded, hthr]
  · rw [hthr]
  · exact ((ho.trans (ownSet_modThr _ c k _)).dev_field (fun x => { x with cores := s.cores, ctxs := s.ctxs, pm := s.pm })
      fun _ _ _ => rfl)

end

/-- The first part of the statement. -/
theorem trayLoads : Clause.TrayLoads := by
  intro s c k rd ra imm b h a v loads
  have hlt (n : Nat) : v n < 2 ^ (8 * n) := by
    have := leVal_lt (trayBytes s c b n)
    rwa [length_trayBytes] at this
  have reads {i : Instr} {n : Nat} {signed : Bool} {rs : List (Nat × Word)}
      (he : exec i s = runs s c i (load s c rd ra imm n signed)) (hodd : n = 8 → rd.val % 2 = 0)
      (hrs : loadRegs rd n (v n) signed = rs) : loads i n rs := fun ha hclean => hrs ▸ h.loadTray he hodd ha hclean
  exact ⟨reads rfl (by simp) (loadRegs_signed _ (by decide) _), reads rfl (by simp) (loadRegs_unsigned _ (by decide) (hlt 1)),
    reads rfl (by simp) (loadRegs_signed _ (by decide) _), reads rfl (by simp) (loadRegs_unsigned _ (by decide) (hlt 2)),
    reads rfl (by simp) rfl, fun hr => reads rfl (fun _ => hr) (loadRegs_pair _ (hlt 8) _)⟩

-- The delay slot (R151) ----------------------------------------------------------------------------------------------------------

/-- An act that completes, of the instruction in a load's delay slot. -/
theorem issueGo_slot {t : State} {c : Nat} {k : Option Nat} {u : Use} (hall : u.all = false) (hheld : (t.thr c k).held = [])
    {act : State → Option Nat → Nat → Out} {x : State} {n : Nat} (hx : act (begun t c k u.size) k (pcOf t c k) = .ok x n)
    (fuel : Nat) : issueGo c k u (pcOf t c k) act (fuel + 1) t =
      (landSlot x c k (t.thr c k).dslot u.writes).modCore c fun y => { y with cyc := issueCyc t c + n } := by
  have hdue : heldDue t c k = false := by simp [heldDue, hheld]
  have hb : countRetired ((t.modThr c k fun t => { t with dslot := [] }).modThr c k fun y =>
      { y with r := nextPc y.r (pcOf t c k) u.size }) c k = begun t c k u.size := rfl
  unfold issueGo
  simp only [hdue, takeSlot, hall, Bool.false_eq_true, if_false, hb, hx]

section
variable {s : State} {c : Core} {k : Option Nat} {i : Instr} {u : Use} {act : State → Option Nat → Nat → Out}

/-- The core whose issuer's last load waits in the delay slot. -/
def slotOne (s : State) (c : Nat) (k : Option Nat) (rd : Nat) (v : Word) : State :=
  s.modThr c k fun t => { t with dslot := [(rd, v)] }

theorem thr_slotOne (rd : Nat) (v : Word) : (slotOne s c k rd v).thr c k = { s.thr c k with dslot := [(rd, v)] } :=
  thr_modThr_self s c k _

/-- The loaded value lands behind the instruction, unless that wrote the register itself. -/
theorem Ready.runs_slotOne (h : Ready s c k 4) (hu : u.Plain) (hall : u.all = false) {rd : Nat} {v : Word}
    (he : exec i (slotOne s c k rd v) = runs (slotOne s c k rd v) c i (issueI (slotOne s c k rd v) c u act)) {x : State} {n : Nat}
    (hx : act (begun (slotOne s c k rd v) c k 4) k (pcOf s c k) = .ok x n) {P : State → Prop}
    (hP : P (settle ((landSlot x c k [(rd, v)] u.writes).modCore c fun y => { y with cyc := issueCyc s c + n }))) :
    Runs (slotOne s c k rd v) c i P := by
  have hother : OtherSet s (slotOne s c k rd v) c k := otherSet_modThr s c k _ fun _ => rfl
  have hdone : ThrDone ((slotOne s c k rd v).thr c k) := by rw [thr_slotOne]; exact ⟨h.calm.pend, h.calm.pwr⟩
  have hheld : ((slotOne s c k rd v).thr c k).held = [] := by rw [thr_slotOne]; exact h.calm.held
  have hquiet : Quiet (slotOne s c k rd v) c := h.quiet.ownSet hother.own hdone
  have hx' : act (begun (slotOne s c k rd v) c k u.size) k (pcOf (slotOne s c k rd v) c k) = .ok x n := by
    rw [hu.size, hother.pcOf]
    exact hx
  refine runs_of_exec he ?_
  rw [hother.issueI h hu hheld (runTo_quiet hquiet _ _), issueWaits_done hdone hquiet.vq hquiet.jobs,
    issueGo_slot hall hheld hx', thr_slotOne, hother.own.issueCyc]
  exact hP

theorem landSlot_one (x : State) (c : Nat) (k : Option Nat) (rd : Nat) (v : Word) (ws : List Nat) :
    landSlot x c k [(rd, v)] ws = if rd ∈ ws then x else putReg x c k rd v := by
  by_cases h : rd ∈ ws <;> simp [landSlot, putRegs, h]

/-- A register behind the landing of a loaded value. -/
theorem gpr_landed (x : State) {rd : Nat} {ws : List Nat} (hrd : rd ∉ ws) (v : Word) (cyc m : Nat) :
    gpr (settle ((landSlot x c k [(rd, v)] ws).modCore c fun y => { y with cyc := cyc })) c k m =
      if m = rd ∧ m ≠ 0 then v else gpr x c k m := by
  rw [gpr, thr_concluded, landSlot_one, if_neg hrd, thr_putReg, get_put]
  rfl

theorem gpr_slotOne (rd m : Nat) (v : Word) : gpr (begun (slotOne s c k rd v) c k 4) c k m = gpr s c k m := by
  rw [begun_gpr, gpr, thr_slotOne]
  rfl

/-- The second part of the statement. -/
theorem loadDelaySlot : Clause.LoadDelaySlot := by
  intro s c k rd v ra rb h hrd
  change Runs (slotOne s c k rd v) c _ _ ∧ Runs (slotOne s c k rd v) c _ _
  have hval : gpr (begun (slotOne s c k rd v) c k 4) c k rb ||| gpr (begun (slotOne s c k rd v) c k 4) c k rb = gpr s c k rb := by
    rw [gpr_slotOne, BitVec.or_self]
  refine ⟨h.runs_slotOne (x := begun (slotOne s c k rd v) c k 4) (n := 1) ⟨rfl, rfl, rfl, rfl, rfl⟩ rfl rfl rfl ⟨fun m => ?_, ?_, ?_, ?_⟩,
    h.runs_slotOne (x := putReg (begun (slotOne s c k rd v) c k 4) c k ra (gpr s c k rb)) (n := 1) ⟨rfl, rfl, rfl, rfl, rfl⟩ rfl rfl
      (congrArg (fun z => Out.ok (putReg (begun (slotOne s c k rd v) c k 4) c k ra z) 1) hval) fun m => ?_⟩
  · rw [gpr_landed _ (by simp), gpr_slotOne]
    by_cases hm : m = rd <;> simp [hm, hrd]
  · rw [thr_concluded, landSlot_one, if_neg (by simp), thr_putReg, begun_thr]
  · rw [nzcv, thr_concluded, landSlot_one, if_neg (by simp), thr_putReg, flags_put, ← nzcv, begun_nzcv, nzcv, thr_slotOne]
    rfl
  · exact took_concluded s _ c 1
  · by_cases hra : rd = ra
    · rw [gpr, thr_concluded, landSlot_one, if_pos (by simp [hra]), thr_putReg, get_put, ← gpr, gpr_slotOne, ← hra]
      by_cases hm : m = rd <;> simp [hm, hrd]
    · rw [gpr_landed _ (by simp [hra]), gpr, thr_putReg, get_put, ← gpr, gpr_slotOne]
      by_cases hm : m = rd <;> simp [hm, hrd, hra]

end

-- Plate and DRAM loads (R142, R150) ---------------------------------------------------------------------------------------------------

/-- A load of issuer k waits as the long operation o, and no memory has changed. -/
structure LoadWaits (s t : State) (c : Nat) (k : Option Nat) (o : LongOp) : Prop where
  passes : Passes s t c k 1
  plate  : t.plate = s.plate
  tray   : t.tray = s.tray
  dram   : t.dram = s.dram
  pend   : (t.thr c k).pend = [o]

section
variable {s : State} {c : Core} {k : Option Nat} {i : Instr} {rd ra n b : Nat} {imm : BitVec 16} {signed : Bool}

theorem Ready.loadWaits (h : Ready s c k 4) {y : State} (hthr : y.thr c k = (begun s c k 4).thr c k) (hp : y.plate = s.plate)
    (ht : y.tray = s.tray) (hd : y.dram = s.dram) (o : LongOp) :
    LoadWaits s (settle ((addLong y c k o).modCore c fun x => { x with cyc := issueCyc s c + 1 })) c k o := by
  have ho := ownSet_modThr y c k fun x => { x with pend := x.pend ++ [o] }
  have hown := thr_addLong y c k o
  exact {
    passes := passes_of_rset (by rw [hown, hthr]) 1
    plate := (ho.dev_field (·.plate) fun _ _ _ => rfl).trans hp
    tray := (ho.dev_field (·.tray) fun _ _ _ => rfl).trans ht
    dram := (ho.dev_field (·.dram) fun _ _ _ => rfl).trans hd
    pend := by
      rw [thr_concluded, hown, hthr, begun_thr, h.calm.pend]
      rfl }

/-- The long operation of a Plate load: it takes its word four to eight cycles after issue (R142). -/
def plateOp (s : State) (c : Nat) (k : Option Nat) (a b wa rd n : Nat) (signed : Bool) : LongOp :=
  ⟨.plate, loadRegs rd n 0 signed, issueCyc s c + 12, w32 (pcOf s c k), none, none,
    some ⟨wa, b % 8, n, signed, rd, issueCyc s c + 4 + s.draw.1.toNat % 5,
      { dataFault s c cPOISON (pcOf s c k) a with imp := true }⟩⟩

theorem draw_begun (m : Nat) : (begun s c k m).draw = (s.draw.1, { begun s c k m with fresh := s.fresh + 1 }) := by
  have hf : (begun s c k m).fresh = s.fresh := (ownSet_begun s c k m).dev_field (·.fresh) fun _ _ _ => rfl
  rw [State.draw, State.draw, hf]

theorem Ready.loadPlate (h : Ready s c k 4) (he : exec i s = runs s c i (load s c rd ra imm n signed))
    (hodd : n = 8 → rd % 2 = 0) {wa : Nat} (ha : InPlate (dataAddr s c k ra imm) n b)
    (hwa : plateResolve s (ownerOf s c k) b false = .ok wa) :
    Runs s c i (fun t => LoadWaits s t c k (plateOp s c k (dataAddr s c k ra imm) b wa rd n signed)) := by
  have ho := ownSet_begun s c k 4
  have hres : plateResolve (begun s c k 4) (ownerOf (begun s c k 4) c k) b false = .ok wa := by
    rw [ho.ownerOf, plateResolve_begun, hwa]
  have hfault (pc a : Nat) : Machine.dataFault (begun s c k 4) c cPOISON pc a = Machine.dataFault s c cPOISON pc a := by
    rw [Machine.dataFault, Machine.dataFault, ho.issueCyc]
  refine h.runs_load (x := addLong { begun s c k 4 with fresh := s.fresh + 1 } c k
    (plateOp s c k (dataAddr s c k ra imm) b wa rd n signed)) (m := 1) he hodd (dataSpace_plate ha) ?_
    (h.loadWaits (y := { begun s c k 4 with fresh := s.fresh + 1 }) ?_ (ho.dev_field (·.plate) fun _ _ _ => rfl) (ho.dev_field (·.tray) fun _ _ _ => rfl)
      (ho.dev_field (·.dram) fun _ _ _ => rfl) _)
  · unfold loadAct
    simp only [h.vBusyOf_begun, hres, draw_begun, hfault, ho.issueCyc, Bool.false_eq_true, if_false]
    rfl
  · cases k <;> rfl

/-- What a Plate load samples from a word without an error (R72, R142). -/
theorem res_sampleOp {u : State} {wa : Nat} (hp : u.poison.contains wa = false) (he : tget 0 u.plateEcc wa = 0) (a : Nat) :
    (sampleOp u (plateOp s c k a b wa rd n signed)).1.res =
      loadRegs rd n (plateWord u wa / 2 ^ (8 * (b % 8)) % 2 ^ (8 * n)) signed := by
  simp only [sampleOp, plateOp, he, if_true, plateReadPhys_clean hp he]

/-- The state in which a DRAM load takes its unit, once its time has been drawn (R142). -/
def dramReached (s : State) (c : Nat) (k : Option Nat) : State := (dramWait (domUsed (toIssue (begun s c k 4) c) 16) c k).2

/-- The cycles that a DRAM load takes. -/
def dramTakes (s : State) (c : Nat) (k : Option Nat) : Nat := (dramWait (domUsed (toIssue (begun s c k 4) c) 16) c k).1

theorem dramWait_snd (x : State) : (dramWait x c k).2 = { x with fresh := (dramWait x c k).2.fresh } := by
  unfold dramWait
  split <;> rfl

theorem dramReached_field {α : Type} (g : State → α)
    (hg : ∀ x a b p n, g { x with cores := a, ctxs := b, pm := p, fresh := n } = g x) : g (dramReached s c k) = g (toIssue s c) := by
  have hissue : g (toIssue (begun s c k 4) c) = g (toIssue s c) := by
    rw [(ownSet_begun s c k 4).toIssue]
    exact hg (toIssue s c) _ _ (toIssue s c).pm (toIssue s c).fresh
  rw [← hissue, dramReached, dramWait_snd]
  exact hg (toIssue (begun s c k 4) c) _ _ _ _

theorem thr_dramReached : (dramReached s c k).thr c k = (begun s c k 4).thr c k := by
  rw [dramReached, dramWait_snd]
  cases k <;> rfl

theorem dramBound_reached : dramBound (domUsed (toIssue (begun s c k 4) c) 16) = dramBound s :=
  (ownSet_begun s c k 4).dev_field dramBound fun _ _ _ => rfl

theorem ctOf_reached : ctOf (domUsed (toIssue (begun s c k 4) c) 16) c k = ctOf s c k :=
  Eq.trans (by cases k <;> rfl) (ctOf_begun (s := s) (c := c) (k := k) 4)

/-- A DRAM load takes 400 cycles in constant-time mode (R173), and at most its bound otherwise (R376). -/
theorem dramTakes_bounds : 0 < dramTakes s c k ∧ dramTakes s c k ≤ max 400 (400 + 40 * (s.f fMX_FAIR_N - 8)) ∧
    (ctOf s c k = true → dramTakes s c k = 400) := by
  have hbound : 0 < dramBound s ∧ dramBound s ≤ max 400 (400 + 40 * (s.f fMX_FAIR_N - 8)) := by
    unfold dramBound
    dsimp only
    split_ifs <;> omega
  have htakes : dramTakes s c k = if ctOf s c k = true then 400
      else 1 + (domUsed (toIssue (begun s c k 4) c) 16).draw.1.toNat % dramBound s := by
    unfold dramTakes dramWait
    rw [ctOf_reached]
    split
    · rfl
    · exact congrArg (fun m => 1 + _ % m) dramBound_reached
  have hmod := Nat.mod_lt (domUsed (toIssue (begun s c k 4) c) 16).draw.1.toNat hbound.1
  cases hct : ctOf s c k with
  | true => simp [htakes, hct]
  | false =>
    rw [htakes, hct]
    simp only [Bool.false_eq_true, if_false, false_implies, and_true]
    omega

theorem dramRead_clean {x : State} {p : Nat} (he : tget 0 x.dramEcc (p / 64) = 0) (o n : Nat) :
    dramRead x o p n = (some (dramUnit x o (p / 64) / 2 ^ (8 * (p % 64)) % 2 ^ (8 * n)), x) := by
  rw [dramRead, dramCheck_clean he]
  rfl

/-- The long operation of a DRAM load: it takes its unit at issue (log entry 19). -/
def dramOp (s : State) (c : Nat) (k : Option Nat) (b rd n : Nat) (signed : Bool) : LongOp :=
  ⟨.dram, loadRegs rd n (dramUnit (toIssue s c) (ownerOf s c k) (b / 64) / 2 ^ (8 * (b % 64)) % 2 ^ (8 * n)) signed,
    issueCyc s c + dramTakes s c k, w32 (pcOf s c k), none, none, none⟩

theorem Ready.loadDram (h : Ready s c k 4) (he : exec i s = runs s c i (load s c rd ra imm n signed))
    (hodd : n = 8 → rd % 2 = 0) (ha : InDram s c k (dataAddr s c k ra imm) n b) :
    Runs s c i (fun t => LoadWaits s t c k (dramOp s c k b rd n signed)) := by
  have ho := ownSet_begun s c k 4
  have hspace := dataSpace_dram ha
  obtain ⟨-, -, -, -, hdom, hecc⟩ := ha
  have hdom' : domStalls (begun s c k 4) 16 = false := (ho.dev_field (domStalls · 16) fun _ _ _ => rfl).trans hdom
  have hecc' : tget 0 (dramReached s c k).dramEcc (b / 64) = 0 := by
    rw [dramReached_field (·.dramEcc) fun _ _ _ _ _ => rfl]
    exact hecc
  have hunit (o : Nat) : dramUnit (dramReached s c k) o (b / 64) = dramUnit (toIssue s c) o (b / 64) :=
    dramReached_field (dramUnit · o (b / 64)) fun _ _ _ _ _ => rfl
  have hown : ownerOf (dramReached s c k) c k = ownerOf s c k := by
    rw [← ho.ownerOf, dramReached, dramWait_snd]
    cases k <;> rfl
  refine h.runs_load (x := addLong (dramReached s c k) c k (dramOp s c k b rd n signed)) (m := 1) he hodd hspace ?_
    (h.loadWaits thr_dramReached (dramReached_field (·.plate) fun _ _ _ _ _ => rfl) (dramReached_field (·.tray) fun _ _ _ _ _ => rfl)
      (dramReached_field (·.dram) fun _ _ _ _ _ => rfl) _)
  unfold loadAct
  simp only [h.vBusyOf_begun, hdom', Bool.false_eq_true, if_false]
  change (match dramRead (dramReached s c k) (ownerOf (dramReached s c k) c k) b n with | (some v, s') => _ | (none, s') => _) = _
  rw [dramRead_clean hecc', hown, hunit, ho.issueCyc]
  rfl

end

/-- The third part of the statement. -/
theorem longLoads : Clause.LongLoads := by
  intro s c k rd ra imm b h a own waits loads
  have takes {i : Instr} {n : Nat} {signed : Bool} {rs : Nat → List (Nat × Word)}
      (he : exec i s = runs s c i (load s c rd ra imm n signed)) (hodd : n = 8 → rd.val % 2 = 0)
      (hrs : ∀ v < 2 ^ (8 * n), loadRegs rd n v signed = rs v) : loads i n rs := by
    have hlt (x : Nat) : x % 2 ^ (8 * n) < 2 ^ (8 * n) := Nat.mod_lt _ (by positivity)
    refine ⟨fun wa ha hwa hf => (h.loadPlate he hodd ha hwa hf).imp fun t ht => ?_,
      fun ha hf => (h.loadDram he hodd ha hf).imp fun t ht => ?_⟩
    · have hmod := Nat.mod_lt (State.draw s).1.toNat (show 0 < 5 by decide)
      refine ⟨ht.passes, ht.plate, ht.tray, ht.dram, _, ht.pend, rfl, rfl, rfl, _, rfl, ?_, ?_, fun u hp hecc => ?_⟩
      · exact Nat.le_add_right _ _
      · dsimp only
        omega
      · rw [res_sampleOp hp hecc, hrs _ (hlt _)]
    · obtain ⟨hpos, hle, hct⟩ := dramTakes_bounds (s := s) (c := c) (k := k)
      refine ⟨ht.passes, ht.plate, ht.tray, ht.dram, _, ht.pend, rfl, rfl, rfl, hrs _ (hlt _), ?_, ?_, fun e => ?_⟩
      · exact Nat.lt_add_of_pos_right hpos
      · exact Nat.add_le_add_left hle _
      · rw [dramOp, hct e]
  exact ⟨takes rfl (by simp) fun v _ => loadRegs_signed _ (by decide) v,
    takes rfl (by simp) fun v hv => loadRegs_unsigned _ (by decide) hv,
    takes rfl (by simp) fun v _ => loadRegs_signed _ (by decide) v,
    takes rfl (by simp) fun v hv => loadRegs_unsigned _ (by decide) hv,
    takes (n := 4) (signed := false) (rs := fun v => [(rd.val, BitVec.ofNat 32 v)]) rfl (by simp) fun v _ => rfl,
    fun hr => takes (signed := false) rfl (fun _ => hr) fun v _ => rfl⟩

/-- Settles O5: a Tray load leaves its bytes for the delay slot, whose landing `loadDelaySlot` states, and a Plate or DRAM load
leaves a long operation. -/
theorem loads : Obligations.Loads := ⟨trayLoads, loadDelaySlot, longLoads⟩

end Sys2Proof.Machine
end

section
/-! PROOFS. Divides (R150, R166, R175, R177): the quotient and the remainder as operations on bit vectors, the wait for the divider,
and what a divide leaves outside and inside strict mode. -/

namespace Sys2Proof.Machine
open Sys2Proof

-- Quotients and remainders (R166) ------------------------------------------------------------------------------------------------

theorem divRes_signed (a b : Word) : divRes true a b =
    (if b = 0 then 0xFFFFFFFF else if a = 0x80000000 ∧ b = 0xFFFFFFFF then 0x80000000 else BitVec.ofInt 32 (a.toInt.tdiv b.toInt),
      if b = 0 then a else if a = 0x80000000 ∧ b = 0xFFFFFFFF then 0 else BitVec.ofInt 32 (a.toInt.tmod b.toInt),
      if b = 0 then some 1 else if a = 0x80000000 ∧ b = 0xFFFFFFFF then some 2 else none) := by
  unfold divRes
  simp only [w32, ofNat_uenc, if_true]
  split_ifs <;> rfl

theorem divRes_unsigned (a b : Word) : divRes false a b =
    (if b = 0 then 0xFFFFFFFF else a / b, if b = 0 then a else a % b, if b = 0 then some 1 else none) := by
  have hq : w32 (a.toNat / b.toNat) = a / b := by
    rw [w32, ← BitVec.toNat_udiv, BitVec.ofNat_toNat, BitVec.setWidth_eq]
  have hr : w32 (a.toNat % b.toNat) = a % b := by
    rw [w32, ← BitVec.toNat_umod, BitVec.ofNat_toNat, BitVec.setWidth_eq]
  unfold divRes
  simp only [hq, hr, Bool.false_eq_true, if_false]
  split_ifs <;> rfl

/-- The result of a divide or remainder, and its exception. -/
def divOut (signed rem : Bool) (a b : Word) : Word × Option Nat :=
  (if rem then (divRes signed a b).2.1 else (divRes signed a b).1, (divRes signed a b).2.2)

/-- The exceptions of a divide are DZ and OF (R166, R172). -/
theorem divOut_exception {signed rem : Bool} {a b v : Word} {n : Nat} (h : divOut signed rem a b = (v, some n)) : n = 1 ∨ n = 2 := by
  have he : (divRes signed a b).2.2 = some n := congrArg Prod.snd h
  unfold divRes at he
  split_ifs at he <;> simp_all

-- The wait for the divider (R150) ----------------------------------------------------------------------------------------------

section
variable {y : State} {c : Nat} {k : Option Nat}

/-- A running core of whose issuer, that owns its span or is the supervisor, nothing is pending. -/
structure Idle (y : State) (c : Nat) (k : Option Nat) : Prop where
  quiet : Quiet y c
  going : y.stopped = false
  owner : ∀ q, k = some q → vOwner y c = some q
  done  : ThrDone (y.thr c k)

theorem Ready.idle (h : Ready y c k 4) : Idle y c k where
  quiet := h.quiet
  going := h.stopped
  owner q hq := by
    subst hq
    exact h.vOwner
  done := ⟨h.calm.pend, h.calm.pwr⟩

theorem Ready.idle_begun (h : Ready y c k 4) : Idle (begun y c k 4) c k where
  quiet := h.quiet.ownSet (ownSet_begun y c k 4) (by rw [begun_thr]; exact ⟨h.calm.pend, h.calm.pwr⟩)
  going := ((ownSet_begun y c k 4).dev_field (·.stopped) fun _ _ _ => rfl).trans h.stopped
  owner q hq := (congrArg (Option.map Run.ctx) ((ownSet_begun y c k 4).core_field (·.run) fun _ _ => rfl)).trans (h.idle.owner q hq)
  done := by
    rw [begun_thr]
    exact ⟨h.calm.pend, h.calm.pwr⟩

theorem Quiet.divBusy (h : Quiet y c) : divBusy c y = false := by
  have hown : (y.thr c (vOwner y c)).pend = [] := by
    cases ho : vOwner y c with
    | none => exact h.sets.sup.pend
    | some q => exact (h.sets.own q ho).pend
  simp [Machine.divBusy, h.sets.sup.pend, hown]

variable {o : LongOp}

theorem Idle.divBusy_pendingOne (h : Idle y c k) (ho : o.kind = .divide) : divBusy c (pendingOne y c k o) = true := by
  have hv : vOwner (pendingOne y c k o) c = vOwner y c := vOwner_modThr _
  unfold Machine.divBusy
  rw [List.any_append, hv]
  cases k with
  | none =>
    rw [thr_pendingOne]
    simp [ho]
  | some q =>
    rw [h.owner q rfl, thr_pendingOne]
    simp [ho]

/-- The pending operation of an idle issuer is its core's only event. -/
theorem Idle.nextEvent_pendingOne (h : Idle y c k) (ho : o.samp = none) :
    nextEvent (pendingOne y c k o) c = some (o.ready, .retire k o []) := by
  have hset : OwnSet y (pendingOne y c k o) c k := ownSet_modThr y c k _
  have hg : (pendingOne y c k o).stopped = false := (hset.dev_field (·.stopped) fun _ _ _ => rfl).trans h.going
  have hv : vOwner (pendingOne y c k o) c = vOwner y c := vOwner_modThr _
  have hown : thrEvent (pendingOne y c k o) c k = some (o.ready, .retire k o []) := by
    rw [thrEvent, thr_pendingOne, h.done.pwr]
    simp only [picks, List.map_nil, List.foldl_cons, List.foldl_nil, ho, sooner]
  rw [nextEvent_thr hg (hset.spanKept.jobs.trans h.quiet.jobs) (hset.spanKept.vq.trans h.quiet.vq)
    (hset.spanKept.br.trans h.quiet.br), hv]
  cases k with
  | none =>
    rw [hown]
    cases hq : vOwner y c with
    | none => exact sooner_none_left _
    | some q =>
      have hd : ThrDone ((pendingOne y c none o).thr c (some q)) := h.quiet.sets.own q hq
      rw [Option.bind_some, thrEvent_done hd, sooner_none_left]
  | some q =>
    have hd : ThrDone ((pendingOne y c (some q) o).thr c none) := h.quiet.sets.sup
    rw [h.owner q rfl, Option.bind_some, hown, thrEvent_done hd, sooner_none_right]

/-- The core while its only operation retires, before the result is written. -/
def divided (y : State) (c : Nat) (k : Option Nat) (o : LongOp) : State := retiring (pendingOne y c k o) c k o []

theorem Idle.thr_divided (h : Idle y c k) : (divided y c k o).thr c k = y.thr c k := thr_retiring o h.done.pend

theorem Idle.quiet_divided (h : Idle y c k) : Quiet (divided y c k o) c := by
  have hset : Quiet ((pendingOne y c k o).modThr c k fun t => { t with pend := [] }) c := by
    refine h.quiet.ownSet ((ownSet_modThr y c k _).trans (ownSet_modThr _ c k _)) ?_
    rw [thr_modThr_self, thr_pendingOne]
    exact ⟨rfl, h.done.pwr⟩
  exact hset.kept ((found_retiring _ c k o []).setsKept c) ((found_retiring _ c k o []).spanKept c)

theorem issueCyc_divided (rs : List (Nat × Word)) :
    issueCyc (waitTo (putRegs (divided y c k o) c k rs) c o.ready) c = max (issueCyc y c) o.ready := by
  rw [issueCyc_waitTo, (ownSet_putRegs _ c k _).issueCyc, divided, issueCyc_retiring]

/-- Waiting for the divider ends when it has run. -/
theorem Idle.waitFor_divide (h : Idle y c k) (hk : o.kind = .divide) (hs : o.samp = none) (hf : o.fault = none)
    (hdone : ThrDone ((putRegs (divided y c k o) c k o.res).thr c k)) (fuel : Nat) :
    waitFor (pendingOne y c k o) c (divBusy c) (fuel + 1) = waitTo (putRegs (divided y c k o) c k o.res) c o.ready := by
  have hq : Quiet (waitTo (putRegs (divided y c k o) c k o.res) c o.ready) c :=
    (h.quiet_divided.ownSet (ownSet_putRegs _ c k _) hdone).kept
      (setsKept_modCore _ c (fun x => { x with cyc := max (issueCyc _ c) o.ready }) (fun _ => rfl) fun _ => rfl)
      (spanKept_modCore _ c c (fun x => { x with cyc := max (issueCyc _ c) o.ready }) fun _ => ⟨rfl, rfl, rfl, rfl⟩)
  have hret : runEvent (pendingOne y c k o) c o.ready (.retire k o []) = putRegs (divided y c k o) c k o.res :=
    retireOp_sound hf []
  rw [waitFor_next (h.divBusy_pendingOne hk) (h.nextEvent_pendingOne hs), hret]
  exact waitFor_idle hq.divBusy _

end

-- What a divide leaves (R166, R175, R177) ----------------------------------------------------------------------------------------

section
variable {s y : State} {c : Core} {k : Option Nat} {i : Instr} {rd ra rb : Nat} {v : Word} {e : Option Nat}

/-- A divide as a long operation: its exception shows at the end of its 18 cycles. -/
def divOp (s : State) (c : Nat) (k : Option Nat) (rd : Nat) (v : Word) (e : Option Nat) (f : Option FaultRec) : LongOp :=
  ⟨.divide, [(rd, v)], issueCyc s c + 18, w32 (pcOf s c k), e, f, none⟩

/-- The fault of a divide whose exception traps (R175). -/
def divTrap (s : State) (c : Nat) (k : Option Nat) (e : Option Nat) : Option FaultRec :=
  e.bind fun n => if bit (trapEn s c k) n then
    some { scalarFault (0x10 + n) (pcOf s c k) 0 (issueCyc s c) with imp := !strictOf s c k } else none

/-- The act of a divide of a ready core, by its quotient or remainder and its exception. -/
def divAct (s : State) (c : Nat) (k : Option Nat) (rd : Nat) (v : Word) (e : Option Nat) (y : State) : Out :=
  let o := divOp s c k rd v e (divTrap s c k e)
  match strictOf s c k, divTrap s c k e with
  | true, some f => divFault c k o f y
  | true, none =>
    let x := waitFor (addLong y c k o) c (divBusy c) (eventFuel y c + 2)
    .ok x (issueCyc x c - issueCyc s c)
  | false, _ => .ok (addLong y c k o) 1

/-- What a divide of a ready core leaves, by the outcome of its act. -/
theorem Ready.runs_div (h : Ready s c k 4) {signed rem : Bool} (he : exec i s = runs s c i (aluDiv s c rd ra rb false signed rem))
    (hv : divOut signed rem (gpr s c k ra) (gpr s c k rb) = (v, e)) {o : Out} (ho : divAct s c k rd v e (begun s c k 4) = o)
    {P : State → Prop}
    (hP : ∀ u act, P (settle (concluded s c k u act o))) : Runs s c i P := by
  have hg := (reads_begun (s := s) (c := c) (k := k) 4).get
  have hcyc := (ownSet_begun s c k 4).issueCyc
  have hbusy : ¬divBusy c (begun s c k 4) = true := by simp [h.idle_begun.quiet.divBusy]
  have htrap : trapEn (begun s c k 4) c k = trapEn s c k := by
    cases k <;> exact (ownSet_begun s c _ 4).dev_field (trapEn · c _) fun _ _ _ => rfl
  obtain ⟨rfl, rfl⟩ := Prod.mk.inj hv
  subst ho
  refine h.runs_act (allowed_anywhere rfl rfl rfl rfl rfl) he ?_ (hP _ _)
  dsimp only
  rw [if_neg hbusy, hg, hg, hcyc, htrap, strictOf_begun]
  rfl

theorem addLong_begun (h : Ready s c k 4) (o : LongOp) : addLong (begun s c k 4) c k o = pendingOne (begun s c k 4) c k o := by
  have hp : ((begun s c k 4).thr c k).pend = [] := h.idle_begun.done.pend
  exact congrArg (fun p => (begun s c k 4).setThr c k { (begun s c k 4).thr c k with pend := p ++ [o] }) hp

/-- Outside strict mode a divide leaves a long operation (R150). -/
theorem Ready.div_long (h : Ready s c k 4) {signed rem : Bool} (he : exec i s = runs s c i (aluDiv s c rd ra rb false signed rem))
    (hv : divOut signed rem (gpr s c k ra) (gpr s c k rb) = (v, e)) (hst : strictOf s c k = false) :
    Runs s c i (fun t => (∃ o, (t.thr c k).pend = [o] ∧ o.res = [(rd, v)] ∧ o.ready = issueCyc s c + 18 ∧ o.arith = e) ∧
      Passes s t c k 1 ∧ { t with cores := s.cores, ctxs := s.ctxs, pm := s.pm } = s) := by
  have ho : divAct s c k rd v e (begun s c k 4) = .ok (addLong (begun s c k 4) c k (divOp s c k rd v e (divTrap s c k e))) 1 := by
    simp only [divAct, hst]
  have hthr := thr_addLong (begun s c k 4) c k (divOp s c k rd v e (divTrap s c k e))
  refine h.runs_div he hv ho fun u act => ⟨⟨divOp s c k rd v e (divTrap s c k e), ?_, rfl, rfl, rfl⟩, passes_of_rset ?_ 1, ?_⟩
  · rw [concluded, thr_concluded, hthr, h.idle_begun.done.pend]
    rfl
  · rw [hthr]
  · exact ((ownSet_begun s c k 4).trans (ownSet_modThr _ c k _)).dev_field
      (fun x => { x with cores := s.cores, ctxs := s.ctxs, pm := s.pm }) fun _ _ _ => rfl

/-- In strict mode the result of a divide that does not trap is there before the next instruction (R175). -/
theorem Ready.div_strict (h : Ready s c k 4) {signed rem : Bool} (he : exec i s = runs s c i (aluDiv s c rd ra rb false signed rem))
    (hv : divOut signed rem (gpr s c k ra) (gpr s c k rb) = (v, e)) (hst : strictOf s c k = true) (htr : divTrap s c k e = none) :
    Runs s c i (fun t => RegIs s t c k rd v ∧ nzcv t c k = nzcv s c k ∧ (t.thr c k).pend = [] ∧ Advanced s t c k 4 ∧
      Took s t c 18) := by
  let y := begun s c k 4
  let o := divOp s c k rd v e none
  let w := waitTo (putRegs (divided y c k o) c k [(rd, v)]) c (issueCyc s c + 18)
  have hput : (putRegs (divided y c k o) c k [(rd, v)]).thr c k = { y.thr c k with r := (y.thr c k).r.put rd v } :=
    (thr_putReg _ c k rd v).trans (by rw [h.idle_begun.thr_divided])
  have hthr : w.thr c k = { y.thr c k with r := (y.thr c k).r.put rd v } := (thr_waitTo _ _).trans hput
  have hcyc : issueCyc w c = issueCyc s c + 18 := by
    have hmax : issueCyc w c = max (issueCyc y c) (issueCyc s c + 18) := issueCyc_divided (o := o) [(rd, v)]
    rw [hmax, (ownSet_begun s c k 4).issueCyc]
    exact Nat.max_eq_right (Nat.le_add_right _ _)
  have ho : divAct s c k rd v e y = .ok w 18 := by
    have hw : waitFor (addLong y c k o) c (divBusy c) (eventFuel y c + 2) = w := by
      rw [addLong_begun h]
      exact h.idle_begun.waitFor_divide rfl rfl rfl (hput.symm ▸ ⟨h.idle_begun.done.pend, h.idle_begun.done.pwr⟩) _
    have hn : issueCyc w c - issueCyc s c = 18 := by omega
    simp only [divAct, hst, htr]
    rw [hw, hn]
  refine h.runs_div he hv ho fun u act => ?_
  have ht : (settle (w.modCore c fun x => { x with cyc := issueCyc s c + 18 })).thr c k = _ := (thr_concluded w c k _).trans hthr
  refine ⟨fun m => ?_, ?_, ?_, ?_, took_concluded s w c 18⟩
  · rw [concluded, gpr, ht, get_put, ← gpr, begun_gpr]
  · rw [concluded, nzcv, ht, flags_put, ← nzcv, begun_nzcv]
  · rw [concluded, ht]
    exact h.idle_begun.done.pend
  · simp only [concluded, Advanced, ht, y, begun_thr, put_field (·.pc) (fun _ _ => rfl), put_field (·.l0) (fun _ _ => rfl),
      put_field (·.l1) (fun _ _ => rfl), put_field (·.l2) (fun _ _ => rfl), and_self]

/-- The divider has run for nothing: its exception has set its flag. -/
theorem Idle.divRun (h : Idle y c k) {o : LongOp} (hk : o.kind = .divide) (hs : o.samp = none) :
    Machine.divRun c k o y = waitTo (divided y c k { o with res := [], fault := none }) c o.ready := by
  let o' : LongOp := { o with res := [], fault := none }
  have hrun : Machine.divRun c k o y = waitFor (pendingOne y c k o') c (divBusy c) (eventFuel y c + 2) :=
    congrArg (fun p => waitFor (y.setThr c k { y.thr c k with pend := p ++ [o'] }) c (divBusy c) (eventFuel y c + 2)) h.done.pend
  rw [hrun]
  exact h.waitFor_divide (o := o') hk hs rfl (h.thr_divided.symm ▸ h.done) _

theorem Idle.thr_divRun (h : Idle y c k) {o : LongOp} (hk : o.kind = .divide) (hs : o.samp = none) :
    (Machine.divRun c k o y).thr c k = y.thr c k := by
  rw [h.divRun hk hs, thr_waitTo, h.thr_divided]

/-- The place of an exception's handler does not change while the divider runs. -/
theorem Idle.mlOf_divRun (h : Idle y c k) {o : LongOp} (hk : o.kind = .divide) (hs : o.samp = none) :
    mlOf (Machine.divRun c k o y) c k = mlOf y c k ∧ secOf (Machine.divRun c k o y) c k = secOf y c k := by
  rw [h.divRun hk hs]
  set o' : LongOp := { o with res := [], fault := none }
  have hfound := found_retiring (pendingOne y c k o') c k o' []
  have hset : OwnSet y ((pendingOne y c k o').modThr c k fun t => { t with pend := [] }) c k :=
    (ownSet_modThr y c k _).trans (ownSet_modThr _ c k _)
  have hsec : secOf ((pendingOne y c k o').modThr c k fun t => { t with pend := [] }) c k = secOf y c k :=
    (secOf_modThr _ c k _).trans (secOf_modThr y c k _)
  cases k with
  | none =>
    refine ⟨?_, rfl⟩
    rw [mlOf, core_waitTo]
    exact (hfound.work.field (·.ml) (fun _ _ => rfl) c).trans (hset.core_field (·.ml) fun _ _ => rfl)
  | some q =>
    have hctx : (waitTo (divided y c (some q) o') c o.ready).ctx c q =
        ((pendingOne y c (some q) o').modThr c (some q) fun t => { t with pend := [] }).ctx c q := by
      unfold State.ctx
      rw [← hfound.ctxs]
      rfl
    rw [mlOf, secOf, hctx]
    exact ⟨hset.ctx_field (·.ml) fun _ _ _ => rfl, hsec⟩

theorem divTrap_eq_some {f : FaultRec} (h : divTrap s c k e = some f) :
    ∃ n, e = some n ∧ f.code = 0x10 + n ∧ f.level = levelOf (0x10 + n) := by
  obtain ⟨n, rfl, hn⟩ := Option.bind_eq_some_iff.mp h
  split at hn
  · obtain rfl := Option.some.inj hn
    exact ⟨n, rfl, rfl, rfl⟩
  · exact absurd hn (by simp)

/-- In strict mode a divide whose exception traps faults precisely when the divider has run (R175, R177). -/
theorem Ready.div_trap (h : Ready s c k 4) {signed rem : Bool} (he : exec i s = runs s c i (aluDiv s c rd ra rb false signed rem))
    (hv : divOut signed rem (gpr s c k ra) (gpr s c k rb) = (v, e)) (hst : strictOf s c k = true) {f : FaultRec}
    (htr : divTrap s c k e = some f) (hs : secOf s c k = none) (hm : mlOf s c k < 7) :
    Runs s c i (fun t => ∃ u, (∀ n, gpr u c k n = gpr s c k n) ∧
      Trapped u t c k (max 2 (mlOf s c k + 1)) f (pcOf s c k)) := by
  let o := divOp s c k rd v e (some f)
  obtain ⟨n, rfl, hcode, hlevel⟩ := divTrap_eq_some htr
  have hn : n = 1 ∨ n = 2 := divOut_exception hv
  have hlt : f.code < cTRAP := by
    rw [hcode]
    unfold cTRAP
    omega
  have hlev : f.level = 2 := by rcases hn with rfl | rfl <;> exact hlevel
  have hact : divAct s c k rd v (some n) (begun s c k 4) = .err (Machine.divRun c k o) f := by
    have hheld : ((Machine.divRun c k o (begun s c k 4)).thr c k).held = [] := by
      rw [h.idle_begun.thr_divRun rfl rfl, begun_thr]
      exact h.calm.held
    simp only [divAct, hst, htr]
    unfold divFault
    rw [hheld]
    rfl
  refine h.runs_div he hv hact fun u act => ⟨Machine.divRun c k o s, fun m => ?_, ?_⟩
  · rw [gpr, h.idle.thr_divRun rfl rfl, ← gpr]
  · obtain ⟨hml, hsec⟩ := h.idle.mlOf_divRun (o := o) rfl rfl
    have ht := preciseFault_trapped c.isLt (s := Machine.divRun c k o s) (k := k) (f := f)
      (by rw [h.idle.thr_divRun rfl rfl]; exact h.calm.slot) (hsec.trans hs) hlt (by rw [hml, hlev]; omega) (pcOf s c k)
    rw [hml, hlev] at ht
    exact ht

end

/-- Settles O4: the values are those of `divRes_signed` and `divRes_unsigned`, and `Ready.div_long`, `Ready.div_strict` and
`Ready.div_trap` say what a divide leaves. -/
theorem divideResults : Obligations.DivideResults := by
  unfold Obligations.DivideResults
  intro s c k rd ra rb h a b exc excS trapped long
  have htrap (e : Option Nat) : trapped e = (divTrap s c k e).isSome := by
    cases e with
    | none => rfl
    | some n => cases hb : bit (trapEn s c k) n <;> simp [trapped, divTrap, hb]
  have divides {i : Instr} {signed rem : Bool} {x : Word} {e : Option Nat}
      (he : exec i s = runs s c i (aluDiv s c rd ra rb false signed rem))
      (hx : divOut signed rem a b = (x, e)) : long i x e := by
    refine ⟨fun hst hf => (h.div_long he hx hst hf).imp fun t ⟨hpend, hpass, hrest⟩ =>
      ⟨hpend, hpass.regs, hpass.flags, hpass.next, hpass.took, hrest⟩, fun hst htr => ?_, fun hst htr hs hm => ?_⟩
    · exact h.div_strict he hx hst (by simpa [htrap] using htr)
    · obtain ⟨f, hf⟩ := Option.isSome_iff_exists.mp ((htrap e).symm.trans htr)
      obtain ⟨n, rfl, hcode, -⟩ := divTrap_eq_some hf
      refine fun hfetch => (h.div_trap he hx hst hf hs hm hfetch).imp fun t ⟨u, hregs, ht⟩ =>
        ⟨ht.entered.sup, ht.entered.ml, ?_, ht.entered.saved, fun m => (ht.regs m).trans (hregs m)⟩
      rw [ht.entered.code, hcode]
      rfl
  have hs := divRes_signed a b
  have hu := divRes_unsigned a b
  exact ⟨divides (rem := false) rfl (by rw [divOut, hs]; rfl), divides (rem := true) rfl (by rw [divOut, hs]; rfl),
    divides (rem := false) rfl (by rw [divOut, hu]; rfl), divides (rem := true) rfl (by rw [divOut, hu]; rfl)⟩

end Sys2Proof.Machine
end

section
/-! PROOFS. Host commands that control the device (R162, R332, R348, R349, R362): instruction words, a plan image, a customer key's
load, fuse and revocation, CMD_NOP and values of OP without a command. -/

namespace Sys2Proof.Machine
open Sys2Proof

-- Words of instruction RAM (R162, R332) ------------------------------------------------------------------------------------------

theorem imgVal_four_lt (bs : List Byte) (o : Nat) : imgVal bs o 4 < 2 ^ 32 :=
  (leVal_lt _).trans_le (Nat.pow_le_pow_right (by decide) (by simp only [imgBytes, List.length_take]; omega))

theorem imemWord_putImem_self (s : State) (co w : Nat) {v : Nat} (h : memWf s.imem = true) (hv : v < 2 ^ 32) :
    imemWord (putImem s co w v) co w = v := by
  simp only [imemWord, putImem]
  rw [mread_leBytes _ _ _ _ h, leVal_leBytes, Nat.mod_eq_of_lt hv]

theorem imemWord_putImem_lt (s : State) (co v : Nat) {w w' : Nat} (h : w < w') :
    imemWord (putImem s co w' v) co w = imemWord s co w := by
  simp only [imemWord, putImem]
  rw [mread_mwrite_out _ _ _ _ _ (.inl (by omega))]

/-- Words lo, lo + 1, … of a core's instruction RAM replaced by the first `n` words of the bytes. -/
def imemFilled (co lo : Nat) (bs : List Byte) (s : State) (n : Nat) : State :=
  (List.range n).foldl (fun s i => putImem s co (lo + i) (imgVal bs (4 * i) 4)) s

section
variable (co lo : Nat) (bs : List Byte) (s : State)

theorem imemFilled_succ (n : Nat) :
    imemFilled co lo bs s (n + 1) = putImem (imemFilled co lo bs s n) co (lo + n) (imgVal bs (4 * n) 4) := by
  simp [imemFilled, List.range_succ]

/-- The fill changes instruction RAM, and nothing else. -/
theorem imemFilled_field {α : Type} (g : State → α) (hg : ∀ x m, g { x with imem := m } = g x) (n : Nat) :
    g (imemFilled co lo bs s n) = g s := by
  induction n with
  | zero => rfl
  | succ n ih =>
    rw [imemFilled_succ]
    exact (hg _ _).trans ih

theorem memWf_imemFilled (h : memWf s.imem = true) (n : Nat) : memWf (imemFilled co lo bs s n).imem = true := by
  induction n with
  | zero => exact h
  | succ n ih =>
    rw [imemFilled_succ]
    exact memWf_mwrite _ _ _ ih

theorem imemWord_imemFilled (h : memWf s.imem = true) {i n : Nat} (hi : i < n) :
    imemWord (imemFilled co lo bs s n) co (lo + i) = imgVal bs (4 * i) 4 := by
  induction n with
  | zero => omega
  | succ n ih =>
    rw [imemFilled_succ]
    rcases Nat.lt_succ_iff_lt_or_eq.mp hi with hlt | rfl
    · rw [imemWord_putImem_lt _ _ _ (by omega)]
      exact ih hlt
    · exact imemWord_putImem_self _ _ _ (memWf_imemFilled co lo bs s h i) (imgVal_four_lt _ _)

end

-- The ends of a command (R333) ---------------------------------------------------------------------------------------------------

section
variable {s : State} {set : Fin 257} {c : HCmd} {op : Nat}

/-- A command that has changed the device outside its rings has ended. -/
theorem HostTurn.finished (h : HostTurn s set c op) {i : Instr} {w : State} {st d0 : Nat}
    (hexec : exec i s = done (finishCmd w set c st d0 0)) (hr : SameRings s w) :
    Completes (exec i s) (fun t => Ended s t set c st d0 0) := by
  rw [hexec]
  exact completes_done (h.ended hr _ _ _)

/-- What the end of a command does not reach is as the command left it. -/
theorem HostTurn.finished_with (h : HostTurn s set c op) {i : Instr} {w : State} {st d0 : Nat} {P : State → Prop}
    (hexec : exec i s = done (finishCmd w set c st d0 0)) (hr : SameRings s w)
    (hP : P (settle (finishCmd w set c st d0 0))) :
    Completes (exec i s) (fun t => Ended s t set c st d0 0 ∧ P t) := by
  rw [hexec]
  exact completes_done ⟨h.ended hr _ _ _, hP⟩

/-- A field that a command's end and the pins do not reach. -/
theorem settle_finishCmd_field {α : Type} (w : State) (set : Nat) (c : HCmd) (st d0 d1 : Nat) (g : State → α)
    (hg : ∀ x h m p, g { x with hi := h, host := m, pm := p } = g x) : g (settle (finishCmd w set c st d0 d1)) = g w :=
  (hg (finishCmd w set c st d0 d1) _ _ _).trans (finishCmd_field w set c st d0 d1 g fun x h m => hg x h m x.pm)

end

-- IMEM_WR (R162, R332) -----------------------------------------------------------------------------------------------------------

section
variable {s : State} {set : Fin 257} {c : HCmd} (h : HostTurn s set c 0x18)
  (h4 : cmdLen c % 4 = 0) (hend : 4 * bits (cmdArg c) 2 14 + cmdLen c ≤ 65536) (ha : cmdAddr c % 8 = 0)
include h h4 hend ha

theorem imemWr_writes {bs : List Byte} (hm : memWf s.imem = true) (hd : c.data = some (.data bs)) (hl : bs.length = cmdLen c)
    (hown : set.val = 256 ∨ (imemWords c).all (ownWindow s set (bits (cmdArg c) 16 5)) = true)
    (hfree : (imemWords c).any (imemBusy s (bits (cmdArg c) 16 5)) = false) :
    Completes (exec (.imemWr set) s) (fun t => Ended s t set c 0 (cmdLen c) 0 ∧
      ∀ i, 4 * i < cmdLen c → imemWord t (bits (cmdArg c) 16 5) (bits (cmdArg c) 2 14 + i) = imgVal bs (4 * i) 4) := by
  have hdom : opDomain s set c = some (bits (cmdArg c) 16 5 / 4) := by simp [opDomain, h.op]
  have hright : (set.val != 256 && !(imemWords c).all (ownWindow s set (bits (cmdArg c) 16 5))) = false := by
    rcases hown with hs | hs <;> simp [hs]
  have hx : exec (.imemWr set) s = done (finishCmd (digestBusy (imemFilled (bits (cmdArg c) 16 5) (bits (cmdArg c) 2 14) bs
      (idleExit (domUsed s (bits (cmdArg c) 16 5 / 4))) (cmdLen c / 4))) set c 0 (cmdLen c) 0) := by
    show done (imemWr s set) = _
    unfold imemWr
    rw [h.actsOn h.opIs (by
      dsimp only
      rw [if_neg (by simp [h4, ha, hend]), hright, if_neg Bool.false_ne_true, hfree, if_neg Bool.false_ne_true]) hd hl,
      readied_of_domain hdom]
    rfl
  have himem : (idleExit (domUsed s (bits (cmdArg c) 16 5 / 4))).imem = s.imem :=
    (idleExit_field _ (·.imem) fun _ _ _ => rfl).trans (domUsed_field s _ (·.imem) fun _ _ => rfl)
  have hr := (sameRings_domUsed s (bits (cmdArg c) 16 5 / 4)).trans (sameRings_idleExit _)
  generalize idleExit (domUsed s (bits (cmdArg c) 16 5 / 4)) = w at hx himem hr
  refine h.finished_with hx (hr.trans (.of_same ?_ ?_)) fun i hi => ?_
  · exact imemFilled_field _ _ bs w (·.hi.sets) (fun _ _ => rfl) _
  · exact imemFilled_field _ _ bs w (·.host) (fun _ _ => rfl) _
  · refine (settle_finishCmd_field _ _ _ _ _ _ (imemWord · _ _) fun _ _ _ _ => rfl).trans ?_
    exact imemWord_imemFilled _ _ bs w (by rw [himem]; exact hm) (by omega)

theorem imemWr_busy (hs : set.val = 256) (hbusy : (imemWords c).any (imemBusy s (bits (cmdArg c) 16 5)) = true) :
    Completes (exec (.imemWr set) s) (fun t => Ended s t set c 7 0 0) := by
  have hx : imemWr s set = finishCmd s set c 7 0 0 := h.refused h.opIs (by
    dsimp only
    rw [if_neg (by simp [h4, ha, hend]), if_neg (by simp [hs]), if_pos hbusy])
  exact (h.rejected (i := .imemWr set) (congrArg done hx)).left

end

-- PLAN_LOAD (R362) ---------------------------------------------------------------------------------------------------------------

theorem loneFlag_planref : LoneFlag kKS_STAT_PLANREF fKS_SETCNT_PLANREF_N :=
  ⟨rfl, rfl, by decide, by decide, Or.inr (Or.inr (by decide))⟩

/-- An image is judged by its bytes, by the keys and their state, and by whether another image waits. -/
theorem planReason_congr {s t : State} (hk : t.ks = s.ks) (hp : t.plan = s.plan) (bs : List Byte) (im : PlanImage) :
    planReason t bs im = planReason s bs im := by
  have hlc : t.lc = s.lc := by simp only [State.lc, hk]
  have hkey : ∀ b key, pubkeyOk t b key = pubkeyOk s b key := fun b key => by
    have hslot : custSlot t = custSlot s := by simp only [custSlot, hk]
    unfold pubkeyOk
    rw [hslot]
    simp only [custHashOf, hk]
  unfold planReason
  dsimp only
  rw [hlc, hp]
  simp only [hkey]

theorem planReason_le (s : State) (bs : List Byte) (im : PlanImage) : planReason s bs im ≤ 6 := by
  unfold planReason
  dsimp only
  split
  · decide
  · split_ifs <;> decide

/-- The state after an image with this PLAN_ID has been refused for a reason. -/
def planRefused (s : State) (r planId : Nat) : State :=
  raise ((s.setF fKS_LASTREF_REASON r).setF fKS_LASTREF_PLAN_ID planId) kKS_STAT_PLANREF

theorem sameRings_planRefused (s : State) (r planId : Nat) : SameRings s (planRefused s r planId) :=
  (SameRings.of_same rfl rfl : SameRings s ((s.setF fKS_LASTREF_REASON r).setF fKS_LASTREF_PLAN_ID planId)).trans
    (sameRings_raise _ _ _ _)

theorem planRefused_plan (s : State) (r planId : Nat) : (planRefused s r planId).plan = s.plan :=
  (onlySignals_raise _ kKS_STAT_PLANREF 0 0).field (·.plan) fun _ _ _ _ _ _ _ _ _ => rfl

theorem planRefused_reason (s : State) {r : Nat} (planId : Nat) (h : r < 16) :
    (planRefused s r planId).f fKS_LASTREF_REASON = r := by
  have hkeep : (planRefused s r planId).reg rKS_LASTREF 0 0 =
      ((s.setF fKS_LASTREF_REASON r).setF fKS_LASTREF_PLAN_ID planId).reg rKS_LASTREF 0 0 :=
    loneFlag_planref.reg _ (by decide) (by decide) (Or.inr (Or.inr (by decide)))
  have hf : (planRefused s r planId).f fKS_LASTREF_REASON =
      ((s.setF fKS_LASTREF_REASON r).setF fKS_LASTREF_PLAN_ID planId).f fKS_LASTREF_REASON := by
    simp only [State.f, show fKS_LASTREF_REASON.reg = rKS_LASTREF from rfl, hkeep]
  rw [hf, f_setF_field _ fKS_LASTREF_PLAN_ID fKS_LASTREF_REASON _ _ _ (by decide) (by decide) rfl (by decide) (by decide),
    f_setF_self _ _ _ _ _ (by decide)]
  exact Nat.mod_eq_of_lt h

section
variable {s : State} {set : Fin 257} {c : HCmd} (h : HostTurn s set c 0x20)
include h

theorem planLoad_rights (im : PlanImage) (hs : ¬set.val = 256) :
    Completes (exec (.planLoad set im) s) (fun t => Ended s t set c 3 0 0) := by
  have hx : planLoad s set im = finishCmd s set c 3 0 0 := h.refused h.opIs (by rw [supOnly_tenant hs]; rfl)
  exact (h.rejected (i := .planLoad set im) (congrArg done hx)).left

/-- The supervisor's PLAN_LOAD judges the image that it has read. -/
theorem planLoad_eq (im : PlanImage) {bs : List Byte} (hs : set.val = 256) (ha : cmdAddr c % 8 = 0)
    (hd : c.data = some (.data bs)) (hl : bs.length = cmdLen c) : exec (.planLoad set im) s = done (
      if planReason s bs im ≠ 0 then
        finishCmd (planRefused (domUsed s 17) (planReason s bs im) (imgVal bs 6 2)) set c 8 0 0
      else waitCmd (digestBusy { domUsed s 17 with plan := { s.plan with
        waiting := some { im with planId := BitVec.ofNat 16 (imgVal bs 6 2), bytes := bs } } }) set c none true) := by
  have hdom : opDomain s set c = some 17 := by simp [opDomain, h.op]
  have hplan : (domUsed s 17).plan = s.plan := domUsed_field s 17 (·.plan) fun _ _ => rfl
  have hks : (domUsed s 17).ks = s.ks := domUsed_field s 17 (·.ks) fun _ _ => rfl
  show done (planLoad s set im) = _
  unfold planLoad
  rw [h.actsOn h.opIs (by rw [supOnly_sup hs]; exact if_neg (by simp [ha])) hd hl, readied_of_domain hdom]
  simp only [planReason_congr hks hplan, hplan, bne_iff_ne]
  rfl

variable (im : PlanImage) {bs : List Byte} (hs : set.val = 256) (ha : cmdAddr c % 8 = 0)
  (hd : c.data = some (.data bs)) (hl : bs.length = cmdLen c)
include hs ha hd hl

theorem planLoad_waits (hpass : planReason s bs im = 0) : Completes (exec (.planLoad set im) s) (fun t =>
    Waits s t set c none true ∧ t.plan = { s.plan with
      waiting := some { im with planId := BitVec.ofNat 16 (imgVal bs 6 2), bytes := bs } }) := by
  rw [planLoad_eq h im hs ha hd hl, if_neg (by simp [hpass])]
  have hr : SameRings s (domUsed s 17) := sameRings_domUsed s 17
  have hwaits := domUsed_field s 17 (·.hi.waits) fun _ _ => rfl
  exact completes_done ⟨h.waiting (hr.trans (.of_same rfl rfl)) hwaits _ _, rfl⟩

theorem planLoad_refuses (hfail : planReason s bs im ≠ 0) : Completes (exec (.planLoad set im) s) (fun t =>
    Ended s t set c 8 0 0 ∧ t.plan = s.plan ∧ t.f fKS_LASTREF_REASON = planReason s bs im ∧ Flagged t kKS_STAT_PLANREF) := by
  have hle := planReason_le s bs im
  have hx := planLoad_eq h im hs ha hd hl
  rw [if_pos hfail] at hx
  refine h.finished_with hx ((sameRings_domUsed s 17).trans (sameRings_planRefused _ _ _)) ⟨?_, ?_, ?_⟩
  · exact ((settle_finishCmd_field _ _ _ _ _ _ (·.plan) fun _ _ _ _ => rfl).trans (planRefused_plan _ _ _)).trans
      (domUsed_field s 17 (·.plan) fun _ _ => rfl)
  · exact (settle_finishCmd_field _ _ _ _ _ _ (·.f fKS_LASTREF_REASON) fun _ _ _ _ => rfl).trans
      (planRefused_reason _ _ (by omega))
  · exact (settle_finishCmd_field _ _ _ _ _ _ (·.f kKS_STAT_PLANREF.f) fun _ _ _ _ => rfl).trans
      (loneFlag_planref.flagged _)

end

-- KEY_LOAD (R348, R349) ----------------------------------------------------------------------------------------------------------

/-- A load changes keys only, and by the keys as they are. -/
theorem putKey_keys {s w : State} (hw : w.keys = s.keys) (pair : Nat) (bs : List Byte) :
    (putKey w pair bs).keys = (putKey s pair bs).keys := by
  unfold putKey
  dsimp only
  split <;> simp only [State.setKey, State.key, hw]

theorem sameRings_putKey (s : State) (pair : Nat) (bs : List Byte) : SameRings s (putKey s pair bs) :=
  .ite (.of_same rfl rfl) (.of_same rfl rfl)

section
variable {s : State} {set : Fin 257} {c : HCmd} (h : HostTurn s set c 0x21)
include h

theorem HostTurn.keyOp {kind : Nat} (hk : bits (cmdArg c) 28 4 = kind) : keyOp kind c = true := by
  rw [Machine.keyOp, h.opIs, hk, beq_self_eq_true]
  rfl

omit h in
/-- The supervisor's KEY_LOAD in its life cycle state, with its length, is in order while no wipe is due. -/
theorem keyBad_none {n : Nat} {lcs : List Nat} (hs : set.val = 256) (hw : s.ks.wipe = none) (hlc : s.lc ∈ lcs)
    (hn : n = 0 ∨ cmdLen c = n ∧ cmdAddr c % 8 = 0) : keyBad set n lcs s c = none := by
  unfold keyBad
  rw [supOnly_sup hs]
  refine (if_neg (by simp [hlc, hw])).trans (if_neg ?_)
  rcases hn with rfl | ⟨hl, ha⟩
  · simp
  · simp [hl, ha]

theorem HostTurn.keyReadied : readied s set c = domUsed s 17 :=
  readied_of_domain (by simp [opDomain, h.op])

/-- KEY_LOAD kind 1 is none of the kinds that are no command. -/
theorem keyLoad_hostOp (hk : bits (cmdArg c) 28 4 = 1) : keyLoad s set = hostOp s set (Machine.keyOp 1)
    (keyBad set 64 [3, 4]) (fun _ => 64) fun s c bs =>
      if blobOk bs then finishCmd (putKey s (cmdArg c % 2048) bs) set c 0 64 0 else finishCmd s set c 2 0 0 := by
  have hnone : headCmd s set (fun c => Machine.opIs 0x21 c &&
      !(Machine.keyOp 1 c || Machine.keyOp 2 c || Machine.keyOp 3 c)) = none := by
    rw [headCmd, h.starts, Option.filter_some, h.keyOp hk]
    simp
  unfold keyLoad
  dsimp only
  rw [hnone]

theorem keyLoad_rights (hk : bits (cmdArg c) 28 4 = 1) (hs : ¬set.val = 256) :
    Completes (exec (.keyLoadKey set) s) (fun t => Ended s t set c 3 0 0) := by
  have hx : keyLoad s set = finishCmd s set c 3 0 0 := (keyLoad_hostOp h hk).trans
    (h.refused (h.keyOp hk) (by rw [keyBad, supOnly_tenant hs]; rfl))
  exact (h.rejected (i := .keyLoadKey set) (congrArg done hx)).left

variable (hw : s.ks.wipe = none) (hs : set.val = 256)
include hw hs

section
variable {bs : List Byte} (hk : bits (cmdArg c) 28 4 = 1) (hlc : s.lc = 3 ∨ s.lc = 4) (hn : cmdLen c = 64)
  (ha : cmdAddr c % 8 = 0) (hd : c.data = some (.data bs)) (hl : bs.length = 64)
include hk hlc hn ha hd hl

theorem keyLoad_eq : exec (.keyLoadKey set) s = done (
    if blobOk bs then finishCmd (putKey (domUsed s 17) (cmdArg c % 2048) bs) set c 0 64 0
    else finishCmd (domUsed s 17) set c 2 0 0) := by
  have hbad : keyBad set 64 [3, 4] s c = none := keyBad_none hs hw (by simpa using hlc) (.inr ⟨hn, ha⟩)
  show done (keyLoad s set) = _
  rw [keyLoad_hostOp h hk, h.actsOn (h.keyOp hk) hbad hd hl, h.keyReadied]

theorem keyLoad_loads (hok : blobOk bs = true) : Completes (exec (.keyLoadKey set) s) (fun t =>
    Ended s t set c 0 64 0 ∧ t.keys = (putKey s (cmdArg c % 2048) bs).keys) := by
  have hx := keyLoad_eq h hw hs hk hlc hn ha hd hl
  rw [if_pos hok] at hx
  refine h.finished_with hx ((sameRings_domUsed s 17).trans (sameRings_putKey _ _ _)) ?_
  exact (settle_finishCmd_field _ _ _ _ _ _ (·.keys) fun _ _ _ _ => rfl).trans
    (putKey_keys (domUsed_field s 17 (·.keys) fun _ _ => rfl) _ _)

theorem keyLoad_refuses (hbad : blobOk bs = false) :
    Completes (exec (.keyLoadKey set) s) (fun t => Ended s t set c 2 0 0) := by
  have hx := keyLoad_eq h hw hs hk hlc hn ha hd hl
  rw [if_neg (by simp [hbad])] at hx
  exact h.finished hx (sameRings_domUsed s 17)

end

section
variable {bs : List Byte} (hk : bits (cmdArg c) 28 4 = 2) (hlc : s.lc = 2 ∨ s.lc = 4) (hn : cmdLen c = 32)
  (ha : cmdAddr c % 8 = 0) (hd : c.data = some (.data bs)) (hl : bs.length = 32)
include hk hlc hn ha hd hl

/-- The state after a hash has been fused into slot i. -/
def hashFused (s : State) (i : Nat) (bs : List Byte) : State :=
  { s with ks := { s.ks with cprog := s.ks.cprog + 2 ^ i, chash := tput s.ks.chash i (BitVec.ofNat 256 (beVal bs)) } }

theorem keyFuse_eq : exec (.keyLoadFuse set) s = done (match (List.range 4).find? (fun i => !bit s.ks.cprog i) with
    | none => finishCmd (domUsed s 17) set c 8 0 0
    | some i => finishCmd (hashFused (domUsed s 17) i bs) set c 0 32 0) := by
  have hbad : keyBad set 32 [2, 4] s c = none := keyBad_none hs hw (by simpa using hlc) (.inr ⟨hn, ha⟩)
  have hks : (domUsed s 17).ks = s.ks := domUsed_field s 17 (·.ks) fun _ _ => rfl
  show done (keyFuse s set) = _
  unfold keyFuse
  rw [h.actsOn (h.keyOp hk) hbad hd hl, h.keyReadied]
  dsimp only
  rw [hks]
  cases (List.range 4).find? (fun i => !bit s.ks.cprog i) with
  | none => rfl
  | some i =>
    dsimp only
    rw [hashFused, hks]

theorem keyFuse_fuses {i : Nat} (hfree : (List.range 4).find? (fun i => !bit s.ks.cprog i) = some i) :
    Completes (exec (.keyLoadFuse set) s) (fun t => Ended s t set c 0 32 0 ∧ t.ks.cprog = s.ks.cprog + 2 ^ i ∧
      custHashOf t i = BitVec.ofNat 256 (beVal bs)) := by
  have hks : (domUsed s 17).ks = s.ks := domUsed_field s 17 (·.ks) fun _ _ => rfl
  have hx := keyFuse_eq h hw hs hk hlc hn ha hd hl
  rw [hfree] at hx
  refine h.finished_with hx ((sameRings_domUsed s 17).trans (.of_same rfl rfl)) ⟨?_, ?_⟩
  · refine (settle_finishCmd_field _ _ _ _ _ _ (·.ks.cprog) fun _ _ _ _ => rfl).trans ?_
    show (domUsed s 17).ks.cprog + 2 ^ i = _
    rw [hks]
  · refine (settle_finishCmd_field _ _ _ _ _ _ (custHashOf · i) fun _ _ _ _ => rfl).trans ?_
    simp [custHashOf, hashFused]

theorem keyFuse_full (hfull : (List.range 4).find? (fun i => !bit s.ks.cprog i) = none) :
    Completes (exec (.keyLoadFuse set) s) (fun t => Ended s t set c 8 0 0) := by
  have hx := keyFuse_eq h hw hs hk hlc hn ha hd hl
  rw [hfull] at hx
  exact h.finished hx (sameRings_domUsed s 17)

end

section
variable (hk : bits (cmdArg c) 28 4 = 3) (hlc : s.lc = 4)
include hk hlc

/-- Another slot than i is fused and not revoked. -/
def otherSlots (s : State) (i : Nat) : Bool :=
  (List.range 4).any fun j => j != i && bit s.ks.cprog j && !bit s.ks.crev j

/-- The state after slot i has been revoked. -/
def slotRevoked (s : State) (i : Nat) : State := { s with ks := { s.ks with crev := s.ks.crev ||| 2 ^ i } }

theorem keyRevoke_eq : exec (.keyLoadRevoke set) s = done (
    if otherSlots s (cmdArg c % 4) = false then finishCmd (domUsed s 17) set c 8 0 0
    else finishCmd (slotRevoked (domUsed s 17) (cmdArg c % 4)) set c 0 0 0) := by
  have hbad : keyBad set 0 [4] s c = none := keyBad_none hs hw (by simpa using hlc) (.inl rfl)
  have hks : (domUsed s 17).ks = s.ks := domUsed_field s 17 (·.ks) fun _ _ => rfl
  show done (keyRevoke s set) = _
  unfold keyRevoke
  rw [h.acts (h.keyOp hk) hbad rfl, h.keyReadied]
  simp only [hks, Bool.not_eq_true', slotRevoked, otherSlots]

theorem keyRevoke_revokes (hother : otherSlots s (cmdArg c % 4) = true) :
    Completes (exec (.keyLoadRevoke set) s) (fun t => Ended s t set c 0 0 0 ∧
      t.ks.crev = s.ks.crev ||| 2 ^ (cmdArg c % 4)) := by
  have hks : (domUsed s 17).ks = s.ks := domUsed_field s 17 (·.ks) fun _ _ => rfl
  have hx := keyRevoke_eq h hw hs hk hlc
  rw [if_neg (by simp [hother])] at hx
  refine h.finished_with hx ((sameRings_domUsed s 17).trans (.of_same rfl rfl)) ?_
  refine (settle_finishCmd_field _ _ _ _ _ _ (·.ks.crev) fun _ _ _ _ => rfl).trans ?_
  show (domUsed s 17).ks.crev ||| _ = _
  rw [hks]

theorem keyRevoke_last (hlast : otherSlots s (cmdArg c % 4) = false) :
    Completes (exec (.keyLoadRevoke set) s) (fun t => Ended s t set c 8 0 0) := by
  have hx := keyRevoke_eq h hw hs hk hlc
  rw [if_pos hlast] at hx
  exact h.finished hx (sameRings_domUsed s 17)

end

end

-- CMD_NOP and BADOP (R332, R333) -------------------------------------------------------------------------------------------------

/-- CMD_NOP, and any value of OP that no command has, end at once. -/
theorem cmdNop_ends {s : State} {set : Fin 257} {c : HCmd} {op : Nat} (h : HostTurn s set c op)
    (hop : op = 0 ∨ op ∉ [0, 1, 2, 3, 4, 5, 6, 8, 9, 10, 0x10, 0x11, 0x12, 0x13, 0x14, 0x18, 0x20, 0x21]) :
    Completes (exec (.cmdNop set) s) (fun t => Ended s t set c (if op = 0 then 0 else 2) 0 0) := by
  have hmine : (opIs 0 c ||
      !([0, 1, 2, 3, 4, 5, 6, 8, 9, 10, 0x10, 0x11, 0x12, 0x13, 0x14, 0x18, 0x20, 0x21].contains (cmdOp c))) = true := by
    rw [opIs, h.op]
    rcases hop with rfl | hop
    · rfl
    · rw [Bool.eq_false_iff.mpr (List.contains_iff_mem.not.mpr hop), Bool.not_false, Bool.or_true]
  have hx : cmdNop s set = finishCmd s set c (if op = 0 then 0 else 2) 0 0 := by
    unfold cmdNop
    dsimp only
    rw [h.taken hmine]
    dsimp only
    rw [h.op]
  exact (h.rejected (i := .cmdNop set) (congrArg done hx)).left

-- The statement ------------------------------------------------------------------------------------------------------------------

/-- Settles O42: each command is its act on a ready state, or a refusal that is known before; what it changes lies outside
the rings, so its end or its wait shows in them. -/
theorem hostControlCommands : Obligations.HostControlCommands := by
  unfold Obligations.HostControlCommands
  intro s set c bs im
  refine ⟨fun h hm hd hl h4 hend ha => ⟨fun hown hfree => ?_, fun hs hbusy => ?_⟩,
    fun h ha hd hl => ⟨fun hs hpass => ?_, fun hs hfail => ?_, fun hs => ?_⟩,
    fun h hw => ⟨fun hk hs hlc hn ha hd hl => ⟨fun hok => ?_, fun hbad => ?_⟩,
      fun hk hs hlc hn ha hd hl => ⟨fun i hfree => ?_, fun hfull => ?_⟩,
      fun hk hs hlc => ⟨fun hother => ?_, fun hlast => ?_⟩, fun hk hs => ?_⟩,
    fun h => ?_, fun h => ?_⟩
  · exact imemWr_writes h h4 hend ha hm hd hl hown hfree
  · exact imemWr_busy h h4 hend ha hs hbusy
  · exact planLoad_waits h im hs ha hd hl hpass
  · exact planLoad_refuses h im hs ha hd hl hfail
  · exact planLoad_rights h im hs
  · exact keyLoad_loads h hw hs hk hlc hn ha hd hl hok
  · exact keyLoad_refuses h hw hs hk hlc hn ha hd hl hbad
  · exact keyFuse_fuses h hw hs hk hlc hn ha hd hl hfree
  · exact keyFuse_full h hw hs hk hlc hn ha hd hl hfull
  · exact keyRevoke_revokes h hw hs hk hlc hother
  · exact keyRevoke_last h hw hs hk hlc hlast
  · exact keyLoad_rights h hk hs
  · exact cmdNop_ends h (.inl rfl)
  · exact cmdNop_ends h (.inr (by decide))

end Sys2Proof.Machine
end
